-- ==== Sys2Proof/Word.lean ====
section
/-! DEFINITION. The word types of the block, the finite map that holds sparse data by key, and the
plainest arithmetic on them. The block's register words are 32 bits wide (R14), its memories are
addressed by bytes, and quantities that saturate or wrap do so at a width named where they are used. -/

namespace Sys2Proof

/-- A 32-bit register word (R14). -/
abbrev Word := BitVec 32

/-- One byte of an SRAM window or of a two-wire or SPI transfer. -/
abbrev Byte := BitVec 8

/-- Sparse data by key: keys strictly rising, no entry equal to the value an absent key reads as.
The operations that keep this form are in `Machine/Map.lean`. -/
abbrev NMap (α : Type) := List (Nat × α)

/-- The lower of `x` and the largest number of `w` bits: a counter or quantity that saturates. -/
def satAt (w x : Nat) : Nat := min x (2 ^ w - 1)

/-- The low `w` bits of `x`: a counter that wraps. -/
def wrapAt (w x : Nat) : Nat := x % 2 ^ w

/-- Bit `i` of `x`, as 0 or 1. -/
def bitOf (x i : Nat) : Nat := x / 2 ^ i % 2

/-- `x` with bit `i` set. -/
def setBitNat (x i : Nat) : Nat := x ||| 2 ^ i

/-- Bits `[lo + w - 1 : lo]` of `x`. -/
def bitsOf (x lo w : Nat) : Nat := x / 2 ^ lo % 2 ^ w

/-- The number of bits that are 1 among the low `w` bits of `x`. -/
def popCount (w x : Nat) : Nat := ((List.range w).filter fun i => bitOf x i = 1).length

/-- The two's-complement reading of the low `w` bits of `x`. -/
def signedOf (w x : Nat) : Int :=
  let y := x % 2 ^ w
  if y < 2 ^ (w - 1) then (y : Int) else (y : Int) - (2 ^ w : Nat)

/-- The low `w` bits that hold the two's-complement of `x`. -/
def ofSigned (w : Nat) (x : Int) : Nat := (x % ((2 ^ w : Nat) : Int)).toNat

/-- `x / y` rounded up; 0 where `y` is 0. -/
def ceilDiv (x y : Nat) : Nat := (x + (y - 1)) / y

end Sys2Proof
end

