-- ==== Sys2Proof/Syntax.lean ====
section
/-! DEFINITION. The commands of the block: one constructor of `Instr` for every row of the spec's table
of operations and events, with the values that the rule of the row needs from outside the block: the unit
that a command names, the value written, or the reading that the rule measures. Fields with a bound that
the type does not give are checked by `WellFormed.lean`. -/

namespace Sys2Proof

/-- A rail that a power instruction can name (Table 7.2). -/
inductive Rail
  | lp (n : Fin 6)
  | bk (n : Fin 6)
  | ldo (n : Fin 8)
  | sw (n : Fin 8)
  deriving DecidableEq, Repr

/-- What the engine's read of program memory found in the instruction's 128-bit word (R202): no error, a
single or double error that was corrected, or a triple error. -/
inductive Fetch
  | clean | corrected | triple
  deriving DecidableEq, Repr

/-- An instruction's place of issue: the engine that executes it, and what its fetch found. -/
structure Issue where
  eng : Fin 4
  fetch : Fetch := .clean
  deriving DecidableEq, Repr

/-- The value of a SETV (Table 7.3): from Ws, or the 12-bit immediate. -/
inductive SetvSrc
  | reg (ws : Fin 16)
  | imm (value : BitVec 12)
  deriving DecidableEq, Repr

/-- The second operand of ADD, SUB, AND, OR and CMP (Table 7.3): Wt, or the 17-bit immediate. -/
inductive AluSrc
  | reg (wt : Fin 16)
  | imm (value : BitVec 17)
  deriving DecidableEq, Repr

/-- The count of a SHR (Table 7.3): Wt, or the 5-bit immediate. -/
inductive ShrSrc
  | reg (wt : Fin 16)
  | imm (n : BitVec 5)
  deriving DecidableEq, Repr

/-- The branch conditions of Table 7.4. -/
inductive Cond
  | eq | ne | lo | hs | mi | pl | ds | dc | ts | tc | ra
  deriving DecidableEq, Repr

/-- How a phase's pulse ended (R94, R118): the comparator tripped, the comparator had tripped by the end of
TONMIN, the DMAX clamp, or truncation. -/
inductive PulseEnd
  | trip | tonMin | dmax | truncation
  deriving DecidableEq, Repr

/-- A block whose drain under R37 ends (Table 1.6). -/
inductive DrainUnit
  | rail (r : Rail)
  | engine (e : Fin 4)
  | vclPort (p : Fin 2)
  | adcSlice (s : Fin 4)
  | charger
  | hci
  /-- The controller port: the bytes that its transfer had written and acknowledged, and those it had read. -/
  | twc (wdone : BitVec 6) (data : List Byte)
  | ring
  | sup (n : Fin 64)
  deriving DecidableEq, Repr

/-- What moves VAUX or VSYS out of range (R55): VAUX below UV_FALL, VAUX above OV, VSYS below VSYS_UV, or
VAUX below UV_RISE only, which ends its qualification and no more. -/
inductive VauxCause
  | uv | ov | vsysUv | dip
  deriving DecidableEq, Repr

/-- The two FET pairs of Table 2.1. -/
inductive FetPair
  | vaux | bank
  deriving DecidableEq, Repr

/-- One test of a self-test (R316): the unit of Table 10.3, as 32 × word + bit, the test kind of Table 10.6, and
the signature that the test's responses were compressed into. -/
structure BistTest where
  unit : BitVec 8
  kind : BitVec 4
  sig : Word
  deriving DecidableEq, Repr

/-- What wakes the island from Crocus standby (R320): an address on the two-wire target port, a press of PWRBTN
held for so many ms, or the wake timer. -/
inductive WakeCause
  | address (a : BitVec 7)
  | button (held : Nat)
  | timer
  deriving DecidableEq, Repr

/-- The fields of a STATE frame (Table 9.4): cycle sequence, state, enumerated nodes, AREQ, requesting node and
requested abort state. -/
structure StateFrame where
  seq : BitVec 4
  state : BitVec 8
  count : BitVec 8
  areq : Bool
  node : BitVec 7
  target : BitVec 8
  /-- The level of MSTEP as the frame arrives. -/
  line : Bool
  deriving DecidableEq, Repr

/-- A conversion of the base slice or of a sequence that ends (R328, R331): the present entry of slice `s` with the
12-bit codes of its samples; a base-list channel with its codes; an NTC or a stage input of the base list with its
ball voltage in µV; or samples in the form of R340 that the source of the capture buffer has converted. -/
inductive AdcEntry
  | seq (s : Fin 4) (codes : List (BitVec 12))
  | base (ch : BitVec 6) (codes : List (BitVec 12))
  | ntc (k : Fin 4) (uv : Nat)
  | tmon (k : Fin 6) (uv : Nat)
  | capture (samples : List (BitVec 16))
  deriving DecidableEq, Repr

/-- How a transfer of the controller port ends (Table 16.5): complete, or a missing acknowledgement of the address
or of a written byte. -/
inductive XferEnd
  | ok | nackAddr | nackData
  deriving DecidableEq, Repr

/-- A recovery of the controller port's bus (R465): it begins, SDA is released by the ninth pulse, or SDA is still
low after it. -/
inductive Recovery
  | begins | released | stuck
  deriving DecidableEq, Repr

/-- How the controller port's bus changes (R465): another controller's START makes it busy, or it becomes free. -/
inductive BusEdge
  | started | freed
  deriving DecidableEq, Repr

/-- The transfer of the target port that a stuck bus ends (R464), with the bytes that had arrived or been sent: none,
one to the main address or one to the KT1240 window. -/
inductive Abandoned
  | idle
  | write (data : List (BitVec 8))
  | read (n : Nat)
  | ktWrite (data : List (BitVec 8))
  | ktRead (n : Nat)
  deriving DecidableEq, Repr

/-- The commands of the block: one constructor for each row of the table of operations and events.
(DESIGN CHOICE, log entry 5) -/
inductive Instr
  /-- `REGISTER_WRITE` (R14): a host write of `value` to the word at `addr`, in the byte lanes of `lanes`. -/
  | registerWrite (addr : BitVec 24) (value : Word) (lanes : BitVec 4)
  /-- `BLOCK_RESET` (R43): a keyed write of SYS_BRST with GO = 1. -/
  | blockReset (unit : BitVec 8)
  /-- `BLOCK_DRAIN_END` (R37). -/
  | blockDrainEnd (u : DrainUnit)
  /-- `POR` (R301). -/
  | por
  /-- `NRESET_ASSERT` (R524). -/
  | nresetAssert
  /-- `NRESET_RELEASE` (R522): nRESET reads high, whether the VIO and VIO_VCL balls are supplied (R514), and the level of
  TEST_EN (R527). -/
  | nresetRelease (vio vioVcl testEn : Bool)
  /-- `XREF_LOCK` (R523). -/
  | xrefLock
  /-- `XREF_LOSS` (R31). -/
  | xrefLoss
  /-- `LEDGER_UPDATE` (R254). -/
  | ledgerUpdate
  /-- `LEDGER_DEADLINE` (R258). -/
  | ledgerDeadline
  /-- `DEBIT_EXPIRY` (R264). -/
  | debitExpiry
  /-- `NRG_FREEZE` (R266): a write of NRG_CTRL.FREEZE. -/
  | nrgFreeze (freeze : Bool)
  /-- `VAUX_LOSS` (R55): VAUX leaves its range, or VSYS sags, as `cause` says; `bkb` and `vsys` are the bank
  voltage and VSYS at that moment, in mV. -/
  | vauxLoss (cause : VauxCause) (bkb vsys : Nat)
  /-- `VSYS_UV` (R55): VSYS, at `vsys` mV, has stayed there or lower for 10 µs. -/
  | vsysUv (vsys : Nat)
  /-- `VAUX_QUALIFIED` (R61). -/
  | vauxQualified
  /-- `RETURN_OVERLAP_END` (R55). -/
  | returnOverlapEnd
  /-- `PAIR_REVERSE_BLOCK` (R53) of the VAUX pair or the bank pair. -/
  | pairReverseBlock (pair : FetPair)
  /-- `PAIR_FORWARD_ON` (R53). -/
  | pairForwardOn (pair : FetPair)
  /-- `BANK_PAIR_FULL_ENHANCE` (R56). -/
  | bankPairFullEnhance
  /-- `ILIM_ACT` (R60). -/
  | ilimAct
  /-- `ILIM_END` (R60). -/
  | ilimEnd
  /-- `ILIM_SOA` (R61), with the bank voltage and VSYS in mV. -/
  | ilimSoa (bkb vsys : Nat)
  /-- `PP_APPLY` (R85): a write of PP_CTRL.APPLY. -/
  | ppApply
  /-- `PP_CLRFLT` (R61): a write of PP_CTRL.CLRFLT. -/
  | ppClrflt
  /-- `BKB_OC` (R63). -/
  | bkbOc
  /-- `BANK_LOW` (R64): the bank voltage in mV. -/
  | bankLow (bkb : Nat)
  /-- `BANK_CUTOFF` (R64): the bank voltage in mV, which has stayed there or lower for 10 ms. -/
  | bankCutoff (bkb : Nat)
  /-- `BTN_PRESS` (R79). -/
  | btnPress
  /-- `BTN_RELEASE` (R79): the press lasted `held` ms of the island's tick. -/
  | btnRelease (held : Nat)
  /-- `BTN_LONG_WARN` (R79): the press has lasted `held` ms of the island's tick. -/
  | btnLongWarn (held : Nat)
  /-- `LONG_PRESS` (R80): the press has lasted `held` ms of the island's tick. -/
  | longPress (held : Nat)
  /-- `LONG_PRESS_OPEN_END` (R530). -/
  | longPressOpenEnd
  /-- `SNOWDROP_WAKE` (R79): by a press of PWRBTN that has lasted so many ms, or by VAUX above the island's
  detector. -/
  | snowdropWake (press : Option Nat)
  /-- `SNOWDROP_ENTER` (R81): a write of PP_SNOW with its key and ENTER = 1. -/
  | snowdropEnter
  /-- `SHUTDOWN_TIMEOUT` (R315). -/
  | shutdownTimeout
  /-- `CHG_ENABLE` (R68): a write of 1 to CHG_CTRL.EN. -/
  | chgEnable
  /-- `CHG_DISABLE` (R69): a write of 0 to CHG_CTRL.EN. -/
  | chgDisable
  /-- `PROBE_START` (R75). -/
  | probeStart
  /-- `PROBE_END` (R75): the bank's voltage at the start, and its drop over 20 ms, in mV. -/
  | probeEnd (start drop : Nat)
  /-- `PRECHARGE_EXIT` (R69): the lowest bank voltage of the last 1 s, in mV. -/
  | prechargeExit (bkb : Nat)
  /-- `BANK_SHORT_DETECT` (R69), with the bank voltage in mV. -/
  | bankShortDetect (bkb : Nat)
  /-- `CHG_CV_ENTRY` (R69), with the bank voltage in mV. -/
  | chgCvEntry (bkb : Nat)
  /-- `CHG_TERMINATION` (R69): the highest charge current of the last 60 s, in mA. -/
  | chgTermination (current : Nat)
  /-- `TOPOFF_END` (R69). -/
  | topoffEnd
  /-- `RECHARGE_START` (R69), with the bank voltage in mV. -/
  | rechargeStart (bkb : Nat)
  /-- `BANK_REMOVAL` (R77): the bank voltage in mV, its rise over 200 µs in µV, and the highest charge current of
  100 µs in mA. -/
  | bankRemoval (bkb rise current : Nat)
  /-- `SAFETY_TIMER_TICK` (R73): the current averaged over the second, and the CV loop's demand, in mA. -/
  | safetyTimerTick (actual cv : Nat)
  /-- `CHG_TIMEOUT` (R74). -/
  | chgTimeout
  /-- `CHG_HOST_SUSPEND` (R70): a write of CHG_CTRL.SUSPEND. -/
  | chgHostSuspend (on : Bool)
  /-- `CHG_CLRFLT` (R69): a write of CHG_CTRL.CLRFLT. -/
  | chgClrflt
  /-- `CHG_TARGET_RECOMPUTE` (R72): the measured VAUX current and charger input current in mA, VSYS and the
  bank voltage in mV, and the CV loop's demand in mA. -/
  | chgTargetRecompute (iVaux iChgIn vsys vBank cv : Nat)
  /-- `CHG_OV` (R83), with the bank voltage in mV. -/
  | chgOv (bkb : Nat)
  /-- `CHG_DEADLINE` (R83). -/
  | chgDeadline
  /-- `RAILON_VERDICT` (R209): the enable check of `rail` ends. `vin` is the input it measured, in mV;
  `start` the measured output from which the rail starts, in µV at the sense pins. -/
  | railonVerdict (rail : Rail) (vin start : Nat)
  /-- `LOOP_SWITCHING_START` (R108). -/
  | loopSwitchingStart (n : Fin 6)
  /-- `LOOP_RAMP_END` (R108). -/
  | loopRampEnd (n : Fin 6)
  /-- `LOOP_PERIOD_START` (R92): the voltage at the sense pins, in µV. -/
  | loopPeriodStart (n : Fin 6) (vsns : Int)
  /-- `COMP_DEADLINE` (R93). -/
  | compDeadline (n : Fin 6)
  /-- `PHASE_TURN_ON` (R94). -/
  | phaseTurnOn (k : Fin 20)
  /-- `PHASE_TURN_OFF` (R94): the stage's sense voltage 20 ns after turn-on and at turn-off, in µV, the on-time in
  156.25 ps units, and what ended the pulse. -/
  | phaseTurnOff (k : Fin 20) (vOn vOff : Int) (ton : Nat) (ended : PulseEnd)
  /-- `NEGATIVE_CURRENT_LIMIT` (R96): the stage's sense voltage in µV. -/
  | negativeCurrentLimit (k : Fin 20) (v : Int)
  /-- `OST_START` (R115): the voltage at the sense pins, in µV, as it crosses a level. -/
  | ostStart (n : Fin 6) (vsns : Int)
  /-- `OST_RELEASE` (R115): the voltage at the sense pins, in µV, as it falls below VREF + REL. -/
  | ostRelease (n : Fin 6) (vsns : Int)
  /-- `OST_TIMEOUT` (R117). -/
  | ostTimeout (n : Fin 6)
  /-- `LOOP_ESTIMATE_WINDOW` (R125). -/
  | loopEstimateWindow (n : Fin 6)
  /-- `VCL_SETV` (R144): a SETV frame on port `p` with its RACK bit, TAG, VID and slew. -/
  | vclSetv (p : Fin 2) (rack : Bool) (tag : BitVec 2) (vid : BitVec 12) (slew : BitVec 9)
  /-- `VCL_SETSLEW` (R140); `unused` holds the ARG bits that Table 4.4 leaves unused. -/
  | vclSetslew (p : Fin 2) (rack : Bool) (tag : BitVec 2) (slew : BitVec 9) (unused : BitVec 12)
  /-- `VCL_PSTATE` (R139). -/
  | vclPstate (p : Fin 2) (rack : Bool) (tag : BitVec 2) (q : Fin 4) (unused : BitVec 19)
  /-- `VCL_GETV` (R142), with `vsns` µV at the sense pins of the bound loop. -/
  | vclGetv (p : Fin 2) (rack : Bool) (tag : BitVec 2) (unused : BitVec 21) (vsns : Int)
  /-- `VCL_GETI` (R142). -/
  | vclGeti (p : Fin 2) (rack : Bool) (tag : BitVec 2) (unused : BitVec 21)
  /-- `VCL_BAD_CMD` (R138): a frame whose CMD is reserved. -/
  | vclBadCmd (p : Fin 2) (rack : Bool) (tag : BitVec 2)
  /-- `VCL_CRC_ERROR` (R137). -/
  | vclCrcError (p : Fin 2)
  /-- `VCL_STALL` (R134): VCLK stalls before rising edge 33, or later (`late`). -/
  | vclStall (p : Fin 2) (late : Bool)
  /-- `VCL_DEADLINE` (R149). -/
  | vclDeadline (p : Fin 2)
  /-- `VCL_PORT_ENABLE` (R130): a write of 1 to EN. -/
  | vclPortEnable (p : Fin 2)
  /-- `VCL_PORT_DISABLE` (R153): a write of 0 to EN. -/
  | vclPortDisable (p : Fin 2)
  /-- `VCL_HOLD` (R154): a write of HOLD. -/
  | vclHold (p : Fin 2) (hold : Bool)
  /-- `OUTPUT_START_END` (R159), of a BK, LDO or SW. -/
  | outputStartEnd (rail : Rail)
  /-- `BK_ILIM` (R163). -/
  | bkIlim (n : Fin 6)
  /-- `LDO_SW_ILIM` (R163), of an LDO or SW. -/
  | ldoSwIlim (rail : Rail)
  /-- `OUTPUT_SHORT` (R164), of a BK, LDO or SW. -/
  | outputShort (rail : Rail)
  /-- `OUTPUT_CLRFLT` (R164): a write of CLRFLT of a BK, LDO or SW. -/
  | outputClrflt (rail : Rail)
  /-- `BK_VIN_UV` (R165). -/
  | bkVinUv (n : Fin 6)
  /-- `BK_VIN_RESTORE` (R165), with the output measured at `start` µV. -/
  | bkVinRestore (n : Fin 6) (start : Nat)
  /-- `DISCHARGE_END` (R166), of a BK, LDO or SW. -/
  | dischargeEnd (rail : Rail)
  /-- `RESET_DISCHARGE_END` (R167), with the outputs measured in µV, by rail code. -/
  | resetDischargeEnd (measured : List Nat)
  /-- `VDRV_UV` (R168). -/
  | vdrvUv
  /-- `VDRV_HICCUP` (R168). -/
  | vdrvHiccup
  /-- `VDRV_RESTART` (R168). -/
  | vdrvRestart
  /-- `SUP_SAMPLE` (R180): channel `n` samples an input of `uv` µV. -/
  | supSample (n : Fin 64) (uv : Nat)
  /-- `SUP_SETTLE_END` (R183). -/
  | supSettleEnd (n : Fin 64)
  /-- `SUP_TRACK_REFRESH` (R176). -/
  | supTrackRefresh (n : Fin 64)
  /-- `SUP_ENABLE` (R188): a write of 1 to SUP_CFGn.EN. -/
  | supEnable (n : Fin 64)
  /-- `SUP_DISABLE` (R190): a write of 0 to SUP_CFGn.EN. -/
  | supDisable (n : Fin 64)
  /-- `SUP_SELF_CHECK` (R192): whether the checked channel passed, and the mask of FREE phases whose
  comparator failed (R196). -/
  | supSelfCheck (pass : Bool) (freeFail : BitVec 20)
  /-- `CMP_SELF_CHECK` (R195): whether the comparator of ACTIVE phase `k` reversed. -/
  | cmpSelfCheck (k : Fin 20) (pass : Bool)
  /-- `RAILON` (R209). -/
  | railon (i : Issue) (rail : Rail) (wd : Fin 16)
  /-- `RAILON_AFTER_DRAIN` (R209): the drain that engine `e`'s RAILON waits for has ended. -/
  | railonAfterDrain (e : Fin 4)
  /-- `RAILOFF` (R210). -/
  | railoff (i : Issue) (rail : Rail)
  /-- `SETV` (R211). -/
  | setv (i : Issue) (rail : Rail) (src : SetvSrc) (wd : Fin 16)
  /-- `SETSLEW` (R213). -/
  | setslew (i : Issue) (rail : Rail) (slew : BitVec 9) (wd : Fin 16)
  /-- `PHASES` (R213). -/
  | phases (i : Issue) (rail : Rail) (ws wd : Fin 16)
  /-- `WAITPG` (R214). -/
  | waitpg (i : Issue) (ch : Fin 64) (deadline : BitVec 16)
  /-- `WAITT` (R215). -/
  | waitt (i : Issue) (duration : BitVec 16) (slack : BitVec 8)
  /-- `WAITT_READY` (R215): the duration of task `t` of engine `e` ends. -/
  | waittReady (e : Fin 4) (t : Fin 16)
  /-- `WAITEV` (R216). -/
  | waitev (i : Issue) (src : BitVec 9) (l : Bool) (deadline : BitVec 16)
  /-- `WAITSTEP` (R217). -/
  | waitstep (i : Issue) (n : BitVec 8) (deadline : BitVec 16)
  /-- `WAIT_DEADLINE` (R218): the deadline of the wait of task `t` of engine `e` expires. -/
  | waitDeadline (e : Fin 4) (t : Fin 16)
  /-- `CLAIM` (R220). -/
  | claim (i : Issue) (id : Fin 64) (deadline : BitVec 16)
  /-- `CLAIM_DEADLINE` (R221): the deadline of the pending CLAIM of task `t` of engine `e` passes. -/
  | claimDeadline (e : Fin 4) (t : Fin 16)
  /-- `RELEASE` (R222). -/
  | release (i : Issue) (id : Fin 64)
  /-- `RECLAIM` (R223). -/
  | reclaim (i : Issue) (id : Fin 64) (ws : Fin 16)
  /-- `STEP` (R226) with A = 0. -/
  | step (i : Issue) (n : BitVec 8)
  /-- `STEP_ABORT` (R293): STEP with A = 1. -/
  | stepAbort (i : Issue) (n : BitVec 8)
  /-- `RDADC` (R227) with U = 0. -/
  | rdadc (i : Issue) (wd : Fin 16) (ch : BitVec 7)
  /-- `RDADC_URGENT` (R227): RDADC with U = 1. -/
  | rdadcUrgent (i : Issue) (wd : Fin 16) (ch : BitVec 7)
  /-- `RDSUP` (R228). -/
  | rdsup (i : Issue) (wd : Fin 16) (ch : Fin 64)
  /-- `MOV_REG` (R229). -/
  | movReg (i : Issue) (wd ws : Fin 16)
  /-- `MOV_IMM` (R229). -/
  | movImm (i : Issue) (wd : Fin 16) (imm : BitVec 22)
  /-- `MOV_CONST` (R207). -/
  | movConst (i : Issue) (wd : Fin 16) (k : BitVec 13) (read : Fetch)
  /-- `ADD` (R229). -/
  | add (i : Issue) (wd ws : Fin 16) (src : AluSrc)
  /-- `SUB` (R229). -/
  | sub (i : Issue) (wd ws : Fin 16) (src : AluSrc)
  /-- `AND` (R229). -/
  | and (i : Issue) (wd ws : Fin 16) (src : AluSrc)
  /-- `OR` (R229). -/
  | or (i : Issue) (wd ws : Fin 16) (src : AluSrc)
  /-- `CMP` (R229). -/
  | cmp (i : Issue) (ws : Fin 16) (src : AluSrc)
  /-- `SHR` (R229). -/
  | shr (i : Issue) (wd ws : Fin 16) (src : ShrSrc)
  /-- `JMP` (R206). -/
  | jmp (i : Issue) (target : BitVec 13)
  /-- `BCC` (R207). -/
  | bcc (i : Issue) (cond : Cond) (target : BitVec 13)
  /-- `CALL` (R230). -/
  | call (i : Issue) (target : BitVec 13)
  /-- `RET` (R230). -/
  | ret (i : Issue)
  /-- `TASK` (R231). -/
  | task (i : Issue) (t : Fin 16) (prio cls : BitVec 3) (entry : BitVec 13)
  /-- `YIELD` (R234). -/
  | yield (i : Issue)
  /-- `ENGINE_IDLE_WAKE` (R234). -/
  | engineIdleWake (e : Fin 4)
  /-- `RUN_DEADLINE` (R235): the running task of engine `e` has run longer than RUNMAX. -/
  | runDeadline (e : Fin 4)
  /-- `RAISE` (R232). -/
  | raise (i : Issue) (code : BitVec 8)
  /-- `LOG` (R232). -/
  | log (i : Issue) (code : BitVec 8) (ws : Fin 16)
  /-- `SNAP` (R232). -/
  | snap (i : Issue) (code : BitVec 8)
  /-- `RAISE_POP` (R232): a write of CAM_En_RAISE.POP. -/
  | raisePop (e : Fin 4)
  /-- `CAM_ENABLE` (R247): a write of 1 to CAM_En_CTRL.EN. -/
  | camEnable (e : Fin 4)
  /-- `CAM_DISABLE` (R531): a write of 0 to CAM_En_CTRL.EN. -/
  | camDisable (e : Fin 4)
  /-- `ROM_RAIL_OFF_STEP` (R242). -/
  | romRailOffStep
  /-- `RING_ENABLE` (R289): a write of 1 to MNG_CTRL.EN. -/
  | ringEnable
  /-- `RING_INSERT` (R289). -/
  | ringInsert
  /-- `RING_MASTER_START` (R289): whether it follows a master loss (R290). -/
  | ringMasterStart (afterLoss : Bool)
  /-- `RING_LEAVE` (R291): a write of 0 to MNG_CTRL.EN. -/
  | ringLeave
  /-- `MSTEP_ADVANCE` (R282): a rising edge of MSTEP that stays high for 10 TREF periods. -/
  | mstepAdvance
  /-- `HOLD_RETAKE` (R283). -/
  | holdRetake
  /-- `RING_CYCLE` (R288). -/
  | ringCycle
  /-- `RING_STATE_FRAME` (R294): an intact STATE frame arrives. -/
  | ringStateFrame (f : StateFrame)
  /-- `RING_ENUM_FRAME` (R290): an ENUM frame with its offered address, TAKEN and CLR. -/
  | ringEnumFrame (offered : BitVec 7) (taken clr : Bool)
  /-- `RING_ENUM_RETURN` (R290): the master's ENUM with this offered address and CLR returns, with TAKEN. -/
  | ringEnumReturn (offered : BitVec 7) (taken clr : Bool)
  /-- `ABORT_HOLD_WAIT_END` (R293). -/
  | abortHoldWaitEnd
  /-- `RING_ABORT_FRAME` (R293): an ABORT frame with its target state, requesting node and sequence; at the
  master, its own ABORT returns. -/
  | ringAbortFrame (target : BitVec 8) (node : BitVec 7) (seq : BitVec 4)
  /-- `RING_POLL_FRAME` (R287): a POLL frame for holders or presence, its group and its bits. -/
  | ringPollFrame (holders : Bool) (group : BitVec 2) (bits : Word)
  /-- `RING_POLL_RETURN` (R291): the master's POLL returns. -/
  | ringPollReturn (holders : Bool) (group : BitVec 2) (bits : Word)
  /-- `RING_NODE_LOST_FRAME` (R291). -/
  | ringNodeLostFrame (addr : BitVec 7)
  /-- `RING_ISOLATE_FRAME` (R295). -/
  | ringIsolateFrame (addr : BitVec 7)
  /-- `RING_FRAME_CRC_ERROR` (R287): a frame with the content bits [55:16] `body` and a bad CRC. -/
  | ringFrameCrcError (body : BitVec 40)
  /-- `RING_FRAME_RESEND` (R289). -/
  | ringFrameResend
  /-- `RING_SILENT` (R297). -/
  | ringSilent
  /-- `RING_OPEN` (R297). -/
  | ringOpen
  /-- `MSTEP_DEADLINE` (R285), with the level of MSTEP. -/
  | mstepDeadline (line : Bool)
  /-- `MSTEP_STUCK` (R296), with the level of MSTEP. -/
  | mstepStuck (line : Bool)
  /-- `MNG_CMD_ABORT` (R293): MNG_CMD with OP 1. -/
  | mngCmdAbort (arg : BitVec 8)
  /-- `MNG_CMD_ISOLATE` (R295): MNG_CMD with OP 2. -/
  | mngCmdIsolate (arg : BitVec 8)
  /-- `MNG_CMD_POLL` (R295): MNG_CMD with OP 3. -/
  | mngCmdPoll
  /-- `PHASE_WAIT_END` (R303), with the bank voltage in mV. -/
  | phaseWaitEnd (bkb : Nat)
  /-- `PHASE_SUPPLY_END` (R303), and whether the VIO and VIO_VCL balls are supplied (R514). -/
  | phaseSupplyEnd (vio vioVcl : Bool)
  /-- `PHASE_ROM_END` (R307): whether the ROM CRC matched. -/
  | phaseRomEnd (crcOk : Bool)
  /-- `PHASE_BIST_END` (R308): the tests of the full self-test. -/
  | phaseBistEnd (tests : List BistTest)
  /-- `PHASE_OTP_END` (R306): whether K0's own conversions allow program operations (R490). -/
  | phaseOtpEnd (progOk : Bool)
  /-- `PHASE_LEVEL_END` (R309). -/
  | phaseLevelEnd
  /-- `PHASE_BRINGUP_END` (R303). -/
  | phaseBringupEnd
  /-- `SYS_SHUTDOWN` (R311): a keyed write of SYS_CTRL.OP = 1. -/
  | sysShutdown
  /-- `SYS_ORDERLY` (R311): OP = 2. -/
  | sysOrderly
  /-- `SYS_IMMEDIATE` (R530): OP = 3. -/
  | sysImmediate
  /-- `SYS_RESTART` (R322): OP = 4. -/
  | sysRestart
  /-- `SYS_STANDBY` (R320): OP = 5. -/
  | sysStandby
  /-- `STANDBY_WAKE` (R320): what wakes the island, after `ticks` periods of 125 µs by the 8 kHz tick. -/
  | standbyWake (cause : WakeCause) (ticks : Nat)
  /-- `PD_TMAX` (R312). -/
  | pdTmax
  /-- `PD_ENGINES_DRAINED` (R312). -/
  | pdEnginesDrained
  /-- `PD_DISCHARGE_WAIT_END` (R314): the mask over rail codes of the outputs not below 100 mV. -/
  | pdDischargeWaitEnd (above : Word)
  /-- `SHUTDOWN_BIST_DONE` (R307): the tests of the shutdown self-test. -/
  | shutdownBistDone (tests : List BistTest)
  /-- `ADC_SLICE_ENABLE` (R329): a write of 1 to ADC_SLs_CTRL.EN. -/
  | adcSliceEnable (s : Fin 4)
  /-- `ADC_SLICE_DISABLE` (R330). -/
  | adcSliceDisable (s : Fin 4)
  /-- `ADC_ENTRY_DONE` (R328). -/
  | adcEntryDone (e : AdcEntry)
  /-- `ADC_SEQ_PERIOD` (R327). -/
  | adcSeqPeriod (s : Fin 4)
  /-- `HK_ROUND_START` (R332): the integrators' means since the last completion, for a round that completes in the
  handshake that starts it. -/
  | hkRoundStart (iVaux iBank iChgIn : BitVec 16)
  /-- `HK_ROUND_COMPLETE` (R332): the integrators' means since the last completion. -/
  | hkRoundComplete (iVaux iBank iChgIn : BitVec 16)
  /-- `HK_DEADLINE` (R333). -/
  | hkDeadline
  /-- `URGENT_CONVERSION_DONE` (R335): the scaled value. -/
  | urgentConversionDone (reading : BitVec 16)
  /-- `ADC_BURST_GO` (R338): a write of ADC_BURST.GO. -/
  | adcBurstGo
  /-- `BURST_END` (R338, R339): whether the residual mismatch is estimated below −80 dBFS, and whether a
  correction reaches its range limit. -/
  | burstEnd (converged limit : Bool)
  /-- `CAPTURE_ENABLE` (R340): a write of 1 to ADC_CAP.EN. -/
  | captureEnable
  /-- `ADC_CTRL_SNAP` (R341). -/
  | adcCtrlSnap
  /-- `SNAPSHOT_FREEZE` (R341, R343): the last samples of the fill, oldest first. -/
  | snapshotFreeze (samples : List (BitVec 16))
  /-- `SNAPSHOT_DIGEST_DONE` (R344). -/
  | snapshotDigestDone
  /-- `SNAPSHOT_RELEASE` (R342): a write of ADC_CTRL.SNAPREL. -/
  | snapshotRelease
  /-- `ADC_CLRCNT` (R337). -/
  | adcClrcnt
  /-- `MISM_CLR` (R339). -/
  | mismClr
  /-- `WEAR_DAY` (R348). -/
  | wearDay
  /-- `INJECTION_DUE` (R354). -/
  | injectionDue
  /-- `INJECTION_START` (R354). -/
  | injectionStart
  /-- `INJECTION_DONE` (R354): the samples of the fit, four in each TREF period from the end of the first raised period
  to the end of the injection; and what `BURST_END` carries of the interleave corrections (R339). -/
  | injectionDone (codes : List (BitVec 12)) (converged limit : Bool)
  /-- `INJ_ABORT` (R354): the conditions have not been met for 1 h. -/
  | injAbort
  /-- `BANK_REST` (R352): the bank voltage in mV at the end of the rest. -/
  | bankRest (bkb : Nat)
  /-- `AGEING_COUNT` (R357): the counts of the stressed and of the unstressed oscillator over 1 ms. -/
  | ageingCount (stressed unstressed : Nat)
  /-- `THERMAL_SHUTDOWN` (R368): the comparator of die sensor `n` trips. -/
  | thermalShutdown (n : Fin 8)
  /-- `RECORD_CLOSE` (R384). -/
  | recordClose
  /-- `KEEPER_HANG` (R390). -/
  | keeperHang
  /-- `FLT_STATUS_CLEAR` (R380): a write of `bits` to FLT_STATUSq. -/
  | fltStatusClear (q : Fin 2) (bits : Word)
  /-- `ALIVE_RESUME` (R392). -/
  | aliveResume
  /-- `FLT_MARKREAD` (R388). -/
  | fltMarkread
  /-- `TEST_ENTRY` (R396): a write of FLT_TEST.ENTER. -/
  | testEntry
  /-- `FAULT_INJECTION` (R398): a write of FLT_INJ with GO = 1. -/
  | faultInjection (line : BitVec 6) (cls : BitVec 2)
  /-- `SYS_TIME_LO_READ` (R32). -/
  | sysTimeLoRead
  /-- `ID_SERIAL_LO_READ` (R506). -/
  | idSerialLoRead
  /-- `ADC_URGREQ_READ` (R337). -/
  | adcUrgreqRead
  /-- `FLT_HWR_READ` (R388). -/
  | fltHwrRead
  /-- `FLT_LWR_READ` (R388). -/
  | fltLwrRead
  /-- `FLT_REC0_READ` (R388). -/
  | fltRec0Read
  /-- `HCI_CREDIT0_READ` (R424). -/
  | hciCredit0Read
  /-- `KT_CH_H_READ` (R470): a read transfer of `n` bytes from the KT1240 window's pointer that reads CHk_H. -/
  | ktChHRead (n : Nat)
  /-- `INTC_REQUEST_CHANGE` (R405): the request line of source `src` reaches the controller. -/
  | intcRequestChange (src : BitVec 9)
  /-- `INTC_CLAIM` (R409): a read of INTC_Tt_CLAIM by target `t`. -/
  | intcClaim (t : Fin 8)
  /-- `INTC_COMPLETE` (R410): a write of `id` to INTC_Tt_COMPLETE by target `t`. -/
  | intcComplete (t : Fin 8) (id : BitVec 9)
  /-- `INTC_DBELL_SET` (R413). -/
  | intcDbellSet
  /-- `INTC_DBELL_CLR` (R413). -/
  | intcDbellClr
  /-- `SPI_WRITE` (R419): the opcode byte, 0x02 for WRITE, and the whole bytes that the host sends after the
  address. -/
  | spiWrite (op : BitVec 8) (addr : BitVec 24) (data : List Byte)
  /-- `SPI_READ` (R418): the opcode byte, 0x03 for READ; `n` bytes are read after the turnaround byte. -/
  | spiRead (op : BitVec 8) (addr : BitVec 24) (n : Nat)
  /-- `HCI_DOORBELL` (R425): a write of HCI_DB. -/
  | hciDoorbell (queue : BitVec 2) (slot : BitVec 8)
  /-- `HCI_CQ_HEAD_WRITE` (R432). -/
  | hciCqHeadWrite (head : BitVec 9)
  /-- `COMMAND_START` (R426): lane 0 is K0 and lane 1 is K1. -/
  | commandStart (lane : Fin 2)
  /-- `COMMAND_COMPLETE` (R431) of the command in slot `k`. -/
  | commandComplete (k : BitVec 8)
  /-- `MODERATION_TIMER` (R444). -/
  | moderationTimer
  /-- `CMD_DEADLINE` (R435) of the command in slot `k`. -/
  | cmdDeadline (k : BitVec 8)
  /-- `HCI_ENABLE` (R441): a write of 1 to HCI_CTRL.EN. -/
  | hciEnable
  /-- `HCI_DISABLE` (R441): a write of 0 to EN. -/
  | hciDisable
  /-- `NOP` (R434), in slot `k`. -/
  | nop (k : BitVec 8)
  /-- `GET_INFO` (R434). -/
  | getInfo (k : BitVec 8)
  /-- `DOORBELL` (R434). -/
  | doorbell (k : BitVec 8)
  /-- `CANCEL` (R440). -/
  | cancel (k : BitVec 8)
  /-- `IMG_LOAD` (R248). -/
  | imgLoad (k : BitVec 8)
  /-- `ADC_CONVERT` (R335). -/
  | adcConvert (k : BitVec 8)
  /-- `SNAPSHOT_CMD_TRIGGER` (R341). -/
  | snapshotCmdTrigger (k : BitVec 8)
  /-- `SNAPSHOT_CMD_RELEASE` (R342). -/
  | snapshotCmdRelease (k : BitVec 8)
  /-- `ATTEST` (R437). -/
  | attest (k : BitVec 8)
  /-- `GET_CERT` (R502). -/
  | getCert (k : BitVec 8)
  /-- `WEAR_EXPORT` (R439). -/
  | wearExport (k : BitVec 8)
  /-- `WEAR_IMPORT` (R349). -/
  | wearImport (k : BitVec 8)
  /-- `OTP_READ` (R497). -/
  | otpRead (k : BitVec 8)
  /-- `OTP_COMMIT` (R495). -/
  | otpCommit (k : BitVec 8)
  /-- `OTP_WORD_PROGRAM_DONE` (R491): whether the word verified, and the fuses that strict margin reads 0. -/
  | otpWordProgramDone (ok : Bool) (weak : BitVec 148)
  /-- `RAW_PROGRAM_WORD` (R498): a write of OTP_RAW_CTRL with OP 1. -/
  | rawProgramWord
  /-- `RAW_VOID_WORD` (R498): OP 2. -/
  | rawVoidWord
  /-- `RAW_BLOW_LOCK` (R498): OP 3. -/
  | rawBlowLock
  /-- `KEYGEN` (R501): OP 4. -/
  | keygen
  /-- `TWT_WRITE` (R453): the bytes after the address byte of a write transfer to the main address, and whether a
  repeated START ends it. -/
  | twtWrite (data : List Byte) (restart : Bool)
  /-- `TWT_READ` (R457): `n` bytes are read from the pointer. -/
  | twtRead (n : Nat)
  /-- `TWT_STUCK` (R464): what had passed of the transfer under way. -/
  | twtStuck (t : Abandoned)
  /-- `KT_WINDOW_WRITE` (R471): the bytes after the address byte of a write transfer to the KT1240 window. -/
  | ktWindowWrite (data : List Byte) (restart : Bool)
  /-- `TWC_ENABLE` (R466): a write of 1 to TWC_CTRL.EN. -/
  | twcEnable
  /-- `TWC_DISABLE` (R466). -/
  | twcDisable
  /-- `TWC_TRANSFER` (R467): a write of 1 to TWC_XFER.GO. -/
  | twcTransfer
  /-- `TWC_TRANSFER_END` (R467): how the host's transfer ends, the bytes written and acknowledged, and the bytes
  read. -/
  | twcTransferEnd (e : XferEnd) (wdone : BitVec 6) (data : List Byte)
  /-- `TWC_ARB_LOST` (R468): the bytes written and acknowledged, and the bytes read, until then. -/
  | twcArbLost (wdone : BitVec 6) (data : List Byte)
  /-- `TWC_BUS_FREE` (R465): another controller's START makes the bus busy, or the bus becomes free. -/
  | twcBusFree (e : BusEdge)
  /-- `TWC_BUS_RECOVER` (R465): the recovery begins, or SDA was released by the ninth pulse, or was not. -/
  | twcBusRecover (r : Recovery)
  /-- `TWC_SCL_TIMEOUT` (R465): the bytes written and acknowledged, and the bytes read, until then. -/
  | twcSclTimeout (wdone : BitVec 6) (data : List Byte)
  /-- `TWC_POLL_ENTRY_END` (R469): how the entry's transfer ends, and the bytes read. -/
  | twcPollEntryEnd (e : XferEnd) (data : List Byte)
  /-- `POR_RELEASE` (R302): the levels of the address straps, whether VAUX is above 8.6 V, whether the VIO and VIO_VCL
  balls are supplied (R514), and the level of TEST_EN (R527). -/
  | porRelease (straps : BitVec 4) (vaux vio vioVcl testEn : Bool)
  /-- `VAUX_RISE` (R55): VAUX enters the range from UV_RISE to OV. -/
  | vauxRise
  /-- `VDRV_POWER_GOOD` (R168): VDRV reaches 4.5 V, or falls below it (`good` false). -/
  | vdrvPowerGood (good : Bool)
  /-- `VDRV_ILIM` (R168): VDRV enters its current limit, or leaves it (`active` false). -/
  | vdrvIlim (active : Bool)
  /-- `AON18_ILIM` (R169): AON18 enters its current limit, or leaves it (`active` false). -/
  | aon18Ilim (active : Bool)
  /-- `BK_ILIM_END` (R163). -/
  | bkIlimEnd (n : Fin 6)
  /-- `LDO_SW_ILIM_END` (R163), of an LDO or SW. -/
  | ldoSwIlimEnd (rail : Rail)
  deriving DecidableEq, Repr

end Sys2Proof
end

