-- ==== Sys2Proof/Decode.lean ====
section
/-! DEFINITION. The commands that a word spells. The table of operations and events gives no row any bits, so no
word spells a command. -/

namespace Sys2Proof

/-- The command that the `nbits` bits `w` spell: none, since no row of the table has an encoding. -/
def decodeTableWord (_nbits _w : Nat) : Option Instr := none

end Sys2Proof
end

