-- ==== Sys2Proof/Machine/State.lean ====
section
/-! DEFINITION. The state of the block as plain data: every register field the spec gives (in `regs`,
keyed by its bit address), the state the chapters give it beside the registers, the levels of its pins
and supplies that a later rule needs, and the queue of waiting commands. -/

namespace Sys2Proof.Machine

/-- The access codes of Table 0.6 (R14). -/
inductive Access
  | ro | rw | rwe | rwl | w1c | w1s | sc
  deriving DecidableEq, Repr

/-- One field of a register: the word's address, the place and width of the field, its access code, its
reset value, and whether the reset value is marked (POR) (R19). -/
structure Field where
  addr : Nat
  lsb : Nat
  width : Nat
  acc : Access
  reset : Nat
  por : Bool
  deriving DecidableEq, Repr

/-- The bit address of a field, its key in the register store. -/
def Field.key (f : Field) : Nat := f.addr * 8 + f.lsb

/-- The classes of an event (R375). -/
inductive Cls
  | notice | warning | fault | critical
  deriving DecidableEq, Repr

/-- The supplies and strap pins that rules of several chapters read (R24, R301, R396). -/
structure Supply where
  /-- POR has been released (R302). -/
  released : Bool := false
  /-- The internal VSYS rails are up (R24). -/
  rails : Bool := false
  /-- VAUX is above the 8.6 V detector of the Crocus island (Table 2.9). -/
  vauxDet : Bool := false
  /-- The level that TEST_EN is driven to (R396), which it reads while VIO is supplied, and whether the VIO and VIO_VCL
  balls are supplied (R514). -/
  testEn : Bool := false
  vio : Bool := true
  vioVcl : Bool := true
  /-- nRESET is held low (R524). -/
  nreset : Bool := false
  /-- The levels of the two-wire address straps (R451), as sampled at the release of POR. -/
  straps : Nat := 0
  /-- TREF is locked to XREF (R30). -/
  xref : Bool := false
  deriving DecidableEq, Repr

/-- The active values of the five staged power-path registers (R85); their reset values are those of the
registers. -/
structure PpActive where
  ov : Nat := 0xF8
  uvRise : Nat := 0x24
  uvFall : Nat := 0x22
  vsysUv : Nat := 0x1C
  shunt : Nat := 0x7D0
  ilim : Nat := 0x320
  auxQual : Nat := 0x64
  soaT : Nat := 0x0A
  oc : Nat := 0x96
  plim : Nat := 0x2EE0
  deriving DecidableEq, Repr

/-- A FET pair: open, blocking under R53, conducting in current-limited mode (R56), or enhanced. -/
inductive Pair
  | off | blocking | limited | on
  deriving DecidableEq, Repr

/-- What the device does while the power path is in OFF: it starts up or runs nothing else (`start`), it
waits in Snowdrop or for a wake after the release of POR or a power loss (`snowdrop`), both pairs are open
for a long press (`opening`), or it is in Crocus standby (`standby`). -/
inductive OffMode
  | start | snowdrop | opening | standby
  deriving DecidableEq, Repr

/-- The power path's state beside its registers (chapter 2). -/
structure Path where
  act : PpActive := {}
  pairA : Pair := .off
  pairB : Pair := .off
  off : OffMode := .start
  /-- BANK_EN as it acts: a change in BANK or SHUTDOWN waits for the next entry to AUX (Table 2.13). -/
  bankEn : Bool := true
  /-- The bank voltage as last measured, in mV. -/
  bkb : Nat := 0
  /-- VAUX has been in range without interruption since this device time (R61). -/
  rangeSince : Option Nat := none
  /-- VAUX has been in range for AUX_QUAL. -/
  qualified : Bool := false
  /-- VAUX has left its range above OV, and not below UV_RISE since (R530). -/
  aboveOv : Bool := false
  /-- The VAUX pair has regulated since this device time (R61). -/
  soaSince : Option Nat := none
  /-- Device times of ILIM_SOA trips, newest first (R61). -/
  soaTrips : List Nat := []
  /-- BANK_LOW has been raised (R64), and BANK_TEMP for the readings that are outside now (R65). -/
  lowRaised : Bool := false
  tempRaised : Bool := false
  /-- Device times of the entry to RETURN and to SHUTDOWN. -/
  returnAt : Nat := 0
  shutAt : Nat := 0
  /-- SHUTDOWN was entered from bank cutoff or the temperature block, so a qualified VAUX leads to RETURN
  (Table 2.3). -/
  shutReturns : Bool := false
  /-- The path left SHUTDOWN for RETURN, so start-up runs again when the sequence completes. -/
  restart : Bool := false
  /-- A PP_SNOW entry was accepted and its sequence runs (R82, Table 0.6). -/
  entering : Bool := false
  /-- PWRBTN: device time of the press that is timed, and its BTN_LONG_WARN raised (R79). -/
  pressAt : Option Nat := none
  warned : Bool := false
  /-- Device time at which the opening of a long press began (R80). -/
  openAt : Nat := 0
  deriving DecidableEq, Repr

/-- The current and timer fields of page 0x02 (R88); their reset values are those of the registers. -/
structure ChgTaken where
  ipre : Nat := 0x032
  ichg : Nat := 0x1F4
  eff : Nat := 0xF0
  iterm : Nat := 0x19
  tshort : Nat := 0x3C
  ttop : Nat := 0x1E
  tsafe : Nat := 0x0258
  deriving DecidableEq, Repr

/-- The charger's state beside its registers (chapter 2). -/
structure Charger where
  /-- The STATE code that SUSPENDED left. -/
  left : Nat := 0
  /-- The suspend cause PROBE is active; the other causes follow from other state (R70). -/
  probe : Bool := false
  /-- Device time of the probe's start (R75). -/
  probeAt : Nat := 0
  /-- The probe in progress is the one of CHG_TERMINATION. -/
  terminating : Bool := false
  /-- The suspend cause TEMP is active, and CHG_TEMP has been raised for it (Table 2.10). -/
  temp : Bool := false
  /-- The TIMEOUT and BANK_SHORT latches (R68). -/
  timeoutL : Bool := false
  shortL : Bool := false
  /-- Device time since which the charger has been in its present state, and the time that it had spent in it
  before it was suspended (Table 2.7). -/
  stateAt : Nat := 0
  spent : Nat := 0
  /-- Device time since which CHG_STATUS.LIMIT has been 0 in CV (Table 2.7). -/
  freeAt : Nat := 0
  /-- The current and timer fields as the last recomputation took them (R88). -/
  taken : ChgTaken := {}
  /-- The charger switches. -/
  switching : Bool := false
  /-- EN was cleared and the current ramps to zero (Table 1.6). -/
  draining : Bool := false
  /-- VDRV_UV has been raised and VDRV has not been good since (R168). -/
  vdrvLost : Bool := false
  /-- i_target of R72 as a fraction, in mA. -/
  target : Nat × Nat := (0, 1)
  /-- CHG_OV has been raised and the bank has not been found below its level since. -/
  ovStopped : Bool := false
  deriving DecidableEq, Repr

/-- The level a phase drives on PWMk (Table 3.1). -/
inductive Pwm
  | hiZ | low | high
  deriving DecidableEq, Repr

/-- Overshoot truncation of a loop (R115): none, pulses ended and PWM low, or PWM high impedance. -/
inductive Trunc
  | none | hold | brake
  deriving DecidableEq, Repr

/-- A loop's state beside its registers (chapter 3). -/
structure LoopSt where
  /-- e1, df1 and acc of R92. acc is in 1/4096 of a current-DAC LSB; df1 is the exact value
  dfNum / 256 ^ dfExp in error LSB. -/
  e1 : Int := 0
  dfNum : Int := 0
  dfExp : Nat := 0
  acc : Nat := 0
  /-- The peak-current command, in current-DAC LSB of 25 mA. -/
  ic : Nat := 0
  /-- Ic of the period before (R93). -/
  icPrev : Nat := 0
  /-- Consecutive periods with Ic at PHLIM, and below it (R114). -/
  ilimAt : Nat := 0
  ilimBelow : Nat := 0
  /-- The reference: its value in µV at the sense scale at device time refAt, moving toward TARGET at
  refRate, in µV per TREF period (R111). -/
  refFrom : Nat := 0
  refAt : Nat := 0
  refRate : Nat := 0
  /-- The reference DAC's code at refAt (R111). -/
  dacFrom : Nat := 0
  /-- The reference stands still: before the first turn-on, and after the drain (R97, R109). -/
  refHeld : Bool := true
  /-- The start value that the reference has not yet exceeded, so that off-times end at high impedance
  (R97). -/
  prebias : Option Nat := none
  trunc : Trunc := .none
  /-- Device time at which truncation began, while OST_TIMEOUT has not been raised for it (R117). -/
  truncAt : Option Nat := none
  /-- Periods left in which the outlier checks are suspended (R119). -/
  quiet : Nat := 0
  /-- N has changed, so the slots are recomputed at the next period start (R106). -/
  slotsDirty : Bool := false
  /-- The phases that take the slots in use, in the order of the slots (R105), and the device time at which the
  present period began. -/
  slots : List Nat := []
  periodAt : Nat := 0
  /-- PH_CFG.OUTLIER as the present period took it (Table 3.32). -/
  outlier : Nat := 0x19
  /-- Periods left in which an injection raises Ic (R354). -/
  inj : Nat := 0
  /-- LPn_IOUT of the last ten windows of R122, newest first: the last 10 ms (R354). -/
  iouts : List Nat := []
  /-- The total current of the last eight periods, newest first, in units of 12.5 mA / 2048 (R354). -/
  totals : List Nat := []
  /-- The charge drawn from VIN (R125), in units of 12.5 mA / 2048 × 156.25 ps. -/
  q : Nat := 0
  /-- The charge delivered to the output (R125) as a fraction, in units of 12.5 mA / 2048 × 1 ms. -/
  s : Nat × Nat := (0, 1)
  /-- Device time of the start of the enable check (R103). -/
  checkAt : Nat := 0
  deriving DecidableEq, Repr

/-- A phase's state beside its registers. -/
structure PhaseSt where
  /-- The loop whose enable check has the phase RESERVING (R101). -/
  reservedBy : Option Nat := none
  pwm : Pwm := .hiZ
  /-- SENk released (Table 3.1). -/
  sen : Bool := false
  /-- The phase has turned on in the present period (R106). -/
  turned : Bool := false
  /-- Its on-pulse has not yet been closed by PHASE_TURN_OFF. -/
  pulse : Bool := false
  /-- The times of its last turn-on and of its last turn-off, in units of 156.25 ps (R94, R105, R106). -/
  onAt : Nat := 0
  offAt : Nat := 0
  /-- i_on + i_off of its last pulse, in units of 25 mA / 2048 (R118, R354). -/
  sense : Nat := 0
  /-- The causes of a drop that waits for a phase of lower index in the same period (R123); 0 for none. -/
  dropDue : Nat := 0
  deriving DecidableEq, Repr

/-- A queued acknowledgement of a VCL port (R145, Table 4.5): its CODE, TAG and reference VID. -/
structure VclAck where
  code : Nat
  tag : Nat
  vid : Nat
  deriving DecidableEq, Repr

/-- A transition in flight on a VCL port (R145, R149): its tag, the device time of its arrival deadline, and
whether that has been missed. -/
structure VclFlight where
  tag : Nat
  deadline : Nat
  missed : Bool := false
  deriving DecidableEq, Repr

/-- The last acknowledgement frame that the load completed (R150): whether it carried the head of the queue,
and the alert flags it carried. -/
structure VclShown where
  ack : Bool
  alerts : Nat
  deriving DecidableEq, Repr

/-- A VCL port's state beside its registers (chapter 4). -/
structure Vcl where
  /-- Acknowledgements, oldest first, at most 8 (R147). -/
  queue : List VclAck := []
  flight : Option VclFlight := none
  shown : Option VclShown := none
  /-- The port has been enabled since the last reset (R151). -/
  enabled : Bool := false
  /-- EN was cleared and the port drains (R153). -/
  draining : Bool := false
  /-- The response frame on VDAT and the acknowledgement frame on VALT of the last transaction. -/
  resp : Nat := 0
  ack : Nat := 0
  deriving DecidableEq, Repr

/-- The state of a BK, LDO or SW beside its registers (chapter 5), keyed by its rail code. -/
structure OutSt where
  /-- The setting in motion (R160): its value in µV at device time setAt, moving toward VSET at setRate µV
  per TREF period; setRate 0 stands still at VSET. -/
  setFrom : Nat := 0
  setAt : Nat := 0
  setRate : Nat := 0
  /-- The discharge resistance is connected (R166, R167). -/
  disch : Bool := false
  /-- The enable was accepted before the 10 ms of R167 had passed, so the output has not started. -/
  startPending : Bool := false
  /-- The drain's rail failed in the power-down sequence, so its discharge is forced (R166). -/
  forced : Bool := false
  /-- The STATE code that the output's drain left, or that its enable check left (R166). -/
  left : Nat := 0
  /-- The start value that a BK's reference has not yet exceeded, so that its low-side switch turns off at zero
  current (R159). -/
  prebias : Option Nat := none
  /-- Device time at which the output last left REGULATE for a drain, while it has not been found below 100 mV
  since (R312). -/
  drainAt : Option Nat := none
  deriving DecidableEq, Repr

/-- VDRV's state beside VDRV_STATUS (R168). -/
structure Vdrv where
  on : Bool := false
  /-- The undervoltage test is armed. -/
  armed : Bool := false
  /-- Off for the 4 ms of an overload. -/
  hiccup : Bool := false
  /-- Device times of the switch-on or restart, of the entry to current limit, and of the turn-off of an overload, and
  since when VDRV is below 4.5 V once armed (R168). -/
  startAt : Nat := 0
  limAt : Nat := 0
  offAt : Nat := 0
  lowAt : Option Nat := none
  /-- The discharge of R167 holds: from the start of a reset until 10 ms after its end. -/
  resetDischarge : Bool := false
  /-- Device time at which the reset ended, while its 10 ms run (R167). -/
  resetEnd : Option Nat := none
  deriving DecidableEq, Repr

/-- Where a sample lies against one level (R178, R180): beyond the threshold, inside its return point, or
between the two. -/
inductive Lie
  | beyond | between | inside
  deriving DecidableEq, Repr

/-- One sample of a window channel, against its four levels. -/
structure Samp where
  fhi : Lie
  whi : Lie
  wlo : Lie
  flo : Lie
  deriving DecidableEq, Repr

/-- A window channel's state beside its registers (chapter 6). -/
structure SupCh where
  /-- The last samples, newest first, at most M; earlier ones count as inside (R181). -/
  samples : List Samp := []
  /-- Samples taken since the enable, up to M (R181, R185). -/
  taken : Nat := 0
  /-- PG has been 1 since this device time and the settle window runs (R183). -/
  pgSince : Option Nat := none
  /-- VN of a tracking channel as last refreshed, in µV (R176). -/
  vn : Nat := 0
  /-- PGS has been 1 since the chatter count last cleared (R184, R185). -/
  settled : Bool := false
  /-- EN was cleared and the channel drains (R190). -/
  draining : Bool := false
  deriving DecidableEq, Repr

/-- The states of a task (Table 7.7). -/
inductive TaskState
  | idle | ready | run | wait | claimwait | revoked | faulted | frozen
  deriving DecidableEq, Repr

/-- What a task's present instruction waits for. A deadline is the device time at which it expires; none
is an idle wait (R205). -/
inductive Wait
  | pg (ch : Nat) (deadline : Option Nat)
  | time (ready deadline : Nat)
  | event (src : Nat) (deadline : Option Nat)
  | step (n : Nat) (deadline : Option Nat)
  | claim (id : Nat) (deadline : Option Nat)
  /-- RAILON waits for the verdict of the enable check (R209). -/
  | verdict (rail : Rail) (wd : Nat)
  /-- RAILON waits for the end of the rail's drain (R209). -/
  | drain (rail : Rail) (wd : Nat)
  /-- An urgent RDADC waits for its value (R227). -/
  | urgent (ch wd : Nat)
  deriving DecidableEq, Repr

/-- One task of an engine (R200). -/
structure Task where
  st : TaskState := .idle
  /-- W0 to W15, by index. -/
  w : NMap Word := []
  z : Bool := false
  n : Bool := false
  c : Bool := false
  d : Bool := false
  t : Bool := false
  pc : Nat := 0
  /-- The return stack, top first, at most 8 entries. -/
  stack : List Nat := []
  prio : Nat := 0
  cls : Nat := 0
  wait : Option Wait := none
  /-- Device time of the dispatch, while RUN_DEADLINE has not been taken since (R235). -/
  runAt : Option Nat := none
  /-- A WAITT's deadline that stands until the dispatcher resumes the task (R215). -/
  resumeBy : Option Nat := none
  /-- The task's state before the power-down sequence froze it. -/
  frozenWait : Option Wait := none
  /-- Address of the instruction executed last (R237). -/
  ipc : Nat := 0
  deriving DecidableEq, Repr

/-- One entry of the image's engine table (Table 7.12); 0xFFFF stands for none. -/
structure EngineTab where
  entry : Nat := 0xFFFF
  prio : Nat := 0
  cls : Nat := 0
  ringOwn : Bool := false
  vDeadline : Nat := 0xFFFF
  vClaim : Nat := 0xFFFF
  vIllegal : Nat := 0xFFFF
  vStack : Nat := 0xFFFF
  vAbort : Nat := 0xFFFF
  pdEntry : Nat := 0xFFFF
  runMax : Nat := 0
  deriving DecidableEq, Repr

/-- An engine's state beside its registers (R233 to R251). -/
structure EngineSt where
  /-- The task that runs, if any. -/
  cur : Option Nat := none
  /-- last_run by priority (R234). -/
  lastRun : NMap Nat := []
  /-- The raise queue, head first, at most 8 pairs of code and task (R232). -/
  raiseQ : List (Nat × Nat) := []
  tab : EngineTab := {}
  /-- A triple error in program memory halted the engine (R202). -/
  halted : Bool := false
  /-- A handover waits for the instruction under way to complete (R250). -/
  handing : Bool := false
  deriving DecidableEq, Repr

/-- The states of a claim (Table 8.3) that are kept; FIT is a pending or revoked claim whose `fit` is
set. -/
inductive ClaimState
  | absent | free | pending | granted | revoked
  deriving DecidableEq, Repr

/-- One claim: its descriptor (Table 7.13) and its place in the ledger's books (R259 to R267). -/
structure Claim where
  st : ClaimState := .absent
  fit : Bool := false
  oneOff : Bool := false
  engines : Nat := 0
  descAmount : Nat := 0
  rails : Nat := 0
  /-- The present amount (R267). -/
  amount : Nat := 0
  eng : Nat := 0
  task : Nat := 0
  cls : Nat := 0
  /-- The order of submission and of grant. -/
  submitSeq : Nat := 0
  grantSeq : Nat := 0
  /-- Device time of the last revocation, 0 for a claim never revoked (R261). -/
  revokedAt : Nat := 0
  /-- A drained engine's granted claim, held by the ROM firmware (R531). -/
  rom : Bool := false
  deriving DecidableEq, Repr

/-- The ledger's state beside its registers (chapter 8). -/
structure Ledger where
  /-- Live debit entries: amount and expiry (R264). -/
  debits : List (Nat × Nat) := []
  /-- Counter that orders submissions, grants and RAILON commits. -/
  seq : Nat := 0
  /-- Order of the last RAILON commit of each rail code (R242). -/
  commits : NMap Nat := []
  /-- Consecutive updates at which NRG_LOAD exceeded the budget (R275). -/
  overCount : Nat := 0
  /-- Device times of the latest readings of VAUX, of the bank's energy and of the load (R257). -/
  vauxAt : Option Nat := none
  energyAt : Option Nat := none
  loadAt : Option Nat := none
  /-- The bank's usable energy as last estimated, 1 mJ, and the load as last measured, 10 mW (R346, R274). -/
  energy : Nat := 0
  load : Nat := 0
  /-- Device time of the first update since the reset (R257), and of the last. -/
  firstAt : Option Nat := none
  lastAt : Option Nat := none
  /-- Rail codes whose capacity has changed since the last update (R273). -/
  capDirty : Nat := 0
  /-- A loop's current limit or the Lupin rung has changed since the last update (R273). -/
  limitDirty : Bool := false
  /-- HOLDOFF, OFFHOLD, HMIN and RSV0 as the last update took them (R256). -/
  holdoff : Nat := 0
  offhold : Nat := 0x0A
  hmin : Nat := 0
  rsv0 : Nat := 0
  /-- Device time of the last rail that the ROM firmware switched off under R242, while it does so. -/
  romAt : Option Nat := none
  deriving DecidableEq, Repr

/-- A frame that the master has sent and that has not returned (R289): its 40 content bits, when it was last
sent, and how often it has been resent. -/
structure RingSent where
  frame : Nat
  sentAt : Nat
  resends : Nat := 0
  deriving DecidableEq, Repr

/-- A request for an abort that the master has taken (R293): its target, the requesting node, and whether it is the
abort of R295, after which the nodes found holding are isolated. -/
structure AbortReq where
  target : Nat
  node : Nat
  iso : Bool := false
  deriving DecidableEq, Repr

/-- The ring node's state beside its registers (chapter 9). -/
structure Ring where
  /-- The bypass is open and MRING_OUT is driven, since this device time. -/
  inserted : Option Nat := none
  /-- The STEP that is remembered: while listening (R226), or the master's STEP 1 that waits for EXPECT. -/
  remembered : Option Nat := none
  /-- State 0 has been left since the master's enable (R284). -/
  departed : Bool := false
  /-- The present state was entered at this device time and its step deadline has not expired (R285). -/
  stateAt : Option Nat := none
  /-- Device time of the edge after which the hold is taken again (R283). -/
  retakeAt : Option Nat := none
  /-- From an ABORT until the following STATE frame no edge is counted (R293). -/
  window : Bool := false
  /-- Consecutive STATE frames whose state differs from the counter (R294). -/
  mismatches : Nat := 0
  /-- The node's abort requests that no STATE frame carries yet (R293), oldest first. -/
  wants : List Nat := []
  /-- The cycle sequence of the master's next STATE frame, those of its STATE frames that have not returned, oldest
  first, and device time of the last cycle. -/
  seq : Nat := 0
  seqs : List Nat := []
  cycleAt : Option Nat := none
  /-- One ENUM with CLR = 1 is still to be sent (R290). -/
  clear : Bool := false
  /-- The master's abort requests, oldest first; when it took its hold for the first of them,
  and whether the ABORT has been sent; the sequence of the next ABORT. -/
  requests : List AbortReq := []
  abortHold : Option Nat := none
  abortSent : Bool := false
  abortSeq : Nat := 0
  /-- Frames to be resent if they do not return (R289), oldest first. -/
  unacked : List RingSent := []
  /-- Consecutive presence polls that missed a node, by address (R291). -/
  absent : NMap Nat := []
  /-- Groups whose holder poll has not returned; whether the polls serve R295, and the nodes that those polls have
  found holding. -/
  polls : List Nat := []
  isolating : Bool := false
  found : List Nat := []
  /-- The holder polls of an MNG_CMD are out: its action runs, and MNG_CMD.GO reads 1 (R16). -/
  cmdPoll : Bool := false
  /-- What waits for frames to return (R297): nodes to be isolated, and the holder polls of R295. -/
  isoWaits : List Nat := []
  pollsWait : Bool := false
  /-- Device time of the last ISOLATE, and whether the further holder poll of R296 has been sent. -/
  isoAt : Option Nat := none
  stuckPolled : Bool := false
  /-- Device time of the last intact STATE frame, and of the last frame of the master's own that returned. -/
  stateSeen : Nat := 0
  ownSeen : Nat := 0
  /-- The frames that left the node at the last command that sent any, as 64 bits each (Table 9.3). -/
  tx : List Nat := []
  deriving DecidableEq, Repr

/-- A power-down sequence under way (R311, R312): its row of Table 10.4, the device time of its start, and its
step. -/
structure Pd where
  trig : Nat
  start : Nat
  step : Nat := 1
  deriving DecidableEq, Repr

/-- The outcome of a self-test: the five verdict words (Table 10.3) and the three diagnosis words (R318). -/
structure Verdict where
  words : List Nat
  diag : List Nat
  deriving DecidableEq, Repr

/-- A verdict in the Crocus retention registers, marked valid, with its CRC-16 (R307). -/
structure Stored where
  verdict : Verdict
  crc : Nat
  deriving DecidableEq, Repr

/-- Start-up and shutdown beside their registers (chapter 10). -/
structure Sys where
  pd : Option Pd := none
  /-- The verdict in the Crocus retention registers (R307). -/
  stored : Option Stored := none
  /-- The verdict that phase 5 will apply, and its source (Table 10.2). -/
  verdict : Option Verdict := none
  source : Nat := 0
  /-- A bank wake has arrived (R530, Table 2.9). -/
  bankWake : Bool := false
  /-- Start-up has begun since the last reset (R524). -/
  started : Bool := false
  /-- A ROM CRC error halted K0 (R304). -/
  k0Halt : Bool := false
  /-- The multi-step operations under way (R394): the detail word + 1 by code. -/
  ops : NMap Nat := []
  /-- Enables of the board configuration that phase 6 carries out (R309), as (address, value). -/
  deferred : List (Nat × Nat) := []
  /-- The steps of phase 6 that are done, and whether its boot image was accepted (R309, R311). -/
  brought : Nat := 0
  booted : Bool := false
  /-- The operation of SYS_CTRL.OP whose action runs; 0 for none (Table 0.6). -/
  op : Nat := 0
  deriving DecidableEq, Repr

/-- Who asked for an urgent conversion (R335): a task of an engine, or the host command in a slot. -/
inductive Requester
  | task (eng task : Nat)
  | host (slot : Nat)
  deriving DecidableEq, Repr

/-- A burst under way (R338): its channel, its length in µs, its start, and the loop whose capacitor
injection it serves (R354). -/
structure Burst where
  ch : Nat
  len : Nat
  start : Nat
  injection : Option Nat := none
  /-- The injection's step has begun, and the present period of its loop is raised (R354). -/
  injected : Bool := false
  raised : Bool := false
  /-- Device times of the step's beginning and of the ends of its first and latest raised periods (R354). -/
  stepAt : Nat := 0
  firstEnd : Nat := 0
  stepEnd : Nat := 0
  /-- The loop's total current in the periods before the step and in the raised periods, newest first (R354). -/
  before : List Nat := []
  during : List Nat := []
  deriving DecidableEq, Repr

/-- The ADC's state beside its registers (chapter 11). -/
structure Adc where
  /-- The latest result of each channel, and the mask of channels that have one (R328, R332). -/
  latest : NMap Nat := []
  latestValid : Nat := 0
  /-- The mask of channels that have given a result since start-up began (R257). -/
  sinceStart : Nat := 0
  /-- Position of each slice's sequence, while it runs (R327). -/
  pos : NMap Nat := []
  running : Nat := 0
  /-- Slices that drain, their EN cleared (R330). -/
  slDrain : Nat := 0
  /-- A housekeeping round is under way; the slices whose RUN 1 sequence, and the channels of the base list
  whose conversion, it still waits for (R332). -/
  round : Bool := false
  roundWaits : Nat := 0
  baseLeft : Nat := 0
  /-- Device time of the last round's start. -/
  roundAt : Option Nat := none
  /-- The urgent conversion under way and its channel (R336). -/
  urgent : Option (Requester × Nat) := none
  /-- Urgent requests that have arrived, been served and been dropped, as counted now: ADC_URGREQ shows the first two,
  and ADC_DROP holds the third as latched by a read (R337). -/
  asked : Nat := 0
  served : Nat := 0
  dropped : Nat := 0
  burst : Option Burst := none
  /-- The channel of the last burst. -/
  burstCh : Nat := 0
  /-- Capture (R340, R343): the index that the next sample takes, and the samples written since capture was enabled
  or the last snapshot was released, up to 32 768. -/
  capPos : Nat := 0
  capLen : Nat := 0
  /-- In FILLING: the samples that the fill still takes, and the device time at which it has taken them (R341). -/
  fillLeft : Nat := 0
  fillEnd : Nat := 0
  /-- Device time + 1 of the last start of each slice's RUN 3 sequence, or of its enable (R327). -/
  perAt : NMap Nat := []
  /-- Device time of the last round's completion, from which the integrators' means count (R324). -/
  doneAt : Option Nat := none
  /-- The die readings at the last interleave correction (R339). -/
  corrTemps : NMap Nat := []
  /-- The injection of R354: the loop whose turn is next, the one that waits for its conditions with the device time
  since which it waits, and the device time + 1 at which each loop's last injection was due. -/
  injNext : Nat := 0
  injWait : Option (Nat × Nat) := none
  injAt : NMap Nat := []
  deriving DecidableEq, Repr

/-- The history of a trend indicator (R348): its points as (wear day, value × 2), oldest first; the days
between points; the measurements of the present wear day; and the first 8 daily points, × 2. -/
structure Trend where
  points : List (Nat × Int) := []
  stride : Nat := 1
  today : List Int := []
  first : List Int := []
  deriving DecidableEq, Repr

/-- The wear state (R349), which lies in Crocus retention memory. Charge is counted in units of
10 mA × 10 ns. -/
structure Wear where
  /-- Q of the bank model (R346), and whether it has been set. -/
  q : Int := 0
  qKnown : Bool := false
  /-- The running integral of channel 0x1B, which no setting of Q changes (R351). -/
  coul : Int := 0
  /-- The last state-of-charge fix: the integral then, and the state of charge as a fraction of
  0.01 %. -/
  fix : Option (Int × Nat × Nat) := none
  /-- The last rest of a supercapacitor stack: the integral and BKB in mV then (R352). -/
  rest : Option (Int × Nat) := none
  /-- SOH, 0.01 %, and whether a capacity estimate has given it. -/
  soh : Nat := 10000
  sohSeen : Bool := false
  /-- Histories by indicator; those of C of LP0 to LP5 under 16 + the indicator's index. -/
  trends : NMap Trend := []
  /-- The open turning points of TMONk in 0.1 °C, newest first, the damage of its stage in 10⁻¹² and the
  damage at the last day ends, newest first (R355). -/
  turns : NMap (List Int) := []
  damage : NMap Nat := []
  ends : NMap (List Nat) := []
  /-- Weak words and spare words at the last boot (R356). -/
  weak : Nat := 0
  spares : Nat := 0
  /-- Indicators whose WEAR_LIMIT has been raised and whose DAYS has not returned above WARN since. -/
  warned : Nat := 0
  /-- Device time of the last wear day's end, and of the last count of R357. -/
  dayAt : Option Nat := none
  ageAt : Option Nat := none
  /-- The present rest (R352): the device time since which the bank's current has stayed below its bound with the
  charger not switching. -/
  restAt : Option Nat := none
  deriving DecidableEq, Repr, Inhabited

/-- What an export of the wear state carries (R349, R359): the wear state, the wear day, and the words of page 0x2C
that are restored with it. -/
structure WearImage where
  wear : Wear := {}
  day : Nat := 0
  /-- INJCAUSE and INJLOOP. -/
  failed : Nat × Nat := (0, 0)
  /-- WEAR_Ii_VAL, and DAYS, NPTS, LIMQ and BASIS of WEAR_Ii_EOL. -/
  vals : List Nat := []
  eols : List (Nat × Nat × Nat × Nat) := []
  deriving DecidableEq, Repr, Inhabited

/-- A form of the wear state in 1024 bytes (R439): the bytes of a state that has a form, and the state that bytes
stand for, which is the one whose form they are. -/
structure WearFormat where
  bytes : WearImage → Option (List (BitVec 8))
  image : List (BitVec 8) → Option WearImage
  law : ∀ x bs, bytes x = some bs → bs.length = 1024 ∧ image bs = some x

/-- The values of THM_CFG and THM_RUNGT0–1 as the ladder last took them (R365), thresholds T1 to T7 in order. -/
structure Ladder where
  twarn : Nat := 0x8C
  stofs : Nat := 0x0F
  stgEn : Bool := false
  hyst : Nat := 5
  dwell : Nat := 0x0A
  thresholds : List Nat := [0x6E, 0x78, 0x7F, 0x85, 0x8A, 0x8F, 0x94]
  deriving DecidableEq, Repr

/-- Thermal sensing beside its registers (chapter 12). -/
structure Thermal where
  ladder : Ladder := {}
  /-- Consecutive rounds below the present rung's return level (R363). -/
  below : Nat := 0
  /-- Consecutive rounds in which a die sensor lay more than 10 °C from the median (R361), by sensor. -/
  away : NMap Nat := []
  /-- NTC and TMON inputs whose fault has been raised and that have given no valid reading since (R362). -/
  ntcBad : Nat := 0
  tmonBad : Nat := 0
  /-- TJ_WARN has been raised and TJ_EFF has not fallen below its return level since (R366). -/
  warned : Bool := false
  /-- NTC inputs outside the charge window and outside the discharge window (R65, R71). -/
  chgOut : Nat := 0xF
  disOut : Nat := 0
  deriving DecidableEq, Repr

/-- A Foxglove record of type 1 (Table 13.3). Numbers are held unsaturated and cut to their fields when
the record is written out as words. -/
structure EventRec where
  cls : Cls
  line : Nat
  src : Nat
  ebit : Nat
  react : Nat
  time : Nat
  also : Nat := 0
  dur : Nat := 0
  xline : Nat := 0
  xbit : Nat := 0
  xvalid : Bool := false
  nmerge : Nat := 0
  incomplete : Bool := true
  test : Bool := false
  inj : Bool := false
  detail : Nat := 0
  deriving DecidableEq, Repr

/-- What a history record holds: a Foxglove record, or the reset record of R395 (its words 0, 4, 5, 6
and its device time). -/
inductive RecBody
  | event (e : EventRec)
  | reset (w0 time w4 w5 w6 : Nat)
  deriving DecidableEq, Repr

/-- A record of the history queue, with its SEQ (R386) and the device time of its close (R385). -/
structure HistRec where
  seq : Nat
  body : RecBody
  closed : Option Nat := none
  deriving DecidableEq, Repr

/-- ALIVE (R391, R392): held low, toggling, held at its level, or waiting out the 0.50 ms before its next
edge. -/
inductive AliveMode
  | low | run | held | resuming
  deriving DecidableEq, Repr

/-- Foxglove's state beside its registers (R381 to R392). -/
structure Fox where
  /-- The history queue, newest record first, at most 32 (R387). -/
  hist : List HistRec := []
  /-- History records overwritten, as counted now; FLT_HOVR holds the value latched by a read (R388). -/
  histOver : Nat := 0
  /-- SEQ of the newest history record at the last MARKREAD (R388). -/
  readMark : Option Nat := none
  /-- The open record's opening time and its merge time in µs (R384). -/
  openRec : Option (Nat × Nat) := none
  /-- Log records overwritten or lost, as counted now (R387). -/
  logOver : Nat := 0
  /-- Log records held, as counted now (R387). -/
  logHeld : Nat := 0
  /-- Lines that stand in a record whose REACT includes STOP-ALIVE, and whose FLT_STATUS bit has not
  cleared since (R392). -/
  stopLines : Nat := 0
  alive : AliveMode := .low
  /-- Device time of the last ALIVE edge the model took as reference, and the level after it. -/
  aliveEdge : Nat := 0
  aliveLvl : Bool := false
  /-- Log records that were held when the internal VSYS rails went down, to be added to FLT_LOVR at the
  next start-up (R387). -/
  logLost : Nat := 0
  deriving DecidableEq, Repr

/-- The interrupt controller's state beside its registers. -/
structure Intc where
  /-- Target t's line was 1 at some time since its previous claim (R409); absent is no. -/
  lineSeen : NMap Bool := []
  deriving DecidableEq, Repr

/-- The states of a command slot (Table 15.5). -/
inductive SlotState
  | free | queued | inflight | unread
  deriving DecidableEq, Repr

/-- STATUS, SPACE, REASON and the two results of a completion (R430). -/
structure Completion where
  status : Nat
  space : Nat := 0
  reason : Nat := 0
  r0 : Nat := 0
  r1 : Nat := 0
  deriving DecidableEq, Repr

/-- A command slot (R423): the queue that it was submitted on, the lane that executes it, the device time at
which it became INFLIGHT, whether its bound has expired, whether its commit point has passed, its data-area
input as read then, and its outcome once it has ended. -/
structure Slot where
  st : SlotState := .free
  queue : Nat := 0
  lane : Nat := 0
  since : Nat := 0
  late : Bool := false
  committed : Bool := false
  input : List Byte := []
  outcome : Option Completion := none
  deriving DecidableEq, Repr

/-- An entry of the completion ring between head and tail: its slot, URGENT, and whether it is signalled. -/
structure Entry where
  slot : Nat
  urgent : Bool
  signalled : Bool := false
  deriving DecidableEq, Repr

/-- The host command interface beside its registers and queue memory (chapter 15). -/
structure Hci where
  slots : NMap Slot := []
  /-- The QUEUED slots of SQ0 to SQ3, oldest first. -/
  queues : NMap (List Nat) := []
  /-- The queue that a lane took a command from last (R426). -/
  lastQueue : Option Nat := none
  /-- The entries between head and tail, oldest first. -/
  entries : List Entry := []
  /-- Device time at which the moderation timer expires, while it runs (R444). -/
  timer : Option Nat := none
  /-- The last SPI transaction ended with an error (R421), and the bytes that the last one returned. -/
  spiErr : Bool := false
  spiOut : List Byte := []
  deriving DecidableEq, Repr

/-- The two-wire target port beside its registers (R453, R470). -/
structure Twt where
  ptr : Nat := 0
  /-- The KT1240 window's pointer, the flags of its FAULT and WARN registers, and each CHk_L as last latched. -/
  ktPtr : Nat := 0
  fault : Nat := 0
  warn : Nat := 0
  chLow : NMap Nat := []
  /-- The bytes that the last read transfer returned, and the number of data bytes that the last write transfer
  had acknowledged. -/
  out : List Byte := []
  acked : Nat := 0
  /-- The bytes of a pointer set that ended in a repeated START: the PEC of the read that follows covers them
  (R461). -/
  lead : List Byte := []
  /-- After a wake from Crocus standby, until start-up phase 5 ends, only the S0 pages are reached (R458). -/
  narrow : Bool := false
  deriving DecidableEq, Repr

/-- A transfer of the controller port: the host's, or poll entry k. -/
inductive Xfer
  | host
  | poll (k : Nat)
  deriving DecidableEq, Repr

/-- The two-wire controller port beside its registers (R465 to R469). -/
structure Twc where
  /-- The transfer under way, or waiting for the bus. -/
  cur : Option Xfer := none
  /-- Arbitration losses of the transfer under way, which TWC_RES.TRIES shows saturated. -/
  tries : Nat := 0
  /-- A host GO waits for a poll entry to end. -/
  waiting : Bool := false
  /-- ADDR, WLEN and RLEN of the host's transfer, as they stood at its GO, and the bytes that the poll entry under way
  reads. -/
  addr : Nat := 0
  len : Nat × Nat := (0, 0)
  pollLen : Nat := 0
  /-- The bytes that the transfer under way sends, its address bytes among them (R467). -/
  sent : List Byte := []
  /-- The bus is busy with another device's transfer (R465). -/
  busy : Bool := false
  /-- The entries that the present poll pass has still to run, ascending. -/
  pass : List Nat := []
  deriving DecidableEq, Repr

/-- An OTP_COMMIT under way (R495): its slot and region, the logical word under programming, the words from it
on, the locks to blow, whether a seal follows the words and whether it is under programming, whether the words are done
and the locks are being blown, the physical word and the 148 fuses that must read 1, the counts of its completion, and a
CANCEL that waits for the word's end. -/
structure OtpJob where
  slot : Nat
  region : Nat
  logical : Nat
  words : List Nat
  lockW : Bool
  lockR : Bool
  sealDue : Bool := false
  sealing : Bool := false
  phys : Nat
  target : Nat
  wrote : Nat := 0
  found : Nat := 0
  cancelled : Bool := false
  locking : Bool := false
  /-- The length of the written run that the seal commits. -/
  run : Nat := 0
  deriving DecidableEq, Repr

/-- A program operation (R487, R491): fuses of a physical word, of the word that stands for a logical word of a
region, of a region's seal position; the void of a word; or lock fuses, as (lock, fuse), in their order. -/
inductive ProgOp
  | word (region phys fuses : Nat)
  | chain (region logical fuses : Nat)
  | seal (region fuses : Nat)
  | void (region phys : Nat)
  | locks (fuses : List (Nat × Nat))
  deriving DecidableEq, Repr

/-- The OTP memory and the crypto engine's key store (chapter 17). -/
structure Otp where
  /-- The 148 fuses of each physical word as normal margin reads them, and those of them that strict margin
  reads 0. -/
  fuses : NMap Nat := []
  weak : NMap Nat := []
  /-- The three fuses of each lock: WL of region r under r, RL under 24 + r, then AUTHREQ 48, TEST_DIS 49,
  CFG_REBURN 50 and CFG_VERIFY 51. -/
  locks : NMap Nat := []
  /-- Words that an interrupted program operation left neither blank nor valid (R494). -/
  torn : List Nat := []
  /-- Words that count as void for this start-up though they are not voided (R492). -/
  pendingVoids : List Nat := []
  /-- The OTP_COMMIT under way (R495). -/
  job : Option OtpJob := none
  /-- What the raw operation under way has left to do, and the scalar of a KEYGEN (R498, R501). -/
  raw : List ProgOp := []
  keygen : Option Nat := none
  /-- The device's private scalar in the key store (R488). -/
  scalar : Option Nat := none
  /-- Phase 4 has read the regions, and the serial number in IDENT (R478, R506). -/
  read : Bool := false
  serial : Nat := 0
  deriving DecidableEq, Repr

/-- A fault: the block has none. Every rule of the spec gives the commands an effect on the state, error
flags and refusal codes included, so no meaning raises one. The constructor stands for a store into an
address that no command can name; no meaning answers with it, and that is safe. -/
inductive Fault
  | noSuchAddress
  deriving DecidableEq, Repr

/-- A refusal. -/
inductive Refusal
  /-- The dispatcher raises it for a command that has no meaning yet; the mnemonic is the command's. Safe:
  the machine stops where the hardware goes on. -/
  | notModelled (mnemonic : String)
  deriving DecidableEq, Repr

/-- The whole state of the block. (DESIGN CHOICE, log entry 1) -/
structure State where
  /-- Commands that wait, first in, first out. -/
  pending : List Instr := []
  /-- The model's own counter for free values: a step that needs a value the spec leaves open reads it
  and advances it. It is no state of the block. -/
  free : Nat := 0
  /-- The device time, in TREF periods of 10 ns; its low 64 bits are what SYS_TIME and every timestamp show (R32). -/
  now : Nat := 0
  /-- The register fields, by bit address; an absent key reads as the field's reset value. -/
  regs : NMap Nat := []
  /-- The bytes of the SRAM windows (Table 18.6); an unlisted address reads 0. -/
  mem : List Host.Cell := []
  supply : Supply := {}
  path : Path := {}
  charger : Charger := {}
  intc : Intc := {}
  fox : Fox := {}
  loops : NMap LoopSt := []
  phases : NMap PhaseSt := []
  outs : NMap OutSt := []
  vdrv : Vdrv := {}
  vcl : NMap Vcl := []
  sup : NMap SupCh := []
  engines : NMap EngineSt := []
  tasks : NMap Task := []
  claims : NMap Claim := []
  ledger : Ledger := {}
  adc : Adc := {}
  wear : Wear := {}
  sys : Sys := {}
  ring : Ring := {}
  thermal : Thermal := {}
  hci : Hci := {}
  twt : Twt := {}
  twc : Twc := {}
  otp : Otp := {}
  deriving DecidableEq, Repr

/-- The machine right after reset: at POR, with every register and every piece of state at its reset value, the
time at 0, both pairs open, the memories empty and OTP blank (R301). Reset holds until `POR_RELEASE`.
(DESIGN CHOICE, log entry 4) (PRESUMED, log entry 69) -/
def State.reset : State := {}

end Sys2Proof.Machine
end

