-- ==== Sys2Proof/Config.lean ====
section
/-! DEFINITION. What an implementation fixes, and the free values: constants without a body, so that no
proof can see what they are. Each is named in the assumption log. -/

namespace Sys2Proof

/-- Whether the compensator's accumulator rounds up a sum that does not fall on its 1/4096 grid: R92 and
Table 3.2 give the format and no rounding. (DESIGN CHOICE, log entry 14) -/
opaque Config.accRoundUp : Nat → Bool

/-- Which way `round(acc)` of R92 goes when acc lies midway between two codes of the current DAC.
(DESIGN CHOICE, log entry 14) -/
opaque Config.icTieUp : Nat → Bool

/-- The factor of a sense divider whose DIV code is 3, which Table 3.19 reserves; it is read only where the
ledger counts the capacity of such a loop, which no enable accepts. (DESIGN CHOICE, log entry 20) -/
opaque Config.reservedDivider : Nat

/-- TONMIN of the part in units of 156.25 ps, before it is brought into the 28–32 ns of Table 3.3.
(DESIGN CHOICE, log entry 15) -/
opaque Config.tonMin : Nat

/-- TOFFMIN of the part in units of 156.25 ps, before it is brought into the 38–42 ns of Table 3.3.
(DESIGN CHOICE, log entry 15) -/
opaque Config.toffMin : Nat

/-- What a loop takes for VIN when LPn_PLANT.VIN_CH names a channel whose unit is no voltage: R118 and R125
give no conversion. It is applied to the reading. (DESIGN CHOICE, log entry 20) -/
opaque Config.vinOther : Nat → Nat

/-- The code that the sense monitor gives for a current below 0: R118 states none. It is applied to the model's
counter. (DESIGN CHOICE, log entry 16) -/
opaque Config.negativeSense : Nat → Nat

/-- What the ledger takes for the load of R274 where the measured terms give a negative one: the rule's load has
no such value. It is applied to the model's counter. (DESIGN CHOICE, log entry 16) -/
opaque Config.negativeLoad : Nat → Nat

/-- Whether the sense monitor rounds up a current between two of its codes: R118 gives no rounding.
(DESIGN CHOICE, log entry 16) -/
opaque Config.senseRoundUp : Nat → Bool

/-- Whether the error converter rounds up an error between two of its codes: Table 3.2 gives no rounding.
(DESIGN CHOICE, log entry 14) -/
opaque Config.errorRoundUp : Nat → Bool

/-- Bits [25:14] of an acknowledgement frame whose CODE is NONE: R141 gives them a meaning only for a queued
acknowledgement. It is applied to the model's counter. (DESIGN CHOICE, log entry 47) -/
opaque Config.vclNoneVid : Nat → Nat

/-- The charger's i_share of R72 in mA where the measured bank voltage is 0. (DESIGN CHOICE, log entry 22) -/
opaque Config.shareAtZero : Nat → Nat

/-- The safety-timer rate of R73, 0 to 2, where i_phase is 0. (DESIGN CHOICE, log entry 12) -/
opaque Config.rateAtZero : Nat → Nat

/-- Whether a damage increment of R355 is rounded up: the rule gives no number format.
(DESIGN CHOICE, log entry 73) -/
opaque Config.damageRoundUp : Nat → Bool

/-- A damage increment of R355 where DTREF or NREF is 0. (DESIGN CHOICE, log entry 73) -/
opaque Config.damageAtZero : Nat → Nat

/-- The logarithm of 0 in the fit of R357: the rule gives none for wear day 0 or a slowdown that is not above 0.
(DESIGN CHOICE, log entry 74) -/
opaque Config.logOfZero : Int

/-- The slowdown in ppm where the unstressed oscillator counts 0, what WEAR_I14_VAL shows of one below 0, and
whether it is rounded up (R357). (DESIGN CHOICE, log entry 74) -/
opaque Config.slowAtZero : Nat → Int
opaque Config.slowBelowZero : Nat → Nat
opaque Config.slowRoundUp : Nat → Bool

/-- The oscillator difference of final test, in ppm, as the words of OTP region TRIM hold it (R357, Table 17.2).
(DESIGN CHOICE, log entry 64) -/
opaque Config.oscDifference : List Nat → Int

/-- The scale with which a channel's RAW becomes its reading (R328): units per LSB as a fraction, the second
number being the denominator less 1, an offset, and whether a reading that falls between two units is rounded
up. (DESIGN CHOICE, log entry 112) -/
opaque Config.adcScale : Nat → Nat × Nat
opaque Config.adcOffset : Nat → Int
opaque Config.adcRoundUp : Nat → Bool

/-- ESR or capacitance of R354 where the current step or the slope is 0. (DESIGN CHOICE, log entry 74) -/
opaque Config.injectionAtZero : Nat → Nat

/-- A TMON reading of R360, in 0.1 °C, where THM_TMON.SLOPE is 0. (DESIGN CHOICE, log entry 76) -/
opaque Config.tmonAtZero : Nat → Int

/-- An NTC reading of R360, in 0.1 °C, where the equation of Table 12.1 has no solution in 16 bits, and whether one
that does not fall on 0.1 °C is rounded up. (DESIGN CHOICE, log entry 76) -/
opaque Config.ntcAtZero : Nat → Int
opaque Config.ntcRoundUp : Nat → Bool

/-- Whether a TMON reading that does not fall on 0.1 °C is rounded up: R360 gives no rounding.
(DESIGN CHOICE, log entry 76) -/
opaque Config.tmonRoundUp : Nat → Bool

/-- Whether ESR or capacitance of R354 is rounded up: the rule gives no rounding. (DESIGN CHOICE, log entry 74) -/
opaque Config.injectionRoundUp : Nat → Bool

/-- The buffer index that the first sample after an enable of capture takes: R340 names none.
(DESIGN CHOICE, log entry 75) -/
opaque Config.captureStart : Nat → Nat

/-- Fuses of an interrupted word that are blown, and weakly blown (R494). (DESIGN CHOICE, log entry 62) -/
opaque Config.partialBlow : Nat → Nat

/-- Whether K0's own conversions before phase 7 allow a program operation: temperature and VSYS (R490).
(DESIGN CHOICE, log entry 88) -/
opaque Config.k0TempOk : Nat → Bool
opaque Config.k0VsysOk : Nat → Bool

/-- The 20 bits of ADC_SLs_RAW of an entry that a drain discards: R330 states no value.
(DESIGN CHOICE, log entry 77) -/
opaque Config.discardedRaw : Nat → Nat

/-- The form of the wear state in an export: R439 gives the number of its bytes and no format. `wearBytes` and
`wearImage` are the bytes of a state that has no such form, and the state that bytes stand for which are the form of
none. (DESIGN CHOICE, log entry 71) -/
opaque Config.wearFormat : Option Machine.WearFormat
opaque Config.wearBytes : Machine.WearImage → Nat → BitVec 8
opaque Config.wearImage : List (BitVec 8) → Machine.WearImage

/-- What IDENT's words hold (Table 17.2 names the contents and gives no layout): the serial number, the grade
letter, the provisioning code, and the public key (R501, R502). (DESIGN CHOICE, log entry 64) -/
opaque Config.identSerial : List Nat → Nat
opaque Config.identGrade : List Nat → Nat
opaque Config.identProv : List Nat → Bool
opaque Config.identPub : List Nat → Nat × Nat

/-- The number of valid patch records in FWPATCH's words (R504 gives no format). (DESIGN CHOICE, log entry 64) -/
opaque Config.patchCount : List Nat → Nat

/-- Whether TESTKEY's words enable test entry, and whether a test key matches the digest in them (R396 gives no
layout). (DESIGN CHOICE, log entry 64) -/
opaque Config.testEntryEnabled : List Nat → Bool
opaque Config.testKeyMatches : List Nat → List Nat → Bool

/-- The lock and the fuse of it that a lock fuse index names (Table 17.13 gives no order).
(DESIGN CHOICE, log entry 64) -/
opaque Config.lockOfIndex : Nat → Option (Nat × Fin 3)

/-- The signature that the ROM holds for a unit of Table 10.3 and a test of Table 10.6 (R316 gives no value).
(DESIGN CHOICE, log entry 96) -/
opaque Config.bistSignature : Nat → Nat → Nat

/-- The CRC-16 over a verdict in retention (R307 gives no polynomial and no layout). (DESIGN CHOICE, log entry 96) -/
opaque Config.verdictCrc : Machine.Verdict → Nat

/-- What the crypto engine's entropy source gives: a private scalar (R501), and the number of a signature.
(DESIGN CHOICE, log entry 63) -/
opaque Config.entropy : Nat → Nat

/-- The bytes of the output buffer of a cancelled command (R436 leaves them undefined).
(DESIGN CHOICE, log entry 114) -/
opaque Config.cancelledByte : Nat → Nat → BitVec 8

/-- What OTP_READ returns for an uncorrectable word: R479 uses its data nowhere. (DESIGN CHOICE, log entry 64) -/
opaque Config.unreadableWord : Nat → Nat

/-- The length of a certificate whose bytes are no DER structure (R502). (DESIGN CHOICE, log entry 65) -/
opaque Config.certLength : List Byte → Nat

end Sys2Proof
end

