-- ==== Sys2Proof/Machine/Map.lean ====
section
/-! DEFINITION. The finite map: reading a key, and writing a key so that the canonical form is kept
(keys strictly rising, no entry equal to the value an absent key reads as). -/

namespace Sys2Proof.Machine

/-- The value at key `k`; `d` where no entry names `k`. -/
def NMap.get {α : Type} (d : α) : NMap α → Nat → α
  | [], _ => d
  | (k', v) :: m, k => if k' = k then v else NMap.get d m k

/-- `m` without its entry at `k`. -/
def NMap.drop {α : Type} : NMap α → Nat → NMap α
  | [], _ => []
  | (k', v) :: m, k => if k' = k then NMap.drop m k else (k', v) :: NMap.drop m k

/-- `m`, which has no entry at `k`, with `(k, v)` at its place in rising order. -/
def NMap.insert {α : Type} : NMap α → Nat → α → NMap α
  | [], k, v => [(k, v)]
  | (k', v') :: m, k, v => if k < k' then (k, v) :: (k', v') :: m else (k', v') :: NMap.insert m k v

/-- `m` with key `k` reading `v`. Writing the value that an absent key reads as removes the entry. -/
def NMap.put {α : Type} [DecidableEq α] (d : α) (m : NMap α) (k : Nat) (v : α) : NMap α :=
  if v = d then NMap.drop m k else NMap.insert (NMap.drop m k) k v

/-- The keys of `m` are strictly rising. -/
def NMap.sorted {α : Type} : NMap α → Bool
  | [] => true
  | [_] => true
  | (k, _) :: (k', v') :: m => decide (k < k') && NMap.sorted ((k', v') :: m)

/-- The canonical form: strictly rising keys and no entry equal to `d`. -/
def NMap.wf {α : Type} [DecidableEq α] (d : α) (m : NMap α) : Bool :=
  NMap.sorted m && m.all fun e => decide (e.2 ≠ d)

end Sys2Proof.Machine
end

