-- ==== Sys2Proof/Machine/Regs.lean ====
section
/-! DEFINITION. The register fields of the block, one definition per field, from the field tables of the
owning chapters: address, place and width, access code, reset value, and the (POR) mark. A register with
several instances takes its index as an argument, and its address is the formula of Tables 18.2 to 18.4.
Words that only show other state (PH_OWNER, PH_COUNT, the bitmaps, HCI_SLOTST and the like) have no field
here; `Machine/Access.lean` computes them. -/

namespace Sys2Proof.Machine

/-- The reset values of NRG_HEATr (Table 8.2), in 10 mW units. -/
def heatReset (r : Nat) : Nat :=
  match r with
  | 2 => 40000 | 3 => 30000 | 4 => 20000 | 5 => 15000 | 6 => 10000 | 7 => 6000
  | _ => 0xFFFFFFFF

/-! `SYS_CTRL`, Table 10.8. -/

def SYS_CTRL.KEY : Field := ⟨0x0000, 16, 16, .rw, 0, false⟩
def SYS_CTRL.OP : Field := ⟨0x0000, 0, 3, .sc, 0, false⟩

/-! `SYS_STATUS`, Table 10.9. -/

def SYS_STATUS.PHASE : Field := ⟨0x0004, 0, 4, .ro, 0, false⟩

/-! `SYS_SERVICE`, Table 10.10. -/

def SYS_SERVICE.BLOCKER : Field := ⟨0x0008, 24, 8, .ro, 0xff, false⟩
def SYS_SERVICE.S0FAIL : Field := ⟨0x0008, 8, 1, .ro, 0, false⟩
def SYS_SERVICE.LEVEL : Field := ⟨0x0008, 0, 2, .ro, 0, false⟩

/-! `SYS_RSTCAUSE`, Table 10.11. -/

def SYS_RSTCAUSE.STBY_WAKE : Field := ⟨0x000C, 7, 1, .w1c, 0, true⟩
def SYS_RSTCAUSE.SNOW_WAKE : Field := ⟨0x000C, 6, 1, .w1c, 0, true⟩
def SYS_RSTCAUSE.POWER_LOSS : Field := ⟨0x000C, 5, 1, .w1c, 0, true⟩
def SYS_RSTCAUSE.ORDERLY : Field := ⟨0x000C, 4, 1, .w1c, 0, true⟩
def SYS_RSTCAUSE.CMD : Field := ⟨0x000C, 3, 1, .w1c, 0, true⟩
def SYS_RSTCAUSE.LONG : Field := ⟨0x000C, 2, 1, .w1c, 0, true⟩
def SYS_RSTCAUSE.NRESET : Field := ⟨0x000C, 1, 1, .w1c, 0, true⟩
def SYS_RSTCAUSE.POR : Field := ⟨0x000C, 0, 1, .w1c, 1, true⟩

/-! `SYS_TIME_HI`, Table 10.12. -/

def SYS_TIME_HI.TIME : Field := ⟨0x0014, 0, 32, .ro, 0, true⟩

/-! `SYS_PDCFG`, Table 10.12. -/

def SYS_PDCFG.DISTMO : Field := ⟨0x0018, 16, 8, .rw, 0x32, false⟩
def SYS_PDCFG.TMAX : Field := ⟨0x0018, 0, 16, .rw, 0x0FA0, false⟩

/-! `SYS_PDSTAT`, Table 10.12. -/

def SYS_PDSTAT.DUR : Field := ⟨0x001C, 16, 16, .ro, 0, true⟩
def SYS_PDSTAT.TRIG : Field := ⟨0x001C, 4, 4, .ro, 0, true⟩
def SYS_PDSTAT.TMAXHIT : Field := ⟨0x001C, 1, 1, .ro, 0, true⟩
def SYS_PDSTAT.DONE : Field := ⟨0x001C, 0, 1, .ro, 0, true⟩

/-! `SYS_PDFAIL`, Table 10.12. -/

def SYS_PDFAIL.FAIL : Field := ⟨0x0020, 0, 32, .w1c, 0, true⟩

/-! `SYS_STBY`, Table 10.12. -/

def SYS_STBY.WAKET : Field := ⟨0x0024, 0, 16, .rw, 0, true⟩

/-! `SYS_EVT`, Table 10.12. -/

def SYS_EVT.EVT : Field := ⟨0x0028, 0, 7, .w1c, 0, false⟩

/-! `SYS_BRST`, Table 10.16. -/

def SYS_BRST.KEY : Field := ⟨0x002C, 16, 16, .rw, 0, false⟩
def SYS_BRST.GO : Field := ⟨0x002C, 15, 1, .sc, 0, false⟩
def SYS_BRST.RESULT : Field := ⟨0x002C, 12, 2, .ro, 0, false⟩
def SYS_BRST.UNIT : Field := ⟨0x002C, 0, 8, .rw, 0, false⟩

/-! `ID_ROM`, Table 17.13. -/

def ID_ROM.PATCHES : Field := ⟨0x0080, 16, 8, .ro, 0, false⟩
def ID_ROM.EDITION : Field := ⟨0x0080, 0, 8, .ro, 0x15, false⟩

/-! `ID_DEVICE`, Table 17.13. -/

def ID_DEVICE.PART : Field := ⟨0x0084, 16, 16, .ro, 0x4820, false⟩
/-- The silicon step (Table 17.13). (DESIGN CHOICE, log entry 99) -/
def ID_DEVICE.STEP : Field := ⟨0x0084, 0, 8, .ro, 0, false⟩

/-! `ID_SERIAL_LO`, Table 17.13. -/

def ID_SERIAL_LO.SERIAL : Field := ⟨0x0088, 0, 32, .ro, 0, false⟩

/-! `ID_SERIAL_HI`, Table 17.13. -/

def ID_SERIAL_HI.SERIAL : Field := ⟨0x008C, 0, 32, .ro, 0, false⟩

/-! `ID_ORDER`, Table 17.13. -/

def ID_ORDER.GRADE : Field := ⟨0x0090, 8, 8, .ro, 0, false⟩
def ID_ORDER.PROV : Field := ⟨0x0090, 0, 1, .ro, 0, false⟩

/-! `PP_CTRL`, Table 2.13. -/

def PP_CTRL.APPLY : Field := ⟨0x0100, 7, 1, .sc, 0, false⟩
def PP_CTRL.CLRFLT : Field := ⟨0x0100, 6, 1, .sc, 0, false⟩
def PP_CTRL.SNOW_ARM : Field := ⟨0x0100, 5, 1, .rw, 0, false⟩
def PP_CTRL.DIS_TBLOCK : Field := ⟨0x0100, 4, 1, .rw, 0, false⟩
def PP_CTRL.BANK_EN : Field := ⟨0x0100, 3, 1, .rw, 1, false⟩

/-! `PP_STATUS`, Table 2.14. -/

def PP_STATUS.REASON : Field := ⟨0x0104, 16, 8, .ro, 0, false⟩
def PP_STATUS.PEND : Field := ⟨0x0104, 15, 1, .ro, 0, false⟩
def PP_STATUS.LOCKOUT : Field := ⟨0x0104, 14, 1, .ro, 0, false⟩
def PP_STATUS.BKB_OCL : Field := ⟨0x0104, 13, 1, .ro, 0, false⟩
def PP_STATUS.ILIM_ACT : Field := ⟨0x0104, 12, 1, .ro, 0, false⟩
def PP_STATUS.BANK_AVAIL : Field := ⟨0x0104, 11, 1, .ro, 0, false⟩
def PP_STATUS.VAUX_OK : Field := ⟨0x0104, 10, 1, .ro, 0, false⟩
def PP_STATUS.STATE : Field := ⟨0x0104, 0, 4, .ro, 0, false⟩

/-! `PP_VAUX_THR`, Table 2.15. -/

def PP_VAUX_THR.OV : Field := ⟨0x0108, 16, 8, .rw, 0xf8, false⟩
def PP_VAUX_THR.UV_RISE : Field := ⟨0x0108, 8, 8, .rw, 0x24, false⟩
def PP_VAUX_THR.UV_FALL : Field := ⟨0x0108, 0, 8, .rw, 0x22, false⟩

/-! `PP_VSYS_THR`, Table 2.16. -/

def PP_VSYS_THR.VSYS_UV : Field := ⟨0x010C, 0, 8, .rw, 0x1c, false⟩

/-! `PP_ILIM`, Table 2.17. -/

def PP_ILIM.SHUNT : Field := ⟨0x0110, 16, 16, .rw, 0x7d0, false⟩
def PP_ILIM.ILIM : Field := ⟨0x0110, 0, 16, .rw, 0x320, false⟩

/-! `PP_TIMERS`, Table 2.18. -/

def PP_TIMERS.AUX_QUAL : Field := ⟨0x0114, 16, 10, .rw, 0x64, false⟩
def PP_TIMERS.SOA_T : Field := ⟨0x0114, 0, 8, .rw, 0xa, false⟩

/-! `PP_BKB_LIM`, Table 2.19. -/

def PP_BKB_LIM.OC : Field := ⟨0x0118, 16, 8, .rw, 0x96, false⟩
def PP_BKB_LIM.PLIM : Field := ⟨0x0118, 0, 16, .rw, 0x2ee0, false⟩

/-! `PP_BTN`, Table 2.20. -/

def PP_BTN.LONG_EN : Field := ⟨0x011C, 24, 1, .rw, 1, true⟩
def PP_BTN.SNOW_BTN : Field := ⟨0x011C, 8, 8, .rw, 5, true⟩
def PP_BTN.LONG : Field := ⟨0x011C, 0, 8, .rw, 0xc, true⟩

/-! `PP_SNOW`, Table 2.21. -/

def PP_SNOW.ENTER : Field := ⟨0x0120, 16, 1, .sc, 0, false⟩
def PP_SNOW.KEY : Field := ⟨0x0120, 0, 16, .rw, 0, false⟩

/-! `PP_EVT`, Table 2.22. -/

def PP_EVT.EVT : Field := ⟨0x0124, 0, 15, .w1c, 0, false⟩

/-! `CHG_CTRL`, Table 2.23. -/

def CHG_CTRL.SUSPEND : Field := ⟨0x0200, 3, 1, .rw, 0, false⟩
def CHG_CTRL.RECHG_EN : Field := ⟨0x0200, 2, 1, .rw, 1, false⟩
def CHG_CTRL.CLRFLT : Field := ⟨0x0200, 1, 1, .sc, 0, false⟩
def CHG_CTRL.EN : Field := ⟨0x0200, 0, 1, .rw, 0, false⟩

/-! `CHG_STATUS`, Table 2.24. -/

def CHG_STATUS.REASON : Field := ⟨0x0204, 16, 8, .ro, 0, false⟩
def CHG_STATUS.TRATE : Field := ⟨0x0204, 12, 2, .ro, 0, false⟩
def CHG_STATUS.LIMIT : Field := ⟨0x0204, 8, 2, .ro, 0, false⟩
def CHG_STATUS.SUSP : Field := ⟨0x0204, 4, 4, .ro, 0, false⟩
def CHG_STATUS.STATE : Field := ⟨0x0204, 0, 4, .ro, 0, false⟩

/-! `CHG_BANK`, Table 2.25. -/

def CHG_BANK.FSW : Field := ⟨0x0208, 16, 8, .rwe, 0x19, false⟩
def CHG_BANK.CELLS : Field := ⟨0x0208, 8, 5, .rwe, 0x10, false⟩
def CHG_BANK.CHEM : Field := ⟨0x0208, 0, 2, .rwe, 0, false⟩

/-! `CHG_VREG`, Table 2.26. -/

def CHG_VREG.VPRE_CELL : Field := ⟨0x020C, 16, 12, .rwe, 0xaf0, false⟩
def CHG_VREG.VREG_CELL : Field := ⟨0x020C, 0, 12, .rwe, 0xdde, false⟩

/-! `CHG_VTHR`, Table 2.27. -/

def CHG_VTHR.VCUT_CELL : Field := ⟨0x0210, 20, 12, .rwe, 0x9c4, false⟩
def CHG_VTHR.VSHORT_CELL : Field := ⟨0x0210, 8, 12, .rwe, 0x1f4, false⟩
def CHG_VTHR.VRECH_CELL : Field := ⟨0x0210, 0, 8, .rwe, 0x64, false⟩

/-! `CHG_I`, Table 2.28. -/

def CHG_I.IPRE : Field := ⟨0x0214, 16, 12, .rw, 0x32, false⟩
def CHG_I.ICHG : Field := ⟨0x0214, 0, 12, .rw, 0x1f4, false⟩

/-! `CHG_ITERM`, Table 2.29. -/

def CHG_ITERM.EFF : Field := ⟨0x0218, 8, 8, .rw, 0xf0, false⟩
def CHG_ITERM.ITERM : Field := ⟨0x0218, 0, 8, .rw, 0x19, false⟩

/-! `CHG_SHUNT`, Table 2.30. -/

def CHG_SHUNT.SHUNT : Field := ⟨0x021C, 0, 16, .rwe, 0x3e8, false⟩

/-! `CHG_TIMER`, Table 2.31. -/

def CHG_TIMER.TSHORT : Field := ⟨0x0220, 24, 8, .rw, 0x3c, false⟩
def CHG_TIMER.TTOP : Field := ⟨0x0220, 16, 8, .rw, 0x1e, false⟩
def CHG_TIMER.TSAFE : Field := ⟨0x0220, 0, 16, .rw, 0x258, false⟩

/-! `CHG_TELAPSED`, Table 2.32. -/

def CHG_TELAPSED.ELAPSED : Field := ⟨0x0224, 0, 32, .ro, 0, false⟩

/-! `CHG_TWIN`, Table 2.33. -/

def CHG_TWIN.TDIS_HI : Field := ⟨0x0228, 24, 8, .rwe, 0x3c, false⟩
def CHG_TWIN.TDIS_LO : Field := ⟨0x0228, 16, 8, .rwe, 0xec, false⟩
def CHG_TWIN.TCHG_HI : Field := ⟨0x0228, 8, 8, .rwe, 0x2d, false⟩
def CHG_TWIN.TCHG_LO : Field := ⟨0x0228, 0, 8, .rwe, 0, false⟩

/-! `CHG_NTC`, Table 2.34. -/

def CHG_NTC.NTC_SEL : Field := ⟨0x022C, 0, 4, .rwe, 1, false⟩

/-! `CHG_EVT`, Table 2.35. -/

def CHG_EVT.EVT : Field := ⟨0x0230, 0, 10, .w1c, 0, false⟩

/-! `LP_CTRL`, Table 3.10. -/

def LP_CTRL.CLRDL (n : Nat) : Field := ⟨0x0400 + n * 0x100, 7, 1, .sc, 0, false⟩
def LP_CTRL.PREBIAS (n : Nat) : Field := ⟨0x0400 + n * 0x100, 2, 1, .rwe, 1, false⟩
def LP_CTRL.OST_EN (n : Nat) : Field := ⟨0x0400 + n * 0x100, 1, 1, .rwe, 1, false⟩
def LP_CTRL.EN (n : Nat) : Field := ⟨0x0400 + n * 0x100, 0, 1, .ro, 0, false⟩

/-! `LP_STATUS`, Table 3.11. -/

def LP_STATUS.DLCNT (n : Nat) : Field := ⟨0x0404 + n * 0x100, 24, 8, .ro, 0, false⟩
def LP_STATUS.REASON (n : Nat) : Field := ⟨0x0404 + n * 0x100, 16, 8, .ro, 0, false⟩
def LP_STATUS.NACT (n : Nat) : Field := ⟨0x0404 + n * 0x100, 8, 5, .ro, 0, false⟩
def LP_STATUS.DEGRADED (n : Nat) : Field := ⟨0x0404 + n * 0x100, 7, 1, .ro, 0, false⟩
def LP_STATUS.OST_ACT (n : Nat) : Field := ⟨0x0404 + n * 0x100, 6, 1, .ro, 0, false⟩
def LP_STATUS.ILIM_ACT (n : Nat) : Field := ⟨0x0404 + n * 0x100, 5, 1, .ro, 0, false⟩
def LP_STATUS.STATE (n : Nat) : Field := ⟨0x0404 + n * 0x100, 0, 4, .ro, 0, false⟩

/-! `LP_PHMASK`, Table 3.12. -/

def LP_PHMASK.MASK (n : Nat) : Field := ⟨0x0408 + n * 0x100, 0, 20, .rwe, 0, false⟩

/-! `LP_PWM`, Table 3.13. -/

def LP_PWM.FSW (n : Nat) : Field := ⟨0x040C + n * 0x100, 16, 12, .rwe, 0x1f4, false⟩
def LP_PWM.DMAX (n : Nat) : Field := ⟨0x040C + n * 0x100, 0, 8, .rwe, 0x32, false⟩

/-! `LP_VCFG`, Table 3.14. -/

def LP_VCFG.DIV (n : Nat) : Field := ⟨0x0410 + n * 0x100, 24, 2, .rwe, 0, false⟩
def LP_VCFG.VMAX (n : Nat) : Field := ⟨0x0410 + n * 0x100, 12, 12, .rwe, 0x7d0, false⟩
def LP_VCFG.VBOOT (n : Nat) : Field := ⟨0x0410 + n * 0x100, 0, 12, .rwe, 0x640, false⟩

/-! `LP_VREF`, Table 3.15. -/

def LP_VREF.ACTUAL (n : Nat) : Field := ⟨0x0414 + n * 0x100, 16, 14, .ro, 0, false⟩
def LP_VREF.TARGET (n : Nat) : Field := ⟨0x0414 + n * 0x100, 0, 12, .ro, 0, false⟩

/-! `LP_SLEW`, Table 3.16. -/

def LP_SLEW.SS (n : Nat) : Field := ⟨0x0418 + n * 0x100, 16, 10, .rwe, 0xa, false⟩
def LP_SLEW.SLEW (n : Nat) : Field := ⟨0x0418 + n * 0x100, 0, 10, .rw, 0x64, false⟩

/-! `LP_COMP0`, Table 3.17. -/

def LP_COMP0.KP (n : Nat) : Field := ⟨0x041C + n * 0x100, 16, 16, .rwe, 0x1000, false⟩
def LP_COMP0.KI (n : Nat) : Field := ⟨0x041C + n * 0x100, 0, 16, .rwe, 0x80, false⟩

/-! `LP_COMP1`, Table 3.18. -/

def LP_COMP1.KD (n : Nat) : Field := ⟨0x0420 + n * 0x100, 16, 16, .rwe, 0, false⟩
def LP_COMP1.KF (n : Nat) : Field := ⟨0x0420 + n * 0x100, 0, 8, .rwe, 0, false⟩

/-! `LP_SLOPE`, Table 3.19. -/

def LP_SLOPE.SE (n : Nat) : Field := ⟨0x0424 + n * 0x100, 0, 16, .rwe, 0, false⟩

/-! `LP_ILIM`, Table 3.20. -/

def LP_ILIM.PHLIM (n : Nat) : Field := ⟨0x0428 + n * 0x100, 16, 12, .rwe, 0x960, false⟩
def LP_ILIM.NEGLIM (n : Nat) : Field := ⟨0x0428 + n * 0x100, 0, 12, .rwe, 0x190, false⟩

/-! `LP_OST`, Table 3.21. -/

def LP_OST.TMAX (n : Nat) : Field := ⟨0x042C + n * 0x100, 24, 8, .rwe, 0x14, false⟩
def LP_OST.BRAKE (n : Nat) : Field := ⟨0x042C + n * 0x100, 16, 8, .rwe, 0, false⟩
def LP_OST.REL (n : Nat) : Field := ⟨0x042C + n * 0x100, 8, 8, .rwe, 0xa, false⟩
def LP_OST.THR (n : Nat) : Field := ⟨0x042C + n * 0x100, 0, 8, .rwe, 0x14, false⟩

/-! `LP_PLANT`, Table 3.22. -/

def LP_PLANT.LPH (n : Nat) : Field := ⟨0x0430 + n * 0x100, 16, 12, .rwe, 0x96, false⟩
def LP_PLANT.VIN_CH (n : Nat) : Field := ⟨0x0430 + n * 0x100, 0, 7, .rwe, 0x7f, false⟩

/-! `LP_CFG`, Table 3.23. -/

def LP_CFG.SRDY (n : Nat) : Field := ⟨0x0434 + n * 0x100, 24, 8, .rwe, 0x19, false⟩
def LP_CFG.NMIN (n : Nat) : Field := ⟨0x0434 + n * 0x100, 8, 5, .rwe, 1, false⟩
def LP_CFG.SUP (n : Nat) : Field := ⟨0x0434 + n * 0x100, 0, 7, .rwe, 0x7f, false⟩

/-! `LP_IOUT`, Table 3.24. -/

def LP_IOUT.IOUT (n : Nat) : Field := ⟨0x0438 + n * 0x100, 0, 32, .ro, 0, false⟩

/-! `LP_PIN`, Table 3.25. -/

def LP_PIN.PIN (n : Nat) : Field := ⟨0x043C + n * 0x100, 0, 32, .ro, 0, false⟩

/-! `LP_EVT`, Table 3.26. -/

def LP_EVT.EVT (n : Nat) : Field := ⟨0x0440 + n * 0x100, 0, 8, .w1c, 0, false⟩

/-! `PH_FAULTED`, Table 3.31. -/

def PH_FAULTED.MASK : Field := ⟨0x0A10, 0, 20, .w1c, 0, false⟩

/-! `PH_CFG`, Table 3.32. -/

def PH_CFG.OUTLIER : Field := ⟨0x0A14, 0, 8, .rw, 0x19, false⟩

/-! `PH_CS`, Table 3.33. -/

def PH_CS.GAIN (n : Nat) : Field := ⟨0x0B00 + n / 10 * 0x100 + n % 10 * 0x10, 16, 16, .rwe, 0x1388, false⟩
def PH_CS.OFS (n : Nat) : Field := ⟨0x0B00 + n / 10 * 0x100 + n % 10 * 0x10, 0, 16, .rwe, 0, false⟩

/-! `PH_STATUS`, Table 3.34. -/

def PH_STATUS.CAUSES (n : Nat) : Field := ⟨0x0B04 + n / 10 * 0x100 + n % 10 * 0x10, 24, 5, .ro, 0, false⟩
def PH_STATUS.OWNER (n : Nat) : Field := ⟨0x0B04 + n / 10 * 0x100 + n % 10 * 0x10, 16, 3, .ro, 7, false⟩
def PH_STATUS.FAILCNT (n : Nat) : Field := ⟨0x0B04 + n / 10 * 0x100 + n % 10 * 0x10, 12, 2, .ro, 0, false⟩
def PH_STATUS.CAUSE (n : Nat) : Field := ⟨0x0B04 + n / 10 * 0x100 + n % 10 * 0x10, 8, 4, .ro, 0, false⟩
def PH_STATUS.STATE (n : Nat) : Field := ⟨0x0B04 + n / 10 * 0x100 + n % 10 * 0x10, 0, 4, .ro, 0, false⟩

/-! `PH_MEAS`, Table 3.35. -/

def PH_MEAS.IPK (n : Nat) : Field := ⟨0x0B08 + n / 10 * 0x100 + n % 10 * 0x10, 16, 12, .ro, 0, false⟩
def PH_MEAS.TON (n : Nat) : Field := ⟨0x0B08 + n / 10 * 0x100 + n % 10 * 0x10, 0, 16, .ro, 0, false⟩

/-! `VCL_CTRL`, Table 4.10. -/

def VCL_CTRL.CLRCNT (p : Nat) : Field := ⟨0x0D00 + p * 0x40, 2, 1, .sc, 0, false⟩
def VCL_CTRL.HOLD (p : Nat) : Field := ⟨0x0D00 + p * 0x40, 1, 1, .rw, 0, false⟩
def VCL_CTRL.EN (p : Nat) : Field := ⟨0x0D00 + p * 0x40, 0, 1, .rw, 0, false⟩

/-! `VCL_CFG`, Table 4.11. -/

def VCL_CFG.TSET (p : Nat) : Field := ⟨0x0D04 + p * 0x40, 24, 8, .rwe, 0x14, false⟩
def VCL_CFG.BAND (p : Nat) : Field := ⟨0x0D04 + p * 0x40, 16, 8, .rwe, 8, false⟩
def VCL_CFG.AMASK (p : Nat) : Field := ⟨0x0D04 + p * 0x40, 8, 6, .rwe, 0x3f, false⟩
def VCL_CFG.LOOP (p : Nat) : Field := ⟨0x0D04 + p * 0x40, 0, 3, .rwe, p, false⟩

/-! `VCL_STATUS`, Table 4.12. -/

def VCL_STATUS.REASON (p : Nat) : Field := ⟨0x0D08 + p * 0x40, 24, 8, .ro, 0, false⟩
def VCL_STATUS.LASTREF (p : Nat) : Field := ⟨0x0D08 + p * 0x40, 16, 8, .ro, 0, false⟩
def VCL_STATUS.QDEPTH (p : Nat) : Field := ⟨0x0D08 + p * 0x40, 12, 4, .ro, 0, false⟩
def VCL_STATUS.INFLIGHT (p : Nat) : Field := ⟨0x0D08 + p * 0x40, 11, 1, .ro, 0, false⟩
def VCL_STATUS.CURTAG (p : Nat) : Field := ⟨0x0D08 + p * 0x40, 9, 2, .ro, 0, false⟩
def VCL_STATUS.DSLEW (p : Nat) : Field := ⟨0x0D08 + p * 0x40, 0, 9, .ro, 0, false⟩

/-! `VCL_PST`, Table 4.13. -/

def VCL_PST.VALID (p : Nat) (q : Nat) : Field := ⟨0x0D0C + p * 0x40 + q * 4, 31, 1, .rw, 0, false⟩
def VCL_PST.SLEW (p : Nat) (q : Nat) : Field := ⟨0x0D0C + p * 0x40 + q * 4, 12, 9, .rw, 0, false⟩
def VCL_PST.VID (p : Nat) (q : Nat) : Field := ⟨0x0D0C + p * 0x40 + q * 4, 0, 12, .rw, 0, false⟩

/-! `VCL_CNT0`, Table 4.14. -/

def VCL_CNT0.ACCEPTED (p : Nat) : Field := ⟨0x0D1C + p * 0x40, 16, 16, .ro, 0, false⟩
def VCL_CNT0.REFUSED (p : Nat) : Field := ⟨0x0D1C + p * 0x40, 0, 16, .ro, 0, false⟩

/-! `VCL_CNT1`, Table 4.15. -/

def VCL_CNT1.REACHED (p : Nat) : Field := ⟨0x0D20 + p * 0x40, 16, 16, .ro, 0, false⟩
def VCL_CNT1.SUPERSEDED (p : Nat) : Field := ⟨0x0D20 + p * 0x40, 0, 16, .ro, 0, false⟩

/-! `VCL_CNT2`, Table 4.16. -/

def VCL_CNT2.ABORTED (p : Nat) : Field := ⟨0x0D24 + p * 0x40, 16, 16, .ro, 0, false⟩
def VCL_CNT2.DEADLINE (p : Nat) : Field := ⟨0x0D24 + p * 0x40, 0, 16, .ro, 0, false⟩

/-! `VCL_CNT3`, Table 4.17. -/

def VCL_CNT3.CRCERR (p : Nat) : Field := ⟨0x0D28 + p * 0x40, 16, 16, .ro, 0, false⟩
def VCL_CNT3.FRAMERR (p : Nat) : Field := ⟨0x0D28 + p * 0x40, 0, 16, .ro, 0, false⟩

/-! `VCL_EVT`, Table 4.18. -/

def VCL_EVT.EVT (p : Nat) : Field := ⟨0x0D2C + p * 0x40, 0, 8, .w1c, 0, false⟩

/-! `VCL_ALERT`, Table 4.19. -/

def VCL_ALERT.LATCH (p : Nat) : Field := ⟨0x0D30 + p * 0x40, 0, 6, .ro, 0, false⟩

/-! `BK_CTRL`, Table 5.6. -/

def BK_CTRL.CLRFLT (n : Nat) : Field := ⟨0x0E00 + n * 0x20, 7, 1, .sc, 0, false⟩
def BK_CTRL.DISCH (n : Nat) : Field := ⟨0x0E00 + n * 0x20, 2, 1, .rwe, 1, false⟩
def BK_CTRL.FPWM (n : Nat) : Field := ⟨0x0E00 + n * 0x20, 1, 1, .rwe, 0, false⟩
def BK_CTRL.EN (n : Nat) : Field := ⟨0x0E00 + n * 0x20, 0, 1, .ro, 0, false⟩

/-! `BK_STATUS`, Table 5.7. -/

def BK_STATUS.REASON (n : Nat) : Field := ⟨0x0E04 + n * 0x20, 16, 8, .ro, 0, false⟩
def BK_STATUS.EVT (n : Nat) : Field := ⟨0x0E04 + n * 0x20, 8, 5, .w1c, 0, false⟩
def BK_STATUS.SHORTL (n : Nat) : Field := ⟨0x0E04 + n * 0x20, 7, 1, .ro, 0, false⟩
def BK_STATUS.LIMSRC (n : Nat) : Field := ⟨0x0E04 + n * 0x20, 6, 1, .ro, 0, false⟩
def BK_STATUS.ILIM_ACT (n : Nat) : Field := ⟨0x0E04 + n * 0x20, 5, 1, .ro, 0, false⟩
def BK_STATUS.VIN_OK (n : Nat) : Field := ⟨0x0E04 + n * 0x20, 4, 1, .ro, 0, false⟩
def BK_STATUS.STATE (n : Nat) : Field := ⟨0x0E04 + n * 0x20, 0, 4, .ro, 0, false⟩

/-! `BK_VOUT`, Table 5.8. -/

def BK_VOUT.VMAX (n : Nat) : Field := ⟨0x0E08 + n * 0x20, 16, 11, .rwe, 0x44c, false⟩
def BK_VOUT.VSET (n : Nat) : Field := ⟨0x0E08 + n * 0x20, 0, 11, .rwe, 0x294, false⟩

/-! `BK_CFG`, Table 5.9. -/

def BK_CFG.ILIM (n : Nat) : Field := ⟨0x0E0C + n * 0x20, 24, 8, .rwe, 0x48, false⟩
def BK_CFG.FSW (n : Nat) : Field := ⟨0x0E0C + n * 0x20, 16, 8, .rwe, 0x16, false⟩
def BK_CFG.SS (n : Nat) : Field := ⟨0x0E0C + n * 0x20, 7, 9, .rwe, 0xa, false⟩
def BK_CFG.SUP (n : Nat) : Field := ⟨0x0E0C + n * 0x20, 0, 7, .rwe, 0x7f, false⟩

/-! `VDRV_STATUS`, Table 5.10. -/

def VDRV_STATUS.EVT : Field := ⟨0x0EC0, 8, 2, .w1c, 0, false⟩
def VDRV_STATUS.ILIM_ACT : Field := ⟨0x0EC0, 1, 1, .ro, 0, false⟩
def VDRV_STATUS.PG : Field := ⟨0x0EC0, 0, 1, .ro, 0, false⟩

/-! `AON_CFG`, Table 5.11. -/

def AON_CFG.SNOW_KEEP : Field := ⟨0x0ED0, 0, 1, .rw, 0, true⟩

/-! `AON_STATUS`, Table 5.12. -/

def AON_STATUS.EVT : Field := ⟨0x0ED4, 8, 1, .w1c, 0, false⟩
def AON_STATUS.ILIM_ACT : Field := ⟨0x0ED4, 0, 1, .ro, 0, false⟩

/-! `LDO_CTRL`, Table 5.13. -/

def LDO_CTRL.DISCH (n : Nat) : Field := ⟨0x0F00 + n * 0x10, 2, 1, .rwe, 1, false⟩
def LDO_CTRL.CLRFLT (n : Nat) : Field := ⟨0x0F00 + n * 0x10, 1, 1, .sc, 0, false⟩
def LDO_CTRL.EN (n : Nat) : Field := ⟨0x0F00 + n * 0x10, 0, 1, .ro, 0, false⟩

/-! `LDO_STATUS`, Table 5.14. -/

def LDO_STATUS.REASON (n : Nat) : Field := ⟨0x0F04 + n * 0x10, 16, 8, .ro, 0, false⟩
def LDO_STATUS.EVT (n : Nat) : Field := ⟨0x0F04 + n * 0x10, 8, 4, .w1c, 0, false⟩
def LDO_STATUS.SHORTL (n : Nat) : Field := ⟨0x0F04 + n * 0x10, 7, 1, .ro, 0, false⟩
def LDO_STATUS.ILIM_ACT (n : Nat) : Field := ⟨0x0F04 + n * 0x10, 5, 1, .ro, 0, false⟩
def LDO_STATUS.STATE (n : Nat) : Field := ⟨0x0F04 + n * 0x10, 0, 4, .ro, 0, false⟩

/-! `LDO_CFG`, Table 5.15. -/

def LDO_CFG.SRC (n : Nat) : Field := ⟨0x0F08 + n * 0x10, 24, 5, .rwe, 0x1f, false⟩
def LDO_CFG.SUP (n : Nat) : Field := ⟨0x0F08 + n * 0x10, 16, 7, .rwe, 0x7f, false⟩
def LDO_CFG.VSET (n : Nat) : Field := ⟨0x0F08 + n * 0x10, 0, 11, .rwe, 0x168, false⟩

/-! `SW_CTRL`, Table 5.13. -/

def SW_CTRL.DISCH (n : Nat) : Field := ⟨0x0F80 + n * 0x10, 2, 1, .rwe, 1, false⟩
def SW_CTRL.CLRFLT (n : Nat) : Field := ⟨0x0F80 + n * 0x10, 1, 1, .sc, 0, false⟩
def SW_CTRL.EN (n : Nat) : Field := ⟨0x0F80 + n * 0x10, 0, 1, .ro, 0, false⟩

/-! `SW_STATUS`, Table 5.14. -/

def SW_STATUS.REASON (n : Nat) : Field := ⟨0x0F84 + n * 0x10, 16, 8, .ro, 0, false⟩
def SW_STATUS.EVT (n : Nat) : Field := ⟨0x0F84 + n * 0x10, 8, 4, .w1c, 0, false⟩
def SW_STATUS.SHORTL (n : Nat) : Field := ⟨0x0F84 + n * 0x10, 7, 1, .ro, 0, false⟩
def SW_STATUS.ILIM_ACT (n : Nat) : Field := ⟨0x0F84 + n * 0x10, 5, 1, .ro, 0, false⟩
def SW_STATUS.STATE (n : Nat) : Field := ⟨0x0F84 + n * 0x10, 0, 4, .ro, 0, false⟩

/-! `SW_CFG`, Table 5.16. -/

def SW_CFG.SRC (n : Nat) : Field := ⟨0x0F88 + n * 0x10, 24, 5, .rwe, 0x1f, false⟩
def SW_CFG.SUP (n : Nat) : Field := ⟨0x0F88 + n * 0x10, 16, 7, .rwe, 0x7f, false⟩
def SW_CFG.TRISE (n : Nat) : Field := ⟨0x0F88 + n * 0x10, 0, 8, .rwe, 0xa, false⟩

/-! `SUP_CFG`, Table 6.7. -/

def SUP_CFG.TICK (n : Nat) : Field := ⟨0x1000 + n / 16 * 0x100 + n % 16 * 0xC, 24, 4, .rwe, 0, false⟩
def SUP_CFG.M (n : Nat) : Field := ⟨0x1000 + n / 16 * 0x100 + n % 16 * 0xC, 20, 4, .rwe, 5, false⟩
def SUP_CFG.N (n : Nat) : Field := ⟨0x1000 + n / 16 * 0x100 + n % 16 * 0xC, 16, 4, .rwe, 3, false⟩
def SUP_CFG.SRC (n : Nat) : Field := ⟨0x1000 + n / 16 * 0x100 + n % 16 * 0xC, 8, 7, .rwe, 0x7f, false⟩
def SUP_CFG.TRACK (n : Nat) : Field := ⟨0x1000 + n / 16 * 0x100 + n % 16 * 0xC, 7, 1, .rwe, 0, false⟩
def SUP_CFG.HYST (n : Nat) : Field := ⟨0x1000 + n / 16 * 0x100 + n % 16 * 0xC, 4, 3, .rwe, 2, false⟩
def SUP_CFG.EN (n : Nat) : Field := ⟨0x1000 + n / 16 * 0x100 + n % 16 * 0xC, 0, 1, .rw, 0, false⟩

/-! `SUP_LVL`, Table 6.8. -/

def SUP_LVL.FHI (n : Nat) : Field := ⟨0x1004 + n / 16 * 0x100 + n % 16 * 0xC, 24, 8, .rwe, 0x28, false⟩
def SUP_LVL.WHI (n : Nat) : Field := ⟨0x1004 + n / 16 * 0x100 + n % 16 * 0xC, 16, 8, .rwe, 0x14, false⟩
def SUP_LVL.WLO (n : Nat) : Field := ⟨0x1004 + n / 16 * 0x100 + n % 16 * 0xC, 8, 8, .rwe, 0x14, false⟩
def SUP_LVL.FLO (n : Nat) : Field := ⟨0x1004 + n / 16 * 0x100 + n % 16 * 0xC, 0, 8, .rwe, 0x28, false⟩

/-! `SUP_NOM`, Table 6.9. -/

def SUP_NOM.SETTLE (n : Nat) : Field := ⟨0x1008 + n / 16 * 0x100 + n % 16 * 0xC, 24, 8, .rwe, 0x4a, false⟩
def SUP_NOM.VNOM (n : Nat) : Field := ⟨0x1008 + n / 16 * 0x100 + n % 16 * 0xC, 0, 16, .rwe, 0, false⟩

/-! `SUP_STAT`, Table 6.10. -/

def SUP_STAT.PG (n : Nat) : Field := ⟨0x10C0 + n / 16 * 0x100 + n / 4 % 4 * 4, n % 4 * 8 + 7, 1, .ro, 0, false⟩
def SUP_STAT.PGS (n : Nat) : Field := ⟨0x10C0 + n / 16 * 0x100 + n / 4 % 4 * 4, n % 4 * 8 + 6, 1, .ro, 0, false⟩
def SUP_STAT.ARMED (n : Nat) : Field := ⟨0x10C0 + n / 16 * 0x100 + n / 4 % 4 * 4, n % 4 * 8 + 5, 1, .ro, 0, false⟩
def SUP_STAT.FHI (n : Nat) : Field := ⟨0x10C0 + n / 16 * 0x100 + n / 4 % 4 * 4, n % 4 * 8 + 4, 1, .ro, 0, false⟩
def SUP_STAT.WHI (n : Nat) : Field := ⟨0x10C0 + n / 16 * 0x100 + n / 4 % 4 * 4, n % 4 * 8 + 3, 1, .ro, 0, false⟩
def SUP_STAT.WLO (n : Nat) : Field := ⟨0x10C0 + n / 16 * 0x100 + n / 4 % 4 * 4, n % 4 * 8 + 2, 1, .ro, 0, false⟩
def SUP_STAT.FLO (n : Nat) : Field := ⟨0x10C0 + n / 16 * 0x100 + n / 4 % 4 * 4, n % 4 * 8 + 1, 1, .ro, 0, false⟩
def SUP_STAT.CHKF (n : Nat) : Field := ⟨0x10C0 + n / 16 * 0x100 + n / 4 % 4 * 4, n % 4 * 8 + 0, 1, .ro, 0, false⟩

/-! `SUP_CHAT`, Table 6.11. -/

def SUP_CHAT.COUNT (n : Nat) : Field := ⟨0x10D0 + n / 16 * 0x100 + n / 4 % 4 * 4, n % 4 * 8 + 0, 8, .ro, 0, false⟩

/-! `SUP_EVT`, Table 6.12. -/

def SUP_EVT.EVT (n : Nat) : Field := ⟨0x10E0 + n / 16 * 0x100 + n / 4 % 4 * 4, n % 4 * 8 + 0, 7, .w1c, 0, false⟩

/-! `SUP_STATUS`, Table 6.13. -/

def SUP_STATUS.REASON : Field := ⟨0x10F0, 16, 8, .ro, 0, false⟩
def SUP_STATUS.RCH : Field := ⟨0x10F0, 0, 7, .ro, 0, false⟩

/-! `SUP_CHK`, Table 6.14. -/

def SUP_CHK.FAILS : Field := ⟨0x10F4, 16, 8, .ro, 0, false⟩
def SUP_CHK.NEXT : Field := ⟨0x10F4, 8, 6, .ro, 0, false⟩
def SUP_CHK.EN : Field := ⟨0x10F4, 0, 1, .rw, 1, false⟩

/-! `SUP_CMPCHK`, Table 6.15. -/

def SUP_CMPCHK.FAIL : Field := ⟨0x10F8, 0, 20, .w1c, 0, false⟩

/-! `CAM_CTRL`, Table 7.16. -/

def CAM_CTRL.CLRCNT (e : Nat) : Field := ⟨0x1400 + e * 0x100, 1, 1, .sc, 0, false⟩
def CAM_CTRL.EN (e : Nat) : Field := ⟨0x1400 + e * 0x100, 0, 1, .rw, 0, false⟩

/-! `CAM_STATUS`, Table 7.17. -/

def CAM_STATUS.REASON (e : Nat) : Field := ⟨0x1404 + e * 0x100, 16, 8, .ro, 0, false⟩
def CAM_STATUS.CURTASK (e : Nat) : Field := ⟨0x1404 + e * 0x100, 8, 4, .ro, 0, false⟩
def CAM_STATUS.PDOWN (e : Nat) : Field := ⟨0x1404 + e * 0x100, 5, 1, .ro, 0, false⟩
def CAM_STATUS.RINGOWN (e : Nat) : Field := ⟨0x1404 + e * 0x100, 4, 1, .ro, 0, false⟩
def CAM_STATUS.STATE (e : Nat) : Field := ⟨0x1404 + e * 0x100, 0, 4, .ro, 0, false⟩

/-! `CAM_CFG`, Table 7.18. -/

def CAM_CFG.RUNMAX (e : Nat) : Field := ⟨0x1408 + e * 0x100, 0, 16, .rwe, 0xc8, false⟩

/-! `CAM_EXC`, Table 7.19. -/

def CAM_EXC.PC (e : Nat) : Field := ⟨0x140C + e * 0x100, 16, 13, .ro, 0, false⟩
def CAM_EXC.TASK (e : Nat) : Field := ⟨0x140C + e * 0x100, 8, 4, .ro, 0, false⟩
def CAM_EXC.CAUSE (e : Nat) : Field := ⟨0x140C + e * 0x100, 0, 4, .ro, 0, false⟩

/-! `CAM_CNT`, Table 7.21. -/

def CAM_CNT.DLMISS (e : Nat) : Field := ⟨0x1418 + e * 0x100, 24, 8, .ro, 0, false⟩
def CAM_CNT.EXCCNT (e : Nat) : Field := ⟨0x1418 + e * 0x100, 16, 8, .ro, 0, false⟩

/-! `CAM_RAISE`, Table 7.22. -/

def CAM_RAISE.POP (e : Nat) : Field := ⟨0x141C + e * 0x100, 31, 1, .sc, 0, false⟩
def CAM_RAISE.DEPTH (e : Nat) : Field := ⟨0x141C + e * 0x100, 16, 4, .ro, 0, false⟩
def CAM_RAISE.LOST (e : Nat) : Field := ⟨0x141C + e * 0x100, 12, 4, .ro, 0, false⟩
def CAM_RAISE.TASK (e : Nat) : Field := ⟨0x141C + e * 0x100, 8, 4, .ro, 0, false⟩
def CAM_RAISE.CODE (e : Nat) : Field := ⟨0x141C + e * 0x100, 0, 8, .ro, 0, false⟩

/-! `CAM_EVT`, Table 7.23. -/

def CAM_EVT.EVT (e : Nat) : Field := ⟨0x1420 + e * 0x100, 0, 6, .w1c, 0, false⟩

/-! `CAM_IMG_STATUS`, Table 7.24. -/

def CAM_IMG_STATUS.REASON : Field := ⟨0x1480, 24, 8, .ro, 0, false⟩
def CAM_IMG_STATUS.CODE_LEN : Field := ⟨0x1480, 8, 14, .ro, 0, false⟩
def CAM_IMG_STATUS.HANDOVER : Field := ⟨0x1480, 4, 1, .ro, 0, false⟩
def CAM_IMG_STATUS.SOURCE : Field := ⟨0x1480, 2, 2, .ro, 0, false⟩
def CAM_IMG_STATUS.SIGNED : Field := ⟨0x1480, 1, 1, .ro, 0, false⟩
def CAM_IMG_STATUS.LOADED : Field := ⟨0x1480, 0, 1, .ro, 0, false⟩

/-! `CAM_IMG_ID`, Table 7.25. -/

def CAM_IMG_ID.ID : Field := ⟨0x1484, 0, 32, .ro, 0, false⟩

/-! `CAM_IMG_VER`, Table 7.25. -/

def CAM_IMG_VER.VER : Field := ⟨0x1488, 0, 32, .ro, 0, false⟩

/-! `CAM_IMG_MEMERR`, Table 7.25. -/

def CAM_IMG_MEMERR.COUNT : Field := ⟨0x148C, 0, 16, .ro, 0, false⟩

/-! `CAM_IMG_DIGEST`, Table 7.25. -/

def CAM_IMG_DIGEST.DIGEST (k : Nat) : Field := ⟨0x1490 + k * 0x4, 0, 32, .ro, 0, false⟩

/-! `NRG_CTRL`, Table 8.8. -/

def NRG_CTRL.CLRCNT : Field := ⟨0x1800, 1, 1, .sc, 0, false⟩
def NRG_CTRL.FREEZE : Field := ⟨0x1800, 0, 1, .rw, 0, false⟩

/-! `NRG_STATUS`, Table 8.9. -/

def NRG_STATUS.RUNG : Field := ⟨0x1804, 16, 4, .ro, 0, false⟩
def NRG_STATUS.BIND : Field := ⟨0x1804, 12, 4, .ro, 0, false⟩
def NRG_STATUS.PDOWN : Field := ⟨0x1804, 7, 1, .ro, 0, false⟩
def NRG_STATUS.STALE : Field := ⟨0x1804, 6, 1, .ro, 0, false⟩
def NRG_STATUS.OVERDRAW : Field := ⟨0x1804, 5, 1, .ro, 0, false⟩
def NRG_STATUS.OVER : Field := ⟨0x1804, 4, 1, .ro, 0, false⟩
def NRG_STATUS.SRC : Field := ⟨0x1804, 0, 3, .ro, 0, false⟩

/-! `NRG_BUDGET`, Table 8.10. -/

def NRG_BUDGET.VAL : Field := ⟨0x1808, 0, 32, .ro, 0, false⟩

/-! `NRG_GRANTED`, Table 8.10. -/

def NRG_GRANTED.VAL : Field := ⟨0x180C, 0, 32, .ro, 0, false⟩

/-! `NRG_EARMARK`, Table 8.10. -/

def NRG_EARMARK.VAL : Field := ⟨0x1810, 0, 32, .ro, 0, false⟩

/-! `NRG_SRCTERM`, Table 8.10. -/

def NRG_SRCTERM.VAL : Field := ⟨0x1814, 0, 32, .ro, 0, false⟩

/-! `NRG_ENERGY`, Table 8.10. -/

def NRG_ENERGY.VAL : Field := ⟨0x1818, 0, 32, .ro, 0, false⟩

/-! `NRG_DEBIT`, Table 8.10. -/

def NRG_DEBIT.VAL : Field := ⟨0x181C, 0, 32, .ro, 0, false⟩

/-! `NRG_LOAD`, Table 8.10. -/

def NRG_LOAD.VAL : Field := ⟨0x1820, 0, 32, .ro, 0, false⟩

/-! `NRG_HOLDUP`, Table 8.10. -/

def NRG_HOLDUP.VAL : Field := ⟨0x1824, 0, 32, .ro, 0, false⟩

/-! `NRG_CAP`, Table 8.10. -/

def NRG_CAP.CAP : Field := ⟨0x1828, 0, 32, .rw, 0xFFFFFFFF, false⟩

/-! `NRG_CFG`, Table 8.11. -/

def NRG_CFG.HOLDOFF : Field := ⟨0x182C, 24, 8, .rw, 0, false⟩
def NRG_CFG.OFFHOLD : Field := ⟨0x182C, 16, 8, .rw, 0xa, false⟩
def NRG_CFG.HMIN : Field := ⟨0x182C, 0, 16, .rw, 0, false⟩

/-! `NRG_RSV0`, Table 8.10. -/

def NRG_RSV0.RSV0 : Field := ⟨0x1830, 0, 32, .rw, 0, false⟩

/-! `NRG_HEAT`, Table 8.10. -/

def NRG_HEAT.HEAT (r : Nat) : Field := ⟨0x1834 + r * 0x4, 0, 32, .rw, heatReset r, false⟩

/-! `NRG_LIMITED`, Table 8.13. -/

def NRG_LIMITED.MASK (q : Nat) : Field := ⟨0x1874 + q * 0x4, 0, 32, .ro, 0, false⟩

/-! `NRG_SEL`, Table 8.14. -/

def NRG_SEL.INDEX : Field := ⟨0x187C, 0, 6, .rw, 0, false⟩

/-! `NRG_CNT0`, Table 8.16. -/

def NRG_CNT0.GRANTS : Field := ⟨0x1888, 16, 16, .ro, 0, false⟩
def NRG_CNT0.REVOKES : Field := ⟨0x1888, 0, 16, .ro, 0, false⟩

/-! `NRG_CNT1`, Table 8.17. -/

def NRG_CNT1.DEFERS : Field := ⟨0x188C, 16, 16, .ro, 0, false⟩
def NRG_CNT1.OVERS : Field := ⟨0x188C, 0, 16, .ro, 0, false⟩

/-! `NRG_EVT`, Table 8.18. -/

def NRG_EVT.EVT : Field := ⟨0x1890, 0, 5, .w1c, 0, false⟩

/-! `MNG_CTRL`, Table 9.9. -/

def MNG_CTRL.CLRCNT : Field := ⟨0x1900, 1, 1, .sc, 0, false⟩
def MNG_CTRL.EN : Field := ⟨0x1900, 0, 1, .rw, 0, false⟩

/-! `MNG_STATUS`, Table 9.10. -/

def MNG_STATUS.REASON : Field := ⟨0x1904, 24, 8, .ro, 0, false⟩
def MNG_STATUS.STATE : Field := ⟨0x1904, 16, 8, .ro, 0, false⟩
def MNG_STATUS.ADDR : Field := ⟨0x1904, 9, 7, .ro, 0, false⟩
def MNG_STATUS.ADDRV : Field := ⟨0x1904, 8, 1, .ro, 0, false⟩
def MNG_STATUS.HOLD : Field := ⟨0x1904, 7, 1, .ro, 0, false⟩
def MNG_STATUS.LINE : Field := ⟨0x1904, 6, 1, .ro, 0, false⟩
def MNG_STATUS.MASTER_ACT : Field := ⟨0x1904, 5, 1, .ro, 0, false⟩
def MNG_STATUS.SILENT : Field := ⟨0x1904, 4, 1, .ro, 0, false⟩
def MNG_STATUS.OPEN : Field := ⟨0x1904, 3, 1, .ro, 0, false⟩
def MNG_STATUS.JSTATE : Field := ⟨0x1904, 0, 3, .ro, 0, false⟩

/-! `MNG_CFG`, Table 9.11. -/

def MNG_CFG.ISOSTATE : Field := ⟨0x1908, 24, 8, .rwe, 0xff, false⟩
def MNG_CFG.EXPECT : Field := ⟨0x1908, 16, 8, .rwe, 1, false⟩
def MNG_CFG.LOSTPOL : Field := ⟨0x1908, 4, 1, .rwe, 0, false⟩
def MNG_CFG.AUTOISO : Field := ⟨0x1908, 3, 1, .rwe, 1, false⟩
def MNG_CFG.JOINHOLD : Field := ⟨0x1908, 2, 1, .rwe, 0, false⟩
def MNG_CFG.MASTER : Field := ⟨0x1908, 0, 1, .rwe, 0, false⟩

/-! `MNG_STEPDL`, Table 9.12. -/

def MNG_STEPDL.DL0 : Field := ⟨0x190C, 16, 16, .rwe, 0, false⟩
def MNG_STEPDL.DLN : Field := ⟨0x190C, 0, 16, .rwe, 0x8064, false⟩

/-! `MNG_PRESENT`, Table 9.13. -/

def MNG_PRESENT.MASK (g : Nat) : Field := ⟨0x1910 + g * 0x4, 0, 32, .ro, 0, false⟩

/-! `MNG_HOLDERS`, Table 9.13. -/

def MNG_HOLDERS.MASK (g : Nat) : Field := ⟨0x1920 + g * 0x4, 0, 32, .ro, 0, false⟩

/-! `MNG_LASTAB`, Table 9.14. -/

def MNG_LASTAB.TARGET : Field := ⟨0x1930, 16, 8, .ro, 0, false⟩
def MNG_LASTAB.NODE : Field := ⟨0x1930, 8, 7, .ro, 0, false⟩
def MNG_LASTAB.SEQ : Field := ⟨0x1930, 0, 4, .ro, 0, false⟩

/-! `MNG_CNT`, Table 9.15. -/

def MNG_CNT.ADV : Field := ⟨0x1934, 16, 16, .ro, 0, false⟩
def MNG_CNT.ABORTS : Field := ⟨0x1934, 8, 8, .ro, 0, false⟩
def MNG_CNT.CRCERR : Field := ⟨0x1934, 0, 8, .ro, 0, false⟩

/-! `MNG_CMD`, Table 9.16. -/

def MNG_CMD.GO : Field := ⟨0x1938, 31, 1, .sc, 0, false⟩
def MNG_CMD.ARG : Field := ⟨0x1938, 8, 8, .rw, 0, false⟩
def MNG_CMD.OP : Field := ⟨0x1938, 0, 2, .rw, 0, false⟩

/-! `MNG_EVT`, Table 9.17. -/

def MNG_EVT.EVT : Field := ⟨0x193C, 0, 12, .w1c, 0, false⟩

/-! `ADC_CTRL`, Table 11.9. -/

def ADC_CTRL.SNAPREL : Field := ⟨0x1A00, 2, 1, .sc, 0, false⟩
def ADC_CTRL.SNAP : Field := ⟨0x1A00, 1, 1, .sc, 0, false⟩
def ADC_CTRL.CLRCNT : Field := ⟨0x1A00, 0, 1, .sc, 0, false⟩

/-! `ADC_STATUS`, Table 11.10. -/

def ADC_STATUS.REASON : Field := ⟨0x1A04, 24, 8, .ro, 0, false⟩
def ADC_STATUS.RSRC : Field := ⟨0x1A04, 16, 3, .ro, 0, false⟩
def ADC_STATUS.BASE : Field := ⟨0x1A04, 8, 2, .ro, 0, false⟩
def ADC_STATUS.BURST : Field := ⟨0x1A04, 7, 1, .ro, 0, false⟩
def ADC_STATUS.USABLE : Field := ⟨0x1A04, 0, 4, .ro, 0, false⟩

/-! `ADC_SL_CTRL`, Table 11.11. -/

def ADC_SL_CTRL.PER (s : Nat) : Field := ⟨0x1A08 + s * 0x4, 16, 16, .rwe, 0x3e8, false⟩
def ADC_SL_CTRL.LEN (s : Nat) : Field := ⟨0x1A08 + s * 0x4, 8, 5, .rwe, 1, false⟩
def ADC_SL_CTRL.RUN (s : Nat) : Field := ⟨0x1A08 + s * 0x4, 4, 2, .rwe, 1, false⟩
def ADC_SL_CTRL.EN (s : Nat) : Field := ⟨0x1A08 + s * 0x4, 0, 1, .rw, 0, false⟩

/-! `ADC_URG`, Table 11.14. -/

def ADC_URG.TS : Field := ⟨0x1A18, 0, 3, .rw, 3, false⟩

/-! `ADC_URGREQ`, Table 11.14. -/

def ADC_URGREQ.REQ : Field := ⟨0x1A1C, 16, 16, .ro, 0, false⟩
def ADC_URGREQ.SERVED : Field := ⟨0x1A1C, 0, 16, .ro, 0, false⟩

/-! `ADC_DROP`, Table 11.14. -/

def ADC_DROP.INCONV : Field := ⟨0x1A20, 16, 1, .ro, 0, false⟩
def ADC_DROP.DROPPED : Field := ⟨0x1A20, 0, 16, .ro, 0, false⟩

/-! `ADC_BURST`, Table 11.14. -/

def ADC_BURST.GO : Field := ⟨0x1A24, 31, 1, .sc, 0, false⟩
def ADC_BURST.CH : Field := ⟨0x1A24, 16, 7, .rw, 0, false⟩
def ADC_BURST.LEN : Field := ⟨0x1A24, 0, 10, .rw, 0x028, false⟩

/-! `ADC_CAP`, Table 11.12. -/

def ADC_CAP.EN : Field := ⟨0x1A28, 31, 1, .rw, 0, false⟩
def ADC_CAP.SLICE : Field := ⟨0x1A28, 16, 2, .rwe, 3, false⟩
def ADC_CAP.SRC : Field := ⟨0x1A28, 12, 2, .rwe, 2, false⟩
def ADC_CAP.PRE : Field := ⟨0x1A28, 8, 3, .rwe, 6, false⟩
def ADC_CAP.CH : Field := ⟨0x1A28, 0, 7, .rwe, 0, false⟩

/-! `ADC_HKSTAT`, Table 11.14. -/

def ADC_HKSTAT.ROUND : Field := ⟨0x1A2C, 0, 32, .ro, 0, false⟩

/-! `ADC_HKVAL0`, Table 11.14. -/

def ADC_HKVAL0.VALID : Field := ⟨0x1A30, 0, 32, .ro, 0, false⟩

/-! `ADC_HKVAL1`, Table 11.14. -/

def ADC_HKVAL1.VALID : Field := ⟨0x1A34, 0, 32, .ro, 0, false⟩

/-! `ADC_SNAP`, Table 11.13. -/

def ADC_SNAP.MISSED : Field := ⟨0x1A38, 24, 8, .ro, 0, false⟩
def ADC_SNAP.ALSO : Field := ⟨0x1A38, 16, 8, .ro, 0, false⟩
def ADC_SNAP.SEQ : Field := ⟨0x1A38, 8, 8, .ro, 0, false⟩
def ADC_SNAP.DIGV : Field := ⟨0x1A38, 4, 1, .ro, 0, false⟩
def ADC_SNAP.STATE : Field := ⟨0x1A38, 0, 2, .ro, 0, false⟩

/-! `ADC_SNAPINFO`, Table 11.14. -/

def ADC_SNAPINFO.TRIG : Field := ⟨0x1A3C, 24, 8, .ro, 0, false⟩
def ADC_SNAPINFO.CODE : Field := ⟨0x1A3C, 16, 8, .ro, 0, false⟩
def ADC_SNAPINFO.CAPLEN : Field := ⟨0x1A3C, 0, 16, .ro, 0, false⟩

/-! `ADC_SNAPCAP`, Table 11.14. -/

def ADC_SNAPCAP.CONV : Field := ⟨0x1A40, 31, 1, .ro, 0, false⟩
def ADC_SNAPCAP.RATE : Field := ⟨0x1A40, 23, 1, .ro, 0, false⟩
def ADC_SNAPCAP.CH : Field := ⟨0x1A40, 16, 7, .ro, 0, false⟩
def ADC_SNAPCAP.OLDEST : Field := ⟨0x1A40, 0, 15, .ro, 0, false⟩

/-! `ADC_SNAPT_LO`, Table 11.14. -/

def ADC_SNAPT_LO.TIME : Field := ⟨0x1A44, 0, 32, .ro, 0, false⟩

/-! `ADC_SNAPT_HI`, Table 11.14. -/

def ADC_SNAPT_HI.TIME : Field := ⟨0x1A48, 0, 32, .ro, 0, false⟩

/-! `ADC_SNAPROUND`, Table 11.14. -/

def ADC_SNAPROUND.ROUND : Field := ⟨0x1A4C, 0, 32, .ro, 0, false⟩

/-! `ADC_SNAPDIG`, Table 11.14. -/

def ADC_SNAPDIG.DIGEST (k : Nat) : Field := ⟨0x1A50 + k * 0x4, 0, 32, .ro, 0, false⟩

/-! `ADC_PIN`, Table 11.14. -/

def ADC_PIN.PIN : Field := ⟨0x1A70, 0, 32, .ro, 0, false⟩

/-! `ADC_PINLOOP`, Table 11.14. -/

def ADC_PINLOOP.PIN : Field := ⟨0x1A74, 0, 32, .ro, 0, false⟩

/-! `ADC_PINREST`, Table 11.14. -/

def ADC_PINREST.PIN : Field := ⟨0x1A78, 0, 32, .ro, 0, false⟩

/-! `ADC_MISM`, Table 11.14. -/

def ADC_MISM.CLR : Field := ⟨0x1A7C, 1, 1, .sc, 0, false⟩
def ADC_MISM.CONV : Field := ⟨0x1A7C, 0, 1, .ro, 0, false⟩

/-! `ADC_SL_RAW`, Table 11.14. -/

def ADC_SL_RAW.DISCARDED (s : Nat) : Field := ⟨0x1A80 + s * 0x4, 31, 1, .ro, 0, false⟩
def ADC_SL_RAW.SKIP (s : Nat) : Field := ⟨0x1A80 + s * 0x4, 28, 3, .ro, 0, false⟩
def ADC_SL_RAW.ENTRY (s : Nat) : Field := ⟨0x1A80 + s * 0x4, 24, 4, .ro, 0, false⟩
def ADC_SL_RAW.RAW (s : Nat) : Field := ⟨0x1A80 + s * 0x4, 0, 20, .ro, 0, false⟩

/-! `ADC_EVT`, Table 11.14. -/

def ADC_EVT.EVT : Field := ⟨0x1A90, 0, 13, .w1c, 0, false⟩

/-! `ADC_SEQ`, Table 11.8. -/

def ADC_SEQ.CH (s : Nat) (i : Nat) : Field := ⟨0x1B00 + s * 0x40 + i * 4, 16, 7, .rwe, 0, false⟩
def ADC_SEQ.GAIN (s : Nat) (i : Nat) : Field := ⟨0x1B00 + s * 0x40 + i * 4, 12, 2, .rwe, 0, false⟩
def ADC_SEQ.TS (s : Nat) (i : Nat) : Field := ⟨0x1B00 + s * 0x40 + i * 4, 8, 3, .rwe, 3, false⟩
def ADC_SEQ.AVG (s : Nat) (i : Nat) : Field := ⟨0x1B00 + s * 0x40 + i * 4, 4, 4, .rwe, 0, false⟩
def ADC_SEQ.SHIFT (s : Nat) (i : Nat) : Field := ⟨0x1B00 + s * 0x40 + i * 4, 0, 4, .rwe, 0, false⟩

/-! `ADC_HK`, Table 18.3. -/

def ADC_HK.VAL (c : Nat) : Field := ⟨0x1C00 + c / 2 * 4, c % 2 * 16, 16, .ro, 0, false⟩

/-! `ADC_SNHK`, Table 18.3. -/

def ADC_SNHK.VAL (c : Nat) : Field := ⟨0x1C80 + c / 2 * 4, c % 2 * 16, 16, .ro, 0, false⟩

/-! `THM_STATUS`, Table 12.4. -/

def THM_STATUS.TJMAX : Field := ⟨0x1D00, 16, 16, .ro, 0, false⟩
def THM_STATUS.DTEXCL : Field := ⟨0x1D00, 8, 8, .ro, 0, true⟩
def THM_STATUS.OTPOK : Field := ⟨0x1D00, 7, 1, .ro, 0, false⟩
def THM_STATUS.STGBIND : Field := ⟨0x1D00, 6, 1, .ro, 0, false⟩
def THM_STATUS.CFGBAD : Field := ⟨0x1D00, 5, 1, .ro, 0, false⟩
def THM_STATUS.RUNG : Field := ⟨0x1D00, 0, 3, .ro, 0, false⟩

/-! `THM_CFG`, Table 12.5. -/

def THM_CFG.TWARN : Field := ⟨0x1D04, 24, 8, .rw, 0x8c, false⟩
def THM_CFG.STOFS : Field := ⟨0x1D04, 16, 8, .rw, 0xf, false⟩
def THM_CFG.STG_EN : Field := ⟨0x1D04, 15, 1, .rw, 0, false⟩
def THM_CFG.HYST : Field := ⟨0x1D04, 8, 4, .rw, 5, false⟩
def THM_CFG.DWELL : Field := ⟨0x1D04, 0, 8, .rw, 0xa, false⟩

/-! `THM_RUNGT0`, Table 12.6. -/

def THM_RUNGT0.T4 : Field := ⟨0x1D08, 24, 8, .rw, 0x85, false⟩
def THM_RUNGT0.T3 : Field := ⟨0x1D08, 16, 8, .rw, 0x7f, false⟩
def THM_RUNGT0.T2 : Field := ⟨0x1D08, 8, 8, .rw, 0x78, false⟩
def THM_RUNGT0.T1 : Field := ⟨0x1D08, 0, 8, .rw, 0x6e, false⟩

/-! `THM_RUNGT1`, Table 12.7. -/

def THM_RUNGT1.T7 : Field := ⟨0x1D0C, 16, 8, .rw, 0x94, false⟩
def THM_RUNGT1.T6 : Field := ⟨0x1D0C, 8, 8, .rw, 0x8f, false⟩
def THM_RUNGT1.T5 : Field := ⟨0x1D0C, 0, 8, .rw, 0x8a, false⟩

/-! `THM_NTC`, Table 12.8. -/

def THM_NTC.R26 : Field := ⟨0x1D10, 16, 16, .rw, 0x3e8, false⟩
def THM_NTC.BETA : Field := ⟨0x1D10, 0, 16, .rw, 0xd6b, false⟩

/-! `THM_TMON`, Table 12.9. -/

def THM_TMON.V0 : Field := ⟨0x1D14, 16, 16, .rw, 0x258, false⟩
def THM_TMON.SLOPE : Field := ⟨0x1D14, 0, 16, .rw, 0x1f40, false⟩

/-! `THM_TSD`, Table 12.10. -/

def THM_TSD.LATCH : Field := ⟨0x1D18, 31, 1, .ro, 0, true⟩
def THM_TSD.SENSOR : Field := ⟨0x1D18, 16, 3, .ro, 0, true⟩
def THM_TSD.TJLAST : Field := ⟨0x1D18, 0, 16, .ro, 0, true⟩

/-! `THM_EVT`, Table 12.11. -/

def THM_EVT.EVT : Field := ⟨0x1D1C, 0, 6, .w1c, 0, false⟩

/-! `FLT_CTRL`, Table 13.6. -/

def FLT_CTRL.MARKREAD : Field := ⟨0x1E00, 2, 1, .sc, 0, false⟩
def FLT_CTRL.LOCK : Field := ⟨0x1E00, 0, 1, .w1s, 0, false⟩

/-! `FLT_CFG`, Table 13.7. -/

def FLT_CFG.MERGE : Field := ⟨0x1E04, 16, 8, .rwl, 0xa, false⟩
def FLT_CFG.AUTOLOCK : Field := ⟨0x1E04, 1, 1, .rwl, 0, false⟩
def FLT_CFG.LOGNOTICE : Field := ⟨0x1E04, 0, 1, .rwl, 0, false⟩

/-! `FLT_CREACT`, Table 13.8. -/

def FLT_CREACT.CRIT : Field := ⟨0x1E08, 16, 7, .rwl, 0x4f, false⟩
def FLT_CREACT.FAULT : Field := ⟨0x1E08, 8, 7, .rwl, 7, false⟩
def FLT_CREACT.WARN : Field := ⟨0x1E08, 0, 7, .rwl, 5, false⟩

/-! `FLT_LADD`, Table 13.9. -/

def FLT_LADD.ADD (l : Nat) : Field := ⟨0x1E0C + l / 4 * 4, l % 4 * 8 + 0, 7, .rwl, 0, false⟩

/-! `FLT_STATUS`, Table 13.13. -/

def FLT_STATUS.LINES (k : Nat) : Field := ⟨0x1E4C + k * 0x4, 0, 32, .w1c, 0, false⟩

/-! `FLT_LATCH`, Table 13.13. -/

def FLT_LATCH.LINES (k : Nat) : Field := ⟨0x1E54 + k * 0x4, 0, 32, .ro, 0, false⟩

/-! `FLT_STATE`, Table 13.10. -/

def FLT_STATE.OLINE : Field := ⟨0x1E5C, 10, 6, .ro, 0, false⟩
def FLT_STATE.OCLASS : Field := ⟨0x1E5C, 8, 2, .ro, 0, false⟩
def FLT_STATE.OPEN : Field := ⟨0x1E5C, 2, 1, .ro, 0, false⟩
def FLT_STATE.ALIVE_RUN : Field := ⟨0x1E5C, 1, 1, .ro, 0, false⟩
def FLT_STATE.ALIVE_LVL : Field := ⟨0x1E5C, 0, 1, .ro, 0, false⟩

/-! `FLT_HWR`, Table 13.13. -/

def FLT_HWR.COUNT : Field := ⟨0x1E60, 0, 32, .ro, 0, true⟩

/-! `FLT_HOVR`, Table 13.13. -/

def FLT_HOVR.COUNT : Field := ⟨0x1E64, 0, 32, .ro, 0, true⟩

/-! `FLT_HSTAT`, Table 13.13. -/

def FLT_HSTAT.UNREAD : Field := ⟨0x1E68, 8, 8, .ro, 0, true⟩
def FLT_HSTAT.HELD : Field := ⟨0x1E68, 0, 6, .ro, 0, true⟩

/-! `FLT_LWR`, Table 13.13. -/

def FLT_LWR.COUNT : Field := ⟨0x1E6C, 0, 32, .ro, 0, true⟩

/-! `FLT_LOVR`, Table 13.13. -/

def FLT_LOVR.COUNT : Field := ⟨0x1E70, 0, 32, .ro, 0, true⟩

/-! `FLT_LSTAT`, Table 13.13. -/

def FLT_LSTAT.HELD : Field := ⟨0x1E74, 0, 11, .ro, 0, true⟩

/-! `FLT_CCNT`, Table 13.13. -/

def FLT_CCNT.CRIT : Field := ⟨0x1E78, 24, 8, .ro, 0, true⟩
def FLT_CCNT.FAULT : Field := ⟨0x1E78, 16, 8, .ro, 0, true⟩
def FLT_CCNT.WARN : Field := ⟨0x1E78, 8, 8, .ro, 0, true⟩

/-! `FLT_NCNT`, Table 13.13. -/

def FLT_NCNT.COUNT : Field := ⟨0x1E7C, 0, 32, .ro, 0, true⟩

/-! `FLT_RSEL`, Table 13.13. -/

def FLT_RSEL.LOG : Field := ⟨0x1E80, 16, 1, .rw, 0, false⟩
def FLT_RSEL.AGE : Field := ⟨0x1E80, 0, 10, .rw, 0, false⟩

/-! `FLT_REC`, Table 13.13. -/

def FLT_REC.WORD (w : Nat) : Field := ⟨0x1E84 + w * 0x4, 0, 32, .ro, 0, false⟩

/-! `FLT_OPMARK`, Table 13.13. -/

def FLT_OPMARK.OP : Field := ⟨0x1EA4, 24, 8, .ro, 0, true⟩
def FLT_OPMARK.DETAIL : Field := ⟨0x1EA4, 0, 24, .ro, 0, true⟩

/-! `FLT_TEST`, Table 13.11. -/

def FLT_TEST.ENTER : Field := ⟨0x1EA8, 4, 1, .sc, 0, false⟩
def FLT_TEST.LOCKOUT : Field := ⟨0x1EA8, 3, 1, .ro, 0, true⟩
def FLT_TEST.TRIES : Field := ⟨0x1EA8, 1, 2, .ro, 0, true⟩
def FLT_TEST.ACTIVE : Field := ⟨0x1EA8, 0, 1, .ro, 0, true⟩

/-! `FLT_TKEY`, Table 13.13. -/

def FLT_TKEY.KEY (k : Nat) : Field := ⟨0x1EAC + k * 0x4, 0, 32, .rw, 0, false⟩

/-! `FLT_INJ`, Table 13.12. -/

def FLT_INJ.GO : Field := ⟨0x1EBC, 31, 1, .sc, 0, false⟩
def FLT_INJ.CLASS : Field := ⟨0x1EBC, 8, 2, .rw, 0, false⟩
def FLT_INJ.LINE : Field := ⟨0x1EBC, 0, 6, .rw, 0, false⟩

/-! `FLT_EVT`, Table 13.13. -/

def FLT_EVT.EVT : Field := ⟨0x1EC0, 0, 5, .w1c, 0, false⟩

/-! `INTC_CTRL`, Table 14.5. -/

def INTC_CTRL.CLRCNT : Field := ⟨0x2000, 0, 1, .sc, 0, false⟩

/-! `INTC_CNT`, Table 14.6. -/

def INTC_CNT.BADCOMP : Field := ⟨0x2004, 16, 16, .ro, 0, false⟩
def INTC_CNT.CLAIMS : Field := ⟨0x2004, 0, 16, .ro, 0, false⟩

/-! `INTC_DBELL`, Table 14.7. -/

def INTC_DBELL.CLR : Field := ⟨0x2008, 2, 1, .sc, 0, false⟩
def INTC_DBELL.SET : Field := ⟨0x2008, 1, 1, .sc, 0, false⟩
def INTC_DBELL.RING : Field := ⟨0x2008, 0, 1, .ro, 0, false⟩

/-! `INTC_T_CFG`, Table 14.8. -/

def INTC_T_CFG.POL (t : Nat) : Field := ⟨0x2040 + t * 0x10, 8, 1, .rw, 0, false⟩
def INTC_T_CFG.SLEEP (t : Nat) : Field := ⟨0x2040 + t * 0x10, 4, 1, .rw, 0, false⟩
def INTC_T_CFG.THR (t : Nat) : Field := ⟨0x2040 + t * 0x10, 0, 4, .rw, 0, false⟩

/-! `INTC_T_CLAIM`, Table 14.9. -/

def INTC_T_CLAIM.ID (t : Nat) : Field := ⟨0x2044 + t * 0x10, 0, 9, .ro, 0, false⟩

/-! `INTC_T_COMPLETE`, Table 14.10. -/

def INTC_T_COMPLETE.ID (t : Nat) : Field := ⟨0x2048 + t * 0x10, 0, 9, .rw, 0, false⟩

/-! `INTC_T_STAT`, Table 14.11. -/

def INTC_T_STAT.SPUR (t : Nat) : Field := ⟨0x204C + t * 0x10, 24, 8, .ro, 0, false⟩
def INTC_T_STAT.NACT (t : Nat) : Field := ⟨0x204C + t * 0x10, 16, 8, .ro, 0, false⟩
def INTC_T_STAT.LINE (t : Nat) : Field := ⟨0x204C + t * 0x10, 12, 1, .ro, 0, false⟩
def INTC_T_STAT.TOP (t : Nat) : Field := ⟨0x204C + t * 0x10, 0, 9, .ro, 0, false⟩

/-! `INTC_SRC`, Table 14.12. -/

def INTC_SRC.STATE (s : Nat) : Field := ⟨0x2100 + (s - 1) * 4, 30, 2, .ro, 0, false⟩
def INTC_SRC.LATCHED (s : Nat) : Field := ⟨0x2100 + (s - 1) * 4, 29, 1, .ro, 0, false⟩
def INTC_SRC.REQ (s : Nat) : Field := ⟨0x2100 + (s - 1) * 4, 28, 1, .ro, 0, false⟩
def INTC_SRC.OWNER (s : Nat) : Field := ⟨0x2100 + (s - 1) * 4, 24, 3, .ro, 0, false⟩
def INTC_SRC.ROUTE (s : Nat) : Field := ⟨0x2100 + (s - 1) * 4, 18, 2, .rw, 2, false⟩
def INTC_SRC.EN_H1 (s : Nat) : Field := ⟨0x2100 + (s - 1) * 4, 11, 1, .rw, 0, false⟩
def INTC_SRC.EN_H0 (s : Nat) : Field := ⟨0x2100 + (s - 1) * 4, 10, 1, .rw, 0, false⟩
def INTC_SRC.EN_K1 (s : Nat) : Field := ⟨0x2100 + (s - 1) * 4, 9, 1, .ro, 0, false⟩
def INTC_SRC.EN_K0 (s : Nat) : Field := ⟨0x2100 + (s - 1) * 4, 8, 1, .ro, 0, false⟩
def INTC_SRC.MASK (s : Nat) : Field := ⟨0x2100 + (s - 1) * 4, 4, 1, .rw, 0, false⟩
def INTC_SRC.PRIO (s : Nat) : Field := ⟨0x2100 + (s - 1) * 4, 0, 4, .rw, 0, false⟩

/-! `HCI_CTRL`, Table 15.14. -/

def HCI_CTRL.CLRCNT : Field := ⟨0x2800, 1, 1, .sc, 0, false⟩
def HCI_CTRL.EN : Field := ⟨0x2800, 0, 1, .rw, 0, false⟩

/-! `HCI_STATUS`, Table 15.15. -/

def HCI_STATUS.REASON : Field := ⟨0x2804, 24, 8, .ro, 0, false⟩
def HCI_STATUS.K1LANE : Field := ⟨0x2804, 4, 1, .ro, 0, false⟩
def HCI_STATUS.STATE : Field := ⟨0x2804, 0, 2, .ro, 0, false⟩

/-! `HCI_CFG`, Table 15.16. -/

def HCI_CFG.HWAKE_POL : Field := ⟨0x2808, 8, 1, .rw, 0, false⟩
def HCI_CFG.ARB : Field := ⟨0x2808, 4, 1, .rw, 0, false⟩
def HCI_CFG.SPICRC : Field := ⟨0x2808, 0, 1, .rw, 0, false⟩

/-! `HCI_DB`, Table 15.17. -/

def HCI_DB.QUEUE : Field := ⟨0x280C, 8, 2, .rw, 0, false⟩
def HCI_DB.SLOT : Field := ⟨0x280C, 0, 8, .rw, 0, false⟩

/-! `HCI_CQ_HEAD`, Table 15.18. -/

def HCI_CQ_HEAD.HEAD : Field := ⟨0x2810, 0, 9, .rw, 0, false⟩

/-! `HCI_CQ_TAIL`, Table 15.18. -/

def HCI_CQ_TAIL.TAIL : Field := ⟨0x2814, 0, 9, .ro, 0, false⟩

/-! `HCI_MOD`, Table 15.19. -/

def HCI_MOD.TIME : Field := ⟨0x2818, 16, 16, .rw, 0x64, false⟩
def HCI_MOD.COUNT : Field := ⟨0x2818, 0, 7, .rw, 8, false⟩

/-! `HCI_CREDIT1`, Table 15.21. -/

def HCI_CREDIT1.INFLIGHT : Field := ⟨0x2824, 16, 9, .ro, 0, false⟩
def HCI_CREDIT1.UNREAD : Field := ⟨0x2824, 0, 9, .ro, 0, false⟩

/-! `HCI_CNT0`, Table 15.23. -/

def HCI_CNT0.COMPLETED : Field := ⟨0x2830, 16, 16, .ro, 0, false⟩
def HCI_CNT0.CANCELLED : Field := ⟨0x2830, 0, 16, .ro, 0, false⟩

/-! `HCI_CNT1`, Table 15.24. -/

def HCI_CNT1.BADDB : Field := ⟨0x2834, 24, 8, .ro, 0, false⟩
def HCI_CNT1.BADHEAD : Field := ⟨0x2834, 16, 8, .ro, 0, false⟩
def HCI_CNT1.SPIERR : Field := ⟨0x2834, 8, 8, .ro, 0, false⟩
def HCI_CNT1.LATE : Field := ⟨0x2834, 0, 8, .ro, 0, false⟩

/-! `HCI_EVT`, Table 15.25. -/

def HCI_EVT.EVT : Field := ⟨0x2838, 1, 5, .w1c, 0, false⟩
def HCI_EVT.SIGNAL : Field := ⟨0x2838, 0, 1, .ro, 0, false⟩

/-! `TWT_CFG`, Table 16.8. -/

def TWT_CFG.PECLEN : Field := ⟨0x2900, 16, 6, .rw, 4, false⟩
def TWT_CFG.THD : Field := ⟨0x2900, 8, 8, .rw, 0x1e, false⟩
def TWT_CFG.KT_EN : Field := ⟨0x2900, 1, 1, .rw, 1, false⟩
def TWT_CFG.PEC : Field := ⟨0x2900, 0, 1, .rw, 0, false⟩

/-! `TWT_STATUS`, Table 16.9. -/

def TWT_STATUS.PAGE : Field := ⟨0x2904, 16, 16, .ro, 0, false⟩
def TWT_STATUS.BUSY : Field := ⟨0x2904, 15, 1, .ro, 0, false⟩
def TWT_STATUS.KTADDR : Field := ⟨0x2904, 8, 7, .ro, 0, true⟩
def TWT_STATUS.ADDR : Field := ⟨0x2904, 0, 7, .ro, 0, true⟩

/-! `TWT_CNT`, Table 16.16. -/

def TWT_CNT.PECERR : Field := ⟨0x2908, 24, 8, .ro, 0, false⟩
def TWT_CNT.STUCK : Field := ⟨0x2908, 16, 8, .ro, 0, false⟩
def TWT_CNT.NACKED : Field := ⟨0x2908, 8, 8, .ro, 0, false⟩
def TWT_CNT.KTWR : Field := ⟨0x2908, 0, 8, .ro, 0, false⟩

/-! `TWT_EVT`, Table 16.16. -/

def TWT_EVT.EVT : Field := ⟨0x290C, 0, 3, .w1c, 0, false⟩

/-! `TWT_KTMAP`, Table 16.16. -/

def TWT_KTMAP.V (c : Nat) : Field := ⟨0x2910 + c / 2 * 4, c % 2 * 16 + 15, 1, .rw, 0, false⟩
def TWT_KTMAP.ADC (c : Nat) : Field := ⟨0x2910 + c / 2 * 4, c % 2 * 16 + 8, 7, .rw, 0, false⟩
def TWT_KTMAP.SUP (c : Nat) : Field := ⟨0x2910 + c / 2 * 4, c % 2 * 16 + 0, 6, .rw, 0, false⟩

/-! `TWC_CTRL`, Table 16.10. -/

def TWC_CTRL.RETRY : Field := ⟨0x2940, 4, 4, .rwe, 3, false⟩
def TWC_CTRL.POLL_EN : Field := ⟨0x2940, 2, 1, .rw, 0, false⟩
def TWC_CTRL.CLRCNT : Field := ⟨0x2940, 1, 1, .sc, 0, false⟩
def TWC_CTRL.EN : Field := ⟨0x2940, 0, 1, .rw, 0, false⟩

/-! `TWC_STATUS`, Table 16.11. -/

def TWC_STATUS.REASON : Field := ⟨0x2944, 24, 8, .ro, 0, false⟩
def TWC_STATUS.STATE : Field := ⟨0x2944, 0, 3, .ro, 0, false⟩

/-! `TWC_TIMING`, Table 16.12. -/

def TWC_TIMING.THD : Field := ⟨0x2948, 26, 6, .rwe, 0x1e, false⟩
def TWC_TIMING.LOW : Field := ⟨0x2948, 16, 10, .rwe, 0x8c, false⟩
def TWC_TIMING.HIGH : Field := ⟨0x2948, 0, 10, .rwe, 0x64, false⟩

/-! `TWC_XFER`, Table 16.13. -/

def TWC_XFER.GO : Field := ⟨0x294C, 31, 1, .sc, 0, false⟩
def TWC_XFER.ADDR : Field := ⟨0x294C, 24, 7, .rw, 0, false⟩
def TWC_XFER.WLEN : Field := ⟨0x294C, 16, 6, .rw, 0, false⟩
def TWC_XFER.RLEN : Field := ⟨0x294C, 8, 6, .rw, 0, false⟩

/-! `TWC_RES`, Table 16.14. -/

def TWC_RES.STATUS : Field := ⟨0x2950, 20, 4, .ro, 0xf, false⟩
def TWC_RES.TRIES : Field := ⟨0x2950, 16, 4, .ro, 0, false⟩
def TWC_RES.RDONE : Field := ⟨0x2950, 8, 6, .ro, 0, false⟩
def TWC_RES.WDONE : Field := ⟨0x2950, 0, 6, .ro, 0, false⟩

/-! `TWC_DATA`, Table 16.16. -/

def TWC_DATA.DATA (j : Nat) : Field := ⟨0x2954 + j * 0x4, 0, 32, .rw, 0, false⟩

/-! `TWC_CNT`, Table 16.16. -/

def TWC_CNT.ARBLOST : Field := ⟨0x2974, 16, 16, .ro, 0, false⟩
def TWC_CNT.RECOVER : Field := ⟨0x2974, 8, 8, .ro, 0, false⟩
def TWC_CNT.NACK : Field := ⟨0x2974, 0, 8, .ro, 0, false⟩

/-! `TWC_EVT`, Table 16.16. -/

def TWC_EVT.EVT : Field := ⟨0x2978, 0, 5, .w1c, 0, false⟩

/-! `TWC_POLL`, Table 16.15. -/

def TWC_POLL.EN (k : Nat) : Field := ⟨0x2980 + k * 0x4, 31, 1, .rw, 0, false⟩
def TWC_POLL.ADDR (k : Nat) : Field := ⟨0x2980 + k * 0x4, 24, 7, .rw, 0, false⟩
def TWC_POLL.CMD (k : Nat) : Field := ⟨0x2980 + k * 0x4, 16, 8, .rw, 0, false⟩
def TWC_POLL.LEN (k : Nat) : Field := ⟨0x2980 + k * 0x4, 8, 2, .rw, 0, false⟩

/-! `TWC_PRES`, Table 16.16. -/

def TWC_PRES.DATA (k : Nat) : Field := ⟨0x29A0 + k * 0x4, 0, 32, .ro, 0, false⟩

/-! `TWC_PSTAT`, Table 16.16. -/

def TWC_PSTAT.STATUS (k : Nat) : Field := ⟨0x29C0, k * 4, 4, .ro, 0xF, false⟩

/-! `OTP_CFG`, Table 17.10. -/

def OTP_CFG.VERIFY : Field := ⟨0x2A00, 1, 1, .rw, 0, false⟩
def OTP_CFG.REBURN : Field := ⟨0x2A00, 0, 1, .rw, 0, false⟩

/-! `OTP_STATUS`, Table 17.11. -/

def OTP_STATUS.REASON : Field := ⟨0x2A04, 24, 8, .ro, 0, false⟩
def OTP_STATUS.CFGSKIP : Field := ⟨0x2A04, 16, 8, .ro, 0, false⟩
def OTP_STATUS.PENDING : Field := ⟨0x2A04, 8, 8, .ro, 0, false⟩
def OTP_STATUS.PROGOK : Field := ⟨0x2A04, 7, 1, .ro, 0, false⟩
def OTP_STATUS.AUTHREQ : Field := ⟨0x2A04, 6, 1, .ro, 0, false⟩
def OTP_STATUS.TEST_DIS : Field := ⟨0x2A04, 5, 1, .ro, 0, false⟩
def OTP_STATUS.RAW_BUSY : Field := ⟨0x2A04, 4, 1, .ro, 0, false⟩

/-! `OTP_WEAK`, Table 17.13. -/

def OTP_WEAK.SPARES : Field := ⟨0x2A08, 16, 16, .ro, 0, false⟩
def OTP_WEAK.WEAK : Field := ⟨0x2A08, 0, 16, .ro, 0, false⟩

/-! `OTP_VOIDS`, Table 17.13. -/

def OTP_VOIDS.BOOT : Field := ⟨0x2A0C, 16, 16, .ro, 0, false⟩
def OTP_VOIDS.TOTAL : Field := ⟨0x2A0C, 0, 16, .ro, 0, false⟩

/-! `OTP_RGNST`, Table 17.13. -/

def OTP_RGNST.STATE (k : Nat) : Field := ⟨0x2A10 + k / 8 * 4, k % 8 * 4, 4, .ro, 0, false⟩

/-! `OTP_RSEL`, Table 17.13. -/

def OTP_RSEL.REGION : Field := ⟨0x2A1C, 0, 5, .rw, 0, false⟩

/-! `OTP_RAW_CTRL`, Table 17.13. -/

def OTP_RAW_CTRL.GO : Field := ⟨0x2A28, 31, 1, .sc, 0, false⟩
def OTP_RAW_CTRL.OP : Field := ⟨0x2A28, 0, 4, .rw, 0, false⟩

/-! `OTP_RAW_ADDR`, Table 17.13. -/

def OTP_RAW_ADDR.PHYS : Field := ⟨0x2A2C, 0, 11, .rw, 0, false⟩

/-! `OTP_RAW_DATA`, Table 17.13. -/

def OTP_RAW_DATA.DATA (k : Nat) : Field := ⟨0x2A30 + k * 0x4, 0, 32, .rw, 0, false⟩

/-! `OTP_RAW_CHK`, Table 17.13. -/

def OTP_RAW_CHK.CHK : Field := ⟨0x2A40, 0, 17, .rw, 0, false⟩

/-! `OTP_EVT`, Table 17.13. -/

def OTP_EVT.EVT : Field := ⟨0x2A44, 0, 6, .w1c, 0, false⟩

/-! `BIST_CTRL`, Table 10.13. -/

def BIST_CTRL.FULLNEXT : Field := ⟨0x2B00, 0, 1, .rw, 0, true⟩

/-! `BIST_STATUS`, Table 10.14. -/

def BIST_STATUS.NUNUS : Field := ⟨0x2B04, 24, 8, .ro, 0, false⟩
def BIST_STATUS.STORED : Field := ⟨0x2B04, 2, 1, .ro, 0, true⟩
def BIST_STATUS.SOURCE : Field := ⟨0x2B04, 0, 2, .ro, 0, false⟩

/-! `BIST_VERD`, Table 10.15. -/

def BIST_VERD.VERD (w : Nat) : Field := ⟨0x2B08 + w * 0x4, 0, 32, .ro, 0, false⟩

/-! `BIST_DIAG0`, Table 10.15. -/

def BIST_DIAG0.UNIT : Field := ⟨0x2B1C, 16, 8, .ro, 0, false⟩
def BIST_DIAG0.KIND : Field := ⟨0x2B1C, 8, 4, .ro, 0, false⟩
def BIST_DIAG0.NFAIL : Field := ⟨0x2B1C, 0, 8, .ro, 0, false⟩

/-! `BIST_DIAG1`, Table 10.15. -/

def BIST_DIAG1.SIG : Field := ⟨0x2B20, 0, 32, .ro, 0, false⟩

/-! `BIST_DIAG2`, Table 10.15. -/

def BIST_DIAG2.SIG : Field := ⟨0x2B24, 0, 32, .ro, 0, false⟩

/-! `WEAR_CTRL`, Table 11.15. -/

def WEAR_CTRL.INJ_EN : Field := ⟨0x2C00, 15, 1, .rw, 0, false⟩
def WEAR_CTRL.IND_EN : Field := ⟨0x2C00, 0, 15, .rw, 0x7fff, false⟩

/-! `WEAR_STATUS`, Table 11.16. -/

def WEAR_STATUS.DAY : Field := ⟨0x2C04, 16, 16, .ro, 0, true⟩
def WEAR_STATUS.INJCAUSE : Field := ⟨0x2C04, 12, 4, .ro, 0, false⟩
def WEAR_STATUS.INJLOOP : Field := ⟨0x2C04, 8, 4, .ro, 0, false⟩
def WEAR_STATUS.RESTORE : Field := ⟨0x2C04, 4, 4, .ro, 0, false⟩
def WEAR_STATUS.RESTORED : Field := ⟨0x2C04, 1, 1, .ro, 0, true⟩
def WEAR_STATUS.BLANK : Field := ⟨0x2C04, 0, 1, .ro, 1, true⟩

/-! `WEAR_CFG`, Table 11.17. -/

def WEAR_CFG.WARN : Field := ⟨0x2C08, 16, 16, .rw, 0x016D, false⟩
def WEAR_CFG.INJINT : Field := ⟨0x2C08, 8, 8, .rw, 0x18, false⟩
def WEAR_CFG.INJ_I : Field := ⟨0x2C08, 0, 8, .rw, 0x50, false⟩

/-! `WEAR_LIM`, Table 11.17. -/

def WEAR_LIM.SOH_LIM : Field := ⟨0x2C0C, 24, 8, .rw, 0x46, false⟩
def WEAR_LIM.ESR_F : Field := ⟨0x2C0C, 16, 8, .rw, 0x20, false⟩
def WEAR_LIM.C_F : Field := ⟨0x2C0C, 8, 8, .rw, 0x50, false⟩
def WEAR_LIM.AGE_LIM : Field := ⟨0x2C0C, 0, 8, .rw, 0x1E, false⟩

/-! `WEAR_BANKCAP`, Table 11.17. -/

def WEAR_BANKCAP.CAP : Field := ⟨0x2C10, 0, 32, .rw, 0, false⟩

/-! `WEAR_STAGE`, Table 11.17. -/

def WEAR_STAGE.NREF : Field := ⟨0x2C14, 16, 16, .rw, 0x0064, false⟩
def WEAR_STAGE.DTREF : Field := ⟨0x2C14, 8, 8, .rw, 0x3C, false⟩
def WEAR_STAGE.EXP : Field := ⟨0x2C14, 0, 8, .rw, 0x50, false⟩

/-! `WEAR_INJP`, Table 11.17. -/

def WEAR_INJP.PERIODS : Field := ⟨0x2C18, 0, 4, .rw, 3, false⟩

/-! `WEAR_VAL`, Table 11.17. -/

def WEAR_VAL.VAL (i : Nat) : Field := ⟨0x2C20 + i * 0x8, 0, 32, .ro, 0, false⟩

/-! `WEAR_EOL`, Table 11.17. -/

def WEAR_EOL.DAYS (i : Nat) : Field := ⟨0x2C24 + i * 0x8, 16, 16, .ro, 0xFFFF, false⟩
def WEAR_EOL.NPTS (i : Nat) : Field := ⟨0x2C24 + i * 0x8, 8, 8, .ro, 0, false⟩
def WEAR_EOL.LIMQ (i : Nat) : Field := ⟨0x2C24 + i * 0x8, 4, 4, .ro, 0, false⟩
def WEAR_EOL.BASIS (i : Nat) : Field := ⟨0x2C24 + i * 0x8, 0, 4, .ro, 0, false⟩

/-! `WEAR_EVT`, Table 11.17. -/

def WEAR_EVT.EVT : Field := ⟨0x2C98, 0, 4, .w1c, 0, false⟩

/-! `ID_LOCK`, Table 17.13. -/

def ID_LOCK.FWPATCH : Field := ⟨0x2D00, 1, 1, .w1s, 0, false⟩
def ID_LOCK.KEYPRIV : Field := ⟨0x2D00, 0, 1, .w1s, 0, false⟩

/-! `ID_KEYSTAT`, Table 17.13. -/

def ID_KEYSTAT.CERTOK : Field := ⟨0x2D04, 2, 1, .ro, 0, false⟩
def ID_KEYSTAT.CERTMATCH : Field := ⟨0x2D04, 1, 1, .ro, 0, false⟩
def ID_KEYSTAT.PUBMATCH : Field := ⟨0x2D04, 0, 1, .ro, 0, false⟩

/-! `ID_PUBX`, Table 17.13. -/

def ID_PUBX.WORD (j : Nat) : Field := ⟨0x2D08 + j * 0x4, 0, 32, .ro, 0, false⟩

/-! `ID_PUBY`, Table 17.13. -/

def ID_PUBY.WORD (j : Nat) : Field := ⟨0x2D28 + j * 0x4, 0, 32, .ro, 0, false⟩

/-! `ID_CERTLEN`, Table 17.13. -/

def ID_CERTLEN.LEN : Field := ⟨0x2D48, 0, 10, .ro, 0, false⟩

end Sys2Proof.Machine
end

