-- ==== Sys2Proof/Machine/RegMap.lean ====
section
/-! DEFINITION. The register map by address: which fields a word holds (Tables 18.2 to 18.4), and the
fields whose reset values are marked (POR) (R19). -/

namespace Sys2Proof.Machine

/-- A run of words: `count` words `stride` bytes apart from `base`; word `i` holds the fields `fields i`. -/
structure WordRun where
  base : Nat
  stride : Nat
  count : Nat
  fields : Nat → List Field

/-- Part 0 of the register map. -/
def regMap0 : List WordRun :=
  [⟨0x0000, 4, 1, fun _ => [SYS_CTRL.KEY, SYS_CTRL.OP]⟩,
   ⟨0x0004, 4, 1, fun _ => [SYS_STATUS.PHASE]⟩,
   ⟨0x0008, 4, 1, fun _ => [SYS_SERVICE.BLOCKER, SYS_SERVICE.S0FAIL, SYS_SERVICE.LEVEL]⟩,
   ⟨0x000C, 4, 1, fun _ => [SYS_RSTCAUSE.STBY_WAKE, SYS_RSTCAUSE.SNOW_WAKE, SYS_RSTCAUSE.POWER_LOSS, SYS_RSTCAUSE.ORDERLY, SYS_RSTCAUSE.CMD, SYS_RSTCAUSE.LONG, SYS_RSTCAUSE.NRESET, SYS_RSTCAUSE.POR]⟩,
   ⟨0x0014, 4, 1, fun _ => [SYS_TIME_HI.TIME]⟩,
   ⟨0x0018, 4, 1, fun _ => [SYS_PDCFG.DISTMO, SYS_PDCFG.TMAX]⟩,
   ⟨0x001C, 4, 1, fun _ => [SYS_PDSTAT.DUR, SYS_PDSTAT.TRIG, SYS_PDSTAT.TMAXHIT, SYS_PDSTAT.DONE]⟩,
   ⟨0x0020, 4, 1, fun _ => [SYS_PDFAIL.FAIL]⟩,
   ⟨0x0024, 4, 1, fun _ => [SYS_STBY.WAKET]⟩,
   ⟨0x0028, 4, 1, fun _ => [SYS_EVT.EVT]⟩,
   ⟨0x002C, 4, 1, fun _ => [SYS_BRST.KEY, SYS_BRST.GO, SYS_BRST.RESULT, SYS_BRST.UNIT]⟩,
   ⟨0x0080, 4, 1, fun _ => [ID_ROM.PATCHES, ID_ROM.EDITION]⟩,
   ⟨0x0084, 4, 1, fun _ => [ID_DEVICE.PART, ID_DEVICE.STEP]⟩,
   ⟨0x0088, 4, 1, fun _ => [ID_SERIAL_LO.SERIAL]⟩,
   ⟨0x008C, 4, 1, fun _ => [ID_SERIAL_HI.SERIAL]⟩,
   ⟨0x0090, 4, 1, fun _ => [ID_ORDER.GRADE, ID_ORDER.PROV]⟩,
   ⟨0x0100, 4, 1, fun _ => [PP_CTRL.APPLY, PP_CTRL.CLRFLT, PP_CTRL.SNOW_ARM, PP_CTRL.DIS_TBLOCK, PP_CTRL.BANK_EN]⟩,
   ⟨0x0104, 4, 1, fun _ => [PP_STATUS.REASON, PP_STATUS.PEND, PP_STATUS.LOCKOUT, PP_STATUS.BKB_OCL, PP_STATUS.ILIM_ACT, PP_STATUS.BANK_AVAIL, PP_STATUS.VAUX_OK, PP_STATUS.STATE]⟩,
   ⟨0x0108, 4, 1, fun _ => [PP_VAUX_THR.OV, PP_VAUX_THR.UV_RISE, PP_VAUX_THR.UV_FALL]⟩,
   ⟨0x010C, 4, 1, fun _ => [PP_VSYS_THR.VSYS_UV]⟩,
   ⟨0x0110, 4, 1, fun _ => [PP_ILIM.SHUNT, PP_ILIM.ILIM]⟩,
   ⟨0x0114, 4, 1, fun _ => [PP_TIMERS.AUX_QUAL, PP_TIMERS.SOA_T]⟩,
   ⟨0x0118, 4, 1, fun _ => [PP_BKB_LIM.OC, PP_BKB_LIM.PLIM]⟩,
   ⟨0x011C, 4, 1, fun _ => [PP_BTN.LONG_EN, PP_BTN.SNOW_BTN, PP_BTN.LONG]⟩,
   ⟨0x0120, 4, 1, fun _ => [PP_SNOW.ENTER, PP_SNOW.KEY]⟩,
   ⟨0x0124, 4, 1, fun _ => [PP_EVT.EVT]⟩,
   ⟨0x0200, 4, 1, fun _ => [CHG_CTRL.SUSPEND, CHG_CTRL.RECHG_EN, CHG_CTRL.CLRFLT, CHG_CTRL.EN]⟩,
   ⟨0x0204, 4, 1, fun _ => [CHG_STATUS.REASON, CHG_STATUS.TRATE, CHG_STATUS.LIMIT, CHG_STATUS.SUSP, CHG_STATUS.STATE]⟩,
   ⟨0x0208, 4, 1, fun _ => [CHG_BANK.FSW, CHG_BANK.CELLS, CHG_BANK.CHEM]⟩,
   ⟨0x020C, 4, 1, fun _ => [CHG_VREG.VPRE_CELL, CHG_VREG.VREG_CELL]⟩,
   ⟨0x0210, 4, 1, fun _ => [CHG_VTHR.VCUT_CELL, CHG_VTHR.VSHORT_CELL, CHG_VTHR.VRECH_CELL]⟩,
   ⟨0x0214, 4, 1, fun _ => [CHG_I.IPRE, CHG_I.ICHG]⟩,
   ⟨0x0218, 4, 1, fun _ => [CHG_ITERM.EFF, CHG_ITERM.ITERM]⟩,
   ⟨0x021C, 4, 1, fun _ => [CHG_SHUNT.SHUNT]⟩,
   ⟨0x0220, 4, 1, fun _ => [CHG_TIMER.TSHORT, CHG_TIMER.TTOP, CHG_TIMER.TSAFE]⟩,
   ⟨0x0224, 4, 1, fun _ => [CHG_TELAPSED.ELAPSED]⟩,
   ⟨0x0228, 4, 1, fun _ => [CHG_TWIN.TDIS_HI, CHG_TWIN.TDIS_LO, CHG_TWIN.TCHG_HI, CHG_TWIN.TCHG_LO]⟩,
   ⟨0x022C, 4, 1, fun _ => [CHG_NTC.NTC_SEL]⟩,
   ⟨0x0230, 4, 1, fun _ => [CHG_EVT.EVT]⟩,
   ⟨0x0400, 256, 6, fun i => [LP_CTRL.CLRDL i, LP_CTRL.PREBIAS i, LP_CTRL.OST_EN i, LP_CTRL.EN i]⟩]

/-- Part 1 of the register map. -/
def regMap1 : List WordRun :=
  [⟨0x0404, 256, 6, fun i => [LP_STATUS.DLCNT i, LP_STATUS.REASON i, LP_STATUS.NACT i, LP_STATUS.DEGRADED i, LP_STATUS.OST_ACT i, LP_STATUS.ILIM_ACT i, LP_STATUS.STATE i]⟩,
   ⟨0x0408, 256, 6, fun i => [LP_PHMASK.MASK i]⟩,
   ⟨0x040C, 256, 6, fun i => [LP_PWM.FSW i, LP_PWM.DMAX i]⟩,
   ⟨0x0410, 256, 6, fun i => [LP_VCFG.DIV i, LP_VCFG.VMAX i, LP_VCFG.VBOOT i]⟩,
   ⟨0x0414, 256, 6, fun i => [LP_VREF.ACTUAL i, LP_VREF.TARGET i]⟩,
   ⟨0x0418, 256, 6, fun i => [LP_SLEW.SS i, LP_SLEW.SLEW i]⟩,
   ⟨0x041C, 256, 6, fun i => [LP_COMP0.KP i, LP_COMP0.KI i]⟩,
   ⟨0x0420, 256, 6, fun i => [LP_COMP1.KD i, LP_COMP1.KF i]⟩,
   ⟨0x0424, 256, 6, fun i => [LP_SLOPE.SE i]⟩,
   ⟨0x0428, 256, 6, fun i => [LP_ILIM.PHLIM i, LP_ILIM.NEGLIM i]⟩,
   ⟨0x042C, 256, 6, fun i => [LP_OST.TMAX i, LP_OST.BRAKE i, LP_OST.REL i, LP_OST.THR i]⟩,
   ⟨0x0430, 256, 6, fun i => [LP_PLANT.LPH i, LP_PLANT.VIN_CH i]⟩,
   ⟨0x0434, 256, 6, fun i => [LP_CFG.SRDY i, LP_CFG.NMIN i, LP_CFG.SUP i]⟩,
   ⟨0x0438, 256, 6, fun i => [LP_IOUT.IOUT i]⟩,
   ⟨0x043C, 256, 6, fun i => [LP_PIN.PIN i]⟩,
   ⟨0x0440, 256, 6, fun i => [LP_EVT.EVT i]⟩,
   ⟨0x0A10, 4, 1, fun _ => [PH_FAULTED.MASK]⟩,
   ⟨0x0A14, 4, 1, fun _ => [PH_CFG.OUTLIER]⟩,
   ⟨0x0B00, 16, 10, fun i => [PH_CS.GAIN i, PH_CS.OFS i]⟩,
   ⟨0x0B04, 16, 10, fun i => [PH_STATUS.CAUSES i, PH_STATUS.OWNER i, PH_STATUS.FAILCNT i, PH_STATUS.CAUSE i, PH_STATUS.STATE i]⟩,
   ⟨0x0B08, 16, 10, fun i => [PH_MEAS.IPK i, PH_MEAS.TON i]⟩,
   ⟨0x0C00, 16, 10, fun i => [PH_CS.GAIN (i + 10), PH_CS.OFS (i + 10)]⟩,
   ⟨0x0C04, 16, 10, fun i => [PH_STATUS.CAUSES (i + 10), PH_STATUS.OWNER (i + 10), PH_STATUS.FAILCNT (i + 10), PH_STATUS.CAUSE (i + 10), PH_STATUS.STATE (i + 10)]⟩,
   ⟨0x0C08, 16, 10, fun i => [PH_MEAS.IPK (i + 10), PH_MEAS.TON (i + 10)]⟩,
   ⟨0x0D00, 64, 2, fun i => [VCL_CTRL.CLRCNT i, VCL_CTRL.HOLD i, VCL_CTRL.EN i]⟩,
   ⟨0x0D04, 64, 2, fun i => [VCL_CFG.TSET i, VCL_CFG.BAND i, VCL_CFG.AMASK i, VCL_CFG.LOOP i]⟩,
   ⟨0x0D08, 64, 2, fun i => [VCL_STATUS.REASON i, VCL_STATUS.LASTREF i, VCL_STATUS.QDEPTH i, VCL_STATUS.INFLIGHT i, VCL_STATUS.CURTAG i, VCL_STATUS.DSLEW i]⟩,
   ⟨0x0D0C, 4, 4, fun i => [VCL_PST.VALID 0 i, VCL_PST.SLEW 0 i, VCL_PST.VID 0 i]⟩,
   ⟨0x0D1C, 64, 2, fun i => [VCL_CNT0.ACCEPTED i, VCL_CNT0.REFUSED i]⟩,
   ⟨0x0D20, 64, 2, fun i => [VCL_CNT1.REACHED i, VCL_CNT1.SUPERSEDED i]⟩,
   ⟨0x0D24, 64, 2, fun i => [VCL_CNT2.ABORTED i, VCL_CNT2.DEADLINE i]⟩,
   ⟨0x0D28, 64, 2, fun i => [VCL_CNT3.CRCERR i, VCL_CNT3.FRAMERR i]⟩,
   ⟨0x0D2C, 64, 2, fun i => [VCL_EVT.EVT i]⟩,
   ⟨0x0D30, 64, 2, fun i => [VCL_ALERT.LATCH i]⟩,
   ⟨0x0D4C, 4, 4, fun i => [VCL_PST.VALID 1 i, VCL_PST.SLEW 1 i, VCL_PST.VID 1 i]⟩,
   ⟨0x0E00, 32, 6, fun i => [BK_CTRL.CLRFLT i, BK_CTRL.DISCH i, BK_CTRL.FPWM i, BK_CTRL.EN i]⟩,
   ⟨0x0E04, 32, 6, fun i => [BK_STATUS.REASON i, BK_STATUS.EVT i, BK_STATUS.SHORTL i, BK_STATUS.LIMSRC i, BK_STATUS.ILIM_ACT i, BK_STATUS.VIN_OK i, BK_STATUS.STATE i]⟩,
   ⟨0x0E08, 32, 6, fun i => [BK_VOUT.VMAX i, BK_VOUT.VSET i]⟩,
   ⟨0x0E0C, 32, 6, fun i => [BK_CFG.ILIM i, BK_CFG.FSW i, BK_CFG.SS i, BK_CFG.SUP i]⟩,
   ⟨0x0EC0, 4, 1, fun _ => [VDRV_STATUS.EVT, VDRV_STATUS.ILIM_ACT, VDRV_STATUS.PG]⟩]

/-- Part 2 of the register map. -/
def regMap2 : List WordRun :=
  [⟨0x0ED0, 4, 1, fun _ => [AON_CFG.SNOW_KEEP]⟩,
   ⟨0x0ED4, 4, 1, fun _ => [AON_STATUS.EVT, AON_STATUS.ILIM_ACT]⟩,
   ⟨0x0F00, 16, 8, fun i => [LDO_CTRL.DISCH i, LDO_CTRL.CLRFLT i, LDO_CTRL.EN i]⟩,
   ⟨0x0F04, 16, 8, fun i => [LDO_STATUS.REASON i, LDO_STATUS.EVT i, LDO_STATUS.SHORTL i, LDO_STATUS.ILIM_ACT i, LDO_STATUS.STATE i]⟩,
   ⟨0x0F08, 16, 8, fun i => [LDO_CFG.SRC i, LDO_CFG.SUP i, LDO_CFG.VSET i]⟩,
   ⟨0x0F80, 16, 8, fun i => [SW_CTRL.DISCH i, SW_CTRL.CLRFLT i, SW_CTRL.EN i]⟩,
   ⟨0x0F84, 16, 8, fun i => [SW_STATUS.REASON i, SW_STATUS.EVT i, SW_STATUS.SHORTL i, SW_STATUS.ILIM_ACT i, SW_STATUS.STATE i]⟩,
   ⟨0x0F88, 16, 8, fun i => [SW_CFG.SRC i, SW_CFG.SUP i, SW_CFG.TRISE i]⟩,
   ⟨0x1000, 12, 16, fun i => [SUP_CFG.TICK i, SUP_CFG.M i, SUP_CFG.N i, SUP_CFG.SRC i, SUP_CFG.TRACK i, SUP_CFG.HYST i, SUP_CFG.EN i]⟩,
   ⟨0x1004, 12, 16, fun i => [SUP_LVL.FHI i, SUP_LVL.WHI i, SUP_LVL.WLO i, SUP_LVL.FLO i]⟩,
   ⟨0x1008, 12, 16, fun i => [SUP_NOM.SETTLE i, SUP_NOM.VNOM i]⟩,
   ⟨0x10C0, 4, 4, fun i => [SUP_STAT.PG (i * 4 + 0), SUP_STAT.PGS (i * 4 + 0), SUP_STAT.ARMED (i * 4 + 0), SUP_STAT.FHI (i * 4 + 0), SUP_STAT.WHI (i * 4 + 0), SUP_STAT.WLO (i * 4 + 0), SUP_STAT.FLO (i * 4 + 0), SUP_STAT.CHKF (i * 4 + 0), SUP_STAT.PG (i * 4 + 1), SUP_STAT.PGS (i * 4 + 1), SUP_STAT.ARMED (i * 4 + 1), SUP_STAT.FHI (i * 4 + 1), SUP_STAT.WHI (i * 4 + 1), SUP_STAT.WLO (i * 4 + 1), SUP_STAT.FLO (i * 4 + 1), SUP_STAT.CHKF (i * 4 + 1), SUP_STAT.PG (i * 4 + 2), SUP_STAT.PGS (i * 4 + 2), SUP_STAT.ARMED (i * 4 + 2), SUP_STAT.FHI (i * 4 + 2), SUP_STAT.WHI (i * 4 + 2), SUP_STAT.WLO (i * 4 + 2), SUP_STAT.FLO (i * 4 + 2), SUP_STAT.CHKF (i * 4 + 2), SUP_STAT.PG (i * 4 + 3), SUP_STAT.PGS (i * 4 + 3), SUP_STAT.ARMED (i * 4 + 3), SUP_STAT.FHI (i * 4 + 3), SUP_STAT.WHI (i * 4 + 3), SUP_STAT.WLO (i * 4 + 3), SUP_STAT.FLO (i * 4 + 3), SUP_STAT.CHKF (i * 4 + 3)]⟩,
   ⟨0x10D0, 4, 4, fun i => [SUP_CHAT.COUNT (i * 4 + 0), SUP_CHAT.COUNT (i * 4 + 1), SUP_CHAT.COUNT (i * 4 + 2), SUP_CHAT.COUNT (i * 4 + 3)]⟩,
   ⟨0x10E0, 4, 4, fun i => [SUP_EVT.EVT (i * 4 + 0), SUP_EVT.EVT (i * 4 + 1), SUP_EVT.EVT (i * 4 + 2), SUP_EVT.EVT (i * 4 + 3)]⟩,
   ⟨0x10F0, 4, 1, fun _ => [SUP_STATUS.REASON, SUP_STATUS.RCH]⟩,
   ⟨0x10F4, 4, 1, fun _ => [SUP_CHK.FAILS, SUP_CHK.NEXT, SUP_CHK.EN]⟩,
   ⟨0x10F8, 4, 1, fun _ => [SUP_CMPCHK.FAIL]⟩,
   ⟨0x1100, 12, 16, fun i => [SUP_CFG.TICK (i + 16), SUP_CFG.M (i + 16), SUP_CFG.N (i + 16), SUP_CFG.SRC (i + 16), SUP_CFG.TRACK (i + 16), SUP_CFG.HYST (i + 16), SUP_CFG.EN (i + 16)]⟩,
   ⟨0x1104, 12, 16, fun i => [SUP_LVL.FHI (i + 16), SUP_LVL.WHI (i + 16), SUP_LVL.WLO (i + 16), SUP_LVL.FLO (i + 16)]⟩,
   ⟨0x1108, 12, 16, fun i => [SUP_NOM.SETTLE (i + 16), SUP_NOM.VNOM (i + 16)]⟩,
   ⟨0x11C0, 4, 4, fun i => [SUP_STAT.PG (i * 4 + 16), SUP_STAT.PGS (i * 4 + 16), SUP_STAT.ARMED (i * 4 + 16), SUP_STAT.FHI (i * 4 + 16), SUP_STAT.WHI (i * 4 + 16), SUP_STAT.WLO (i * 4 + 16), SUP_STAT.FLO (i * 4 + 16), SUP_STAT.CHKF (i * 4 + 16), SUP_STAT.PG (i * 4 + 17), SUP_STAT.PGS (i * 4 + 17), SUP_STAT.ARMED (i * 4 + 17), SUP_STAT.FHI (i * 4 + 17), SUP_STAT.WHI (i * 4 + 17), SUP_STAT.WLO (i * 4 + 17), SUP_STAT.FLO (i * 4 + 17), SUP_STAT.CHKF (i * 4 + 17), SUP_STAT.PG (i * 4 + 18), SUP_STAT.PGS (i * 4 + 18), SUP_STAT.ARMED (i * 4 + 18), SUP_STAT.FHI (i * 4 + 18), SUP_STAT.WHI (i * 4 + 18), SUP_STAT.WLO (i * 4 + 18), SUP_STAT.FLO (i * 4 + 18), SUP_STAT.CHKF (i * 4 + 18), SUP_STAT.PG (i * 4 + 19), SUP_STAT.PGS (i * 4 + 19), SUP_STAT.ARMED (i * 4 + 19), SUP_STAT.FHI (i * 4 + 19), SUP_STAT.WHI (i * 4 + 19), SUP_STAT.WLO (i * 4 + 19), SUP_STAT.FLO (i * 4 + 19), SUP_STAT.CHKF (i * 4 + 19)]⟩,
   ⟨0x11D0, 4, 4, fun i => [SUP_CHAT.COUNT (i * 4 + 16), SUP_CHAT.COUNT (i * 4 + 17), SUP_CHAT.COUNT (i * 4 + 18), SUP_CHAT.COUNT (i * 4 + 19)]⟩,
   ⟨0x11E0, 4, 4, fun i => [SUP_EVT.EVT (i * 4 + 16), SUP_EVT.EVT (i * 4 + 17), SUP_EVT.EVT (i * 4 + 18), SUP_EVT.EVT (i * 4 + 19)]⟩,
   ⟨0x1200, 12, 16, fun i => [SUP_CFG.TICK (i + 32), SUP_CFG.M (i + 32), SUP_CFG.N (i + 32), SUP_CFG.SRC (i + 32), SUP_CFG.TRACK (i + 32), SUP_CFG.HYST (i + 32), SUP_CFG.EN (i + 32)]⟩,
   ⟨0x1204, 12, 16, fun i => [SUP_LVL.FHI (i + 32), SUP_LVL.WHI (i + 32), SUP_LVL.WLO (i + 32), SUP_LVL.FLO (i + 32)]⟩,
   ⟨0x1208, 12, 16, fun i => [SUP_NOM.SETTLE (i + 32), SUP_NOM.VNOM (i + 32)]⟩,
   ⟨0x12C0, 4, 4, fun i => [SUP_STAT.PG (i * 4 + 32), SUP_STAT.PGS (i * 4 + 32), SUP_STAT.ARMED (i * 4 + 32), SUP_STAT.FHI (i * 4 + 32), SUP_STAT.WHI (i * 4 + 32), SUP_STAT.WLO (i * 4 + 32), SUP_STAT.FLO (i * 4 + 32), SUP_STAT.CHKF (i * 4 + 32), SUP_STAT.PG (i * 4 + 33), SUP_STAT.PGS (i * 4 + 33), SUP_STAT.ARMED (i * 4 + 33), SUP_STAT.FHI (i * 4 + 33), SUP_STAT.WHI (i * 4 + 33), SUP_STAT.WLO (i * 4 + 33), SUP_STAT.FLO (i * 4 + 33), SUP_STAT.CHKF (i * 4 + 33), SUP_STAT.PG (i * 4 + 34), SUP_STAT.PGS (i * 4 + 34), SUP_STAT.ARMED (i * 4 + 34), SUP_STAT.FHI (i * 4 + 34), SUP_STAT.WHI (i * 4 + 34), SUP_STAT.WLO (i * 4 + 34), SUP_STAT.FLO (i * 4 + 34), SUP_STAT.CHKF (i * 4 + 34), SUP_STAT.PG (i * 4 + 35), SUP_STAT.PGS (i * 4 + 35), SUP_STAT.ARMED (i * 4 + 35), SUP_STAT.FHI (i * 4 + 35), SUP_STAT.WHI (i * 4 + 35), SUP_STAT.WLO (i * 4 + 35), SUP_STAT.FLO (i * 4 + 35), SUP_STAT.CHKF (i * 4 + 35)]⟩,
   ⟨0x12D0, 4, 4, fun i => [SUP_CHAT.COUNT (i * 4 + 32), SUP_CHAT.COUNT (i * 4 + 33), SUP_CHAT.COUNT (i * 4 + 34), SUP_CHAT.COUNT (i * 4 + 35)]⟩,
   ⟨0x12E0, 4, 4, fun i => [SUP_EVT.EVT (i * 4 + 32), SUP_EVT.EVT (i * 4 + 33), SUP_EVT.EVT (i * 4 + 34), SUP_EVT.EVT (i * 4 + 35)]⟩,
   ⟨0x1300, 12, 16, fun i => [SUP_CFG.TICK (i + 48), SUP_CFG.M (i + 48), SUP_CFG.N (i + 48), SUP_CFG.SRC (i + 48), SUP_CFG.TRACK (i + 48), SUP_CFG.HYST (i + 48), SUP_CFG.EN (i + 48)]⟩,
   ⟨0x1304, 12, 16, fun i => [SUP_LVL.FHI (i + 48), SUP_LVL.WHI (i + 48), SUP_LVL.WLO (i + 48), SUP_LVL.FLO (i + 48)]⟩,
   ⟨0x1308, 12, 16, fun i => [SUP_NOM.SETTLE (i + 48), SUP_NOM.VNOM (i + 48)]⟩,
   ⟨0x13C0, 4, 4, fun i => [SUP_STAT.PG (i * 4 + 48), SUP_STAT.PGS (i * 4 + 48), SUP_STAT.ARMED (i * 4 + 48), SUP_STAT.FHI (i * 4 + 48), SUP_STAT.WHI (i * 4 + 48), SUP_STAT.WLO (i * 4 + 48), SUP_STAT.FLO (i * 4 + 48), SUP_STAT.CHKF (i * 4 + 48), SUP_STAT.PG (i * 4 + 49), SUP_STAT.PGS (i * 4 + 49), SUP_STAT.ARMED (i * 4 + 49), SUP_STAT.FHI (i * 4 + 49), SUP_STAT.WHI (i * 4 + 49), SUP_STAT.WLO (i * 4 + 49), SUP_STAT.FLO (i * 4 + 49), SUP_STAT.CHKF (i * 4 + 49), SUP_STAT.PG (i * 4 + 50), SUP_STAT.PGS (i * 4 + 50), SUP_STAT.ARMED (i * 4 + 50), SUP_STAT.FHI (i * 4 + 50), SUP_STAT.WHI (i * 4 + 50), SUP_STAT.WLO (i * 4 + 50), SUP_STAT.FLO (i * 4 + 50), SUP_STAT.CHKF (i * 4 + 50), SUP_STAT.PG (i * 4 + 51), SUP_STAT.PGS (i * 4 + 51), SUP_STAT.ARMED (i * 4 + 51), SUP_STAT.FHI (i * 4 + 51), SUP_STAT.WHI (i * 4 + 51), SUP_STAT.WLO (i * 4 + 51), SUP_STAT.FLO (i * 4 + 51), SUP_STAT.CHKF (i * 4 + 51)]⟩,
   ⟨0x13D0, 4, 4, fun i => [SUP_CHAT.COUNT (i * 4 + 48), SUP_CHAT.COUNT (i * 4 + 49), SUP_CHAT.COUNT (i * 4 + 50), SUP_CHAT.COUNT (i * 4 + 51)]⟩,
   ⟨0x13E0, 4, 4, fun i => [SUP_EVT.EVT (i * 4 + 48), SUP_EVT.EVT (i * 4 + 49), SUP_EVT.EVT (i * 4 + 50), SUP_EVT.EVT (i * 4 + 51)]⟩,
   ⟨0x1400, 256, 4, fun i => [CAM_CTRL.CLRCNT i, CAM_CTRL.EN i]⟩,
   ⟨0x1404, 256, 4, fun i => [CAM_STATUS.REASON i, CAM_STATUS.CURTASK i, CAM_STATUS.PDOWN i, CAM_STATUS.RINGOWN i, CAM_STATUS.STATE i]⟩,
   ⟨0x1408, 256, 4, fun i => [CAM_CFG.RUNMAX i]⟩,
   ⟨0x140C, 256, 4, fun i => [CAM_EXC.PC i, CAM_EXC.TASK i, CAM_EXC.CAUSE i]⟩,
   ⟨0x1418, 256, 4, fun i => [CAM_CNT.DLMISS i, CAM_CNT.EXCCNT i]⟩]

/-- Part 3 of the register map. -/
def regMap3 : List WordRun :=
  [⟨0x141C, 256, 4, fun i => [CAM_RAISE.POP i, CAM_RAISE.DEPTH i, CAM_RAISE.LOST i, CAM_RAISE.TASK i, CAM_RAISE.CODE i]⟩,
   ⟨0x1420, 256, 4, fun i => [CAM_EVT.EVT i]⟩,
   ⟨0x1480, 4, 1, fun _ => [CAM_IMG_STATUS.REASON, CAM_IMG_STATUS.CODE_LEN, CAM_IMG_STATUS.HANDOVER, CAM_IMG_STATUS.SOURCE, CAM_IMG_STATUS.SIGNED, CAM_IMG_STATUS.LOADED]⟩,
   ⟨0x1484, 4, 1, fun _ => [CAM_IMG_ID.ID]⟩,
   ⟨0x1488, 4, 1, fun _ => [CAM_IMG_VER.VER]⟩,
   ⟨0x148C, 4, 1, fun _ => [CAM_IMG_MEMERR.COUNT]⟩,
   ⟨0x1490, 4, 8, fun i => [CAM_IMG_DIGEST.DIGEST i]⟩,
   ⟨0x1800, 4, 1, fun _ => [NRG_CTRL.CLRCNT, NRG_CTRL.FREEZE]⟩,
   ⟨0x1804, 4, 1, fun _ => [NRG_STATUS.RUNG, NRG_STATUS.BIND, NRG_STATUS.PDOWN, NRG_STATUS.STALE, NRG_STATUS.OVERDRAW, NRG_STATUS.OVER, NRG_STATUS.SRC]⟩,
   ⟨0x1808, 4, 1, fun _ => [NRG_BUDGET.VAL]⟩,
   ⟨0x180C, 4, 1, fun _ => [NRG_GRANTED.VAL]⟩,
   ⟨0x1810, 4, 1, fun _ => [NRG_EARMARK.VAL]⟩,
   ⟨0x1814, 4, 1, fun _ => [NRG_SRCTERM.VAL]⟩,
   ⟨0x1818, 4, 1, fun _ => [NRG_ENERGY.VAL]⟩,
   ⟨0x181C, 4, 1, fun _ => [NRG_DEBIT.VAL]⟩,
   ⟨0x1820, 4, 1, fun _ => [NRG_LOAD.VAL]⟩,
   ⟨0x1824, 4, 1, fun _ => [NRG_HOLDUP.VAL]⟩,
   ⟨0x1828, 4, 1, fun _ => [NRG_CAP.CAP]⟩,
   ⟨0x182C, 4, 1, fun _ => [NRG_CFG.HOLDOFF, NRG_CFG.OFFHOLD, NRG_CFG.HMIN]⟩,
   ⟨0x1830, 4, 1, fun _ => [NRG_RSV0.RSV0]⟩,
   ⟨0x1834, 4, 8, fun i => [NRG_HEAT.HEAT i]⟩,
   ⟨0x1874, 4, 2, fun i => [NRG_LIMITED.MASK i]⟩,
   ⟨0x187C, 4, 1, fun _ => [NRG_SEL.INDEX]⟩,
   ⟨0x1888, 4, 1, fun _ => [NRG_CNT0.GRANTS, NRG_CNT0.REVOKES]⟩,
   ⟨0x188C, 4, 1, fun _ => [NRG_CNT1.DEFERS, NRG_CNT1.OVERS]⟩,
   ⟨0x1890, 4, 1, fun _ => [NRG_EVT.EVT]⟩,
   ⟨0x1900, 4, 1, fun _ => [MNG_CTRL.CLRCNT, MNG_CTRL.EN]⟩,
   ⟨0x1904, 4, 1, fun _ => [MNG_STATUS.REASON, MNG_STATUS.STATE, MNG_STATUS.ADDR, MNG_STATUS.ADDRV, MNG_STATUS.HOLD, MNG_STATUS.LINE, MNG_STATUS.MASTER_ACT, MNG_STATUS.SILENT, MNG_STATUS.OPEN, MNG_STATUS.JSTATE]⟩,
   ⟨0x1908, 4, 1, fun _ => [MNG_CFG.ISOSTATE, MNG_CFG.EXPECT, MNG_CFG.LOSTPOL, MNG_CFG.AUTOISO, MNG_CFG.JOINHOLD, MNG_CFG.MASTER]⟩,
   ⟨0x190C, 4, 1, fun _ => [MNG_STEPDL.DL0, MNG_STEPDL.DLN]⟩,
   ⟨0x1910, 4, 4, fun i => [MNG_PRESENT.MASK i]⟩,
   ⟨0x1920, 4, 4, fun i => [MNG_HOLDERS.MASK i]⟩,
   ⟨0x1930, 4, 1, fun _ => [MNG_LASTAB.TARGET, MNG_LASTAB.NODE, MNG_LASTAB.SEQ]⟩,
   ⟨0x1934, 4, 1, fun _ => [MNG_CNT.ADV, MNG_CNT.ABORTS, MNG_CNT.CRCERR]⟩,
   ⟨0x1938, 4, 1, fun _ => [MNG_CMD.GO, MNG_CMD.ARG, MNG_CMD.OP]⟩,
   ⟨0x193C, 4, 1, fun _ => [MNG_EVT.EVT]⟩,
   ⟨0x1A00, 4, 1, fun _ => [ADC_CTRL.SNAPREL, ADC_CTRL.SNAP, ADC_CTRL.CLRCNT]⟩,
   ⟨0x1A04, 4, 1, fun _ => [ADC_STATUS.REASON, ADC_STATUS.RSRC, ADC_STATUS.BASE, ADC_STATUS.BURST, ADC_STATUS.USABLE]⟩,
   ⟨0x1A08, 4, 4, fun i => [ADC_SL_CTRL.PER i, ADC_SL_CTRL.LEN i, ADC_SL_CTRL.RUN i, ADC_SL_CTRL.EN i]⟩,
   ⟨0x1A18, 4, 1, fun _ => [ADC_URG.TS]⟩]

/-- Part 4 of the register map. -/
def regMap4 : List WordRun :=
  [⟨0x1A1C, 4, 1, fun _ => [ADC_URGREQ.REQ, ADC_URGREQ.SERVED]⟩,
   ⟨0x1A20, 4, 1, fun _ => [ADC_DROP.INCONV, ADC_DROP.DROPPED]⟩,
   ⟨0x1A24, 4, 1, fun _ => [ADC_BURST.GO, ADC_BURST.CH, ADC_BURST.LEN]⟩,
   ⟨0x1A28, 4, 1, fun _ => [ADC_CAP.EN, ADC_CAP.SLICE, ADC_CAP.SRC, ADC_CAP.PRE, ADC_CAP.CH]⟩,
   ⟨0x1A2C, 4, 1, fun _ => [ADC_HKSTAT.ROUND]⟩,
   ⟨0x1A30, 4, 1, fun _ => [ADC_HKVAL0.VALID]⟩,
   ⟨0x1A34, 4, 1, fun _ => [ADC_HKVAL1.VALID]⟩,
   ⟨0x1A38, 4, 1, fun _ => [ADC_SNAP.MISSED, ADC_SNAP.ALSO, ADC_SNAP.SEQ, ADC_SNAP.DIGV, ADC_SNAP.STATE]⟩,
   ⟨0x1A3C, 4, 1, fun _ => [ADC_SNAPINFO.TRIG, ADC_SNAPINFO.CODE, ADC_SNAPINFO.CAPLEN]⟩,
   ⟨0x1A40, 4, 1, fun _ => [ADC_SNAPCAP.CONV, ADC_SNAPCAP.RATE, ADC_SNAPCAP.CH, ADC_SNAPCAP.OLDEST]⟩,
   ⟨0x1A44, 4, 1, fun _ => [ADC_SNAPT_LO.TIME]⟩,
   ⟨0x1A48, 4, 1, fun _ => [ADC_SNAPT_HI.TIME]⟩,
   ⟨0x1A4C, 4, 1, fun _ => [ADC_SNAPROUND.ROUND]⟩,
   ⟨0x1A50, 4, 8, fun i => [ADC_SNAPDIG.DIGEST i]⟩,
   ⟨0x1A70, 4, 1, fun _ => [ADC_PIN.PIN]⟩,
   ⟨0x1A74, 4, 1, fun _ => [ADC_PINLOOP.PIN]⟩,
   ⟨0x1A78, 4, 1, fun _ => [ADC_PINREST.PIN]⟩,
   ⟨0x1A7C, 4, 1, fun _ => [ADC_MISM.CLR, ADC_MISM.CONV]⟩,
   ⟨0x1A80, 4, 4, fun i => [ADC_SL_RAW.DISCARDED i, ADC_SL_RAW.SKIP i, ADC_SL_RAW.ENTRY i, ADC_SL_RAW.RAW i]⟩,
   ⟨0x1A90, 4, 1, fun _ => [ADC_EVT.EVT]⟩,
   ⟨0x1B00, 4, 16, fun i => [ADC_SEQ.CH 0 i, ADC_SEQ.GAIN 0 i, ADC_SEQ.TS 0 i, ADC_SEQ.AVG 0 i, ADC_SEQ.SHIFT 0 i]⟩,
   ⟨0x1B40, 4, 16, fun i => [ADC_SEQ.CH 1 i, ADC_SEQ.GAIN 1 i, ADC_SEQ.TS 1 i, ADC_SEQ.AVG 1 i, ADC_SEQ.SHIFT 1 i]⟩,
   ⟨0x1B80, 4, 16, fun i => [ADC_SEQ.CH 2 i, ADC_SEQ.GAIN 2 i, ADC_SEQ.TS 2 i, ADC_SEQ.AVG 2 i, ADC_SEQ.SHIFT 2 i]⟩,
   ⟨0x1BC0, 4, 16, fun i => [ADC_SEQ.CH 3 i, ADC_SEQ.GAIN 3 i, ADC_SEQ.TS 3 i, ADC_SEQ.AVG 3 i, ADC_SEQ.SHIFT 3 i]⟩,
   ⟨0x1C00, 4, 32, fun i => [ADC_HK.VAL (i * 2 + 0), ADC_HK.VAL (i * 2 + 1)]⟩,
   ⟨0x1C80, 4, 32, fun i => [ADC_SNHK.VAL (i * 2 + 0), ADC_SNHK.VAL (i * 2 + 1)]⟩,
   ⟨0x1D00, 4, 1, fun _ => [THM_STATUS.TJMAX, THM_STATUS.DTEXCL, THM_STATUS.OTPOK, THM_STATUS.STGBIND, THM_STATUS.CFGBAD, THM_STATUS.RUNG]⟩,
   ⟨0x1D04, 4, 1, fun _ => [THM_CFG.TWARN, THM_CFG.STOFS, THM_CFG.STG_EN, THM_CFG.HYST, THM_CFG.DWELL]⟩,
   ⟨0x1D08, 4, 1, fun _ => [THM_RUNGT0.T4, THM_RUNGT0.T3, THM_RUNGT0.T2, THM_RUNGT0.T1]⟩,
   ⟨0x1D0C, 4, 1, fun _ => [THM_RUNGT1.T7, THM_RUNGT1.T6, THM_RUNGT1.T5]⟩,
   ⟨0x1D10, 4, 1, fun _ => [THM_NTC.R26, THM_NTC.BETA]⟩,
   ⟨0x1D14, 4, 1, fun _ => [THM_TMON.V0, THM_TMON.SLOPE]⟩,
   ⟨0x1D18, 4, 1, fun _ => [THM_TSD.LATCH, THM_TSD.SENSOR, THM_TSD.TJLAST]⟩,
   ⟨0x1D1C, 4, 1, fun _ => [THM_EVT.EVT]⟩,
   ⟨0x1E00, 4, 1, fun _ => [FLT_CTRL.MARKREAD, FLT_CTRL.LOCK]⟩,
   ⟨0x1E04, 4, 1, fun _ => [FLT_CFG.MERGE, FLT_CFG.AUTOLOCK, FLT_CFG.LOGNOTICE]⟩,
   ⟨0x1E08, 4, 1, fun _ => [FLT_CREACT.CRIT, FLT_CREACT.FAULT, FLT_CREACT.WARN]⟩,
   ⟨0x1E0C, 4, 16, fun i => [FLT_LADD.ADD (i * 4 + 0), FLT_LADD.ADD (i * 4 + 1), FLT_LADD.ADD (i * 4 + 2), FLT_LADD.ADD (i * 4 + 3)]⟩,
   ⟨0x1E4C, 4, 2, fun i => [FLT_STATUS.LINES i]⟩,
   ⟨0x1E54, 4, 2, fun i => [FLT_LATCH.LINES i]⟩]

/-- Part 5 of the register map. -/
def regMap5 : List WordRun :=
  [⟨0x1E5C, 4, 1, fun _ => [FLT_STATE.OLINE, FLT_STATE.OCLASS, FLT_STATE.OPEN, FLT_STATE.ALIVE_RUN, FLT_STATE.ALIVE_LVL]⟩,
   ⟨0x1E60, 4, 1, fun _ => [FLT_HWR.COUNT]⟩,
   ⟨0x1E64, 4, 1, fun _ => [FLT_HOVR.COUNT]⟩,
   ⟨0x1E68, 4, 1, fun _ => [FLT_HSTAT.UNREAD, FLT_HSTAT.HELD]⟩,
   ⟨0x1E6C, 4, 1, fun _ => [FLT_LWR.COUNT]⟩,
   ⟨0x1E70, 4, 1, fun _ => [FLT_LOVR.COUNT]⟩,
   ⟨0x1E74, 4, 1, fun _ => [FLT_LSTAT.HELD]⟩,
   ⟨0x1E78, 4, 1, fun _ => [FLT_CCNT.CRIT, FLT_CCNT.FAULT, FLT_CCNT.WARN]⟩,
   ⟨0x1E7C, 4, 1, fun _ => [FLT_NCNT.COUNT]⟩,
   ⟨0x1E80, 4, 1, fun _ => [FLT_RSEL.LOG, FLT_RSEL.AGE]⟩,
   ⟨0x1E84, 4, 8, fun i => [FLT_REC.WORD i]⟩,
   ⟨0x1EA4, 4, 1, fun _ => [FLT_OPMARK.OP, FLT_OPMARK.DETAIL]⟩,
   ⟨0x1EA8, 4, 1, fun _ => [FLT_TEST.ENTER, FLT_TEST.LOCKOUT, FLT_TEST.TRIES, FLT_TEST.ACTIVE]⟩,
   ⟨0x1EAC, 4, 4, fun i => [FLT_TKEY.KEY i]⟩,
   ⟨0x1EBC, 4, 1, fun _ => [FLT_INJ.GO, FLT_INJ.CLASS, FLT_INJ.LINE]⟩,
   ⟨0x1EC0, 4, 1, fun _ => [FLT_EVT.EVT]⟩,
   ⟨0x2000, 4, 1, fun _ => [INTC_CTRL.CLRCNT]⟩,
   ⟨0x2004, 4, 1, fun _ => [INTC_CNT.BADCOMP, INTC_CNT.CLAIMS]⟩,
   ⟨0x2008, 4, 1, fun _ => [INTC_DBELL.CLR, INTC_DBELL.SET, INTC_DBELL.RING]⟩,
   ⟨0x2040, 16, 2, fun i => [INTC_T_CFG.POL i, INTC_T_CFG.SLEEP i, INTC_T_CFG.THR i]⟩,
   ⟨0x2044, 16, 2, fun i => [INTC_T_CLAIM.ID i]⟩,
   ⟨0x2048, 16, 2, fun i => [INTC_T_COMPLETE.ID i]⟩,
   ⟨0x204C, 16, 2, fun i => [INTC_T_STAT.SPUR i, INTC_T_STAT.NACT i, INTC_T_STAT.LINE i, INTC_T_STAT.TOP i]⟩,
   ⟨0x20A0, 16, 2, fun i => [INTC_T_CFG.POL (i + 6), INTC_T_CFG.SLEEP (i + 6), INTC_T_CFG.THR (i + 6)]⟩,
   ⟨0x20A4, 16, 2, fun i => [INTC_T_CLAIM.ID (i + 6)]⟩,
   ⟨0x20A8, 16, 2, fun i => [INTC_T_COMPLETE.ID (i + 6)]⟩,
   ⟨0x20AC, 16, 2, fun i => [INTC_T_STAT.SPUR (i + 6), INTC_T_STAT.NACT (i + 6), INTC_T_STAT.LINE (i + 6), INTC_T_STAT.TOP (i + 6)]⟩,
   ⟨0x2100, 4, 256, fun i => [INTC_SRC.STATE (i + 1), INTC_SRC.LATCHED (i + 1), INTC_SRC.REQ (i + 1), INTC_SRC.OWNER (i + 1), INTC_SRC.ROUTE (i + 1), INTC_SRC.EN_H1 (i + 1), INTC_SRC.EN_H0 (i + 1), INTC_SRC.EN_K1 (i + 1), INTC_SRC.EN_K0 (i + 1), INTC_SRC.MASK (i + 1), INTC_SRC.PRIO (i + 1)]⟩,
   ⟨0x2800, 4, 1, fun _ => [HCI_CTRL.CLRCNT, HCI_CTRL.EN]⟩,
   ⟨0x2804, 4, 1, fun _ => [HCI_STATUS.REASON, HCI_STATUS.K1LANE, HCI_STATUS.STATE]⟩,
   ⟨0x2808, 4, 1, fun _ => [HCI_CFG.HWAKE_POL, HCI_CFG.ARB, HCI_CFG.SPICRC]⟩,
   ⟨0x280C, 4, 1, fun _ => [HCI_DB.QUEUE, HCI_DB.SLOT]⟩,
   ⟨0x2810, 4, 1, fun _ => [HCI_CQ_HEAD.HEAD]⟩,
   ⟨0x2814, 4, 1, fun _ => [HCI_CQ_TAIL.TAIL]⟩,
   ⟨0x2818, 4, 1, fun _ => [HCI_MOD.TIME, HCI_MOD.COUNT]⟩,
   ⟨0x2824, 4, 1, fun _ => [HCI_CREDIT1.INFLIGHT, HCI_CREDIT1.UNREAD]⟩,
   ⟨0x2830, 4, 1, fun _ => [HCI_CNT0.COMPLETED, HCI_CNT0.CANCELLED]⟩,
   ⟨0x2834, 4, 1, fun _ => [HCI_CNT1.BADDB, HCI_CNT1.BADHEAD, HCI_CNT1.SPIERR, HCI_CNT1.LATE]⟩,
   ⟨0x2838, 4, 1, fun _ => [HCI_EVT.EVT, HCI_EVT.SIGNAL]⟩,
   ⟨0x2900, 4, 1, fun _ => [TWT_CFG.PECLEN, TWT_CFG.THD, TWT_CFG.KT_EN, TWT_CFG.PEC]⟩]

/-- Part 6 of the register map. -/
def regMap6 : List WordRun :=
  [⟨0x2904, 4, 1, fun _ => [TWT_STATUS.PAGE, TWT_STATUS.BUSY, TWT_STATUS.KTADDR, TWT_STATUS.ADDR]⟩,
   ⟨0x2908, 4, 1, fun _ => [TWT_CNT.PECERR, TWT_CNT.STUCK, TWT_CNT.NACKED, TWT_CNT.KTWR]⟩,
   ⟨0x290C, 4, 1, fun _ => [TWT_EVT.EVT]⟩,
   ⟨0x2910, 4, 6, fun i => [TWT_KTMAP.V (i * 2 + 0), TWT_KTMAP.ADC (i * 2 + 0), TWT_KTMAP.SUP (i * 2 + 0), TWT_KTMAP.V (i * 2 + 1), TWT_KTMAP.ADC (i * 2 + 1), TWT_KTMAP.SUP (i * 2 + 1)]⟩,
   ⟨0x2940, 4, 1, fun _ => [TWC_CTRL.RETRY, TWC_CTRL.POLL_EN, TWC_CTRL.CLRCNT, TWC_CTRL.EN]⟩,
   ⟨0x2944, 4, 1, fun _ => [TWC_STATUS.REASON, TWC_STATUS.STATE]⟩,
   ⟨0x2948, 4, 1, fun _ => [TWC_TIMING.THD, TWC_TIMING.LOW, TWC_TIMING.HIGH]⟩,
   ⟨0x294C, 4, 1, fun _ => [TWC_XFER.GO, TWC_XFER.ADDR, TWC_XFER.WLEN, TWC_XFER.RLEN]⟩,
   ⟨0x2950, 4, 1, fun _ => [TWC_RES.STATUS, TWC_RES.TRIES, TWC_RES.RDONE, TWC_RES.WDONE]⟩,
   ⟨0x2954, 4, 8, fun i => [TWC_DATA.DATA i]⟩,
   ⟨0x2974, 4, 1, fun _ => [TWC_CNT.ARBLOST, TWC_CNT.RECOVER, TWC_CNT.NACK]⟩,
   ⟨0x2978, 4, 1, fun _ => [TWC_EVT.EVT]⟩,
   ⟨0x2980, 4, 8, fun i => [TWC_POLL.EN i, TWC_POLL.ADDR i, TWC_POLL.CMD i, TWC_POLL.LEN i]⟩,
   ⟨0x29A0, 4, 8, fun i => [TWC_PRES.DATA i]⟩,
   ⟨0x29C0, 4, 1, fun _ => [TWC_PSTAT.STATUS 0, TWC_PSTAT.STATUS 1, TWC_PSTAT.STATUS 2, TWC_PSTAT.STATUS 3, TWC_PSTAT.STATUS 4, TWC_PSTAT.STATUS 5, TWC_PSTAT.STATUS 6, TWC_PSTAT.STATUS 7]⟩,
   ⟨0x2A00, 4, 1, fun _ => [OTP_CFG.VERIFY, OTP_CFG.REBURN]⟩,
   ⟨0x2A04, 4, 1, fun _ => [OTP_STATUS.REASON, OTP_STATUS.CFGSKIP, OTP_STATUS.PENDING, OTP_STATUS.PROGOK, OTP_STATUS.AUTHREQ, OTP_STATUS.TEST_DIS, OTP_STATUS.RAW_BUSY]⟩,
   ⟨0x2A08, 4, 1, fun _ => [OTP_WEAK.SPARES, OTP_WEAK.WEAK]⟩,
   ⟨0x2A0C, 4, 1, fun _ => [OTP_VOIDS.BOOT, OTP_VOIDS.TOTAL]⟩,
   ⟨0x2A10, 4, 3, fun i => [OTP_RGNST.STATE (i * 8 + 0), OTP_RGNST.STATE (i * 8 + 1), OTP_RGNST.STATE (i * 8 + 2), OTP_RGNST.STATE (i * 8 + 3), OTP_RGNST.STATE (i * 8 + 4), OTP_RGNST.STATE (i * 8 + 5), OTP_RGNST.STATE (i * 8 + 6), OTP_RGNST.STATE (i * 8 + 7)]⟩,
   ⟨0x2A1C, 4, 1, fun _ => [OTP_RSEL.REGION]⟩,
   ⟨0x2A28, 4, 1, fun _ => [OTP_RAW_CTRL.GO, OTP_RAW_CTRL.OP]⟩,
   ⟨0x2A2C, 4, 1, fun _ => [OTP_RAW_ADDR.PHYS]⟩,
   ⟨0x2A30, 4, 4, fun i => [OTP_RAW_DATA.DATA i]⟩,
   ⟨0x2A40, 4, 1, fun _ => [OTP_RAW_CHK.CHK]⟩,
   ⟨0x2A44, 4, 1, fun _ => [OTP_EVT.EVT]⟩,
   ⟨0x2B00, 4, 1, fun _ => [BIST_CTRL.FULLNEXT]⟩,
   ⟨0x2B04, 4, 1, fun _ => [BIST_STATUS.NUNUS, BIST_STATUS.STORED, BIST_STATUS.SOURCE]⟩,
   ⟨0x2B08, 4, 5, fun i => [BIST_VERD.VERD i]⟩,
   ⟨0x2B1C, 4, 1, fun _ => [BIST_DIAG0.UNIT, BIST_DIAG0.KIND, BIST_DIAG0.NFAIL]⟩,
   ⟨0x2B20, 4, 1, fun _ => [BIST_DIAG1.SIG]⟩,
   ⟨0x2B24, 4, 1, fun _ => [BIST_DIAG2.SIG]⟩,
   ⟨0x2C00, 4, 1, fun _ => [WEAR_CTRL.INJ_EN, WEAR_CTRL.IND_EN]⟩,
   ⟨0x2C04, 4, 1, fun _ => [WEAR_STATUS.DAY, WEAR_STATUS.INJCAUSE, WEAR_STATUS.INJLOOP, WEAR_STATUS.RESTORE, WEAR_STATUS.RESTORED, WEAR_STATUS.BLANK]⟩,
   ⟨0x2C08, 4, 1, fun _ => [WEAR_CFG.WARN, WEAR_CFG.INJINT, WEAR_CFG.INJ_I]⟩,
   ⟨0x2C0C, 4, 1, fun _ => [WEAR_LIM.SOH_LIM, WEAR_LIM.ESR_F, WEAR_LIM.C_F, WEAR_LIM.AGE_LIM]⟩,
   ⟨0x2C10, 4, 1, fun _ => [WEAR_BANKCAP.CAP]⟩,
   ⟨0x2C14, 4, 1, fun _ => [WEAR_STAGE.NREF, WEAR_STAGE.DTREF, WEAR_STAGE.EXP]⟩,
   ⟨0x2C18, 4, 1, fun _ => [WEAR_INJP.PERIODS]⟩,
   ⟨0x2C20, 8, 15, fun i => [WEAR_VAL.VAL i]⟩]

/-- Part 7 of the register map. -/
def regMap7 : List WordRun :=
  [⟨0x2C24, 8, 15, fun i => [WEAR_EOL.DAYS i, WEAR_EOL.NPTS i, WEAR_EOL.LIMQ i, WEAR_EOL.BASIS i]⟩,
   ⟨0x2C98, 4, 1, fun _ => [WEAR_EVT.EVT]⟩,
   ⟨0x2D00, 4, 1, fun _ => [ID_LOCK.FWPATCH, ID_LOCK.KEYPRIV]⟩,
   ⟨0x2D04, 4, 1, fun _ => [ID_KEYSTAT.CERTOK, ID_KEYSTAT.CERTMATCH, ID_KEYSTAT.PUBMATCH]⟩,
   ⟨0x2D08, 4, 8, fun i => [ID_PUBX.WORD i]⟩,
   ⟨0x2D28, 4, 8, fun i => [ID_PUBY.WORD i]⟩,
   ⟨0x2D48, 4, 1, fun _ => [ID_CERTLEN.LEN]⟩]

/-- The register map. -/
def regMap : List WordRun :=
  regMap0 ++ regMap1 ++ regMap2 ++ regMap3 ++ regMap4 ++ regMap5 ++ regMap6 ++ regMap7

/-- Word `i` of the run is at address `a`. -/
def WordRun.index? (r : WordRun) (a : Nat) : Option Nat :=
  if r.base ≤ a ∧ (a - r.base) % r.stride = 0 ∧ (a - r.base) / r.stride < r.count then
    some ((a - r.base) / r.stride)
  else none

/-- The fields of the word at `a`; none at a reserved address (R507). -/
def fieldsIn : List WordRun → Nat → List Field
  | [], _ => []
  | r :: rs, a =>
    match r.index? a with
    | some i => r.fields i
    | none => fieldsIn rs a

/-- The fields of the word at address `a` (R507, R508). -/
def fieldsAt (a : Nat) : List Field := fieldsIn regMap a

/-- The fields marked (POR): they return to their reset values only at POR or a long press (R19). -/
def porFields : List Field :=
  [SYS_RSTCAUSE.STBY_WAKE, SYS_RSTCAUSE.SNOW_WAKE, SYS_RSTCAUSE.POWER_LOSS, SYS_RSTCAUSE.ORDERLY, SYS_RSTCAUSE.CMD, SYS_RSTCAUSE.LONG, SYS_RSTCAUSE.NRESET, SYS_RSTCAUSE.POR, SYS_TIME_HI.TIME, SYS_PDSTAT.DUR, SYS_PDSTAT.TRIG, SYS_PDSTAT.TMAXHIT, SYS_PDSTAT.DONE, SYS_PDFAIL.FAIL, SYS_STBY.WAKET, PP_BTN.LONG_EN, PP_BTN.SNOW_BTN, PP_BTN.LONG, AON_CFG.SNOW_KEEP, THM_STATUS.DTEXCL, THM_TSD.LATCH, THM_TSD.SENSOR, THM_TSD.TJLAST, FLT_HWR.COUNT, FLT_HOVR.COUNT, FLT_HSTAT.UNREAD, FLT_HSTAT.HELD, FLT_LWR.COUNT, FLT_LOVR.COUNT, FLT_LSTAT.HELD, FLT_CCNT.CRIT, FLT_CCNT.FAULT, FLT_CCNT.WARN, FLT_NCNT.COUNT, FLT_OPMARK.OP, FLT_OPMARK.DETAIL, FLT_TEST.LOCKOUT, FLT_TEST.TRIES, FLT_TEST.ACTIVE, TWT_STATUS.KTADDR, TWT_STATUS.ADDR, BIST_CTRL.FULLNEXT, BIST_STATUS.STORED, WEAR_STATUS.DAY, WEAR_STATUS.RESTORED, WEAR_STATUS.BLANK]

end Sys2Proof.Machine
end

