-- ==== Sys2Proof/Machine/Ops.lean ====
section
/-! DEFINITION. The named operations over the state: register fields, bytes of the SRAM windows, the
per-unit states, device time and deadlines, and free values. Every meaning reads and writes the state
through these. -/

namespace Sys2Proof.Machine

/-- The value of a register field. -/
def State.get (s : State) (f : Field) : Nat := NMap.get f.reset s.regs f.key

/-- `s` with field `f` holding `v`, cut to the field's width. -/
def State.set (s : State) (f : Field) (v : Nat) : State :=
  { s with regs := NMap.put f.reset s.regs f.key (v % 2 ^ f.width) }

/-- Field `f`, of one bit, reads 1. -/
def State.on (s : State) (f : Field) : Bool := decide (s.get f = 1)

/-- `s` with bit `i` of field `f` set. -/
def State.setBit (s : State) (f : Field) (i : Nat) : State := s.set f (setBitNat (s.get f) i)

/-- `s` with the bits of `mask` cleared in field `f`. -/
def State.clearBits (s : State) (f : Field) (mask : Nat) : State :=
  s.set f (s.get f &&& (2 ^ f.width - 1 - mask % 2 ^ f.width))

/-- Bit `i` of field `f` is 1. -/
def State.hasBit (s : State) (f : Field) (i : Nat) : Bool := decide (bitOf (s.get f) i = 1)

/-- `s` with `n` added to field `f`, wrapping. -/
def State.addWrap (s : State) (f : Field) (n : Nat) : State := s.set f (s.get f + n)

/-- `s` with `n` added to field `f`, saturating. -/
def State.addSat (s : State) (f : Field) (n : Nat) : State := s.set f (satAt f.width (s.get f + n))

/-- `s` with field `f` at its reset value. -/
def State.resetField (s : State) (f : Field) : State := s.set f f.reset

/-- The register word at address `a` as its fields hold it. -/
def State.regWord (s : State) (a : Nat) : Nat :=
  ((fieldsAt a).map fun f => s.get f * 2 ^ f.lsb).foldl (· + ·) 0

/-- The value of a field as a two's-complement number. -/
def State.getSigned (s : State) (f : Field) : Int := signedOf f.width (s.get f)

/-- The loop state of LPn. -/
def State.loop (s : State) (n : Nat) : LoopSt := NMap.get {} s.loops n
def State.setLoop (s : State) (n : Nat) (l : LoopSt) : State := { s with loops := NMap.put {} s.loops n l }

/-- The state of PHk beside its registers. -/
def State.phase (s : State) (k : Nat) : PhaseSt := NMap.get {} s.phases k
def State.setPhase (s : State) (k : Nat) (p : PhaseSt) : State := { s with phases := NMap.put {} s.phases k p }

/-- The state of the integrated output with rail code `c` beside its registers. -/
def State.out (s : State) (c : Nat) : OutSt := NMap.get {} s.outs c
def State.setOut (s : State) (c : Nat) (o : OutSt) : State := { s with outs := NMap.put {} s.outs c o }

/-- The state of VCL port `p` beside its registers. -/
def State.port (s : State) (p : Nat) : Vcl := NMap.get {} s.vcl p
def State.setPort (s : State) (p : Nat) (v : Vcl) : State := { s with vcl := NMap.put {} s.vcl p v }

/-- The state of window channel `n` beside its registers. -/
def State.supCh (s : State) (n : Nat) : SupCh := NMap.get {} s.sup n
def State.setSup (s : State) (n : Nat) (c : SupCh) : State := { s with sup := NMap.put {} s.sup n c }

/-- The state of engine `e` beside its registers. -/
def State.engine (s : State) (e : Nat) : EngineSt := NMap.get {} s.engines e
def State.setEngine (s : State) (e : Nat) (x : EngineSt) : State := { s with engines := NMap.put {} s.engines e x }

/-- Task `t` of engine `e`. -/
def State.task (s : State) (e t : Nat) : Task := NMap.get {} s.tasks (e * 16 + t)
def State.setTask (s : State) (e t : Nat) (x : Task) : State := { s with tasks := NMap.put {} s.tasks (e * 16 + t) x }

/-- The claim with descriptor index `c`. -/
def State.claim (s : State) (c : Nat) : Claim := NMap.get {} s.claims c
def State.setClaim (s : State) (c : Nat) (x : Claim) : State := { s with claims := NMap.put {} s.claims c x }

/-- The device time at which a deadline of `n` µs expires that starts at device time `t` (R36): the end
of the `n`-th 1 µs tick that begins at or after `t`. -/
def deadlineAt (t n : Nat) : Nat := (ceilDiv t 100 + n) * 100

/-- The next device time after `last` (at or after `now` where there is none) that is a multiple of
`period`. -/
def nextBoundary (now period : Nat) (last : Option Nat) : Nat :=
  let b := ceilDiv now period * period
  match last with
  | none => b
  | some l => if b ≤ l then (l / period + 1) * period else b

/-- SYS_STATUS.PHASE (Tables 10.1 and 10.9). -/
def phaseNow (s : State) : Nat := s.get SYS_STATUS.PHASE

/-- K0 and the S0 units run: the S0 rail has a supply outside Snowdrop and Crocus standby, no SYSTEM reset holds,
and no ROM error has halted K0 (R24, R304, R320, R524). -/
def k0Runs (s : State) : Bool :=
  s.supply.released && !s.supply.nreset && decide (s.path.off = .start) && !s.sys.k0Halt

/-- TREF runs (R30, Table 10.1): it starts in phase 1, and stops where only the island runs and in a reset, so that
no device time passes there (R32). (DEDUCED, log entry 97) -/
def trefRuns (s : State) : Bool := k0Runs s && s.sys.started && decide (1 ≤ phaseNow s)

/-- `s` at device time `t`, or at its own where that is later: an event that a rule places at an expiry happens no
earlier than the expiry. Without TREF no device time passes (R32).
(DEDUCED, log entry 7) (DESIGN CHOICE, log entry 90) -/
def State.expire (s : State) (t : Nat) : State := { s with now := if trefRuns s then max s.now t else s.now }

/-- The units that VSYS feeds run too: the internal VSYS rails are up (R24). -/
def vsysRuns (s : State) : Bool := k0Runs s && s.supply.rails

/-- Device time passes for the units that VSYS feeds, so that what they do at its boundaries can come (R24, R32). -/
def timeRuns (s : State) : Bool := trefRuns s && s.supply.rails

/-- Units above S0 may start: TREF runs; no self-test runs, and the one of start-up does not lie ahead, whose phase 3
drives no line (R304, R317); and the device is not HALTED but by a thermal shutdown (Table 10.4, R369). -/
def unitsServe (s : State) : Bool :=
  timeRuns s && decide (4 ≤ phaseNow s) && decide (phaseNow s ≠ 9) && (decide (phaseNow s ≠ 10) || s.on THM_TSD.LATCH)

/-- A unit of service level `l` may start: a level has been selected, and it has the unit (R4, R9). -/
def servesAt (s : State) (l : Nat) : Bool :=
  unitsServe s && decide (6 ≤ phaseNow s) && decide (l ≤ s.get SYS_SERVICE.LEVEL)

/-- A unit of level `l` may be enabled: the level in force has it, or it is not selected yet, as while phase 4 writes
the board configuration (R8, R22, R500). -/
def servesFrom (s : State) (l : Nat) : Bool :=
  unitsServe s && (decide (phaseNow s < 6) || decide (l ≤ s.get SYS_SERVICE.LEVEL))

/-- A free value's index, and the state with the model's counter advanced. -/
def State.fresh (s : State) : Nat × State := (s.free, { s with free := s.free + 1 })

/-- The byte of the SRAM windows at `a`; an unlisted address reads 0. (DESIGN CHOICE, log entry 3) -/
def State.byte (s : State) (a : Nat) : Byte := NMap.get 0#8 s.mem a

/-- `s` with byte `a` of the SRAM windows holding `b`. -/
def State.setByte (s : State) (a : Nat) (b : Byte) : State := { s with mem := NMap.put 0#8 s.mem a b }

/-- `n` bytes from `a`. -/
def State.bytes (s : State) (a n : Nat) : List Byte := (List.range n).map fun i => s.byte (a + i)

/-- `s` with the bytes `bs` written from `a`. -/
def State.setBytes (s : State) (a : Nat) : List Byte → State
  | [] => s
  | b :: bs => (s.setByte a b).setBytes (a + 1) bs

/-- The `n` bytes of `x`, least significant first. -/
def leBytes (n x : Nat) : List Byte := (List.range n).map fun i => BitVec.ofNat 8 (x / 256 ^ i)

/-- The number whose bytes, least significant first, are `bs`. -/
def leNat : List Byte → Nat
  | [] => 0
  | b :: bs => b.toNat + 256 * leNat bs

/-- The number whose bytes, most significant first, are `bs`. -/
def beNat (bs : List Byte) : Nat := leNat bs.reverse

/-- The `n` bytes of `x`, most significant first. -/
def beBytes (n x : Nat) : List Byte := (leBytes n x).reverse

/-- The 32-bit little-endian word at `a`. -/
def State.word (s : State) (a : Nat) : Nat := leNat (s.bytes a 4)

/-- Words as little-endian bytes. -/
def wordsBytes : List Nat → List Byte
  | [] => []
  | w :: ws => leBytes 4 w ++ wordsBytes ws

/-- Remove from memory every listed byte in `[lo, hi)`. -/
def State.clearMem (s : State) (lo hi : Nat) : State :=
  { s with mem := s.mem.filter fun e => decide (e.1 < lo ∨ hi ≤ e.1) }

/-- Apply `f` to the state for each of `xs` in order. -/
def State.each {α : Type} (xs : List α) (f : State → α → State) (s : State) : State := xs.foldl f s

/-- The rail code of Table 7.2. -/
def railCode : Rail → Nat
  | .lp n => n.val
  | .bk n => 0x08 + n.val
  | .ldo n => 0x10 + n.val
  | .sw n => 0x18 + n.val

/-- The rail of a code of Table 7.2; none for a reserved code. -/
def railOf (c : Nat) : Option Rail :=
  if h : c < 6 then some (.lp ⟨c, h⟩)
  else if h : 8 ≤ c ∧ c < 14 then some (.bk ⟨c - 8, by omega⟩)
  else if h : 16 ≤ c ∧ c < 24 then some (.ldo ⟨c - 16, by omega⟩)
  else if h : 24 ≤ c ∧ c < 32 then some (.sw ⟨c - 24, by omega⟩)
  else none

/-- Every rail, in ascending rail-code order. -/
def allRails : List Rail := (List.range 32).filterMap railOf

end Sys2Proof.Machine
end

