-- ==== Sys2Proof/Machine/Events.lean ====
section
/-! DEFINITION. Events: the EVT bit that an event sets, the request line of each interrupt source, the
record formats, log memory and its books, and the NOTICE count (R373 to R388, R401). -/

namespace Sys2Proof.Machine

/-- An event of a block (R373): its EVT field and bit, its interrupt source (0 where it has none), its
error line, its class and its detail word; where the field of the EVT register does not begin with the event
table's bit 0, `first` is the number of its first event. (DEDUCED, log entry 13) -/
structure Ev where
  evt : Field
  bit : Nat
  src : Nat
  line : Nat
  cls : Cls
  detail : Nat := 0
  /-- The number of the event in the field's bit 0. -/
  first : Nat := 0
  deriving DecidableEq, Repr

/-- The bit of event `e` in its block's EVT register or event table (R373). -/
def Ev.ebit (e : Ev) : Nat := e.bit + e.first

/-- The number of a class (Table 13.3). -/
def clsNum : Cls → Nat
  | .notice => 0
  | .warning => 1
  | .fault => 2
  | .critical => 3

/-- The device time that stamps an event (R33): the second TREF edge after it. (DEDUCED, log entry 8) -/
def State.stamp (s : State) : Nat := s.now + 2

/-- The EVT bits whose OR is the request line of source `src` (R401 and the event tables of the owning
chapters): field and mask. Source 0x100 is RING. -/
def sourceBits (src : Nat) : List (Field × Nat) :=
  if src = 0 then []
  else if src ≤ 0x00F then [(PP_EVT.EVT, 2 ^ (src - 0x001))]
  else if src ≤ 0x01F then [(CHG_EVT.EVT, 2 ^ (src - 0x010))]
  else if src < 0x050 then [(LP_EVT.EVT ((src - 0x020) / 8), 2 ^ ((src - 0x020) % 8))]
  else if src < 0x060 then [(VCL_EVT.EVT ((src - 0x050) / 8), 2 ^ ((src - 0x050) % 8))]
  else if src < 0x066 then [(BK_STATUS.EVT (src - 0x060), 0x1F)]
  else if src = 0x066 then [(VDRV_STATUS.EVT, 3)]
  else if src = 0x067 then [(AON_STATUS.EVT, 1)]
  else if src < 0x070 then [(LDO_STATUS.EVT (src - 0x068), 0xF)]
  else if src < 0x078 then [(SW_STATUS.EVT (src - 0x070), 0xF)]
  else if src < 0x080 then []
  else if src < 0x0C0 then [(SUP_EVT.EVT (src - 0x080), 0x7F)]
  else if src < 0x0D0 then [(ADC_EVT.EVT, 2 ^ (src - 0x0C0))]
  else if src < 0x0E0 then [(THM_EVT.EVT, 2 ^ (src - 0x0D0))]
  else if src < 0x0E4 then [(CAM_EVT.EVT (src - 0x0E0), 0x3F)]
  else if src < 0x0E8 then [(CAM_RAISE.DEPTH (src - 0x0E4), 0xF)]
  else if src = 0x0E8 then [(NRG_EVT.EVT, 0x01)]
  else if src = 0x0E9 then [(NRG_EVT.EVT, 0x02)]
  else if src = 0x0EA then [(NRG_EVT.EVT, 0x04)]
  else if src = 0x0EB then [(NRG_EVT.EVT, 0x18)]
  else if src = 0x0EC then [(MNG_EVT.EVT, 0x003)]
  else if src = 0x0ED then [(MNG_EVT.EVT, 0x00C)]
  else if src = 0x0EE then [(MNG_EVT.EVT, 0x070)]
  else if src = 0x0EF then [(MNG_EVT.EVT, 0xF80)]
  else if src = 0x0F0 then [(HCI_EVT.SIGNAL, 1)]
  else if src = 0x0F1 then [(HCI_EVT.EVT, 0x07)]
  else if src = 0x0F2 then [(HCI_EVT.EVT, 0x08)]
  else if src = 0x0F3 then [(HCI_EVT.EVT, 0x10)]
  else if src = 0x0F4 then [(TWT_EVT.EVT, 0x3)]
  else if src = 0x0F5 then [(TWT_EVT.EVT, 0x4)]
  else if src = 0x0F6 then [(TWC_EVT.EVT, 0x03)]
  else if src = 0x0F7 then [(TWC_EVT.EVT, 0x1C)]
  else if src = 0x0F8 then [(OTP_EVT.EVT, 0x03)]
  else if src = 0x0F9 then [(OTP_EVT.EVT, 0x0C)]
  else if src = 0x0FA then [(OTP_EVT.EVT, 0x10)]
  else if src = 0x0FB then [(OTP_EVT.EVT, 0x20)]
  else if src = 0x0FC then [(SYS_EVT.EVT, 0x07)]
  else if src = 0x0FD then [(SYS_EVT.EVT, 0x78)]
  else if src = 0x0FE then [(FLT_EVT.EVT, 0x03)]
  else if src = 0x0FF then [(FLT_EVT.EVT, 0x1C)]
  else if src = 0x100 then [(INTC_DBELL.RING, 1)]
  else []

/-- The level of the request line of source `src`. -/
def State.request (s : State) (src : Nat) : Bool :=
  (sourceBits src).any fun fm => decide (s.get fm.1 &&& fm.2 ≠ 0)

/-- The device time as two words, low word first. -/
def timeWords (t : Nat) : List Nat := [t % 2 ^ 32, t / 2 ^ 32 % 2 ^ 32]

/-- A flag as a bit at position `i`. -/
def flagAt (b : Bool) (i : Nat) : Nat := if b then 2 ^ i else 0

/-- A Foxglove record as its eight words (Table 13.3, type 1). -/
def eventWords (seq : Nat) (e : EventRec) : List Nat :=
  [ 1 * 2 ^ 30 + clsNum e.cls * 2 ^ 28 + e.line % 64 * 2 ^ 22 + e.src % 512 * 2 ^ 13
      + e.ebit % 32 * 2 ^ 8 + e.react % 128,
    seq % 2 ^ 32 ] ++ timeWords e.time ++
  [ e.also % 2 ^ 32, e.also / 2 ^ 32 % 2 ^ 32,
    satAt 12 e.dur * 2 ^ 20 + e.xline % 64 * 2 ^ 14 + e.xbit % 32 * 2 ^ 9 + flagAt e.xvalid 8
      + satAt 4 e.nmerge * 2 ^ 4 + flagAt e.incomplete 3 + flagAt e.test 2 + flagAt e.inj 1,
    e.detail % 2 ^ 32 ]

/-- A history record as its eight words. -/
def recWords (r : HistRec) : List Nat :=
  match r.body with
  | .event e => eventWords r.seq e
  | .reset w0 time w4 w5 w6 => [w0, r.seq % 2 ^ 32] ++ timeWords time ++ [w4, w5, w6, 0]

/-- The address in log memory of the record with sequence number `seq`: records take the 1024 places in
turn. -/
def logAddr (seq : Nat) : Nat := 0x020000 + seq % 1024 * 32

/-- An EVT bit of Foxglove itself is set (R399). -/
def foxEvt (s : State) (bit : Nat) : State := s.setBit FLT_EVT.EVT bit

/-- A record with sequence number `seq` is newer than the host's read mark (R387). (DEDUCED, log entry 81) -/
def newerThanMark (s : State) (seq : Nat) : Bool :=
  match s.fox.readMark with
  | none => true
  | some m => decide (m < seq)

/-- The counts of a record's entry into log memory (R387): FLT_LWR rises, and either the record displaces
the oldest one or one more is held; while log memory is unsupplied the record counts as overwritten. -/
def logCount (s : State) : State :=
  let seq := s.get FLT_LWR.COUNT
  let s1 := s.addWrap FLT_LWR.COUNT 1
  if ¬ s.supply.rails then { s1 with fox := { s1.fox with logOver := s1.fox.logOver + 1 } }
  else if 1024 ≤ s.fox.logHeld then
    let s2 := { s1 with fox := { s1.fox with logOver := s1.fox.logOver + 1 } }
    if newerThanMark s (seq - 1024) then foxEvt s2 1 else s2
  else { s1 with fox := { s1.fox with logHeld := s1.fox.logHeld + 1 } }

/-- The words of record `seq` are written at its place in log memory, if log memory is supplied. -/
def logPut (s : State) (seq : Nat) (ws : List Nat) : State :=
  if s.supply.rails then s.setBytes (logAddr seq) (wordsBytes ws) else s

/-- A record is written to log memory (R386, R387); `ws` gives its words from its SEQ. -/
def logWrite (s : State) (ws : Nat → List Nat) : State :=
  let seq := s.get FLT_LWR.COUNT
  logPut (logCount s) seq (ws seq)

/-- A record is written to the history queue and to log memory in one handshake (R381, R387). -/
def histWrite (s : State) (body : RecBody) : State :=
  let seq := s.get FLT_LWR.COUNT
  let r : HistRec := { seq, body }
  let s1 := logWrite s fun _ => recWords r
  let s2 := s1.addWrap FLT_HWR.COUNT 1
  let s3 :=
    if 32 ≤ s.fox.hist.length then
      let lost := (s.fox.hist.drop 31).any fun o => newerThanMark s o.seq
      let s' := { s2 with fox := { s2.fox with histOver := s2.fox.histOver + 1 } }
      if lost then foxEvt s' 1 else s'
    else s2
  { s3 with fox := { s3.fox with hist := (r :: s3.fox.hist).take 32 } }

/-- The history record with the SEQ of `r` is replaced by `r`, and its copy in log memory with it, while log
memory still holds it. -/
def histUpdate (s : State) (r : HistRec) : State :=
  let s1 := { s with fox := { s.fox with hist := s.fox.hist.map fun o => if o.seq = r.seq then r else o } }
  if s.get FLT_LWR.COUNT - r.seq ≤ s.fox.logHeld then logPut s1 r.seq (recWords r) else s1

/-- A NOTICE is counted, and with LOGNOTICE it is written to log memory (R380); `inj` marks an injected one (R398). -/
def noticeCount (s : State) (e : Ev) (inj : Bool := false) : State :=
  let s1 := s.addWrap FLT_NCNT.COUNT 1
  if s.on FLT_CFG.LOGNOTICE then
    let r : EventRec :=
      { cls := .notice, line := e.line, src := e.src, ebit := e.ebit, react := 0, time := s.stamp,
        incomplete := false, test := s.on FLT_TEST.ACTIVE, inj, detail := e.detail }
    logWrite s1 fun seq => eventWords seq r
  else s1

/-- An event of class NOTICE: its EVT bit and its count (R380). -/
def notice (s : State) (e : Ev) : State := (noticeCount s e).setBit e.evt e.bit

end Sys2Proof.Machine
end

