-- ==== Sys2Proof/Machine/Rails.lean ====
section
/-! DEFINITION. What the rails have in common: the registers of a rail by its code, the start of a drain
(R37, R109, R161), and how a window channel follows its output out of REGULATE (R184 to R186). -/

namespace Sys2Proof.Machine

/-- The rail is a BK, LDO or SW. -/
def isOutput : Rail → Bool
  | .lp _ => false
  | _ => true

/-- CTRL.EN of a rail. -/
def railEn : Rail → Field
  | .lp n => LP_CTRL.EN n
  | .bk n => BK_CTRL.EN n
  | .ldo n => LDO_CTRL.EN n
  | .sw n => SW_CTRL.EN n

/-- STATUS.STATE of a rail. -/
def railState : Rail → Field
  | .lp n => LP_STATUS.STATE n
  | .bk n => BK_STATUS.STATE n
  | .ldo n => LDO_STATUS.STATE n
  | .sw n => SW_STATUS.STATE n

/-- STATUS.REASON of a rail. -/
def railReason : Rail → Field
  | .lp n => LP_STATUS.REASON n
  | .bk n => BK_STATUS.REASON n
  | .ldo n => LDO_STATUS.REASON n
  | .sw n => SW_STATUS.REASON n

/-- The EVT bits of a rail. -/
def railEvt : Rail → Field
  | .lp n => LP_EVT.EVT n
  | .bk n => BK_STATUS.EVT n
  | .ldo n => LDO_STATUS.EVT n
  | .sw n => SW_STATUS.EVT n

/-- STATUS.ILIM_ACT of a rail. -/
def railIlim : Rail → Field
  | .lp n => LP_STATUS.ILIM_ACT n
  | .bk n => BK_STATUS.ILIM_ACT n
  | .ldo n => LDO_STATUS.ILIM_ACT n
  | .sw n => SW_STATUS.ILIM_ACT n

/-- The rail's supervision channel. -/
def railSup : Rail → Field
  | .lp n => LP_CFG.SUP n
  | .bk n => BK_CFG.SUP n
  | .ldo n => LDO_CFG.SUP n
  | .sw n => SW_CFG.SUP n

/-- The code of REGULATE in the rail's STATE (Tables 3.11, 5.7, 5.14). -/
def stRegulate : Rail → Nat
  | .lp _ => 4
  | _ => 3

/-- The code of DRAIN in the rail's STATE. -/
def stDrain : Rail → Nat
  | .lp _ => 5
  | _ => 4

/-- The code of CHECK in the rail's STATE. -/
def stCheck : Nat := 1

/-- The code of START in the rail's STATE. -/
def stStart : Nat := 2

/-- The rail is in STATE REGULATE. -/
def regulating (s : State) (r : Rail) : Bool := decide (s.get (railState r) = stRegulate r)

/-- The rail is draining. -/
def draining (s : State) (r : Rail) : Bool := decide (s.get (railState r) = stDrain r)

/-- The interrupt source of a rail's event bit `k` (Tables 3.9 and 5.5). -/
def railSrc (r : Rail) (k : Nat) : Nat :=
  match r with
  | .lp n => 0x020 + 8 * n + k
  | .bk n => 0x060 + n
  | .ldo n => 0x068 + n
  | .sw n => 0x070 + n

/-- The error line of a rail (Table 13.1). -/
def railLine : Rail → Nat
  | .lp n => 4 + n
  | .bk n => 12 + n
  | .ldo _ => 18
  | .sw _ => 19

/-- Event `k` of a rail, with the rail code as its detail (R374). -/
def railEv (r : Rail) (k : Nat) (cls : Cls) : Ev :=
  { evt := railEvt r, bit := k, src := railSrc r k, line := railLine r, cls, detail := railCode r }

/-- Event `k` of window channel `n` (R198), with the channel and its chatter count as detail (R374). -/
def supEv (s : State) (n k : Nat) (cls : Cls) : Ev :=
  { evt := SUP_EVT.EVT n, bit := k, src := 0x080 + n, line := 21 + n / 16, cls,
    detail := n + s.get (SUP_CHAT.COUNT n) * 2 ^ 8 }

/-- The bound output of window channel `n` (Table 6.1). -/
def boundRail (s : State) (n : Nat) : Option Rail := railOf (s.get (SUP_CFG.SRC n))

/-- The window channels bound to rail `r`, enabled or not. -/
def channelsOf (s : State) (r : Rail) : List Nat :=
  (List.range 64).filter fun n => decide (s.get (SUP_CFG.SRC n) = railCode r)

/-- The enabled window channels bound to rail `r`. -/
def boundChannels (s : State) (r : Rail) : List Nat := (channelsOf s r).filter fun n => s.on (SUP_CFG.EN n)

/-- Channel `n`'s bound output leaves REGULATE: PG and PGS read 0, the settle window ends, the low levels
disarm, and CHATTER is raised where PGS had not been reached and the count is above 0 (R184, R185); a channel that
is off or drains raises nothing (R190), nor does one whose check has failed. The next PGS is the first one after the
next REGULATE. (DESIGN CHOICE, log entry 140) -/
def supLeave (s : State) (n : Nat) : State :=
  let c := s.supCh n
  let runs := s.on (SUP_CFG.EN n) && !c.draining && !s.on (SUP_STAT.CHKF n)
  let chat := decide (0 < s.get (SUP_CHAT.COUNT n)) && !c.settled && runs
  let s1 := if chat then notice s (supEv s n 4 .notice) else s
  (((s1.setSup n { c with pgSince := none, settled := false }).set (SUP_STAT.PG n) 0).set
    (SUP_STAT.PGS n) 0).set (SUP_STAT.ARMED n) 0

/-- Every channel bound to `r` follows it out of REGULATE. -/
def supLeaveAll (s : State) (r : Rail) : State := State.each (channelsOf s r) supLeave s

/-- The STATE that an integrated output's drain leaves is noted for R166, but for CHECK, whose own start noted the
STATE before it; and the drain's start where it leaves
REGULATE, or PAUSED after it, for R312. -/
def noteLeft (s : State) (r : Rail) : State :=
  let st := s.get (railState r)
  let o := s.out (railCode r)
  s.setOut (railCode r)
    { o with left := if st = stCheck then o.left else st, drainAt := if st = 3 ∨ st = 6 then some s.now else o.drainAt }

/-- EN of rail `r` is cleared (R109, R161): a rail whose EN reads 1 and that is not draining begins its
drain. A BK that stops switching leaves its current limit at once (R163). -/
def railOff (s : State) (r : Rail) : State :=
  if s.on (railEn r) && !draining s r then
    let s1 := if regulating s r then supLeaveAll s r else s
    let s2 := match r with
      | .lp _ => s1
      | .bk n => (noteLeft s1 r).set (BK_STATUS.ILIM_ACT n) 0
      | _ => noteLeft s1 r
    s2.set (railState r) (stDrain r)
  else s

/-- The rails of a mask over rail codes, in descending rail-code order. -/
def railsOfMask (m : Nat) : List Rail := (allRails.filter fun r => bitOf m (railCode r) = 1).reverse

/-- EN of every rail in `rs` is cleared. -/
def railsOff (s : State) (rs : List Rail) : State := State.each rs railOff s

/-- Engine `e` is enabled and not yet draining: it begins its drain (R38, R531), and a handover that waits for its
instruction starts no task any more (R252). -/
def engineDrain (s : State) (e : Nat) : State :=
  if s.on (CAM_CTRL.EN e) && decide (s.get (CAM_STATUS.STATE e) ≠ 4) then
    (s.setEngine e { s.engine e with handing := false }).set (CAM_STATUS.STATE e) 4
  else s

/-- Every engine begins its drain. -/
def enginesDrain (s : State) : State := State.each (List.range 4) engineDrain s

end Sys2Proof.Machine
end

