-- ==== Sys2Proof/Machine/Bank.lean ====
section
/-! DEFINITION. What several chapters read of the power path, the bank, the housekeeping table and the
phase pool: the state of Table 2.2, the bank's availability, readings and their validity, NACT and the
rung caps. -/

namespace Sys2Proof.Machine

/-- PP_STATUS.STATE (Table 2.2): 0 OFF, 1 AUX, 2 BANK, 3 RETURN, 4 SHUTDOWN. -/
def ppState (s : State) : Nat := s.get PP_STATUS.STATE

/-- VSYS is carried from VAUX: AUX or RETURN. -/
def onAux (s : State) : Bool := decide (ppState s = 1) || decide (ppState s = 3)

/-- VSYS is carried from the bank: BANK or SHUTDOWN. -/
def onBank (s : State) : Bool := decide (ppState s = 2) || decide (ppState s = 4)

/-- CELLS × VCUT_CELL, in mV. -/
def bankCut (s : State) : Nat := s.get CHG_BANK.CELLS * s.get CHG_VTHR.VCUT_CELL

/-- The discharge-temperature rule finds a selected reading outside the window (R65). -/
def dischargeOut (s : State) : Bool := decide (s.thermal.disOut &&& s.get CHG_NTC.NTC_SEL ≠ 0)

/-- The bank is available (R54). -/
def bankAvail (s : State) : Bool :=
  s.path.bankEn && decide (s.get CHG_STATUS.STATE ≠ 8) && decide (s.get CHG_STATUS.STATE ≠ 9) &&
    decide (bankCut s ≤ s.path.bkb) && !s.on PP_STATUS.BKB_OCL &&
    !(s.on PP_CTRL.DIS_TBLOCK && dischargeOut s)

/-- The latest housekeeping reading of channel `c` is valid (ADC_HKVAL0 and ADC_HKVAL1). -/
def hkValid (s : State) (c : Nat) : Bool :=
  if c < 32 then s.hasBit ADC_HKVAL0.VALID c else s.hasBit ADC_HKVAL1.VALID (c - 32)

/-- Channel `c` has a housekeeping reading taken since start-up began (R257). -/
def hkRead (s : State) (c : Nat) : Bool := hkValid s c && decide (bitOf s.adc.sinceStart c = 1)

/-- The latest housekeeping reading of channel `c`, in the channel's units. -/
def hkVal (s : State) (c : Nat) : Nat := s.get (ADC_HK.VAL c)

/-- The latest housekeeping reading of channel `c` as a signed number. -/
def hkSigned (s : State) (c : Nat) : Int := signedOf 16 (hkVal s c)

/-- The present Lupin rung. -/
def rungNow (s : State) : Nat := s.get THM_STATUS.RUNG

/-- The peak-current cap of a BK at rung `r` (Table 5.4), in 50 mA units. -/
def bkCap (r : Nat) : Nat :=
  match r with
  | 0 => 72 | 1 => 72 | 2 => 64 | 3 => 56 | 4 => 48 | 5 => 40 | 6 => 32 | _ => 24

/-- The effective peak-current limit of BKn (R162), in 50 mA units. -/
def bkLimit (s : State) (n : Nat) : Nat := min (s.get (BK_CFG.ILIM n)) (bkCap (rungNow s))

/-- The phases of loop `n` in phase state `st` (Table 3.4), ascending. -/
def phasesIn (s : State) (n st : Nat) : List Nat :=
  (List.range 20).filter fun k =>
    decide (s.get (PH_STATUS.OWNER k) = n) && decide (s.get (PH_STATUS.STATE k) = st)

/-- N of loop `n`: its ACTIVE phases. -/
def nact (s : State) (n : Nat) : Nat := (phasesIn s n 2).length

/-- The sense divider of loop `n` (Table 3.1). (DESIGN CHOICE, log entry 20) -/
def divider (s : State) (n : Nat) : Nat :=
  match s.get (LP_VCFG.DIV n) with
  | 0 => 1 | 1 => 2 | 2 => 4 | _ => Config.reservedDivider

/-- The BIST verdict of unit `u` = 32 × word + bit marks it unusable (Table 10.3). -/
def unusable (s : State) (u : Nat) : Bool := s.hasBit (BIST_VERD.VERD (u / 32)) (u % 32)

/-- The verdict marks unit `u`: in phase 4 the verdict that phase 5 will apply, and otherwise the one in force (R306,
Table 10.1). -/
def markedUnit (s : State) (u : Nat) : Bool :=
  match decide (phaseNow s = 4), s.sys.verdict with
  | true, some v => decide (bitOf (v.words.getD (u / 32) 0) (u % 32) = 1)
  | _, _ => unusable s u

end Sys2Proof.Machine
end

