-- ==== Sys2Proof/Machine/Snapshot.lean ====
section
/-! DEFINITION. The capture buffer and snapshots (R340 to R343): the circular writing, what a trigger does to the ADC,
and the end of a burst, which ends the fill that it writes. -/

namespace Sys2Proof.Machine

/-- `s` with the ADC's state `a`. -/
def State.setAdc (s : State) (a : Adc) : State := { s with adc := a }

/-- Event `k` of Table 11.7; events 9 to 12 are the wear indicators' (line 32). -/
def adcEv (k : Nat) (cls : Cls) (detail : Nat := 0) : Ev :=
  { evt := ADC_EVT.EVT, bit := k, src := 0x0C0 + k, line := if 9 ≤ k then 32 else 31, cls, detail }

/-- A wear event (Table 11.7): WEAR_EVT and ADC_EVT are both set. `k` is 9 to 12. -/
def wearNotice (s : State) (k : Nat) : State := (notice s (adcEv k .notice)).setBit WEAR_EVT.EVT (k - 9)

/-! ### The buffer -/

/-- The buffer is written at the present moment: capture source 1 is enabled, or source 2 while a burst
runs (R340, R343); in HELD writing stops. -/
def bufferWritten (s : State) : Bool :=
  s.on ADC_CAP.EN && decide (s.get ADC_SNAP.STATE ≠ 2) &&
    (decide (s.get ADC_CAP.SRC = 1) || (decide (s.get ADC_CAP.SRC = 2) && s.adc.burst.isSome))

/-- The samples of which the buffer takes no more than the fill has room for (R341). -/
def samplesTaken (s : State) (xs : List (BitVec 16)) : List (BitVec 16) :=
  if s.get ADC_SNAP.STATE = 1 then xs.take s.adc.fillLeft else xs

/-- Samples enter the snapshot memory circularly (R340). -/
def putSamples (s : State) (xs : List (BitVec 16)) : State :=
  let s1 := State.each xs.zipIdx
    (fun s x => s.setBytes (0x030000 + (s.adc.capPos + x.2) % 32768 * 2) (leBytes 2 x.1.toNat)) s
  s1.setAdc { s1.adc with capPos := (s.adc.capPos + xs.length) % 32768, capLen := min 32768 (s.adc.capLen + xs.length),
                          fillLeft := s.adc.fillLeft - xs.length }

/-- The source of the buffer has converted `xs` (R340, R341). -/
def captureSamples (s : State) (xs : List (BitVec 16)) : State :=
  if bufferWritten s then putSamples s (samplesTaken s xs) else s

/-- The buffer freezes with its last `len` samples: HELD is entered, the capture words are written and SNAP_TAKEN is
raised (R341, R343). -/
def snapFreeze (s : State) (len : Nat) : State :=
  let oldest := (s.adc.capPos + 32768 - len) % 32768
  let s1 := ((s.set ADC_SNAPINFO.CAPLEN len).set ADC_SNAPCAP.OLDEST oldest).set ADC_SNAPCAP.CONV (s.get ADC_MISM.CONV)
  let s2 := (s1.set ADC_SNAPCAP.RATE (if s.get ADC_CAP.SRC = 2 then 1 else 0)).set ADC_SNAPCAP.CH
    (if s.get ADC_CAP.SRC = 2 then s.adc.burstCh else s.get ADC_CAP.CH)
  (notice s2 (adcEv 4 .notice)).set ADC_SNAP.STATE 2

/-- The fill under way ends with what the buffer holds (R343). -/
def endFill (s : State) : State := if s.get ADC_SNAP.STATE = 1 then snapFreeze s s.adc.capLen else s

/-! ### Bursts end -/

/-- What no die sensor reads: the value of a sensor that the last correction has not noted. -/
def noTemp : Nat := 0x10000

/-- The die sensors as read, from which R339 counts. -/
def dieTemps (s : State) : NMap Nat := (List.range 8).foldl (fun m n => NMap.put noTemp m n (hkVal s (0x1E + n))) []

/-- The burst under way ends: the slices resume, and with it ends the fill that it wrote (R338, R343). -/
def stopBurst (s : State) : State :=
  let s1 := (s.setAdc { s.adc with burst := none, corrTemps := dieTemps s }).set ADC_STATUS.BURST 0
  if s.get ADC_CAP.SRC = 2 then endFill s1 else s1

/-- The injection of loop `n` is abandoned: its burst ends, and the compensator goes on (R354). -/
def dropInjection (s : State) (n : Nat) : State :=
  let s1 := s.setAdc { s.adc with injWait := none }
  match s1.adc.burst.bind fun b => b.injection with
  | some _ => (stopBurst s1).setLoop n { s1.loop n with inj := 0 }
  | none => s1

/-- The injection of loop `n` is abandoned for `cause`: INJ_ABORT (R354). -/
def abortInjection (s : State) (n cause : Nat) : State :=
  wearNotice (((dropInjection s n).set WEAR_STATUS.INJCAUSE cause).set WEAR_STATUS.INJLOOP n) 12

/-- The loop whose injection runs. -/
def injecting (s : State) : Option Nat := s.adc.burst.bind fun b => b.injection

/-- A snapshot trigger abandons the injection that runs (R354). -/
def injectionTriggered (s : State) : State :=
  match injecting s with
  | some n => abortInjection s n 7
  | none => s

/-! ### Snapshots -/

/-- The words of ADC_HK and the trigger's particulars are taken in one handshake (R341). -/
def snapTake (s : State) (trig code : Nat) : State :=
  let s1 := State.each (List.range 64) (fun s c => s.set (ADC_SNHK.VAL c) (s.get (ADC_HK.VAL c))) s
  let s2 := ((s1.set ADC_SNAPINFO.TRIG trig).set ADC_SNAPINFO.CODE code).set ADC_SNAPROUND.ROUND
    (s.get ADC_HKSTAT.ROUND)
  let t := s.stamp
  let s3 := ((s2.set ADC_SNAPT_LO.TIME t).set ADC_SNAPT_HI.TIME (t / 2 ^ 32)).set ADC_SNAP.DIGV 0
  s3.addWrap ADC_SNAP.SEQ 1

/-- The samples that a fill takes (R341). -/
def fillSize (s : State) : Nat := (8 - s.get ADC_CAP.PRE) * 4096

/-- A snapshot starts (R341): FILLING, at 100 MS/s or in a burst at 400 MS/s; or HELD at once where nothing writes the
buffer (R343). -/
def snapStart (s : State) (trig code : Nat) : State :=
  let s1 := (snapTake s trig code).set ADC_SNAP.STATE 0
  if bufferWritten s1 then
    let n := fillSize s
    (s1.setAdc { s1.adc with fillLeft := n, fillEnd := s.now + (if s.get ADC_CAP.SRC = 2 then n / 4 else n) }).set
      ADC_SNAP.STATE 1
  else snapFreeze s1 0

/-- A trigger reaches the ADC: whether SNAP_MISSED is to be raised, and the state after it (R342, R354).
`critical` is a Foxglove trigger of class CRITICAL. (DEDUCED, log entry 80) -/
def snapTrigger (s : State) (trig code : Nat) (critical : Bool) : Bool × State :=
  match s.get ADC_SNAP.STATE with
  | 1 => (false, s.addSat ADC_SNAP.ALSO 1)
  | 2 => if critical then (false, snapStart s trig code) else (true, s.addSat ADC_SNAP.MISSED 1)
  | _ => (false, injectionTriggered (snapStart s trig code))

/-- SNAP_MISSED (Table 11.7). -/
def snapMissedEv : Ev := adcEv 5 .warning

end Sys2Proof.Machine
end

