-- ==== Sys2Proof/Machine/Foxglove.lean ====
section
/-! DEFINITION. Foxglove: how an event becomes a record, is merged or repeats one, and the actions of its
reaction (R373 to R392). -/

namespace Sys2Proof.Machine

/-- The power-down sequence runs (R271, R379). -/
def inPowerdown (s : State) : Bool := s.on NRG_STATUS.PDOWN

/-- The 64 FLT_STATUS bits. -/
def statusLines (s : State) : Nat := s.get (FLT_STATUS.LINES 0) + s.get (FLT_STATUS.LINES 1) * 2 ^ 32

/-- The reaction to an event of class `cls` on `line` (R376, Table 13.2). -/
def reaction (s : State) (line : Nat) (cls : Cls) : Nat :=
  match cls with
  | .notice => 0
  | .warning => s.get FLT_CREACT.WARN ||| 1
  | .fault => s.get FLT_CREACT.FAULT ||| 3 ||| s.get (FLT_LADD.ADD line)
  | .critical => s.get FLT_CREACT.CRIT ||| 3 ||| s.get (FLT_LADD.ADD line)

/-- The rails whose EN reads 1. -/
def enabledRails (s : State) : List Rail := allRails.filter fun r => s.on (railEn r)

/-- The claims that engine `e`'s tasks hold granted, steady ones only. -/
def grantedSteady (s : State) (e : Nat) : List Nat :=
  (List.range 64).filter fun c =>
    let x := s.claim c
    decide (x.st = .granted) && !x.oneOff && decide (x.eng = e) && !x.rom

/-- The rails that RAIL-OFF switches off for an event on `line` with `detail` (Table 13.1). -/
def railsOfLine (s : State) (line detail : Nat) : List Rail :=
  if line = 0 ∨ line = 1 ∨ line = 3 ∨ line = 33 ∨ line = 42 ∨ line = 45 then enabledRails s
  else if 4 ≤ line ∧ line ≤ 9 then (railOf (line - 4)).toList
  else if 12 ≤ line ∧ line ≤ 17 then (railOf (line - 12 + 8)).toList
  else if line = 18 then allRails.filter fun r => decide (0x10 ≤ railCode r ∧ railCode r < 0x18 ∧ railCode r = detail % 256)
  else if line = 19 then allRails.filter fun r => decide (0x18 ≤ railCode r ∧ railCode r = detail % 256)
  else if line = 20 then allRails.filter fun r => decide (railCode r < 6)
  else if 21 ≤ line ∧ line ≤ 24 then (boundRail s (detail % 64)).toList
  else if 25 ≤ line ∧ line ≤ 28 then
    railsOfMask ((grantedSteady s (line - 25)).foldl (fun m c => m ||| (s.claim c).rails) 0)
  else if line = 44 then
    let o := s.get (PH_STATUS.OWNER (detail % 32))
    if o < 6 then (railOf o).toList else []
  else []

/-- ALIVE's level now (R391): it changes every 0.5 ms while it toggles. -/
def aliveLevel (s : State) : Bool :=
  match s.fox.alive with
  | .low => false
  | .run => s.fox.aliveLvl ^^ decide ((s.now - s.fox.aliveEdge) / 50000 % 2 = 1)
  | .held => s.fox.aliveLvl
  | .resuming => s.fox.aliveLvl

/-- A STOP-ALIVE bit of FLT_STATUS is set (R392). -/
def aliveStopped (s : State) : Bool := decide (s.fox.stopLines &&& statusLines s ≠ 0)

/-- ALIVE is held while a STOP-ALIVE bit is set, and the start of the hold raises ALIVE_STOP (R392). -/
def aliveHold (s : State) : State :=
  if aliveStopped s && (decide (s.fox.alive = .run) || decide (s.fox.alive = .resuming)) then
    foxEvt { s with fox := { s.fox with alive := .held, aliveLvl := aliveLevel s } } 2
  else s

/-- An event of class WARNING or higher sets its line's FLT_STATUS bit and its class count (R380). -/
def markStatus (s : State) (line : Nat) (cls : Cls) : State :=
  let s1 := s.setBit (FLT_STATUS.LINES (line / 32)) (line % 32)
  match cls with
  | .notice => s1
  | .warning => s1.addSat FLT_CCNT.WARN 1
  | .fault => s1.addSat FLT_CCNT.FAULT 1
  | .critical => s1.addSat FLT_CCNT.CRIT 1

/-- RAIL-OFF and LATCH of reaction `r` for one line (R382): they act per line. In the power-down sequence
RAIL-OFF is not carried out (R379). -/
def actPerLine (s : State) (r line detail : Nat) : State :=
  let s1 := if bitOf r 4 = 1 ∧ ¬ inPowerdown s then railsOff s (railsOfLine s line detail) else s
  if bitOf r 6 = 1 then s1.setBit (FLT_LATCH.LINES (line / 32)) (line % 32) else s1

/-- SEQ-ABORT among the actions `r`; in the power-down sequence it is not carried out (R379). -/
def actSeqAbort (s : State) (r : Nat) : State :=
  if bitOf r 5 = 1 ∧ ¬ inPowerdown s then enginesDrain s else s

/-- The lines `m`, those of them whose FLT_STATUS bit is set, stand in a record whose REACT `r` includes STOP-ALIVE
(R392). -/
def actStopAlive (s : State) (r m : Nat) : State :=
  if bitOf r 3 = 1 then aliveHold { s with fox := { s.fox with stopLines := s.fox.stopLines ||| m &&& statusLines s } }
  else s

/-- The lines of a record: that of its opening event and those of ALSO. -/
def recLines (e : EventRec) : Nat := e.also ||| 2 ^ e.line

/-- The newest history record is a Foxglove record that repeats: it closed less than 1 s ago and has the
event's line, source, bit and class (R385). -/
def repeats (s : State) (e : Ev) : Option (HistRec × EventRec) :=
  match s.fox.hist with
  | [] => none
  | r :: _ =>
    match r.body, r.closed with
    | .event x, some t =>
      if s.now < t + 100000000 ∧ x.line = e.line ∧ x.src = e.src ∧ x.ebit = e.ebit ∧ x.cls = e.cls then
        some (r, x)
      else none
    | _, _ => none

/-- The newest Foxglove record of a history queue; a reset record may lie above it (R395). -/
def newestEvent : List HistRec → Option (HistRec × EventRec)
  | [] => none
  | r :: l =>
    match r.body with
    | .event x => some (r, x)
    | .reset .. => newestEvent l

/-- The record that is open, if one is: no record opens over it, so it is the newest Foxglove record (R381). -/
def openRecord (s : State) : Option (HistRec × EventRec) :=
  if s.fox.openRec.isSome then newestEvent s.fox.hist else none

/-- The event rises above the record's class. -/
def raisesClass (e : Ev) (x : EventRec) : Bool := decide (clsNum x.cls < clsNum e.cls)

/-- The record once one more event has joined it, in factory test mode (`test`) or injected (R382, R385, R397, R398). -/
def counted (x : EventRec) (test inj : Bool) : EventRec :=
  { x with nmerge := x.nmerge + 1, test := x.test || test, inj := x.inj || inj }

/-- The record after event `e` with reaction `r` is merged into it (R382). -/
def mergeInto (x : EventRec) (e : Ev) (r : Nat) (test inj : Bool) : EventRec :=
  let y := { counted x test inj with also := x.also ||| 2 ^ e.line, react := x.react ||| r }
  if raisesClass e x then { y with cls := e.cls, xline := e.line, xbit := e.ebit, xvalid := true } else y

/-- Whether merging `e` with reaction `r` into `x` sends a snapshot trigger, and whether that trigger is of
class CRITICAL (R383). -/
def mergeTrigger (x : EventRec) (e : Ev) (r : Nat) : Option Bool :=
  let crit := raisesClass e x && decide (e.cls = .critical)
  if bitOf x.react 1 = 0 ∧ bitOf r 1 = 1 then some crit
  else if crit ∧ bitOf x.react 1 = 1 then some true
  else none

/-- Event `e` reaches Foxglove: `extra` joins its reaction, and `inj` marks an injected event (R398). The
first argument bounds the events that a snapshot trigger itself raises: SNAP_MISSED may open a record,
and a record sends one trigger (R383). -/
def foxEvent : Nat → State → Ev → Nat → Bool → State
  | 0, s, _, _, _ => s
  | fuel + 1, s, e, extra, inj =>
    if e.cls = .notice then noticeCount s e inj
    else
      let test := s.on FLT_TEST.ACTIVE
      let r := reaction s e.line e.cls ||| extra
      let s1 := markStatus s e.line e.cls
      let trigger (s : State) (critical : Bool) : State :=
        let (missed, s') := snapTrigger s 0 e.line critical
        if missed then (foxEvent fuel s' snapMissedEv 0 false).setBit snapMissedEv.evt snapMissedEv.bit else s'
      match openRecord s with
      | some (h, x) =>
        let y := mergeInto x e r test inj
        let s2 := histUpdate s1 { h with body := .event y }
        let s3 := actSeqAbort (actPerLine s2 r e.line e.detail) (if bitOf x.react 5 = 1 then 0 else r)
        let s4 := actStopAlive s3 y.react (recLines y)
        match mergeTrigger x e r with
        | some critical => trigger s4 critical
        | none => s4
      | none =>
        match repeats s e with
        | some (h, x) =>
          let s2 := histUpdate s1 { h with body := .event (counted x test inj) }
          let s3 := actStopAlive (actSeqAbort (actPerLine s2 r e.line e.detail) r) (x.react ||| r) (2 ^ e.line)
          let s4 := if bitOf r 2 = 1 then foxEvt s3 0 else s3
          if bitOf r 1 = 1 then trigger s4 (decide (e.cls = .critical)) else s4
        | none =>
          let x : EventRec :=
            { cls := e.cls, line := e.line, src := e.src, ebit := e.ebit, react := r, time := s.stamp,
              test, inj, detail := e.detail }
          let s2 := histWrite s1 (.event x)
          let s3 := { s2 with fox := { s2.fox with openRec := some (s.now, s.get FLT_CFG.MERGE) } }
          let s4 := actStopAlive (actSeqAbort (actPerLine s3 r e.line e.detail) r) r (2 ^ e.line)
          if bitOf r 1 = 1 then trigger s4 (decide (e.cls = .critical)) else s4

/-- A block raises event `e`: Foxglove takes it, and its EVT bit is set (R373, R401). -/
def raise (s : State) (e : Ev) : State := (foxEvent 4 s e 0 false).setBit e.evt e.bit

/-- A block raises an event that has no EVT bit of its own (R197, R410). -/
def raiseBare (s : State) (e : Ev) : State := foxEvent 4 s e 0 false

/-- ALIVE is held low (R391). -/
def aliveLow (s : State) : State := { s with fox := { s.fox with alive := .low, aliveLvl := false } }

/-- ALIVE toggles from now on (R391), unless a STOP-ALIVE bit holds it (R392). (DEDUCED, log entry 37) -/
def aliveRun (s : State) : State :=
  aliveHold { s with fox := { s.fox with alive := .run, aliveEdge := s.now, aliveLvl := !aliveStopped s } }

end Sys2Proof.Machine
end

