-- ==== Sys2Proof/Machine/Ledger.lean ====
section
/-! DEFINITION. The energy ledger (chapter 8): its books, the fit set, grants, releases and revocations,
rail capacity, and the update. -/

namespace Sys2Proof.Machine

/-- "Unlimited" (R253). -/
def unlimited : Nat := 0xFFFFFFFF

/-- A ledger quantity saturates at 0xFFFF_FFFF (R253). -/
def sat32 (x : Nat) : Nat := satAt 32 x

/-- Every claim descriptor's index. -/
def tableIds : List Nat := List.range 64

/-- Every entry of the books: those of the claim table, and 64 more for claims that the ROM firmware still holds from
an earlier image (R531). -/
def claimIds : List Nat := List.range 128

/-- The sum of the amounts of the claims that `p` names. -/
def sumAmounts (s : State) (p : Claim → Bool) : Nat :=
  ((claimIds.filter fun c => p (s.claim c)).map fun c => (s.claim c).amount).foldl (· + ·) 0

/-- A granted steady claim. -/
def Claim.isGranted (c : Claim) : Bool := decide (c.st = .granted) && !c.oneOff

/-- A steady claim that waits for a grant: pending, or revoked and pending again. -/
def Claim.waits (c : Claim) : Bool :=
  (decide (c.st = .pending) || decide (c.st = .revoked)) && !c.oneOff

/-- NRG_GRANTED: the sum of granted steady claims. -/
def granted (s : State) : Nat := sat32 (sumAmounts s Claim.isGranted)

/-- NRG_EARMARK: the sum of the claims in the fit set. -/
def earmark (s : State) : Nat := sat32 (sumAmounts s fun c => c.waits && c.fit)

/-- NRG_DEBIT: the live one-off debit. -/
def debit (s : State) : Nat := sat32 ((s.ledger.debits.map Prod.fst).foldl (· + ·) 0)

/-- e_free of R254, from the energy term of the last update and the present debit. -/
def eFree (s : State) : Nat := s.get NRG_ENERGY.VAL - debit s

/-- FREEZE, OVER or PDOWN defers every claim (R261, R266, R270, R271). -/
def deferred (s : State) : Bool := s.on NRG_CTRL.FREEZE || s.on NRG_STATUS.OVER || s.on NRG_STATUS.PDOWN

/-- steady_room (R261) for a claim of class `cls` last revoked at `revokedAt`, with `held` earmarked.
(DEDUCED, log entry 54) -/
def steadyRoom (s : State) (cls revokedAt held : Nat) : Nat :=
  if deferred s then 0
  else if s.now < revokedAt + s.ledger.holdoff * 1000000 then 0
  else
    let room := s.get NRG_BUDGET.VAL - granted s - held
    if 0 < cls then room - s.ledger.rsv0 else room

/-- The steady claim `x` fits beside `held` (R261). -/
def steadyFits (s : State) (x : Claim) (held : Nat) : Bool :=
  !deferred s && decide (x.amount ≤ steadyRoom s x.cls x.revokedAt held)

/-- Claim `a` comes before claim `b` in the order of the fit set: lower class, then older submission. -/
def claimBefore (s : State) (a b : Nat) : Bool :=
  let x := s.claim a
  let y := s.claim b
  decide (x.cls < y.cls) || (decide (x.cls = y.cls) && decide (x.submitSeq ≤ y.submitSeq))

/-- Insert `a` into a list ordered by `le`. -/
def insertBy {α : Type} (le : α → α → Bool) (a : α) : List α → List α
  | [] => [a]
  | b :: l => if le a b then a :: b :: l else b :: insertBy le a l

/-- A list in the order of `le`. -/
def sortBy {α : Type} (le : α → α → Bool) : List α → List α
  | [] => []
  | a :: l => insertBy le a (sortBy le l)

/-- One claim of the scan of R261: it joins the fit set where it fits beside what is earmarked so far. -/
def fitOne (acc : State × Nat) (c : Nat) : State × Nat :=
  let x := acc.1.claim c
  if steadyFits acc.1 x acc.2 then (acc.1.setClaim c { x with fit := true }, acc.2 + x.amount)
  else (acc.1.setClaim c { x with fit := false }, acc.2)

/-- The fit set is formed (R261). -/
def formFit (s : State) : State :=
  ((sortBy (claimBefore s) (claimIds.filter fun c => (s.claim c).waits)).foldl fitOne (s, 0)).1

/-- A one-off claim of `amount` fits (R264). -/
def oneOffFits (s : State) (amount : Nat) : Bool :=
  !deferred s && decide (s.ledger.debits.length ≠ 16) &&
    (onAux s || decide (amount ≤ eFree s - granted s * 10 * s.ledger.hmin))

/-- Claim `c` fits, for the dispatcher (R262, R264). -/
def ledgerFits (s : State) (c : Nat) : Bool :=
  let x := s.claim c
  if x.oneOff then decide (x.st = .pending) && oneOffFits s x.amount else x.waits && x.fit


/-- NRG_LIMITED's bit of claim `c` is cleared; an entry beside the claim table has none. -/
def clearLimited (s : State) (c : Nat) : State :=
  if c < 64 then s.clearBits (NRG_LIMITED.MASK (c / 32)) (2 ^ (c % 32)) else s

/-- A ledger event (Table 8.7): Foxglove line 29. -/
def nrgEv (k : Nat) (cls : Cls) : Ev :=
  { evt := NRG_EVT.EVT, bit := k, src := 0x0E8 + min k 3, line := 29, cls }

/-- The capacity of rail `r` (Table 8.4), in units of 12.5 µW. -/
def railCapacity (s : State) : Rail → Nat
  | .lp n =>
    let lim := s.get (LP_ILIM.PHLIM n) * divider s n
    if s.on (LP_CTRL.EN n) then nact s n * lim * s.get (LP_VREF.TARGET n)
    else popCount 20 (s.get (LP_PHMASK.MASK n)) * lim * s.get (LP_VCFG.VBOOT n)
  | .bk n => bkLimit s n * s.get (BK_VOUT.VSET n) * 20
  | .ldo n => s.get (LDO_CFG.VSET n) * 160
  | .sw n => hkVal s (0x0C + n) * 160

/-- The rails of a claim. -/
def claimRails (x : Claim) : List Rail := railsOfMask x.rails

/-- The capacity of a claim's rails is below its present amount (R272, R273). -/
def claimShort (s : State) (x : Claim) : Bool :=
  decide (((claimRails x).map (railCapacity s)).foldl (· + ·) 0 < x.amount * 800)

/-- The capacity of claim `c` is evaluated (R273): where it is below the present amount, the claim's bit is set and
NRG_LIMITED is raised. -/
def evalCapacity (s : State) (c : Nat) : State :=
  if claimShort s (s.claim c) then
    raise (if c < 64 then s.setBit (NRG_LIMITED.MASK (c / 32)) (c % 32) else s) (nrgEv 2 .warning)
  else clearLimited s c

/-- Claim `c` is granted (R262 to R264): a steady claim enters the granted sum, a one-off claim adds its
debit entry and is consumed. -/
def grant (s : State) (c : Nat) : State :=
  let x := s.claim c
  let s1 := s.addWrap NRG_CNT0.GRANTS 1
  if x.oneOff then
    let entry := (x.amount, deadlineAt s.now (s.ledger.offhold * 1000000))
    ({ s1 with ledger := { s1.ledger with debits := s1.ledger.debits ++ [entry] } }).setClaim c
      { x with st := .free, fit := false, amount := x.descAmount, eng := 0, task := 0, cls := 0 }
  else
    let q := s1.ledger.seq + 1
    let s2 := { s1 with ledger := { s1.ledger with seq := q } }
    evalCapacity (s2.setClaim c { x with st := .granted, fit := false, grantSeq := q }) c

/-- ledger_grant (R262, R264): claim `c` is granted if it fits at this handshake. -/
def ledgerGrant (s : State) (c : Nat) : Option State :=
  let x := s.claim c
  if x.oneOff then (if ledgerFits s c then some (grant s c) else none)
  else if ledgerFits s c && decide (granted s + x.amount ≤ s.get NRG_BUDGET.VAL) then some (grant s c)
  else none

/-- Claim `c` becomes FREE (R267, R273): its amount is the descriptor's again and its LIMITED bit clears. -/
def freeClaim (s : State) (c : Nat) : State :=
  let x := s.claim c
  clearLimited
    (s.setClaim c { x with st := .free, fit := false, amount := x.descAmount, eng := 0, task := 0, cls := 0,
                           rom := false }) c

/-- Claim `c` is withdrawn or released in the books, and the fit set is formed again (R261). -/
def dropClaim (s : State) (c : Nat) : State := formFit (freeClaim s c)

/-- RELEASE of a granted steady claim (R222): rails that are on go off in descending rail-code order, then
the claim is released. -/
def releaseClaim (s : State) (c : Nat) : State := dropClaim (railsOff s (claimRails (s.claim c))) c

/-- The order of sequence numbers advances. -/
def nextSeq (s : State) : Nat × State :=
  (s.ledger.seq + 1, { s with ledger := { s.ledger with seq := s.ledger.seq + 1 } })

/-- Claim `c` is submitted by task `t` of engine `e` (R220, R260) and is pending. -/
def submitClaim (s : State) (c e t cls : Nat) : State :=
  let (q, s1) := nextSeq s
  let x := s.claim c
  s1.setClaim c { x with st := .pending, fit := false, amount := x.descAmount, eng := e, task := t, cls,
                         submitSeq := q, rom := false }

/-- The claims that task `t` of engine `e` holds or has pending, in ascending index. -/
def claimsOf (s : State) (e t : Nat) : List Nat :=
  claimIds.filter fun c =>
    let x := s.claim c
    decide (x.st ≠ .free) && decide (x.st ≠ .absent) && decide (x.eng = e) && decide (x.task = t) && !x.rom

/-! ### Revocation -/

/-- Task `t` of engine `e` after a claim of its was revoked (R224). A task that runs, or waits in an urgent
RDADC, runs on; its next scheduling point finds the revoked claim. -/
def revokeTask (s : State) (e t : Nat) : State :=
  let x := s.task e t
  match x.st with
  | .wait =>
    match x.wait with
    | some (.urgent ..) => s
    | _ => s.setTask e t { x with st := .revoked, wait := none, t := true, resumeBy := none }
  | .claimwait =>
    let s1 := match x.wait with
      | some (.claim id _) => freeClaim s id
      | _ => s
    s1.setTask e t { x with st := .revoked, wait := none, z := false, t := true }
  | .ready => s.setTask e t { x with st := .revoked, t := true, resumeBy := none }
  | _ => s

/-- Claim `c` is revoked (R28, R224, R531): its rails begin their drains; it is pending again for its task,
or, held by the ROM firmware, becomes FREE. -/
def revoke (s : State) (c : Nat) : State :=
  let x := s.claim c
  let s1 := (railsOff s (claimRails x)).addWrap NRG_CNT0.REVOKES 1
  if x.rom then freeClaim s1 c
  else revokeTask (s1.setClaim c { x with st := .revoked, fit := false, revokedAt := s.now }) x.eng x.task

/-- The claim to revoke next: of the granted steady claims of classes 1 to 7, the one of the highest class,
and in it the one granted last (R28). -/
def nextToRevoke (s : State) : Option Nat :=
  (claimIds.filter fun c => (s.claim c).isGranted && decide (0 < (s.claim c).cls)).foldl
    (fun best c =>
      match best with
      | none => some c
      | some b =>
        let x := s.claim b
        let y := s.claim c
        if x.cls < y.cls ∨ (x.cls = y.cls ∧ x.grantSeq < y.grantSeq) then some c else some b) none

/-- Claims are revoked until the granted sum fits the budget; the first argument bounds the claims. -/
def revokeLoop : Nat → State → State
  | 0, s => s
  | n + 1, s =>
    if s.get NRG_BUDGET.VAL < granted s then
      match nextToRevoke s with
      | some c => revokeLoop n (revoke s c)
      | none => s
    else s

/-! ### The update -/

/-- A reading is missing, or older than 25 ms (R257). -/
def oldReading (s : State) (t : Option Nat) : Bool :=
  match t with
  | some t => decide (t + 2500000 < s.now)
  | none => true

/-- An input is stale (R257): its reading is older than 25 ms, or none has arrived 25 ms after the first
update. -/
def staleInput (s : State) (t : Option Nat) : Bool :=
  match t with
  | some t => decide (t + 2500000 < s.now)
  | none =>
    match s.ledger.firstAt with
    | some f => decide (f + 2500000 < s.now)
    | none => false

/-- VAUX in mV as the update uses it (R254, R257). -/
def ledgerVaux (s : State) : Nat :=
  if oldReading s s.ledger.vauxAt then s.path.act.uvFall * 250 else hkVal s 0x14 * 2

/-- The usable bank energy as the update uses it (R254, R257), in mJ; what is taken off for the age of the reading is
rounded up. (DESIGN CHOICE, log entry 138) -/
def ledgerEnergy (s : State) : Nat :=
  if !bankAvail s then 0
  else match s.ledger.energyAt with
    | none => 0
    | some t =>
      if oldReading s (some t) then s.ledger.energy - ceilDiv (granted s * 10 * (s.now - t)) 100000000
      else s.ledger.energy

/-- The measured load as the update uses it (R257, R274), in 10 mW units. -/
def ledgerLoad (s : State) : Nat := if oldReading s s.ledger.loadAt then granted s else s.ledger.load

/-- p_src of R254. -/
def sourceTerm (s : State) : Nat :=
  if onAux s then sat32 (s.path.act.ilim * ledgerVaux s / 1000)
  else if onBank s && bankAvail s then s.path.act.plim
  else 0

/-- p_energy of R254. -/
def energyTerm (s : State) (energy hmin : Nat) : Nat :=
  if onBank s && decide (0 < hmin) then (energy - debit s) / (10 * hmin) else unlimited

/-- The budget terms are formed and shown (R254, R256). -/
def formBudget (s : State) : State :=
  let energy := sat32 (ledgerEnergy s)
  let src := sourceTerm s
  let heat := s.get (NRG_HEAT.HEAT (rungNow s))
  let cap := s.get NRG_CAP.CAP
  let hmin := s.get NRG_CFG.HMIN
  let en := energyTerm s energy hmin
  let budget := min (min src heat) (min cap en)
  let bind := if budget = src then 0 else if budget = heat then 1 else if budget = cap then 2 else 3
  let load := sat32 (ledgerLoad s)
  let shown := if onAux s then 1 else if onBank s then 2 else 0
  let s1 := { s with ledger := { s.ledger with holdoff := s.get NRG_CFG.HOLDOFF, offhold := s.get NRG_CFG.OFFHOLD,
                                               hmin, rsv0 := s.get NRG_RSV0.RSV0 } }
  let s2 := ((s1.set NRG_BUDGET.VAL budget).set NRG_SRCTERM.VAL src).set NRG_ENERGY.VAL energy
  (((s2.set NRG_LOAD.VAL load).set NRG_STATUS.BIND bind).set NRG_STATUS.RUNG (rungNow s)).set
    NRG_STATUS.SRC shown

/-- NRG_STATUS.STALE (R257). -/
def formStale (s : State) : State :=
  let stale := staleInput s s.ledger.vauxAt || staleInput s s.ledger.energyAt || staleInput s s.ledger.loadAt
  let fresh := !oldReading s s.ledger.vauxAt && !oldReading s s.ledger.energyAt && !oldReading s s.ledger.loadAt
  if stale then
    if s.on NRG_STATUS.STALE then s else raise (s.set NRG_STATUS.STALE 1) (nrgEv 3 .warning)
  else if fresh then s.set NRG_STATUS.STALE 0
  else s

/-- Claims are revoked where the granted sum exceeds the budget, and NRG_REVOKE is raised (R28, R268); in the
power-down sequence none is (R271). -/
def shed (s : State) : State :=
  if s.on NRG_STATUS.PDOWN then s
  else
    let s1 := revokeLoop claimIds.length s
    if s1.get NRG_CNT0.REVOKES = s.get NRG_CNT0.REVOKES then s1 else notice s1 (nrgEv 0 .notice)

/-- NRG_STATUS.OVER (R29, R270, R271). -/
def formOver (s : State) : State :=
  if s.get NRG_BUDGET.VAL < granted s then
    if s.on NRG_STATUS.OVER then s
    else raise ((s.set NRG_STATUS.OVER 1).addWrap NRG_CNT1.OVERS 1) (nrgEv 1 .fault)
  else s.set NRG_STATUS.OVER 0

/-- The capacity of a granted claim is to be evaluated (R273): of each after a change of a loop's current limit or of
the rung, and of one that covers a rail after a SETV on the rail. -/
def capacityDue (s : State) (c : Nat) : Bool :=
  let x := s.claim c
  x.isGranted && (s.ledger.limitDirty || decide (x.rails &&& s.ledger.capDirty ≠ 0))

/-- The capacity of the granted claims is evaluated where R273 asks for it. -/
def evalDirty (s : State) : State :=
  State.each (claimIds.filter (capacityDue s)) evalCapacity
    { s with ledger := { s.ledger with capDirty := 0, limitDirty := false } }

/-- OVERDRAW (R275). -/
def formOverdraw (s : State) : State :=
  if s.get NRG_BUDGET.VAL < s.get NRG_LOAD.VAL then
    let n := s.ledger.overCount + 1
    let s1 := { s with ledger := { s.ledger with overCount := min n 10 } }
    if 10 ≤ n ∧ ¬ s.on NRG_STATUS.OVERDRAW then raise (s1.set NRG_STATUS.OVERDRAW 1) (nrgEv 3 .warning) else s1
  else ({ s with ledger := { s.ledger with overCount := 0 } }).set NRG_STATUS.OVERDRAW 0

/-- NRG_HOLDUP (R276). -/
def formHoldup (s : State) : State :=
  let p := max (granted s) (s.get NRG_LOAD.VAL)
  s.set NRG_HOLDUP.VAL
    (if !bankAvail s then 0 else if p = 0 then unlimited else eFree s / (10 * p))

/-- One update of the ledger, at the present device time (R27, R28, R254). -/
def ledgerUpdate (s : State) : State :=
  let s0 := { s with ledger := { s.ledger with firstAt := some (s.ledger.firstAt.getD s.now), lastAt := some s.now } }
  let s1 := formStale (formBudget s0)
  formHoldup (formOverdraw (evalDirty (formFit (formOver (shed s1)))))

/-- `LEDGER_UPDATE` (R254): the update that begins at the next 1 ms boundary. -/
def execLedgerUpdate (s : State) : Host.Outcome State Fault Refusal :=
  .next (if timeRuns s then ledgerUpdate (s.expire (nextBoundary s.now 100000 s.ledger.lastAt)) else s)

/-- `LEDGER_DEADLINE` (R258): the unfinished update ends with the books as they stand, the event is raised,
and the next update begins. -/
def execLedgerDeadline (s : State) : Host.Outcome State Fault Refusal :=
  let s1 := s.expire (nextBoundary s.now 100000 s.ledger.lastAt)
  .next (if timeRuns s then ledgerUpdate (raise s1 (nrgEv 4 .fault)) else s)

/-- The debit entries in the order of their expiry. -/
def debitsByExpiry (s : State) : List (Nat × Nat) := sortBy (fun a b => decide (a.2 ≤ b.2)) s.ledger.debits

/-- `DEBIT_EXPIRY` (R264): the debit entry that expires first leaves NRG_DEBIT. -/
def execDebitExpiry (s : State) : Host.Outcome State Fault Refusal :=
  match debitsByExpiry s with
  | [] => .next s
  | d :: ds =>
    let s1 := s.expire d.2
    .next (if timeRuns s then { s1 with ledger := { s1.ledger with debits := ds } } else s)

/-- `NRG_FREEZE` (R266): FREEZE acts from the handshake of its write, and the fit set is formed again. -/
def execNrgFreeze (freeze : Bool) (s : State) : Host.Outcome State Fault Refusal :=
  .next (if vsysRuns s then formFit (s.set NRG_CTRL.FREEZE (if freeze then 1 else 0)) else s)

end Sys2Proof.Machine
end

