-- ==== Sys2Proof/Machine/Tasks.lean ====
section
/-! DEFINITION. The engines' tasks: the dispatcher, scheduling points, exceptions, the end of a task, wakes,
and what an instruction finds when it is issued (chapter 7). -/

namespace Sys2Proof.Machine

/-- The vector or entry that stands for none (Table 7.12). -/
def noEntry : Nat := 0xFFFF

/-- Engine `e` is enabled and not draining or halted. -/
def engineRuns (s : State) (e : Nat) : Bool :=
  s.on (CAM_CTRL.EN e) && (decide (s.get (CAM_STATUS.STATE e) = 2) || decide (s.get (CAM_STATUS.STATE e) = 3))

/-- An engine event (Table 7.15) with the program address and task of `x` as detail (R374). -/
def camEv (e k : Nat) (cls : Cls) (pc t : Nat) : Ev :=
  { evt := CAM_EVT.EVT e, bit := k, src := 0x0E0 + e, line := 25 + e, cls, detail := pc % 8192 * 2 ^ 16 + t * 2 ^ 8 }

/-- The claims of task `t` of engine `e` in state `st`, in ascending index. -/
def claimsIn (s : State) (e t : Nat) (st : ClaimState) : List Nat :=
  (claimsOf s e t).filter fun c => decide ((s.claim c).st = st)

/-- Task `t` of engine `e` holds a revoked claim. -/
def hasRevoked (s : State) (e t : Nat) : Bool := !(claimsIn s e t .revoked).isEmpty

/-! ### The dispatcher (R234) -/

/-- The pending claim by which a task in CLAIMWAIT or REVOKED counts: that of its CLAIM, or its
lowest-indexed revoked claim (R224). -/
def pendingClaim (s : State) (e t : Nat) : Option Nat :=
  let x := s.task e t
  match x.st, x.wait with
  | .claimwait, some (.claim id _) => some id
  | .revoked, _ => (claimsIn s e t .revoked).head?
  | _, _ => none

/-- Task `t` of engine `e` is a candidate at a scheduling point. -/
def candidate (s : State) (e t : Nat) : Bool :=
  let x := s.task e t
  match x.st with
  | .ready => true
  | .claimwait | .revoked =>
    match pendingClaim s e t with
    | some c => ledgerFits s c
    | none => false
  | _ => false

/-- The candidates of engine `e`, in ascending task index. -/
def candidates (s : State) (e : Nat) : List Nat := (List.range 16).filter (candidate s e)

/-- The first of `l` after `last`, wrapping; `l` is in ascending order. -/
def firstAfter (last : Option Nat) (l : List Nat) : Option Nat :=
  match last with
  | none => l.head?
  | some k =>
    match l.filter (k < ·) with
    | a :: _ => some a
    | [] => l.head?

/-- The dispatcher's choice among `cands`: the highest priority, then round-robin after last_run. -/
def choose (s : State) (e : Nat) (cands : List Nat) : Option Nat :=
  let p := cands.foldl (fun m t => max m (s.task e t).prio) 0
  firstAfter ((s.engine e).lastRun.find? (fun kv => kv.1 = p) |>.map Prod.snd)
    (cands.filter fun t => decide ((s.task e t).prio = p))

/-- Task `t` of engine `e` runs from the present device time (R235). -/
def runTask (s : State) (e t : Nat) : State :=
  let x := s.task e t
  let g := s.engine e
  let s1 := s.setTask e t { x with st := .run, wait := none, runAt := some s.now, resumeBy := none }
  let s2 := s1.setEngine e { g with cur := some t, lastRun := NMap.put 16 g.lastRun x.prio t }
  (s2.set (CAM_STATUS.STATE e) 2).set (CAM_STATUS.CURTASK e) t

/-- Engine `e` idles: no task runs. -/
def idleEngine (s : State) (e : Nat) : State :=
  (s.setEngine e { s.engine e with cur := none }).set (CAM_STATUS.STATE e) 3

/-- The dispatcher, choosing among `cands`; the first argument bounds its choices, one per candidate and one
per further revoked claim. A grant whose LIMITED event has the engine drain, or freeze its tasks, leaves it at that
(R273, R376). -/
def dispatchLoop : Nat → State → Nat → List Nat → State
  | 0, s, e, _ => idleEngine s e
  | n + 1, s, e, cands =>
    match choose s e cands with
    | none => idleEngine s e
    | some t =>
      let rest := cands.filter (· ≠ t)
      match pendingClaim s e t with
      | none => runTask s e t
      | some c =>
        match ledgerGrant s c with
        | none => dispatchLoop n s e rest
        | some s1 =>
          if !engineRuns s1 e then s1.setEngine e { s1.engine e with cur := none }
          else if (s1.task e t).st ≠ (s.task e t).st then s1
          else if hasRevoked s1 e t then
            dispatchLoop n s1 e (if candidate s1 e t then cands else rest)
          else
            let x := s1.task e t
            runTask (s1.setTask e t { x with z := x.z || decide (x.st = .claimwait) }) e t

/-- A scheduling point of engine `e` (R234): the running task has left RUN. -/
def dispatch (s : State) (e : Nat) : State :=
  if engineRuns s e then dispatchLoop 80 s e (candidates s e)
  else s.setEngine e { s.engine e with cur := none }

/-! ### The end of a task and exceptions -/

/-- Claim `c` leaves its task when the task ends other than by a drain (R225): a granted steady claim is
released, any other is withdrawn. -/
def leaveClaim (s : State) (c : Nat) : State :=
  if (s.claim c).isGranted then releaseClaim s c else dropClaim s c

/-- Task `t` of engine `e` ends other than by a drain (R225) and takes state `st`. -/
def endTask (s : State) (e t : Nat) (st : TaskState) : State :=
  let s1 := State.each (claimsOf s e t) leaveClaim s
  s1.setTask e t { s1.task e t with st, wait := none, resumeBy := none, stack := [] }

/-- The running task of engine `e` is task `t`. -/
def isCurrent (s : State) (e t : Nat) : Bool := decide ((s.engine e).cur = some t)

/-- A scheduling point where the task that left RUN was the running one. -/
def dispatchIf (s : State) (e t : Nat) : State := if isCurrent s e t then dispatch s e else s

/-- An exception of cause `cause` is recorded (R237): CAM_En_EXC, EXCCNT and the CAM_EXC bit. -/
def recordExc (s : State) (e t cause : Nat) : State :=
  let x := s.task e t
  let s1 := ((s.set (CAM_EXC.PC e) x.ipc).set (CAM_EXC.TASK e) t).set (CAM_EXC.CAUSE e) cause
  (s1.addSat (CAM_CNT.EXCCNT e) 1).setBit (CAM_EVT.EVT e) 2

/-- The Foxglove event of an exception, class FAULT (Table 7.8); RING_ABORT, cause 7, has none. -/
def raiseExc (s : State) (e t cause : Nat) : State :=
  if cause = 7 then s else raise s (camEv e 2 .fault (s.task e t).ipc t)

/-- The vector of a cause (Table 7.8). -/
def vectorOf (s : State) (e cause : Nat) : Nat :=
  let v := (s.engine e).tab
  match cause with
  | 1 | 2 | 3 => v.vDeadline
  | 4 => v.vClaim
  | 5 => v.vIllegal
  | 6 => v.vStack
  | 7 => v.vAbort
  | _ => noEntry

/-! ### The start of a program -/

/-- Task `t` of engine `e` starts at `entry` (R231). -/
def startTask (s : State) (e t entry prio cls : Nat) : State :=
  s.setTask e t { st := .ready, pc := entry, prio := prio, cls := cls }

/-- Every task of engine `e` is IDLE and cleared. -/
def wipeTasks (s : State) (e : Nat) : State := State.each (List.range 16) (fun s t => s.setTask e t {}) s

/-- Engine `e` starts task 0 at its ENTRY (R247, R250). -/
def startEngine (s : State) (e : Nat) : State :=
  let v := (s.engine e).tab
  dispatch (startTask ((wipeTasks s e).set (CAM_STATUS.STATE e) 3) e 0 v.entry v.prio v.cls) e

/-- RUNMAX and RINGOWN as the engine table gives them (Table 7.12), at the engine's enable or handover.
(DESIGN CHOICE, log entry 143) -/
def loadEngineTable (s : State) (e : Nat) : State :=
  let v := (s.engine e).tab
  let s1 := if v.runMax = 0 then s else s.set (CAM_CFG.RUNMAX e) v.runMax
  s1.set (CAM_STATUS.RINGOWN e) (if v.ringOwn then 1 else 0)

/-- Engine `e` goes over to the program that a handover loaded (R250): every task is IDLE, and task 0 starts at the new
ENTRY, where the engine has one. (DEDUCED, log entry 59) -/
def takeOver (s : State) (e : Nat) : State :=
  let s1 := s.setEngine e { s.engine e with cur := none, lastRun := [], handing := false }
  let s2 := wipeTasks (loadEngineTable s1 e) e
  if (s.engine e).tab.entry = noEntry then s2 else startEngine s2 e

/-- The instruction under way on engine `e` has completed: a handover that waited for it goes on (R250). -/
def finishHandover (s : State) (e : Nat) : State := if (s.engine e).handing then takeOver s e else s

/-! ### Exceptions -/

/-- A task stops with an exception that no handler takes (R239). Where a handover waits for its instruction, the
instruction has ended, and the claims have passed on with their rails (R250). -/
def faultTask (s : State) (e t : Nat) : State :=
  let ev := camEv e 3 .fault (s.task e t).ipc t
  let s1 := raise s ev
  if (s1.engine e).handing then takeOver s1 e else dispatchIf (raise (endTask s e t .faulted) ev) e t

/-- Task `t` of engine `e` takes an exception (R237 to R240). The next instruction's address is the task's
pc. -/
def takeExc (s : State) (e t cause : Nat) : State :=
  let s1 := raiseExc (recordExc s e t cause) e t cause
  let x := s1.task e t
  let stack := if cause = 6 then [] else x.stack
  let v := vectorOf s1 e cause
  if v = noEntry ∨ 8 ≤ stack.length then faultTask s1 e t
  else s1.setTask e t { x with stack := x.pc :: stack, pc := v }

/-- A deadline of task `t` of engine `e` is missed (R218, R221, R235): DLMISS counts it, and the task takes
the exception. Task 15 of the power-down sequence only raises the event and goes on (R241). -/
def deadlineExc (s : State) (e t cause : Nat) : State :=
  let s1 := s.addSat (CAM_CNT.DLMISS e) 1
  if t = 15 then raiseExc s1 e t cause else takeExc s1 e t cause

/-! ### Wakes -/

/-- Task `t` of engine `e` is READY: its wait has ended. -/
def makeReady (s : State) (e t : Nat) : State :=
  s.setTask e t { s.task e t with st := .ready, wait := none }

/-- Every engine and task pair. -/
def allTasks : List (Nat × Nat) :=
  (List.range 4).flatMap fun e => (List.range 16).map fun t => (e, t)

/-- Every task in WAIT whose wait satisfies `p` becomes READY. -/
def wakeTasks (s : State) (p : Wait → Bool) : State :=
  State.each allTasks
    (fun s et =>
      let x := s.task et.1 et.2
      match x.st, x.wait with
      | .wait, some w => if p w then makeReady s et.1 et.2 else s
      | _, _ => s) s

/-- PGS of channel `ch` is 1: its WAITPGs complete (R214). -/
def wakePg (s : State) (ch : Nat) : State :=
  wakeTasks s fun w => match w with
    | .pg c _ => decide (c = ch)
    | _ => false

/-- The pending state of source `src` went from 0 to 1: its WAITEVs complete (R216). -/
def wakeEvent (s : State) (src : Nat) : State :=
  wakeTasks s fun w => match w with
    | .event c _ => decide (c = src)
    | _ => false

/-- The ring state is `n`: the WAITSTEPs at or below it complete (R217). -/
def wakeStep (s : State) (n : Nat) : State :=
  wakeTasks s fun w => match w with
    | .step k _ => decide (k ≤ n)
    | _ => false

/-- Every WAITSTEP ends with T = 1 (R217). -/
def abortSteps (s : State) : State :=
  State.each allTasks
    (fun s et =>
      let x := s.task et.1 et.2
      match x.st, x.wait with
      | .wait, some (.step ..) => s.setTask et.1 et.2 { x with st := .ready, wait := none, t := true }
      | _, _ => s) s

/-! ### Issue of an instruction -/

/-- The running task of engine `e`, where it may execute an instruction: the engine runs, and the task does
not wait for a verdict, a drain or an urgent conversion. -/
def running (s : State) (e : Nat) : Option (Nat × Task) :=
  if engineRuns s e then
    match (s.engine e).cur with
    | some t =>
      let x := s.task e t
      if x.st = .run ∧ x.wait = none then some (t, x) else none
    | none => none
  else none

/-- The read of the instruction's word in program memory (R202): a corrected error is counted. -/
def fetched (s : State) (f : Fetch) : State :=
  match f with
  | .corrected => s.addSat CAM_IMG_MEMERR.COUNT 1
  | _ => s

/-- A triple error halts the engine, which drains, and MEMERR is raised (R202). -/
def memErr (s : State) (e t : Nat) : State :=
  let s1 := recordExc s e t 8
  let s2 := raise s1 (camEv e 4 .critical (s.task e t).ipc t)
  engineDrain (s2.setEngine e { s2.engine e with halted := true }) e

/-- The address of a word of program memory in its SRAM window (Table 18.6). -/
def progAddr (a : Nat) : Nat := 0x050000 + 4 * (a % 8192)

/-- The instruction with word `w` of Table 7.3 is issued on engine `i.eng`: `body` is its effect, on a state in which
the task's pc is the next instruction's address. Without a running task, or where program memory holds another word at
the pc (R206), it is not the instruction to execute; an address beyond the code raises ILLEGAL (Table 7.8).
(DESIGN CHOICE, log entry 57) -/
def issue (i : Issue) (w : Nat) (s : State) (body : State → Nat → Task → State) : Host.Outcome State Fault Refusal :=
  let e := i.eng.val
  match running s e with
  | none => .next s
  | some (t, x) =>
    let y := { x with ipc := x.pc, pc := x.pc + 1 }
    let s1 := (fetched s i.fetch).setTask e t y
    .next (if i.fetch = .triple then memErr s1 e t
      else if s.get CAM_IMG_STATUS.CODE_LEN ≤ x.pc then takeExc s1 e t 5
      else if s.word (progAddr x.pc) = w then body s1 t y
      else s)

/-- The register Wn of a task. -/
def Task.reg (x : Task) (n : Nat) : Nat := (NMap.get 0#32 x.w n).toNat

/-- The task with Wn holding the low 32 bits of `v`. -/
def Task.setReg (x : Task) (n v : Nat) : Task := { x with w := NMap.put 0#32 x.w n (BitVec.ofNat 32 v) }

/-- The running task leaves RUN at a scheduling point for state `x`; a task that holds a revoked claim
enters REVOKED instead, its wait ended with T = 1 (R224). -/
def leaveRun (s : State) (e t : Nat) (x : Task) : State :=
  let y := if hasRevoked s e t then { x with st := .revoked, wait := none, t := true } else x
  dispatch (s.setTask e t y) e

end Sys2Proof.Machine
end

