-- ==== Sys2Proof/Machine/Channels.lean ====
section
/-! DEFINITION. Power-good of the window channels: PG, PGS, arming, chatter, and how a channel follows its
bound output (R181 to R187), with the failure of a rail in the power-down sequence (R314). -/

namespace Sys2Proof.Machine

/-- A start-up or shutdown event (Table 10.7). -/
def sysEv (k : Nat) (cls : Cls) : Ev :=
  { evt := SYS_EVT.EVT, bit := k, src := if k ≤ 2 then 0x0FC else 0x0FD, line := 41, cls }

/-- The discharge of output `r` is forced (R166): it drains first where it still runs, and an output that is off is
connected at once. -/
def forceDischarge (s : State) (r : Rail) : State :=
  let s1 := railOff s r
  let off := decide (s1.get (railState r) = 0)
  let o := s1.out (railCode r)
  let s2 := s1.setOut (railCode r) { o with forced := true, disch := o.disch || off }
  if off then s2.set (railState r) 5 else s2

/-- Rail `r` fails while the power-down sequence runs (R314): its bit is set, its discharge is forced, and
PD_RAIL_FAIL is raised. A loop has no discharge; it is recorded only. (DEDUCED, log entry 38) -/
def railFails (s : State) (r : Rail) : State :=
  if inPowerdown s then
    let s1 := s.setBit SYS_PDFAIL.FAIL (railCode r)
    raise (if isOutput r then forceDischarge s1 r else s1) (sysEv 1 .fault)
  else s

/-- The window of SUP_NOMn.SETTLE (R183), in µs. -/
def settleUs (s : State) (n : Nat) : Nat :=
  let v := s.get (SUP_NOM.SETTLE n)
  v % 64 * (match v / 64 with | 0 => 1 | 1 => 10 | 2 => 100 | _ => 1000)

/-- Channel `n` is bound to an integrated output or a loop. -/
def isBound (s : State) (n : Nat) : Bool := (boundRail s n).isSome

/-- The bound output of channel `n`, if any, is in REGULATE (R182). -/
def outputRegulates (s : State) (n : Nat) : Bool :=
  match boundRail s n with
  | some r => regulating s r
  | none => true

/-- The conditions of PG of channel `n` (R181, R182, R194). -/
def pgConditions (s : State) (n : Nat) : Bool :=
  s.on (SUP_CFG.EN n) && !(s.supCh n).draining && !s.on (SUP_STAT.CHKF n) && outputRegulates s n && !s.on (SUP_STAT.FHI n) &&
    (if s.get (SUP_LVL.WLO n) = 0 then !s.on (SUP_STAT.FLO n) else !s.on (SUP_STAT.WLO n)) &&
    (isBound s n || decide (s.get (SUP_CFG.M n) ≤ (s.supCh n).taken))

/-- PGS of channel `n` becomes 1 (R183 to R185): the low levels of a bound channel arm, CHATTER is raised
the first time where the count is above 0, and its WAITPGs complete. (DEDUCED, log entry 129) -/
def pgsReached (s : State) (n : Nat) : State :=
  let c := s.supCh n
  let s1 := (s.set (SUP_STAT.PGS n) 1).setSup n { c with settled := true }
  let s2 := if isBound s n then s1.set (SUP_STAT.ARMED n) 1 else s1
  let s3 := if !c.settled && decide (0 < s.get (SUP_CHAT.COUNT n)) then notice s2 (supEv s2 n 4 .notice) else s2
  wakePg s3 n

/-- PG of channel `n` rises: the settle window starts, or PGS follows at once with a count of 0 (R183). -/
def pgRise (s : State) (n : Nat) : State :=
  let s1 := (s.set (SUP_STAT.PG n) 1).setSup n { s.supCh n with pgSince := some s.now }
  if settleUs s n = 0 then pgsReached s1 n else s1

/-- PG of channel `n` falls but by its output's leaving REGULATE (R184): while the settle window runs, the chatter
count rises, for a failed check as for a level condition. (DESIGN CHOICE, log entry 141) -/
def pgFall (s : State) (n : Nat) : State :=
  let s1 := if s.on (SUP_STAT.PGS n) then s else s.addSat (SUP_CHAT.COUNT n) 1
  ((s1.set (SUP_STAT.PG n) 0).set (SUP_STAT.PGS n) 0).setSup n { s1.supCh n with pgSince := none }

/-- PG of channel `n` is brought to what its conditions give. -/
def refreshPg (s : State) (n : Nat) : State :=
  match s.on (SUP_STAT.PG n), pgConditions s n with
  | false, true => pgRise s n
  | true, false => pgFall s n
  | _, _ => s

/-- The bound output `r` enters REGULATE: PG of its channels follows (R182). -/
def supEnterAll (s : State) (r : Rail) : State := State.each (boundChannels s r) refreshPg s

/-- The verdict of an accepted enable of `r` clears the chatter counts of its channels (R184), of those that are off
too. -/
def supVerdict (s : State) (r : Rail) : State :=
  State.each (channelsOf s r)
    (fun s n => (s.set (SUP_CHAT.COUNT n) 0).setSup n { s.supCh n with settled := false }) s

/-- Channel `n` is the named channel of the rail it is bound to (R189). -/
def isNamed (s : State) (n : Nat) : Bool :=
  match boundRail s n with
  | some r => decide (s.get (railSup r) = n)
  | none => false

/-- Event `k` of a level condition of channel `n`, of class `cls` (R187); a fault of a rail's own channel
fails the rail in the power-down sequence (R314). -/
def supRaise (s : State) (n k : Nat) (cls : Cls) : State :=
  let s1 := raise s (supEv s n k cls)
  if cls = .fault ∧ isNamed s n then
    match boundRail s n with
    | some r => railFails s1 r
    | none => s1
  else s1

end Sys2Proof.Machine
end

