-- ==== Sys2Proof/Machine/Targets.lean ====
section
/-! DEFINITION. References and settings that move (R110 to R112, R160), and the books of the Voltage Command
Link ports that follow a loop's targets (R145 to R151). -/

namespace Sys2Proof.Machine

/-- `a` moved toward `b` by at most `d`. -/
def moveToward (a b d : Nat) : Nat := if a ≤ b then min b (a + d) else max b (a - d)

/-- The reference of loop `n` now, in µV at the sense scale (R111). A rate of 0.1 mV/µs is 1 µV per TREF
period. -/
def refNow (s : State) (n : Nat) : Nat :=
  let l := s.loop n
  if l.refHeld then l.refFrom
  else moveToward l.refFrom (s.get (LP_VREF.TARGET n) * 500) (l.refRate * (s.now - l.refAt))

/-- The reference DAC's code for loop `n` (R111): it changes whenever the movement since its last change has crossed
0.125 mV. (DESIGN CHOICE, log entry 105) -/
def dacCode (s : State) (n : Nat) : Nat :=
  let r := refNow s n
  if (s.loop n).dacFrom * 125 ≤ r then r / 125 else ceilDiv r 125

/-- The reference of loop `n` equals its target. -/
def refArrived (s : State) (n : Nat) : Bool := decide (refNow s n = s.get (LP_VREF.TARGET n) * 500)

/-- The reference has not yet exceeded the pre-bias start value (R97). -/
def prebiased (s : State) (n : Nat) : Bool :=
  match (s.loop n).prebias with
  | some v => decide (refNow s n ≤ v)
  | none => false

/-- VSET of an integrated BK or LDO, in µV; 0 for another rail. -/
def vsetUv (s : State) : Rail → Nat
  | .bk n => s.get (BK_VOUT.VSET n) * 5000
  | .ldo n => s.get (LDO_CFG.VSET n) * 5000
  | _ => 0

/-- The setting in motion of a BK or LDO, in µV (R160). -/
def settingNow (s : State) (r : Rail) : Nat :=
  let o := s.out (railCode r)
  if o.setRate = 0 then vsetUv s r else moveToward o.setFrom (vsetUv s r) (o.setRate * (s.now - o.setAt))

/-- The device time at which the setting of a BK or LDO reaches VSET. -/
def settingArrival (s : State) (r : Rail) : Nat :=
  let o := s.out (railCode r)
  if o.setRate = 0 then s.now
  else o.setAt + ceilDiv ((vsetUv s r - o.setFrom) + (o.setFrom - vsetUv s r)) o.setRate

/-- The BK's reference has not yet exceeded its start value, so its low-side switch turns off at zero current
(R159). -/
def lowSideOff (s : State) (n : Fin 6) : Bool :=
  match (s.out (railCode (.bk n))).prebias with
  | some v => decide (settingNow s (.bk n) ≤ v)
  | none => false

/-- The rate at which a BK or LDO starts, in µV per TREF period (Table 5.3); 0 for another rail. -/
def startRate (s : State) : Rail → Nat
  | .bk n => s.get (BK_CFG.SS n)
  | .ldo _ => 10
  | _ => 0

/-- Output `r` starts now from its measured `start` µV (R159): the setting of a BK or LDO moves from there toward
VSET. (DEDUCED, log entry 108) -/
def startMotion (s : State) (r : Rail) (start : Nat) : State :=
  let prebias := match r with
    | .bk _ => some start
    | _ => none
  s.setOut (railCode r)
    { s.out (railCode r) with setFrom := start, setAt := s.now, setRate := startRate s r, prebias, startPending := false }

/-! ### The ports' books -/

/-- A VCL event (Table 4.9). -/
def vclEv (p k : Nat) (cls : Cls) : Ev :=
  { evt := VCL_EVT.EVT p, bit := k, src := 0x050 + 8 * p + k, line := 10 + p, cls }

/-- The count that an acknowledgement code adds to (R148). -/
def ackCount (p code : Nat) : Field :=
  match code with
  | 2 => VCL_CNT1.REACHED p
  | 3 => VCL_CNT1.SUPERSEDED p
  | _ => VCL_CNT2.ABORTED p

/-- The transition in flight on port `p` ends with `code`: one acknowledgement is queued in the same
handshake that counts it (R145, R148). -/
def endFlight (s : State) (p code : Nat) : State :=
  let v := s.port p
  match v.flight with
  | none => s
  | some f =>
    let a : VclAck := { code, tag := f.tag, vid := dacCode s (s.get (VCL_CFG.LOOP p)) / 4 }
    let s1 := (s.addWrap (ackCount p code) 1).setPort p { v with queue := v.queue ++ [a], flight := none }
    if code = 4 then notice s1 (vclEv p 3 .notice) else s1

/-- The ports bound to loop `n`. -/
def portsOf (s : State) (n : Nat) : List Nat :=
  [0, 1].filter fun p => decide (s.get (VCL_CFG.LOOP p) = n)

/-- The transition in flight toward loop `n`, if any, ends with `code`. -/
def endFlights (s : State) (n code : Nat) : State :=
  State.each (portsOf s n) (fun s p => endFlight s p code) s

/-- Alert flag `b` of port `p` is latched where AMASK enables it (R151). -/
def vclAlert (s : State) (p b : Nat) : State :=
  if s.hasBit (VCL_CFG.AMASK p) b then s.setBit (VCL_ALERT.LATCH p) b else s

/-- Alert flag `b` of the ports bound to loop `n`. -/
def loopAlert (s : State) (n b : Nat) : State := State.each (portsOf s n) (fun s p => vclAlert s p b) s

/-- A new target for loop `n` at `rate` (R110 to R112, R146): it supersedes the transition in flight, and the
reference continues from its instantaneous value. -/
def setTarget (s : State) (n vid rate : Nat) : State :=
  let s1 := endFlights s n 3
  let l := s1.loop n
  let prebias := if prebiased s1 n then l.prebias else none
  (s1.setLoop n { l with
    refFrom := refNow s1 n, refAt := s1.now, refRate := rate, dacFrom := dacCode s1 n, prebias }).set (LP_VREF.TARGET n) vid

/-- The start value of a BK that its reference has not exceeded yet. -/
def prebiasLeft (s : State) : Rail → Option Nat
  | .bk n => if lowSideOff s n then (s.out (railCode (.bk n))).prebias else none
  | _ => none

/-- A new VSET for an enabled BK or LDO, moving at `rate` (R160); an output that has not started yet starts toward
it. -/
def setVset (s : State) (r : Rail) (f : Field) (v rate : Nat) : State :=
  let o := s.out (railCode r)
  if o.startPending then s.set f v
  else
    (s.setOut (railCode r)
      { o with setFrom := settingNow s r, setAt := s.now, setRate := rate, prebias := prebiasLeft s r }).set f v

/-- The capacity of the claim that covers the rail is evaluated at the next ledger update (R273). -/
def dirtyRail (s : State) (r : Rail) : State :=
  { s with ledger := { s.ledger with capDirty := s.ledger.capDirty ||| 2 ^ railCode r } }

/-- A loop's current limit or the rung has changed: the capacity of each steady claim is evaluated at the next ledger
update (R113, R273). -/
def dirtyLimits (s : State) : State := { s with ledger := { s.ledger with limitDirty := true } }

end Sys2Proof.Machine
end

