-- ==== Sys2Proof/Machine/Enable.lean ====
section
/-! DEFINITION. Enabling a rail: the enable checks of Tables 3.5 and 5.2, their verdicts, and what the end of
a RAILON leaves in the task that issued it (R99 to R109, R158 to R166, R209). -/

namespace Sys2Proof.Machine

/-- The first code of a list of (code, applies) that applies; 0 for none. -/
def firstCode : List (Nat × Bool) → Nat
  | [] => 0
  | (c, b) :: l => if b then c else firstCode l

/-- `x` lies outside `lo`–`hi`. -/
def outside (lo hi x : Nat) : Bool := decide (x < lo) || decide (hi < x)

/-- se_min of R99, in mA/µs; 0 where it cannot be formed. -/
def slopeMin (s : State) (n : Nat) : Nat :=
  let d := s.get (LP_PWM.DMAX n)
  let lph := s.get (LP_PLANT.LPH n)
  if d ≤ 50 ∨ lph = 0 ∨ s.get (LP_VCFG.DIV n) = 3 then 0
  else ceilDiv (s.get (LP_VCFG.VMAX n) * divider s n * 1000 * (2 * d - 100)) (4 * lph * d)

/-- The phases of LPn_PHMASK, ascending. -/
def maskPhases (s : State) (n : Nat) : List Nat :=
  (List.range 20).filter fun k => s.hasBit (LP_PHMASK.MASK n) k

/-- Phase `k` is held by another loop than `n` (PH_CONFLICT). -/
def heldByOther (s : State) (n k : Nat) : Bool :=
  match s.get (PH_STATUS.STATE k) with
  | 1 => decide ((s.phase k).reservedBy ≠ some n)
  | 2 | 3 => decide (s.get (PH_STATUS.OWNER k) ≠ n)
  | _ => false

/-- SUP of rail `r` names an enabled channel whose source is the rail (R189). -/
def supConfigured (s : State) (r : Rail) : Bool :=
  let n := s.get (railSup r)
  decide (n < 64) && s.on (SUP_CFG.EN n) && decide (s.get (SUP_CFG.SRC n) = railCode r)

/-- A channel of ADC_SEQs_Ee of an enabled slice. -/
def sequenced (s : State) (c : Nat) : Bool :=
  (List.range 4).any fun sl => s.on (ADC_SL_CTRL.EN sl) &&
    (List.range (s.get (ADC_SL_CTRL.LEN sl))).any fun e => decide (s.get (ADC_SEQ.CH sl e) = c)

/-- Channel `c` belongs to the housekeeping round (R331, R332): the base list, the integrators, and the
channels of enabled sequences. -/
def inRound (s : State) (c : Nat) : Bool :=
  (decide (0x0C ≤ c) && decide (c ≤ 0x2F) && decide (c ≠ 0x1D)) || sequenced s c

/-- The code with which the enable check of loop `n` refuses (Table 3.5); 0 for none. -/
def loopReason (s : State) (n : Fin 6) : Nat :=
  let ks := maskPhases s n
  let fsw := s.get (LP_PWM.FSW n)
  let dmax := s.get (LP_PWM.DMAX n)
  let phlim := s.get (LP_ILIM.PHLIM n)
  let thr := s.get (LP_OST.THR n)
  let brake := s.get (LP_OST.BRAKE n)
  let nmin := s.get (LP_CFG.NMIN n)
  firstCode
    [(0x01, ks.isEmpty), (0x02, decide (16 < ks.length)), (0x03, ks.any (heldByOther s n)),
     (0x04, ks.any fun k => decide (s.get (PH_STATUS.STATE k) = 4)), (0x05, ks.any (s.hasBit PH_FAULTED.MASK)),
     (0x06, outside 150 2000 fsw), (0x07, outside 5 90 dmax || decide (100000 - 4 * fsw < dmax * 1000)),
     (0x08, decide (s.get (LP_SLOPE.SE n) < slopeMin s n)), (0x09, decide (s.get (LP_COMP0.KI n) = 0)),
     (0x0A, decide (s.get (LP_VCFG.DIV n) = 3) || decide (s.get (LP_VCFG.VMAX n) = 0) ||
        decide (s.get (LP_VCFG.VMAX n) < s.get (LP_VCFG.VBOOT n)) || outside 5 400 (s.get (LP_SLEW.SS n))),
     (0x0B, decide (phlim = 0) || decide (phlim < s.get (LP_ILIM.NEGLIM n))),
     (0x0C, ks.any fun k => outside 500 20000 (s.get (PH_CS.GAIN k)) ||
        decide (48000000 < s.get (PH_CS.GAIN k) * phlim)),
     (0x0D, decide (s.get (LP_PLANT.LPH n) = 0) || !inRound s (s.get (LP_PLANT.VIN_CH n))),
     (0x0E, !supConfigured s (.lp n)), (0x0F, !s.on VDRV_STATUS.PG), (0x10, unusable s (56 + n)),
     (0x11, decide (nmin = 0) || decide (ks.length < nmin)),
     (0x12, decide (thr ≤ s.get (LP_OST.REL n)) || (decide (brake ≠ 0) && decide (brake ≤ thr)) ||
        outside 4 126 thr)]

/-- SRC names a BK or SW that is not in REGULATE, or no output at all (R171). -/
def srcOff (s : State) (src : Nat) : Bool :=
  if src = 0x1F then false
  else if src < 6 then decide (s.get (BK_STATUS.STATE src) ≠ 3)
  else if 8 ≤ src ∧ src < 16 then decide (s.get (SW_STATUS.STATE (src - 8)) ≠ 3)
  else true

/-- The code with which the enable check of an integrated output refuses (Table 5.2), with `vin` mV measured
at its input; 0 for none. -/
def outputReason (s : State) (vin : Nat) : Rail → Nat
  | .lp _ => 0
  | .bk n =>
    let v := s.get (BK_VOUT.VSET n)
    firstCode
      [(0x01, outside 120 1100 v || decide (s.get (BK_VOUT.VMAX n) < v)),
       (0x02, decide (vin < 4400) || decide (85 * vin < v * 500)), (0x04, outside 10 40 (s.get (BK_CFG.FSW n))),
       (0x05, outside 5 400 (s.get (BK_CFG.SS n))), (0x06, outside 10 72 (s.get (BK_CFG.ILIM n))),
       (0x07, !supConfigured s (.bk n)), (0x08, s.on (BK_STATUS.SHORTL n)), (0x09, unusable s (32 + n))]
  | .ldo n =>
    let v := s.get (LDO_CFG.VSET n)
    firstCode
      [(0x01, outside 120 1060 v), (0x02, decide (vin < 1600) || decide (vin < v * 5 + 250)),
       (0x03, srcOff s (s.get (LDO_CFG.SRC n))), (0x07, !supConfigured s (.ldo n)),
       (0x08, s.on (LDO_STATUS.SHORTL n)), (0x09, unusable s (40 + n))]
  | .sw n =>
    firstCode
      [(0x02, decide (vin < 1000)), (0x03, srcOff s (s.get (SW_CFG.SRC n))),
       (0x05, decide (s.get (SW_CFG.TRISE n) = 0)), (0x07, !supConfigured s (.sw n)),
       (0x08, s.on (SW_STATUS.SHORTL n)), (0x09, unusable s (48 + n))]

/-- The code with which the enable check of rail `r` refuses. -/
def railReasonCode (s : State) (vin : Nat) (r : Rail) : Nat :=
  match r with
  | .lp n => loopReason s n
  | _ => outputReason s vin r

/-! ### Phases -/

/-- Phase `k` returns to the pool: PWM at high impedance, SEN low (R91, R100). -/
def freePhase (s : State) (k : Nat) : State :=
  ((s.set (PH_STATUS.STATE k) 0).set (PH_STATUS.OWNER k) 7).setPhase k {}

/-- Phase `k` is RESERVING for loop `n`. -/
def reservedFor (s : State) (n k : Nat) : Bool :=
  decide (s.get (PH_STATUS.STATE k) = 1) && decide ((s.phase k).reservedBy = some n)

/-- The phases that loop `n` reserved. -/
def reserved (s : State) (n : Nat) : List Nat := (List.range 20).filter (reservedFor s n)

/-- Phase `k` is in the mask of loop `n`, whose enable check runs, or which drains since it ran (R101). -/
def reserves (s : State) (k n : Nat) : Bool :=
  s.hasBit (LP_PHMASK.MASK n) k &&
    (decide (s.get (LP_STATUS.STATE n) = stCheck) || (decide (s.get (LP_STATUS.STATE n) = 5) && reservedFor s n k))

/-- The loop whose enable check has phase `k` RESERVING: of those that run, the one that started first, and of those
that started together the one with the lowest index (R103). -/
def reserver (s : State) (k : Nat) : Option Nat :=
  ((List.range 6).filter (reserves s k)).foldl
    (fun best n => match best with
      | some b => if (s.loop n).checkAt < (s.loop b).checkAt then some n else some b
      | none => some n) none

/-- The phases that are in no loop are RESERVING where an enable check has them in its mask, and FREE otherwise
(R101, R103). -/
def reservePhases (s : State) : State :=
  State.each (List.range 20)
    (fun s k =>
      match s.get (PH_STATUS.STATE k), reserver s k with
      | 0, some n | 1, some n =>
        ((s.set (PH_STATUS.STATE k) 1).set (PH_STATUS.OWNER k) 6).setPhase k { reservedBy := some n }
      | 1, none => freePhase s k
      | _, _ => s) s

/-- The phases of loop `n`'s mask are assigned to it (R100): ACTIVE, SENk released, PWMk at high impedance
until its first turn-on. One that another loop's refused check had RESERVING is FREE by now (R103). -/
def assignPhases (s : State) (n : Nat) : State :=
  State.each ((maskPhases s n).filter fun k => s.get (PH_STATUS.STATE k) ≤ 1)
    (fun s k =>
      let s1 := ((s.set (PH_STATUS.STATE k) 2).set (PH_STATUS.OWNER k) n).set (PH_STATUS.CAUSE k) 0
      ((s1.set (PH_STATUS.CAUSES k) 0).set (PH_STATUS.FAILCNT k) 0).setPhase k { sen := true }) s

/-! ### RAILON -/

/-- EN of rail `r` is set and its enable check starts (R107, R158); a loop reserves its phases (R101), and an output
keeps its discharge until the verdict (R166). (DEDUCED, log entry 84) -/
def startCheck (s : State) (r : Rail) : State :=
  let s1 := (s.set (railEn r) 1).set (railState r) stCheck
  match r with
  | .lp n => reservePhases (s1.setLoop n { s1.loop n with checkAt := s.now })
  | _ => s1.setOut (railCode r) { s1.out (railCode r) with left := s.get (railState r) }

/-- The enable check of loop `n` waits for that of a loop with a lower index that started with it (R103). -/
def checkWaits (s : State) : Rail → Bool
  | .lp n => (List.range n).any fun m =>
      decide (s.get (LP_STATUS.STATE m) = stCheck) && decide ((s.loop m).checkAt = (s.loop n).checkAt)
  | _ => false

/-- A task's result of a power instruction (R208): the code in Wd, and Z for DONE. -/
def powerResult (x : Task) (wd code : Nat) : Task := { (x.setReg wd code) with z := decide (code = 0) }

/-- The RAILON that waits for the verdict on `r` ends with `code` for its engine and task (R208, R209). -/
def endRailons (s : State) (r : Rail) (code : State → Nat → Nat → Nat) : State :=
  State.each allTasks
    (fun s et =>
      let x := s.task et.1 et.2
      match x.wait with
      | some (.verdict r' wd) =>
        if r' = r then
          finishHandover (s.setTask et.1 et.2 { powerResult x wd (code s et.1 et.2) with wait := none }) et.1
        else s
      | _ => s) s

/-- The RAILON that waits for the verdict on `r` ends with `code` (R208, R209). -/
def completeRailon (s : State) (r : Rail) (code : Nat) : State := endRailons s r fun _ _ _ => code

/-- The order of the last RAILON commit of rail `r` (R242). -/
def commitOrder (s : State) (r : Rail) : State :=
  let (q, s1) := nextSeq s
  { s1 with ledger := { s1.ledger with commits := NMap.put 0 s1.ledger.commits (railCode r) q } }

/-- An enable check refuses rail `r` with `code` (R20): EN reads 0, REASON holds the code, and the refusal is
raised. -/
def refuseRail (s : State) (r : Rail) (code : Nat) : State :=
  let st := if isOutput r && decide ((s.out (railCode r)).left = 5) then 5 else 0
  let s1 := ((s.set (railEn r) 0).set (railState r) st).set (railReason r) code
  notice (if isOutput r then s1 else reservePhases s1) (railEv r 1 .notice)

/-- The highest output of the reference DAC, in µV (Table 3.2). -/
def dacMax : Nat := 16383 * 125

/-- Loop `n` starts (R97, R108, R110): TARGET takes VBOOT, and the reference begins at `start` µV at the
sense pins over DIV, as far as the reference DAC reaches, or at 0 with PREBIAS at 0. (DESIGN CHOICE, log entry 105) -/
def startLoop (s : State) (n : Fin 6) (start : Nat) : State :=
  let v := if s.on (LP_CTRL.PREBIAS n) then min dacMax (start / divider s n) else 0
  let s1 := assignPhases s n
  let l : LoopSt :=
    { refFrom := v, refAt := s.now, refRate := s.get (LP_SLEW.SS n), dacFrom := v / 125, refHeld := true,
      prebias := if s.on (LP_CTRL.PREBIAS n) then some v else none, slotsDirty := true,
      q := (s.loop n).q, s := (s.loop n).s }
  let s2 := ((s1.setLoop n l).set (LP_VREF.TARGET n) (s.get (LP_VCFG.VBOOT n))).set (LP_STATUS.DEGRADED n) 0
  dirtyLimits (s2.set (LP_STATUS.STATE n) stStart)

/-- An integrated output starts from its measured `start` µV (R159, R166, R167): its discharge ends. Within the 10 ms
after a reset it starts only at their end. -/
def startOutput (s : State) (r : Rail) (start : Nat) : State :=
  let hold := s.vdrv.resetDischarge
  let s1 := (s.setOut (railCode r) { disch := hold, startPending := hold }).set (railState r) stStart
  if hold then s1 else startMotion s1 r start

/-- An enable check accepts rail `r`. -/
def acceptRail (s : State) (r : Rail) (start : Nat) : State :=
  let s1 := supVerdict (commitOrder s r) r
  match r with
  | .lp n => startLoop s1 n start
  | _ => startOutput s1 r start


end Sys2Proof.Machine
end

