-- ==== Sys2Proof/Machine/Words.lean ====
section
/-! DEFINITION. The 32-bit words of the Camast instructions (R206, Table 7.3): the opcode in bits [31:26], the operands
where the table places them, and every bit that it does not assign 0. -/

namespace Sys2Proof.Machine

/-- The word with opcode `op` and the operands `fields` in bits [25:0]. -/
def insnWord (op fields : Nat) : Nat := op * 2 ^ 26 + fields

/-- A rail code in bits [25:18]. -/
def railField (r : Rail) : Nat := railCode r * 2 ^ 18

/-- The value operand of SETV: Ws, or the immediate. -/
def setvField : SetvSrc → Nat
  | .reg ws => ws * 2 ^ 13
  | .imm v => 2 ^ 17 + v.toNat * 2 ^ 5

/-- The second operand of ADD, SUB, AND, OR and CMP: Wt, or the immediate. -/
def aluField : AluSrc → Nat
  | .reg wt => wt * 2 ^ 13
  | .imm v => 2 ^ 17 + v.toNat

/-- The count of SHR: Wt, or the immediate. -/
def shrField : ShrSrc → Nat
  | .reg wt => wt * 2 ^ 13
  | .imm n => 2 ^ 17 + n.toNat

/-- The code of a condition (Table 7.4). -/
def condCode : Cond → Nat
  | .eq => 0 | .ne => 1 | .lo => 2 | .hs => 3 | .mi => 4 | .pl => 5 | .ds => 6 | .dc => 7 | .ts => 8 | .tc => 9
  | .ra => 10

def railonWord (r : Rail) (wd : Fin 16) : Nat := insnWord 0x01 (railField r + wd)
def railoffWord (r : Rail) : Nat := insnWord 0x02 (railField r)
def setvWord (r : Rail) (src : SetvSrc) (wd : Fin 16) : Nat := insnWord 0x03 (railField r + setvField src + wd)
def setslewWord (r : Rail) (slew : BitVec 9) (wd : Fin 16) : Nat := insnWord 0x04 (railField r + slew.toNat * 2 ^ 8 + wd)
def phasesWord (r : Rail) (ws wd : Fin 16) : Nat := insnWord 0x05 (railField r + ws * 2 ^ 13 + wd)
def waitpgWord (ch : Fin 64) (dl : BitVec 16) : Nat := insnWord 0x08 (ch * 2 ^ 20 + dl.toNat)
def waittWord (duration : BitVec 16) (slack : BitVec 8) : Nat := insnWord 0x09 (slack.toNat * 2 ^ 16 + duration.toNat)
def waitevWord (src : BitVec 9) (l : Bool) (dl : BitVec 16) : Nat :=
  insnWord 0x0A (src.toNat * 2 ^ 17 + flagAt l 16 + dl.toNat)
def claimWord (id : Fin 64) (dl : BitVec 16) : Nat := insnWord 0x0C (id * 2 ^ 20 + dl.toNat)
def releaseWord (id : Fin 64) : Nat := insnWord 0x0D (id * 2 ^ 20)
def reclaimWord (id : Fin 64) (ws : Fin 16) : Nat := insnWord 0x0E (id * 2 ^ 20 + ws * 2 ^ 16)
def stepWord (n : BitVec 8) (abort : Bool) : Nat := insnWord 0x10 (n.toNat * 2 ^ 18 + flagAt abort 17)
def waitstepWord (n : BitVec 8) (dl : BitVec 16) : Nat := insnWord 0x11 (n.toNat * 2 ^ 18 + dl.toNat)
def rdadcWord (wd : Fin 16) (ch : BitVec 7) (urgent : Bool) : Nat :=
  insnWord 0x14 (wd * 2 ^ 22 + ch.toNat * 2 ^ 15 + flagAt urgent 14)
def rdsupWord (wd : Fin 16) (ch : Fin 64) : Nat := insnWord 0x15 (wd * 2 ^ 22 + ch * 2 ^ 16)
def movRegWord (wd ws : Fin 16) : Nat := insnWord 0x18 (wd * 2 ^ 22 + ws * 2 ^ 18)
def movImmWord (wd : Fin 16) (imm : BitVec 22) : Nat := insnWord 0x19 (wd * 2 ^ 22 + imm.toNat)
def movConstWord (wd : Fin 16) (k : BitVec 13) : Nat := insnWord 0x1A (wd * 2 ^ 22 + k.toNat)

/-- ADD, SUB, AND and OR, by their opcode. -/
def aluWord (op : Nat) (wd ws : Fin 16) (src : AluSrc) : Nat := insnWord op (wd * 2 ^ 22 + ws * 2 ^ 18 + aluField src)

def cmpWord (ws : Fin 16) (src : AluSrc) : Nat := insnWord 0x1F (ws * 2 ^ 18 + aluField src)
def shrWord (wd ws : Fin 16) (src : ShrSrc) : Nat := insnWord 0x20 (wd * 2 ^ 22 + ws * 2 ^ 18 + shrField src)
def jmpWord (target : BitVec 13) : Nat := insnWord 0x24 target.toNat
def bccWord (c : Cond) (target : BitVec 13) : Nat := insnWord 0x25 (condCode c * 2 ^ 22 + target.toNat)
def callWord (target : BitVec 13) : Nat := insnWord 0x26 target.toNat
def retWord : Nat := insnWord 0x27 0
def taskWord (t : Fin 16) (prio cls : BitVec 3) (entry : BitVec 13) : Nat :=
  insnWord 0x28 (t * 2 ^ 22 + prio.toNat * 2 ^ 19 + cls.toNat * 2 ^ 16 + entry.toNat)
def yieldWord : Nat := insnWord 0x29 0
def raiseWord (code : BitVec 8) : Nat := insnWord 0x2C code.toNat
def logWord (code : BitVec 8) (ws : Fin 16) : Nat := insnWord 0x2D (ws * 2 ^ 18 + code.toNat)
def snapWord (code : BitVec 8) : Nat := insnWord 0x2E code.toNat

end Sys2Proof.Machine
end

