-- ==== Sys2Proof/Machine/Operands.lean ====
section
/-! DEFINITION. Operand forms of the Camast instructions (R205, R207, R211, R229): immediates, register
forms, deadlines, and the constants of the image. -/

namespace Sys2Proof.Machine

/-- A `w`-bit immediate sign-extended to 32 bits (R207). -/
def signExt (w x : Nat) : Nat := ofSigned 32 (signedOf w x)

/-- The second operand of ADD, SUB and CMP: Wt, or the sign-extended immediate (R207). -/
def arithOperand (x : Task) : AluSrc → Nat
  | .reg wt => x.reg wt
  | .imm v => signExt 17 v.toNat

/-- The second operand of AND and OR: Wt, or the zero-extended immediate (R207). -/
def logicOperand (x : Task) : AluSrc → Nat
  | .reg wt => x.reg wt
  | .imm v => v.toNat

/-- The count of a SHR: Wt[4:0], or the immediate (R229). -/
def shiftCount (x : Task) : ShrSrc → Nat
  | .reg wt => x.reg wt % 32
  | .imm n => n.toNat

/-- The value and the slew of a SETV (R211); a slew of 0 is the rail's default. -/
def setvOperand (x : Task) : SetvSrc → Nat × Nat
  | .reg ws => (bitsOf (x.reg ws) 0 12, bitsOf (x.reg ws) 16 9)
  | .imm v => (v.toNat, 0)

/-- A deadline operand in µs (R205); none is an idle wait. -/
def deadlineUs (w : Nat) : Option Nat :=
  if w = 0 then none
  else
    let unit := match w / 2 ^ 14 with
      | 0 => 1
      | 1 => 100
      | 2 => 10000
      | _ => 1000000
    some (w % 2 ^ 14 * unit)

/-- The device time at which a deadline operand expires that starts now (R36). -/
def deadlineOf (s : State) (w : BitVec 16) : Option Nat := (deadlineUs w.toNat).map (deadlineAt s.now)

/-- Word k of the image's constant table, loaded directly after the code (R207, Table 7.10). -/
def constWord (s : State) (k : Nat) : Nat := s.word (progAddr (s.get CAM_IMG_STATUS.CODE_LEN + k))

end Sys2Proof.Machine
end

