-- ==== Sys2Proof/Machine/Flags.lean ====
section
/-! DEFINITION. The flags of a task (Table 7.1) and the branch conditions (Table 7.4). -/

namespace Sys2Proof.Machine

/-- Z and N from a result (R229): Z when it is zero, N its bit 31. -/
def Task.setZN (x : Task) (v : Nat) : Task :=
  { x with z := decide (v % 2 ^ 32 = 0), n := decide (bitOf v 31 = 1) }

/-- Wd takes the result `v`, with Z and N from it (R229). -/
def Task.result (x : Task) (wd v : Nat) : Task := (x.setReg wd v).setZN v

/-- The carry out of `a + b` (Table 7.1). -/
def addCarry (a b : Nat) : Bool := decide (2 ^ 32 ≤ a + b)

/-- The unsigned borrow of `a − b` (Table 7.1). -/
def subBorrow (a b : Nat) : Bool := decide (a < b)

/-- `a − b` modulo 2^32 (R229). -/
def subWord (a b : Nat) : Nat := (a + 2 ^ 32 - b) % 2 ^ 32

/-- C after a shift of `a` right by `n`: the last bit shifted out; unchanged by a shift of 0 (R229). -/
def shiftCarry (c : Bool) (a n : Nat) : Bool := if n = 0 then c else decide (bitOf a (n - 1) = 1)

/-- A waiting instruction or CLAIM starts: D and T are cleared (R201). -/
def Task.startWait (x : Task) : Task := { x with d := false, t := false }

/-- The condition of a Bcc is met (Table 7.4). -/
def condMet (x : Task) : Cond → Bool
  | .eq => x.z
  | .ne => !x.z
  | .lo => x.c
  | .hs => !x.c
  | .mi => x.n
  | .pl => !x.n
  | .ds => x.d
  | .dc => !x.d
  | .ts => x.t
  | .tc => !x.t
  | .ra => true

end Sys2Proof.Machine
end

