-- ==== Sys2Proof/Machine/Measure.lean ====
section
/-! DEFINITION. RDADC with U = 0 and RDSUP (R227, R228, R323). -/

namespace Sys2Proof.Machine

/-- A signed channel of Table 11.1. -/
def signedChannel (c : Nat) : Bool := decide (c = 0x1B) || (decide (0x1E ≤ c) && decide (c ≤ 0x2F))

/-- A 16-bit reading of channel `c` as RDADC writes it to Wd (R323). -/
def readingWord (c v : Nat) : Nat := if signedChannel c then signExt 16 v else v

/-- A derived channel of RDADC (Table 7.6). -/
def derivedChannel (s : State) (c : Nat) : Option Nat :=
  match c with
  | 0x70 => some (s.get NRG_BUDGET.VAL)
  | 0x71 => some (granted s)
  | 0x72 => some (s.get NRG_ENERGY.VAL)
  | 0x73 => some (s.get NRG_LOAD.VAL)
  | 0x74 => some (s.get ADC_PIN.PIN)
  | 0x75 => some (ppState s)
  | 0x76 => some (rungNow s)
  | 0x77 => some (s.get NRG_HOLDUP.VAL)
  | _ => none

/-- The task after a RDADC: the value in Wd with Z and N from it, or Wd unchanged and Z = 0 (R227). -/
def readResult (x : Task) (wd : Nat) : Option Nat → Task
  | some v => x.result wd v
  | none => { x with z := false }

/-- What RDADC with U = 0 reads (R227). -/
def readNow (s : State) (c : Nat) : Option Nat :=
  if c < 0x40 then (if hkValid s c then some (readingWord c (hkVal s c)) else none) else derivedChannel s c

/-- `RDADC` (R227) with U = 0. -/
def execRdadc (i : Issue) (wd : Fin 16) (ch : BitVec 7) (s : State) : Host.Outcome State Fault Refusal :=
  issue i (rdadcWord wd ch false) s fun s t x => s.setTask i.eng t (readResult x wd (readNow s ch.toNat))

/-- The byte of SUP_STATq of channel `n` (Table 6.9). -/
def supStatByte (s : State) (n : Nat) : Nat :=
  ([SUP_STAT.PG n, SUP_STAT.PGS n, SUP_STAT.ARMED n, SUP_STAT.FHI n, SUP_STAT.WHI n, SUP_STAT.WLO n,
    SUP_STAT.FLO n, SUP_STAT.CHKF n].map fun f => s.get f * 2 ^ (f.lsb % 8)).foldl (· + ·) 0

/-- `RDSUP` (R228): the status byte in [7:0] and the chatter count in [15:8]. -/
def execRdsup (i : Issue) (wd : Fin 16) (ch : Fin 64) (s : State) : Host.Outcome State Fault Refusal :=
  issue i (rdsupWord wd ch) s fun s t x =>
    s.setTask i.eng t (x.result wd (supStatByte s ch + s.get (SUP_CHAT.COUNT ch) * 256))

end Sys2Proof.Machine
end

