-- ==== Sys2Proof/Machine/ProgEvents.lean ====
section
/-! DEFINITION. RAISE, LOG and SNAP, and the raise queue (R232, R251, R341). -/

namespace Sys2Proof.Machine

/-- CAM_En_RAISE shows the raise queue of engine `e`: its depth and its head entry. -/
def showRaise (s : State) (e : Nat) : State :=
  let q := (s.engine e).raiseQ
  let (code, task) := q.headD (0, 0)
  ((s.set (CAM_RAISE.DEPTH e) q.length).set (CAM_RAISE.CODE e) code).set (CAM_RAISE.TASK e) task

/-- `RAISE` (R232). -/
def execRaise (i : Issue) (code : BitVec 8) (s : State) : Host.Outcome State Fault Refusal :=
  issue i (raiseWord code) s fun s t x =>
    let e := i.eng.val
    let g := s.engine e
    if g.raiseQ.length < 8 then
      (showRaise (s.setEngine e { g with raiseQ := g.raiseQ ++ [(code.toNat, t)] }) e).setTask e t
        { x with z := true }
    else
      raise ((s.addSat (CAM_RAISE.LOST e) 1).setTask e t { x with z := false }) (camEv e 5 .warning x.ipc t)

/-- `RAISE_POP` (R232): the head entry leaves the raise queue, where the engine's unit is served (R24, R304). -/
def execRaisePop (e : Fin 4) (s : State) : Host.Outcome State Fault Refusal :=
  let g := s.engine e
  .next (if vsysRuns s then showRaise (s.setEngine e { g with raiseQ := g.raiseQ.drop 1 }) e else s)

/-- A program record as its eight words (Table 13.3, type 2). -/
def programWords (seq e t code w time : Nat) : List Nat :=
  [2 * 2 ^ 30 + e * 2 ^ 26 + t * 2 ^ 22 + code, seq % 2 ^ 32] ++ timeWords time ++ [w, 0, 0, 0]

/-- `LOG` (R232). -/
def execLog (i : Issue) (code : BitVec 8) (ws : Fin 16) (s : State) : Host.Outcome State Fault Refusal :=
  issue i (logWord code ws) s fun s t x =>
    logWrite s fun seq => programWords seq i.eng t code.toNat (x.reg ws) s.stamp

/-- A snapshot request with its trigger code (R341): SNAP_MISSED is raised where it is missed (R342). -/
def snapRequest (s : State) (trig code : Nat) : State :=
  let (missed, s1) := snapTrigger s trig code false
  if missed then raise s1 snapMissedEv else s1

/-- `SNAP` (R232): a snapshot request as the host command's, with TRIG 1. -/
def execSnap (i : Issue) (code : BitVec 8) (s : State) : Host.Outcome State Fault Refusal :=
  issue i (snapWord code) s fun s _ _ => snapRequest s 1 code.toNat

end Sys2Proof.Machine
end

