-- ==== Sys2Proof/Machine/OpMark.lean ====
section
/-! DEFINITION. FLT_OPMARK (R394): the multi-step operations under way, of which the one with the highest code
is shown. Codes: 1 OTP commit, 2 power-down sequence, 3 shutdown self-test, 4 joined to the Meing ring, 5 image
load. -/

namespace Sys2Proof.Machine

/-- FLT_OPMARK shows the operation with the highest code; 0 where none runs. -/
def opShow (s : State) : State :=
  match s.sys.ops.getLast? with
  | none => (s.set FLT_OPMARK.OP 0).set FLT_OPMARK.DETAIL 0
  | some (c, d) => (s.set FLT_OPMARK.OP c).set FLT_OPMARK.DETAIL (d - 1)

/-- Operation `code` starts, or reaches its unit `detail`. -/
def opMark (s : State) (code detail : Nat) : State :=
  opShow { s with sys := { s.sys with ops := NMap.put 0 s.sys.ops code (detail % 2 ^ 24 + 1) } }

/-- Operation `code` ends. -/
def opEnd (s : State) (code : Nat) : State :=
  opShow { s with sys := { s.sys with ops := NMap.put 0 s.sys.ops code 0 } }

/-- Operation `code` runs. -/
def opRuns (s : State) (code : Nat) : Bool := decide (NMap.get 0 s.sys.ops code ≠ 0)

/-- The unit that operation `code`, which runs, has reached. -/
def opUnit (s : State) (code : Nat) : Nat := NMap.get 0 s.sys.ops code - 1

end Sys2Proof.Machine
end

