-- ==== Sys2Proof/Machine/Slots.lean ====
section
/-! DEFINITION. The command slots of the host command interface (R423) and the two-wire controller port's next
transfer (R467, R469), which other chapters' commands touch. -/

namespace Sys2Proof.Machine

/-- Command slot `i`. -/
def State.slot (s : State) (i : Nat) : Slot := NMap.get {} s.hci.slots i
def State.setSlot (s : State) (i : Nat) (x : Slot) : State :=
  { s with hci := { s.hci with slots := NMap.put {} s.hci.slots i x } }

/-- The command in slot `i` is INFLIGHT and has not ended. -/
def executing (s : State) (i : Nat) : Bool :=
  decide ((s.slot i).st = .inflight) && (s.slot i).outcome.isNone


/-- Where descriptor `i` lies (Table 15.4). -/
def descAddr (i : Nat) : Nat := 0x010000 + 32 * i

/-- CTL, TAG and ARGj of the descriptor in slot `i` (Table 15.6). -/
def slotCtl (s : State) (i : Nat) : Nat := s.word (descAddr i)
def slotTag (s : State) (i : Nat) : Nat := s.word (descAddr i + 4)
def slotArg (s : State) (i j : Nat) : Nat := s.word (descAddr i + 8 + 4 * j)

/-- OPCODE of the descriptor in slot `i`. -/
def slotOp (s : State) (i : Nat) : Nat := slotCtl s i / 2 ^ 24

/-- The operation of FLT_OPMARK that a command with opcode `op` is (R394): 1 an OTP_COMMIT, 5 an IMG_LOAD; 0 for the
other commands. -/
def markOf (op : Nat) : Nat := if op = 0x51 then 1 else if op = 0x10 then 5 else 0

/-- Phase 6 has come to the load of the boot image (R309). -/
def bootLoads (s : State) : Bool := decide (phaseNow s = 6) && decide (s.sys.brought = 5)

/-- A command with opcode `op` executes. -/
def executes (s : State) (op : Nat) : Bool := (List.range 256).any fun j => executing s j && decide (slotOp s j = op)

/-- A command with opcode `op` has ended: the operation that it was ends with the last such command, an image load
with that of the boot image too (R394). -/
def endMark (s : State) (op : Nat) : State :=
  let m := markOf op
  if m = 0 || executes s op || (decide (m = 5) && bootLoads s) then s else opEnd s m

/-- Phase 6 is left, and with it the load of the boot image (R394). -/
def endBootLoad (s : State) : State := if bootLoads s && !executes s 0x10 then opEnd s 5 else s

/-- The command in slot `i` ends with outcome `c`; its completion is written later (R431). -/
def endCommand (s : State) (i : Nat) (c : Completion) : State :=
  if executing s i then endMark (s.setSlot i { s.slot i with outcome := some c }) (slotOp s i) else s

/-- The command in slot `i` is REFUSED with `reason` of table `space` (R430). -/
def refuseCommand (s : State) (i space reason : Nat) (r0 : Nat := 0) : State :=
  endCommand s i { status := 1, space, reason, r0 }

/-- The command in slot `i` has passed its commit point (R436). -/
def commitSlot (s : State) (i : Nat) : State := s.setSlot i { s.slot i with committed := true }

/-- Bytes are written to the data area at offset `off`. -/
def writeData (s : State) (off : Nat) (bs : List Byte) : State := s.setBytes (0x013000 + off) bs

/-- Queue memory is written to 0, every slot is FREE, head and tail are 0, and nothing is signalled (R441, R442,
Table 15.5). -/
def hciClear (s : State) : State :=
  let s1 := s.clearMem 0x010000 0x014000
  let s2 : State := { s1 with hci := { spiErr := s.hci.spiErr, spiOut := s.hci.spiOut } }
  ((s2.set HCI_CQ_HEAD.HEAD 0).set HCI_CQ_TAIL.TAIL 0).set HCI_EVT.SIGNAL 0

/-- `s` with the controller port's state `x`. -/
def State.setTwc (s : State) (x : Twc) : State := { s with twc := x }

/-- The controller port is enabled and does not drain. -/
def twcRuns (s : State) : Bool := s.on TWC_CTRL.EN && decide (s.get TWC_STATUS.STATE ≠ 5)

/-- The port's STATE becomes `st`, or stays RECOVER until its bus is recovered (R465). -/
def twcEnter (s : State) (st : Nat) : State :=
  if s.get TWC_STATUS.STATE = 4 then s else s.set TWC_STATUS.STATE st

/-- The `n` bytes of the transfer buffer from byte 0. -/
def dataBytes (s : State) (n : Nat) : List Byte :=
  ((List.range 8).flatMap fun j => leBytes 4 (s.get (TWC_DATA.DATA j))).take n

/-- The bytes that a transfer to address `a` sends, which writes `ws` and reads `r` bytes (R467): with nothing to
write it starts at the address with read. -/
def xferBytes (a : Nat) (ws : List Byte) (r : Nat) : List Byte :=
  (if ws.isEmpty then [] else BitVec.ofNat 8 (2 * a) :: ws) ++ (if r = 0 then [] else [BitVec.ofNat 8 (2 * a + 1)])

/-- Transfer `x` begins with its bytes `bs`, once the bus is free (R465, R468). -/
def twcStart (s : State) (x : Xfer) (bs : List Byte) : State :=
  twcEnter ((s.setTwc { s.twc with cur := some x, tries := 0, sent := bs }).set TWC_RES.TRIES 0)
    (if s.twc.busy then 2 else 3)

/-- The next transfer starts where none is under way: the host's that waits, or the next entry of the pass
(R467, R469). (DEDUCED, log entry 115) -/
def twcNext (s : State) : State :=
  if s.twc.cur.isSome || !twcRuns s then s
  else if s.twc.waiting then
    twcStart (s.setTwc { s.twc with waiting := false }) .host
      (xferBytes s.twc.addr (dataBytes s s.twc.len.1) s.twc.len.2)
  else
    match s.twc.pass with
    | k :: rest =>
      let n := s.get (TWC_POLL.LEN k) + 1
      twcStart (s.setTwc { s.twc with pass := rest, pollLen := n }) (.poll k)
        (xferBytes (s.get (TWC_POLL.ADDR k)) [BitVec.ofNat 8 (s.get (TWC_POLL.CMD k))] n)
    | [] => twcEnter s 1

/-- A poll pass runs. -/
def passRuns (s : State) : Bool :=
  !s.twc.pass.isEmpty || (match s.twc.cur with | some (.poll _) => true | _ => false)

/-- The poll pass of a housekeeping round (R469). -/
def startPass (s : State) : State :=
  if twcRuns s && s.on TWC_CTRL.POLL_EN && !passRuns s then
    let off := (List.range 8).filter fun k => !s.on (TWC_POLL.EN k)
    let s1 := State.each off (fun s k => s.set (TWC_PSTAT.STATUS k) 0xF) s
    twcNext (s1.setTwc { s1.twc with pass := (List.range 8).filter fun k => s.on (TWC_POLL.EN k) })
  else s

end Sys2Proof.Machine
end

