-- ==== Sys2Proof/Machine/Codes.lean ====
section
/-! DEFINITION. The codes that the spec names in full: CRC-8 (R420, R461), CRC-32 (R439), the check code of
OTP and SRAM words (R476), and SHA-256 (R246, R344, R482). -/

namespace Sys2Proof.Machine

/-! ### CRC -/

/-- One bit of a CRC of width `w` with generator `g` (its low bits), most significant bit first. -/
def crcBit (w g : Nat) (c : Nat) (b : Nat) : Nat :=
  let top := (bitOf c (w - 1) + b) % 2
  if top = 1 then (c * 2 % 2 ^ w) ^^^ g else c * 2 % 2 ^ w

/-- The bits of a byte, most significant first. -/
def bitsMsb (x : Byte) : List Nat := (List.range 8).map fun i => bitOf x.toNat (7 - i)

/-- The bits of a byte, least significant first. -/
def bitsLsb (x : Byte) : List Nat := (List.range 8).map fun i => bitOf x.toNat i

/-- CRC-8 with the generator x⁸ + x² + x + 1 and initial value 0 (R420). -/
def crc8 (bs : List Byte) : Nat := (bs.flatMap bitsMsb).foldl (crcBit 8 0x07) 0

/-- `x`'s low `w` bits in reverse order. -/
def reverseBits (w x : Nat) : Nat := (List.range w).foldl (fun r i => r * 2 + bitOf x i) 0

/-- CRC-32 of IEEE 802.3 (R439): bits enter least significant first, initial value and final inversion all
ones, the result reflected. -/
def crc32 (bs : List Byte) : Nat :=
  reverseBits 32 ((bs.flatMap bitsLsb).foldl (crcBit 32 0x04C11DB7) (2 ^ 32 - 1)) ^^^ (2 ^ 32 - 1)

/-! ### The check code -/

/-- G(x) of R476. -/
def checkPoly : Nat := 0x3B1A5

/-- r · x modulo G(x). -/
def timesX (r : Nat) : Nat := if 2 ^ 16 ≤ r then (r * 2) ^^^ checkPoly else r * 2

/-- x^0, x^1, … x^(n-1) modulo G(x), from `r`. -/
def powersX : Nat → Nat → List Nat
  | 0, _ => []
  | n + 1, r => r :: powersX n (timesX r)

/-- The remainder of the codeword `c` of 145 bits. -/
def syndrome (c : Nat) : Nat :=
  ((powersX 145 1).zipIdx.foldl (fun a pi => if bitOf c pi.2 = 1 then a ^^^ pi.1 else a) 0)

/-- The check bits of 128 data bits. -/
def checkBits (d : Nat) : Nat := syndrome (d * 2 ^ 17)

/-- The codeword of 128 data bits. -/
def codeword (d : Nat) : Nat := d * 2 ^ 17 + checkBits d

/-- The bit positions of the one or two errors that give syndrome `y`; none where no such pattern does. -/
def errorsOf (y : Nat) : Option (List Nat) :=
  let ps := (powersX 145 1).zipIdx
  match ps.find? fun p => p.1 = y with
  | some p => some [p.2]
  | none =>
    (ps.findSome? fun p => (ps.find? fun q => decide (p.2 < q.2) && decide (p.1 ^^^ q.1 = y)).map fun q => [p.2, q.2])

/-- The decoder of R476: the data of the codeword within two bit errors of `c`, with the number of errors;
none where `c` is uncorrectable. -/
def decodeWord (c : Nat) : Option (Nat × Nat) :=
  let y := syndrome c
  if y = 0 then some (c / 2 ^ 17 % 2 ^ 128, 0)
  else
    (errorsOf y).map fun es => ((es.foldl (fun a i => a ^^^ 2 ^ i) c) / 2 ^ 17 % 2 ^ 128, es.length)

/-! ### SHA-256

A block is hashed by two recurrences. One sequence's last four values are the working variables a to d and the other's
are e to h; each of the 64 steps adds one value to both, and drops the oldest. The constants are the fractions of the
roots of primes, computed here. -/

/-- The greatest `x` below 2 ^ bits with xᵏ ≤ `v`, found bit by bit from the top; `x` is what is found so far. -/
def rootBits (k v : Nat) : Nat → Nat → Nat
  | 0, x => x
  | bits + 1, x => rootBits k v bits (if (x + 2 ^ bits) ^ k ≤ v then x + 2 ^ bits else x)

/-- The first 32 fraction bits of the k-th root of `p`. -/
def rootFraction (k p : Nat) : Word := BitVec.ofNat 32 (rootBits k (p * 2 ^ (32 * k)) 40 0)

/-- The primes below 312: the first 64. -/
def primes64 : List Nat := (List.range 312).filter fun n => decide (2 ≤ n) && (List.range 18).all fun d =>
  decide (d < 2) || decide (n % d ≠ 0) || decide (n = d)

/-- The exclusive or of three rotations to the right, or, where `cut` says so, of two and a shift. -/
def mixWord (r1 r2 r3 : Nat) (cut : Bool) (x : Word) : Word :=
  x.rotateRight r1 ^^^ (x.rotateRight r2 ^^^ (if cut then x >>> r3 else x.rotateRight r3))

/-- The next word of the message schedule after the window `w` of its last 16, oldest first. -/
def nextScheduled (w : List Word) : Word :=
  let wAt (i : Nat) : Word := w.getD i 0
  wAt 0 + wAt 9 + (mixWord 7 18 3 true (wAt 1) + mixWord 17 19 10 true (wAt 14))

/-- The two sequences after one step with the sum `kw` of round constant and scheduled word; newest values first. -/
def hashStep (ae : List Word × List Word) (kw : Word) : List Word × List Word :=
  let a (i : Nat) : Word := ae.1.getD i 0
  let e (i : Nat) : Word := ae.2.getD i 0
  let choose := (e 0 &&& (e 1 ^^^ e 2)) ^^^ e 2
  let vote := (a 0 &&& (a 1 ||| a 2)) ||| (a 1 &&& a 2)
  let t := kw + e 3 + choose + mixWord 6 11 25 false (e 0)
  ((t + vote + mixWord 2 13 22 false (a 0)) :: ae.1.take 3, (t + a 3) :: ae.2.take 3)

/-- The steps for the round constants `ks`, with the window `w` of the message schedule. -/
def hashSteps : List Word → List Word → List Word × List Word → List Word × List Word
  | [], _, ae => ae
  | k :: ks, w, ae => hashSteps ks (w.drop 1 ++ [nextScheduled w]) (hashStep ae (k + w.headD 0))

/-- The hash value `h` after a block of 64 bytes. -/
def hashBlock (h : List Word) (block : List Byte) : List Word :=
  let w := (List.range 16).map fun i => BitVec.ofNat 32 (beNat ((block.drop (4 * i)).take 4))
  let ae := hashSteps (primes64.map (rootFraction 3)) w (h.take 4, h.drop 4)
  (h.zip (ae.1 ++ ae.2)).map fun x => x.1 + x.2

/-- A message with its padding: a one bit, zeros up to 8 bytes short of a block's end, and its length in bits. -/
def paddedMessage (bs : List Byte) : List Byte :=
  bs ++ 0x80#8 :: (List.replicate ((55 + 64 - bs.length % 64) % 64) 0#8 ++ beBytes 8 (8 * bs.length))

/-- The SHA-256 hash of a message, as 32 bytes. (PRESUMED, log entry 91) -/
def sha256 (bs : List Byte) : List Byte :=
  let m := paddedMessage bs
  let h := (List.range (m.length / 64)).foldl (fun h i => hashBlock h ((m.drop (64 * i)).take 64))
    ((primes64.take 8).map (rootFraction 2))
  h.flatMap fun w => beBytes 4 w.toNat

end Sys2Proof.Machine
end

