-- ==== Sys2Proof/Machine/OtpWords.lean ====
section
/-! DEFINITION. What the OTP fuses read as (R474 to R489): physical words, regions and their chains, seals, region
states and locks. -/

namespace Sys2Proof.Machine

/-- Physical words, capacity and spares of the 24 regions (Table 17.2). -/
def regionSizes : List (Nat × Nat × Nat) :=
  [(32, 24, 7), (32, 24, 7), (8, 2, 5), (48, 45, 2), (8, 4, 3), (8, 4, 3), (8, 4, 3), (8, 4, 3), (8, 3, 4),
   (128, 120, 7), (224, 208, 15), (224, 208, 15), (624, 600, 23)] ++ List.replicate 11 (16, 12, 3)

/-- The physical size, capacity and spares of region `r`. -/
def regionSize (r : Nat) : Nat × Nat × Nat := regionSizes.getD r (0, 0, 0)

/-- The lowest physical word of region `r`. -/
def regionBase (r : Nat) : Nat := ((regionSizes.take r).map Prod.fst).foldl (· + ·) 0

/-- The physical words of region `r`, ascending. -/
def regionWords (r : Nat) : List Nat := (List.range (regionSize r).1).map (regionBase r + ·)

/-- The region that holds physical word `p`. -/
def regionOf (p : Nat) : Option Nat :=
  (List.range 24).find? fun r => decide (regionBase r ≤ p) && decide (p < regionBase r + (regionSize r).1)

/-- At least two of three fuses read 1. -/
def majority (x : Nat) : Bool := decide (2 ≤ popCount 3 x)

/-- The three VOID fuses of a physical word. -/
def voidFuses : Nat := 7 * 2 ^ 145

/-- The fuses of physical word `p` at normal margin. -/
def fusesOf (o : Otp) (p : Nat) : Nat := NMap.get 0 o.fuses p

/-- Physical word `p` is voided, or counts as void for this start-up (R474, R492). -/
def voided (o : Otp) (p : Nat) : Bool := majority (fusesOf o p / 2 ^ 145) || o.pendingVoids.contains p

/-- Physical word `p` is blank (R475, R494). -/
def blank (o : Otp) (p : Nat) : Bool := decide (fusesOf o p = 0) && !o.torn.contains p

/-- The corrected data of physical word `p`; none where it is uncorrectable (R476, R479), as an interrupted program
operation leaves it (R494). -/
def wordData (o : Otp) (p : Nat) : Option Nat :=
  if o.torn.contains p then none
  else if blank o p then some 0 else (decodeWord (fusesOf o p % 2 ^ 145)).map Prod.fst

/-- Physical word `p` is weak: strict margin reads some blown fuse as 0 (R478). -/
def isWeak (o : Otp) (p : Nat) : Bool := decide (NMap.get 0 o.weak p &&& fusesOf o p ≠ 0)

/-- The voided words of region `r`. -/
def voidCount (o : Otp) (r : Nat) : Nat := ((regionWords r).filter (voided o)).length

/-- The spares that region `r` has left. -/
def sparesLeft (o : Otp) (r : Nat) : Nat := (regionSize r).2.2 - voidCount o r

/-- The usable capacity of region `r` (R481). -/
def usableCapacity (o : Otp) (r : Nat) : Nat := min (regionSize r).2.1 ((regionSize r).1 - 1 - voidCount o r)

/-- The words of region `r` that are not voided, ascending; the last one is the seal position. -/
def liveWords (o : Otp) (r : Nat) : List Nat := (regionWords r).filter fun p => !voided o p

/-- The seal position of region `r`. -/
def sealPosition (o : Otp) (r : Nat) : Option Nat := (liveWords o r).getLast?

/-- The chain of region `r`: the physical words of its logical words, in order (R481). -/
def chain (o : Otp) (r : Nat) : List Nat := (liveWords o r).dropLast.take (usableCapacity o r)

/-- Leading blank words of a chain, reversed, are dropped. -/
def dropBlank (o : Otp) : List Nat → List Nat
  | [] => []
  | p :: ps => if blank o p then dropBlank o ps else p :: ps

/-- The physical words of the written run of region `r` (R481). -/
def writtenRun (o : Otp) (r : Nat) : List Nat := (dropBlank o (chain o r).reverse).reverse

/-- The length of the written run. -/
def writtenLen (o : Otp) (r : Nat) : Nat := (writtenRun o r).length

/-- Data of a list of words, where every one decodes. -/
def dataOf (o : Otp) : List Nat → Option (List Nat)
  | [] => some []
  | p :: ps =>
    match wordData o p, dataOf o ps with
    | some d, some ds => some (d :: ds)
    | _, _ => none

/-- The bytes that a seal's hash covers (R482). -/
def sealMessage (r : Nat) (data : List Nat) : List Byte :=
  leBytes 1 r ++ leBytes 2 data.length ++ data.flatMap (leBytes 16)

/-- DIGEST of a seal over `data` of region `r`: the first 12 bytes, byte 0 lowest. -/
def sealDigest (r : Nat) (data : List Nat) : Nat := leNat ((sha256 (sealMessage r data)).take 12)

/-- The data of the seal word over `data` of region `r` (Table 17.3). -/
def sealWord (r : Nat) (data : List Nat) : Nat :=
  0xA7 * 2 ^ 120 + data.length * 2 ^ 109 + r * 2 ^ 104 + 1 * 2 ^ 96 + sealDigest r data

/-- The committed length of region `r`: LENGTH of its seal where the seal verifies, else 0 (R482). -/
def committedLen (o : Otp) (r : Nat) : Nat :=
  match sealPosition o r with
  | none => 0
  | some p =>
    match wordData o p with
    | none => 0
    | some w =>
      let len := bitsOf w 109 11
      if bitsOf w 120 8 = 0xA7 ∧ bitsOf w 104 5 = r ∧ bitsOf w 96 8 = 1 ∧ 1 ≤ len ∧ len ≤ writtenLen o r then
        match dataOf o ((chain o r).take len) with
        | some ds => if bitsOf w 0 96 = sealDigest r ds then len else 0
        | none => 0
      else 0

/-- A lock is blown: two of its three fuses read 1 (R486, R487). -/
def lockBlown (o : Otp) (k : Nat) : Bool := majority (NMap.get 0 o.locks k)

/-- The write-lock and the read-lock of region `r`. -/
def writeLocked (o : Otp) (r : Nat) : Bool := lockBlown o r
def readLocked (o : Otp) (r : Nat) : Bool := lockBlown o (24 + r)

/-- An uncorrectable word of region `r` that R485 voids: the seal position, or the highest written data word of a
region without a verifying seal, in a region whose write-lock is not blown. -/
def voidable (o : Otp) (r p : Nat) : Bool :=
  !writeLocked o r &&
    (decide (sealPosition o r = some p) ||
      (decide ((writtenRun o r).getLast? = some p) && decide (committedLen o r = 0)))

/-- The uncorrectable words of region `r` that are not voided. -/
def badWords (o : Otp) (r : Nat) : List Nat := (liveWords o r).filter fun p => (wordData o p).isNone

/-- The state of region `r` (Table 17.4); `dead` says that self-test marked OTP unusable. -/
def regionState (o : Otp) (r : Nat) (dead : Bool) : Nat :=
  if dead || (badWords o r).any (fun p => !voidable o r p) then 5
  else if 0 < committedLen o r then (if writeLocked o r then 3 else 2)
  else if writeLocked o r then 4
  else if writtenLen o r = 0 ∧ ((sealPosition o r).all fun p => blank o p) then 0
  else 1

/-- The content of region `r`: the committed logical words where the region is used (R483). -/
def regionContent (o : Otp) (r : Nat) : List Nat := (dataOf o ((chain o r).take (committedLen o r))).getD []

/-- The content of region `r` as bytes, each word's data bits [7:0] first. -/
def regionBytes (o : Otp) (r : Nat) : List Byte := (regionContent o r).flatMap (leBytes 16)

/-- The keys of the locks (Table 17.5). -/
def authreqLock : Nat := 48
def testDisLock : Nat := 49
def reburnLock : Nat := 50
def verifyLock : Nat := 51

/-- The locks that ARG0[8] and ARG0[9] of an OTP_COMMIT of region `r` blow: WL and RL, or with region 0x1F AUTHREQ and
TEST_DIS (R495, R497). -/
def jobLocks (r : Nat) : Nat × Nat := if r = 0x1F then (authreqLock, testDisLock) else (r, 24 + r)

/-! ### Program operations -/

/-- The fuses of a word in the order of their pulses (R491): data ascending, the check fuses last; void fuses apart. -/
def pulseOrder : List Nat := (List.range 128).map (17 + ·) ++ List.range 17 ++ [145, 146, 147]

/-- The fuses of `target` that the first `n` pulses reach. -/
def pulsed (target n : Nat) : Nat :=
  ((pulseOrder.filter fun i => decide (bitOf target i = 1)).take n).foldl setBitNat 0

/-- The three fuses of lock `l`, blown one at a time (R487). -/
def lockFuses (l : Nat) : List (Nat × Nat) := [(l, 0), (l, 1), (l, 2)]

/-- Lock fuses are blown in their order (R487). -/
def blowFuses (o : Otp) : List (Nat × Nat) → Otp
  | [] => o
  | (l, f) :: fs => blowFuses { o with locks := NMap.put 0 o.locks l (NMap.get 0 o.locks l ||| 2 ^ f) } fs

/-- The lock fuses that an OTP_COMMIT blows: those of WL, then those of RL (R495). -/
def jobFuses (j : OtpJob) : List (Nat × Nat) :=
  (if j.lockW then lockFuses (jobLocks j.region).1 else []) ++ (if j.lockR then lockFuses (jobLocks j.region).2 else [])

/-- The physical word that a program operation works on. -/
def opWord (o : Otp) : ProgOp → Option Nat
  | .word _ p _ => some p
  | .chain r i _ => (chain o r)[i]?
  | .seal r _ => sealPosition o r
  | .void _ p => some p
  | .locks _ => none

/-- The fuses of that word that the operation blows. -/
def opFuses : ProgOp → Nat
  | .word _ _ m => m
  | .chain _ _ m => m
  | .seal _ m => m
  | .void .. => voidFuses
  | .locks _ => 0

/-- The program operation under way: the word or the locks of an OTP_COMMIT, or the raw operation's next one. -/
def opUnderWay (o : Otp) : Option ProgOp :=
  match o.job with
  | some j => some (if j.locking then .locks (jobFuses j) else .word j.region j.phys j.target)
  | none => o.raw.head?

/-- The operation is a void, of which the fuses read decide (R494). -/
def isVoid : ProgOp → Bool
  | .void .. => true
  | _ => false

/-- A program operation that is cut after `n` pulses (R494): a void or a lock reads as its fuses then do, and a
word is left neither blank nor valid, with the fuses among `weak` blown weakly. -/
def cutOp (o : Otp) (n weak : Nat) (op : ProgOp) : Otp :=
  match op with
  | .locks fs => blowFuses o (fs.take n)
  | _ =>
    match opWord o op with
    | none => o
    | some p =>
      let new := pulsed (opFuses op) n
      let o1 := { o with fuses := NMap.put 0 o.fuses p (fusesOf o p ||| new) }
      if isVoid op then o1
      else { o1 with torn := p :: o.torn, weak := NMap.put 0 o.weak p (NMap.get 0 o.weak p ||| (new &&& weak)) }

/-- The reset values of OTP_CFG, which are locks (Table 17.10). -/
def otpCfgReset (s : State) : State :=
  (s.set OTP_CFG.VERIFY (if lockBlown s.otp verifyLock then 1 else 0)).set OTP_CFG.REBURN
    (if lockBlown s.otp reburnLock then 1 else 0)

end Sys2Proof.Machine
end

