-- ==== Sys2Proof/Machine/Trend.lean ====
section
/-! DEFINITION. The arithmetic of the wear predictions: medians, histories, the least-squares line, the
rainflow count and the damage of a cycle (R348, R355, R357). -/

namespace Sys2Proof.Machine

/-- Insert `a` into a rising list. -/
def insertInt (a : Int) : List Int → List Int
  | [] => [a]
  | b :: l => if a ≤ b then a :: b :: l else b :: insertInt a l

/-- A list in rising order. -/
def sortInt : List Int → List Int
  | [] => []
  | a :: l => insertInt a (sortInt l)

/-- Twice the median of `l`: of an even number of values, the mean of the two middle ones (R361). -/
def medianX2 (l : List Int) : Int :=
  let r := sortInt l
  let n := r.length
  if n % 2 = 1 then 2 * r.getD (n / 2) 0 else r.getD (n / 2 - 1) 0 + r.getD (n / 2) 0

/-- Every second point is removed (R348). -/
def everySecond : List (Nat × Int) → List (Nat × Int)
  | [] => []
  | [a] => [a]
  | a :: _ :: l => a :: everySecond l

/-- The median of the wear day `day` enters the history (R348), where the day is one of those at which
points are taken. -/
def Trend.endDay (t : Trend) (day : Nat) : Trend :=
  if t.today.isEmpty then t
  else
    let m := medianX2 t.today
    let first := if t.first.length < 8 then t.first ++ [m] else t.first
    let d0 := (t.points.head?.map Prod.fst).getD day
    if (day - d0) % t.stride ≠ 0 then { t with today := [], first }
    else
      let full := decide (64 ≤ t.points.length)
      let kept := if full then everySecond t.points else t.points
      { points := kept ++ [(day, m)], stride := if full then t.stride * 2 else t.stride, today := [], first }

/-- A prediction (R347): DAYS, NPTS, LIMQ and BASIS, and the wear day of the crossing that it rests on, as a fraction
with a positive denominator. -/
structure Eol where
  days : Nat := 0xFFFF
  npts : Nat := 0
  limq : Nat := 0
  basis : Nat := 0
  cross : Option (Int × Int) := none
  deriving DecidableEq, Repr

/-- The crossing of `a` comes before that of `b` (R348): a limit that has been reached before one that has not, and a
crossing before none. -/
def Eol.before (a b : Eol) : Bool :=
  if b.basis = 6 then false
  else if a.basis = 6 then true
  else match a.cross, b.cross with
    | some x, some y => decide (x.1 * y.2 < y.1 * x.2)
    | some _, none => true
    | none, _ => false

/-- DAYS of a crossing `d` days ahead: 0xFFFF beyond 65 534 (R348). -/
def daysAhead (d : Int) : Nat := if 65534 < d.toNat then 0xFFFF else d.toNat

/-- The least-squares line through points: n, the sum of x, and the two numbers B and D with slope B / D. -/
def fitLine (pts : List (Int × Int)) : Int × Int × Int × Int × Int :=
  let n : Int := pts.length
  let sx := (pts.map fun p => p.1).foldl (· + ·) 0
  let sy := (pts.map fun p => p.2).foldl (· + ·) 0
  let sxx := (pts.map fun p => p.1 * p.1).foldl (· + ·) 0
  let sxy := (pts.map fun p => p.1 * p.2).foldl (· + ·) 0
  (n, sx, sy, n * sxy - sx * sy, n * sxx - sx * sx)

/-- The points within the last 365 wear days. (DESIGN CHOICE, log entry 73) -/
def recent (pts : List (Nat × Int)) (today : Nat) : List (Nat × Int) :=
  pts.filter fun p => decide (today < p.1 + 365)

/-- Fewer than 16 points, or points spanning less than 30 days. -/
def insufficient (pts : List (Nat × Int)) : Bool :=
  decide (pts.length < 16) ||
    decide ((pts.getLast?.map Prod.fst).getD 0 < (pts.head?.map Prod.fst).getD 0 + 30)

/-- The prediction of a line (R348) against `lim`, twice the indicator's limit as a fraction; `rising` where the
indicator rises toward it. -/
def predictLine (hist : List (Nat × Int)) (today : Nat) (lim : Int × Nat) (rising : Bool) : Eol :=
  let pts := recent hist today
  let npts := pts.length
  let now := (pts.getLast?.map Prod.snd).getD 0 * lim.2
  if insufficient pts then { npts, basis := 1 }
  else if (if rising then decide (lim.1 ≤ now) else decide (now ≤ lim.1)) then { days := 0, npts, basis := 6 }
  else
    let (n, sx, sy, b, d) := fitLine (pts.map fun p => ((p.1 : Int), p.2))
    if b = 0 ∨ (rising && decide (b < 0)) ∨ (!rising && decide (0 < b)) then { npts, basis := 5 }
    else
      let num := lim.1 * n * d - (sy * d - b * sx) * lim.2
      let den := n * b * lim.2
      let cross : Int × Int := if 0 < b then (num, den) else (-num, -den)
      { days := daysAhead (max 0 (cross.1.fdiv cross.2 - today)), npts, basis := 2, cross := some cross }

/-! ### Logarithms -/

/-- The next `k` binary digits of a logarithm to base 2, after those in `acc`: the mantissa `m`, which stands for
m / 2⁶³ from 1 up to 2, is squared for each. -/
def logDigits : Nat → Nat → Nat → Nat
  | 0, _, acc => acc
  | k + 1, m, acc =>
    let q := m * m / 2 ^ 63
    if 2 ^ 64 ≤ q then logDigits k (q / 2) (2 * acc + 1) else logDigits k q (2 * acc)

/-- The logarithm of `n` to base 2 in 2⁻⁴⁰, rounded down; free for 0. (DESIGN CHOICE, log entry 74) -/
def logOf (n : Nat) : Int :=
  if n = 0 then Config.logOfZero
  else ((Nat.log2 n * 2 ^ 40 + logDigits 40 (n * 2 ^ 63 / 2 ^ Nat.log2 n) 0 : Nat) : Int)

/-- The natural logarithm of 2 in 2⁻⁴⁰. -/
def ln2 : Int := 762123384786

/-- The wear day on which the fit of log(value) against log(day) reaches `lim` (R357): the last day of the
range on which the fit has not passed it. -/
def powerDay (n sx sy b d : Int) (lim : Nat) (today : Nat) : Nat :=
  let under (x : Nat) : Bool := decide (b * (n * logOf x - sx) ≤ d * (n * logOf lim - sy))
  (((List.range (today + 65536)).reverse.find? under).getD 0)

/-- The prediction of the power law (R357); `lim` and the points are twice the values in ppm.
(DESIGN CHOICE, log entry 74) -/
def predictPower (hist : List (Nat × Int)) (today lim : Nat) : Eol :=
  let pts := recent hist today
  let npts := pts.length
  let now := (pts.getLast?.map Prod.snd).getD 0
  if insufficient pts then { npts, basis := 1 }
  else if (lim : Int) ≤ now then { days := 0, npts, basis := 6 }
  else
    let (n, sx, sy, b, d) := fitLine (pts.map fun p => (logOf p.1, logOf p.2.toNat))
    if b ≤ 0 ∨ d ≤ 0 then { npts, basis := 5 }
    else { days := daysAhead ((powerDay n sx sy b d lim today : Int) - today), npts, basis := 4 }

/-- The square root of `n`, rounded down, found bit by bit below 2 ^ `k`. -/
def isqrt : Nat → Nat → Nat → Nat
  | 0, _, r => r
  | k + 1, n, r => if (r + 2 ^ k) * (r + 2 ^ k) ≤ n then isqrt k n (r + 2 ^ k) else isqrt k n r

/-- The square root of `n`, rounded down. -/
def sqrtFloor (n : Nat) : Nat := isqrt (Nat.log2 n / 2 + 1) n 0

/-- The sixteenth root of `n`, rounded down. -/
def root16 (n : Nat) : Nat := sqrtFloor (sqrtFloor (sqrtFloor (sqrtFloor n)))

/-- (ΔT / DTREF)^EXP / NREF in 10⁻¹² (R355), rounded down: `dt` in 0.1 °C, EXP in 1/16, NREF in thousands. -/
def cycleDamage (dt dtref exp nref : Nat) : Nat :=
  root16 (dt ^ exp * (10 ^ 9) ^ 16 / ((10 * dtref) ^ exp * nref ^ 16))

/-- The reading `x` enters the turning points `l`, newest first. -/
def addTurn (l : List Int) (x : Int) : List Int :=
  match l with
  | a :: b :: r => if (b ≤ a ∧ a ≤ x) ∨ (x ≤ a ∧ a ≤ b) then x :: b :: r else x :: a :: b :: r
  | [a] => if a = x then [a] else [x, a]
  | [] => [x]

/-- The rainflow count (R355): the swings of the cycles that are closed, and the turning points left. A cycle
closes where the swing before the last one is no larger than both its neighbours. -/
def closeCycles : Nat → List Int → List Nat → List Nat × List Int
  | 0, l, acc => (acc, l)
  | n + 1, l, acc =>
    match l with
    | d :: c :: b :: a :: r =>
      let s1 := (d - c).natAbs
      let s2 := (c - b).natAbs
      let s3 := (b - a).natAbs
      if s2 ≤ s1 ∧ s2 ≤ s3 then closeCycles n (d :: a :: r) (s2 :: acc) else (acc, l)
    | _ => (acc, l)

end Sys2Proof.Machine
end

