-- ==== Sys2Proof/Machine/Wear.lean ====
section
/-! DEFINITION. The bank model and the wear indicators (R346 to R357): charge, state of charge and state of
health, histories, predictions and their registers. -/

namespace Sys2Proof.Machine


/-- WEAR_LIMIT (R347). -/
def wearLimit (s : State) : State := (raise s (adcEv 10 .warning)).setBit WEAR_EVT.EVT 1

/-- Indicator `i` is enabled (R350); a capacity of 0 disables the bank's (Table 11.17). -/
def wearOn (s : State) (i : Nat) : Bool :=
  s.hasBit WEAR_CTRL.IND_EN i && (decide (i ≠ 0) || decide (s.get WEAR_BANKCAP.CAP ≠ 0))

/-- `s` with the wear state `w`. -/
def State.setWear (s : State) (w : Wear) : State := { s with wear := w }

/-- Wear state is held (Table 11.16). -/
def notBlank (s : State) : State := s.set WEAR_STATUS.BLANK 0

/-- The history under key `k`: the indicator, or 16 + the indicator for a capacitance. -/
def trendOf (w : Wear) (k : Nat) : Trend := NMap.get {} w.trends k

/-- A measurement `v` enters the history under key `k` (R348). -/
def noteMeasure (s : State) (k : Nat) (v : Int) : State :=
  let t := trendOf s.wear k
  s.setWear { s.wear with trends := NMap.put {} s.wear.trends k { t with today := t.today ++ [v] } }

/-- A measurement `v` of the history under key `k` (R348), which is wear state. -/
def measure (s : State) (k : Nat) (v : Int) : State := notBlank (noteMeasure s k v)

/-! ### The bank -/

/-- Charge units of 10 mA × 10 ns in one mAh. -/
def unitsPerMah : Nat := 36000000000

/-- WEAR_BANKCAP × SOH in charge units, of a bank that is no supercapacitor stack. -/
def capacityUnits (s : State) : Nat := s.get WEAR_BANKCAP.CAP * s.wear.soh * unitsPerMah / 10000

/-- The bank is a supercapacitor stack (CHEM 2). -/
def isStack (s : State) : Bool := decide (s.get CHG_BANK.CHEM = 2)

/-- CELLS × VREG_CELL, in mV. -/
def bankReg (s : State) : Nat := s.get CHG_BANK.CELLS * s.get CHG_VREG.VREG_CELL

/-- The points of Table 11.18: state of charge in 0.01 %, cell voltage in mV. -/
def ocvTable (chem : Nat) : List (Nat × Nat) :=
  match chem with
  | 0 => [(0, 2950), (500, 3150), (1000, 3210), (2000, 3250), (3000, 3275), (4000, 3290), (5000, 3295),
      (6000, 3300), (7000, 3320), (8000, 3330), (9000, 3340), (9500, 3360), (10000, 3400)]
  | 1 => [(0, 1900), (500, 2080), (1000, 2140), (2000, 2190), (3000, 2220), (4000, 2245), (5000, 2265),
      (6000, 2285), (7000, 2310), (8000, 2340), (9000, 2400), (9500, 2450), (10000, 2550)]
  | _ => []

/-- Interpolation between the two points that enclose `bkb` mV over `cells` cells (R353): the state of charge
as a fraction of 0.01 %, and whether the segment is steep enough for a fix. -/
def interpolate (bkb cells : Nat) : List (Nat × Nat) → Option ((Nat × Nat) × Bool)
  | (s0, v0) :: (s1, v1) :: l =>
    if bkb < v0 * cells then some ((0, 1), false)
    else if bkb ≤ v1 * cells then
      some ((s0 * ((v1 - v0) * cells) + (bkb - v0 * cells) * (s1 - s0), (v1 - v0) * cells),
        decide (2 * (s1 - s0) ≤ (v1 - v0) * 100))
    else interpolate bkb cells ((s1, v1) :: l)
  | [_] => some ((10000, 1), false)
  | [] => none

/-- The state of charge that the open-circuit voltage `bkb` gives (R353), and whether it is a fix. -/
def ocvSoc (s : State) (bkb : Nat) : Option ((Nat × Nat) × Bool) :=
  if isStack s then
    let cut := bankCut s
    let reg := bankReg s
    if reg ≤ cut then none
    else some (((bkb * bkb - cut * cut) * 10000, reg * reg - cut * cut), false)
  else interpolate bkb (s.get CHG_BANK.CELLS) (ocvTable (s.get CHG_BANK.CHEM))

/-- Q that belongs to the open-circuit voltage `bkb` (R353). -/
def ocvQ (s : State) (bkb : Nat) : Option Int :=
  if isStack s then
    some ((s.get WEAR_BANKCAP.CAP * s.wear.soh : Int) * ((bkb : Int) - bankCut s))
  else (ocvSoc s bkb).map fun x => ((capacityUnits s * x.1.1 / (x.1.2 * 10000) : Nat) : Int)

/-- Q is set (R346). -/
def setQ (s : State) (q : Int) : State := notBlank (s.setWear { s.wear with q, qKnown := true })

/-- Q is set from the open-circuit voltage `bkb`. -/
def setQFrom (s : State) (bkb : Nat) : State :=
  match ocvQ s bkb with
  | some q => setQ s q
  | none => s

/-- The state of charge of a supercapacitor stack at its latest bank voltage, 0.01 % (R353). -/
def stackSoc (s : State) : Nat :=
  let cut : Int := bankCut s
  let reg : Int := bankReg s
  let b : Int := s.path.bkb
  if reg ≤ cut then 0 else min 10000 ((b * b - cut * cut) * 10000 / (reg * reg - cut * cut)).toNat

/-- The present state of charge, 0.01 % (Table 11.5). (DEDUCED, log entry 113) -/
def socNow (s : State) : Nat :=
  if isStack s then stackSoc s
  else
    let full := capacityUnits s
    if full = 0 then 0 else min 10000 (s.wear.q * 10000 / full).toNat

/-- WEAR_I0_VAL shows SOH and the state of charge, while indicator 0 is enabled (R350). -/
def showBank (s : State) : State :=
  if wearOn s 0 then s.set (WEAR_VAL.VAL 0) (min s.wear.soh 65535 * 2 ^ 16 + socNow s) else s

/-- A capacity or capacitance estimate gives SOH, 0.01 % (R351, R352). -/
def newSoh (s : State) (soh : Nat) : State :=
  showBank (measure (s.setWear { s.wear with soh, sohSeen := true }) 0 soh)

/-- A state-of-charge fix `num` / `den`, 0.01 % (R351): with one at least 30 % away it gives an estimate.
(DESIGN CHOICE, log entry 26) -/
def socFix (s : State) (num den : Nat) : State :=
  if !wearOn s 0 || isStack s then s
  else
    let here : Option (Int × Nat × Nat) := some (s.wear.coul, num, den)
    match s.wear.fix with
    | none => s.setWear { s.wear with fix := here }
    | some (c, n, d) =>
      let dsoc := ((num * d : Nat) - (n * den : Nat) : Int).natAbs
      if dsoc < 3000 * (den * d) then s
      else
        let dq := (s.wear.coul - c).natAbs
        newSoh (s.setWear { s.wear with fix := here })
          (dq * (10000 * 10000) * (den * d) / (dsoc * s.get WEAR_BANKCAP.CAP * unitsPerMah))

/-- The charger enters DONE (R346, R351): Q is the bank's capacity, and the state of charge 100 %. -/
def bankFull (s : State) : State :=
  let q : Int := if isStack s then (s.get WEAR_BANKCAP.CAP * s.wear.soh : Int) * ((bankReg s : Int) - bankCut s)
    else capacityUnits s
  showBank (socFix (setQ s q) 10000 1)

/-- BANK_CUTOFF (R346, R351): Q is 0. -/
def bankEmpty (s : State) : State := showBank (socFix (setQ s 0) 0 1)

/-- The current of channel 0x1B, in 10 mA, lies below WEAR_BANKCAP / 100 per hour (R352). (DEDUCED, log entry 113) -/
def restCurrent (s : State) (iBank : Int) : Bool := decide (iBank.natAbs * 1000 < s.get WEAR_BANKCAP.CAP)

/-- A rest goes on, begins or is broken at a reading of channel 0x1B (R352). -/
def followRest (s : State) (iBank : Int) : State :=
  let start := if !restCurrent s iBank || s.charger.switching then none
    else some (s.wear.restAt.getD s.now)
  s.setWear { s.wear with restAt := start }

/-- The charger's switching breaks a rest (R352). -/
def breakRest (s : State) : State :=
  if s.charger.switching then s.setWear { s.wear with restAt := none } else s

/-- The usable energy of the bank in mJ (R346), `bkb` in mV. -/
def bankEnergy (s : State) (bkb : Nat) : Nat :=
  if s.get WEAR_BANKCAP.CAP = 0 ∨ ¬ bankAvail s then 0
  else
    let cut : Int := bankCut s
    let b : Int := bkb
    if isStack s then
      ((s.get WEAR_BANKCAP.CAP * s.wear.soh : Int) * (b * b - cut * cut) / (2 * 10000 * 1000000)).toNat
    else (s.wear.q * (b + cut) / (2 * 10000000000)).toNat

/-- The rest of R352 has gone on for 30 min: the next one begins, with the bank at `bkb` mV. -/
def restEnds (s : State) (t bkb : Nat) : State :=
  let s1 := s.expire (t + 180000000000)
  { s1 with path := { s1.path with bkb }, wear := { s1.wear with restAt := some s1.now } }

/-- What the open-circuit voltage `bkb` of a rest gives (R352, R353). -/
def restReading (s : State) (bkb : Nat) : State :=
  let s1 := setQFrom s bkb
  if isStack s then
    let s2 := s1.setWear { s1.wear with rest := some (s.wear.coul, bkb) }
    match s.wear.rest with
    | some (c, b) =>
      if wearOn s 0 && decide (b ≠ bkb) then
        newSoh s2 ((s.wear.coul - c).natAbs / (((bkb : Int) - b).natAbs * s.get WEAR_BANKCAP.CAP))
      else showBank s2
    | none => showBank s2
  else
    match ocvSoc s bkb with
    | some ((n, d), true) => showBank (socFix s1 n d)
    | _ => showBank s1

/-- `BANK_REST` (R352, R353): a rest ends with the bank at `bkb` mV. -/
def execBankRest (bkb : Nat) (s : State) : Host.Outcome State Fault Refusal :=
  match s.wear.restAt with
  | none => .next s
  | some t => .next (if s.charger.switching then s else restReading (restEnds s t bkb) bkb)

/-! ### Predictions -/

/-- The limit of indicator `i`, twice its value as a fraction, and whether the indicator rises toward it; `c` selects
the capacitance of a capacitor indicator, and the daily points in `first` are themselves doubled. None where ESR0 or
C0 is not known yet. -/
def limitOf (s : State) (i : Nat) (c : Bool) : Option ((Int × Nat) × Bool) :=
  if i = 0 then some ((2 * (s.get WEAR_LIM.SOH_LIM * 100 : Nat), 1), false)
  else if i ≤ 6 then
    let t := trendOf s.wear (if c then 16 + i else i)
    if t.first.length < 8 then none
    else if c then some ((medianX2 t.first * s.get WEAR_LIM.C_F, 200), false)
    else some ((medianX2 t.first * s.get WEAR_LIM.ESR_F, 32), true)
  else if i = 13 then some ((2 * (s.wear.weak + s.wear.spares : Nat), 1), true)
  else none

/-- The line prediction of indicator `i`. -/
def lineOf (s : State) (i : Nat) (c : Bool) : Eol :=
  let t := trendOf s.wear (if c then 16 + i else i)
  let day := s.get WEAR_STATUS.DAY
  if t.points.isEmpty then {}
  else
    match limitOf s i c with
    | none => { npts := t.points.length, basis := 1 }
    | some (lim, rising) => predictLine t.points day lim rising

/-- The earlier of the two crossings of a capacitor (R348), that of ESR where they fall together or neither has one.
(DESIGN CHOICE, log entry 74) -/
def earlier (esr cap : Eol) : Eol := if cap.before esr then { cap with limq := 1 } else esr

/-- The prediction of a power stage (R355). -/
def stageOf (s : State) (i : Nat) : Eol :=
  let k := i - 7
  let dmg := NMap.get 0 s.wear.damage k
  let es := NMap.get [] s.wear.ends k
  if dmg = 0 ∧ (NMap.get [] s.wear.turns k).isEmpty then {}
  else if 10 ^ 12 ≤ dmg then { days := 0, basis := 6 }
  else if es.length < 30 then { basis := 1 }
  else
    let added := dmg - es.getD 30 0
    if added = 0 then { basis := 3 }
    else { days := daysAhead (((10 ^ 12 - dmg) * 30 / added : Nat) : Int), basis := 3 }

/-- The prediction of indicator `i` (R347). -/
def predict (s : State) (i : Nat) : Eol :=
  if !wearOn s i then {}
  else if i = 0 ∨ i = 13 then lineOf s i false
  else if i ≤ 6 then earlier (lineOf s i false) (lineOf s i true)
  else if i ≤ 12 then stageOf s i
  else
    let t := trendOf s.wear 14
    if t.points.isEmpty then {} else predictPower t.points (s.get WEAR_STATUS.DAY) (2 * (s.get WEAR_LIM.AGE_LIM * 1000))

/-- The prediction of indicator `i` is shown, and WEAR_LIMIT raised once while DAYS is below WARN (R347); a disabled
indicator keeps its last prediction (R350). -/
def showEol (s : State) (i : Nat) : State :=
  let e := predict s i
  let s1 := (((s.set (WEAR_EOL.DAYS i) e.days).set (WEAR_EOL.NPTS i) e.npts).set (WEAR_EOL.LIMQ i) e.limq).set
    (WEAR_EOL.BASIS i) e.basis
  let was := decide (bitOf s.wear.warned i = 1)
  if !wearOn s i then s
  else if e.days < s.get WEAR_CFG.WARN then
    if was then s1 else wearLimit (s1.setWear { s1.wear with warned := setBitNat s1.wear.warned i })
  else if was && decide (s.get WEAR_CFG.WARN < e.days) then
    s1.setWear { s1.wear with warned := s1.wear.warned - 2 ^ i }
  else s1

/-- The wear day's end for the history under key `k`. -/
def endTrend (s : State) (k : Nat) : State :=
  let t := (trendOf s.wear k).endDay (s.get WEAR_STATUS.DAY)
  s.setWear { s.wear with trends := NMap.put {} s.wear.trends k t }

/-- The wear day's end for the damage of stage `k`: the totals of the last 31 day ends are kept. -/
def endStage (s : State) (k : Nat) : State :=
  let es := (NMap.get 0 s.wear.damage k :: NMap.get [] s.wear.ends k).take 31
  s.setWear { s.wear with ends := NMap.put [] s.wear.ends k es }

/-- Every history's key: the indicators with a trend, and the six capacitances. -/
def trendKeys : List Nat := [0, 1, 2, 3, 4, 5, 6, 13, 14, 17, 18, 19, 20, 21, 22]

/-- One wear day in TREF periods. -/
def wearDay : Nat := 8640000000000

/-- `WEAR_DAY` (R348): the points are taken, the predictions are made, and the next wear day begins. -/
def execWearDay (s : State) : Host.Outcome State Fault Refusal :=
  let s0 := s.expire (nextBoundary s.now wearDay s.wear.dayAt)
  let s1 := s0.setWear { s0.wear with dayAt := some s0.now }
  let s2 := State.each (List.range 6) endStage (State.each trendKeys endTrend s1)
  let s3 := State.each (List.range 15) showEol s2
  .next (if timeRuns s then notBlank (wearNotice (s3.addSat WEAR_STATUS.DAY 1) 9) else s)

/-! ### Stages and ageing -/

/-- The swings that close raise the damage of stage `k`; swings below 2 °C do not count (R355). -/
def addDamage (s : State) (k : Nat) (swings : List Nat) : State :=
  State.each (swings.filter fun d => decide (20 ≤ d))
    (fun s d =>
      let dtref := s.get WEAR_STAGE.DTREF
      let nref := s.get WEAR_STAGE.NREF
      let (i, s1) := s.fresh
      let inc := if dtref = 0 ∨ nref = 0 then Config.damageAtZero i
        else cycleDamage d dtref (s.get WEAR_STAGE.EXP) nref + (if Config.damageRoundUp i then 1 else 0)
      let dmg := NMap.get 0 s.wear.damage k + inc
      (notBlank (s1.setWear { s1.wear with damage := NMap.put 0 s1.wear.damage k dmg })).set
        (WEAR_VAL.VAL (7 + k)) (satAt 32 (dmg / 10 ^ 6))) s

/-- A round's reading of TMONk, 0.1 °C, enters the rainflow count (R355). -/
def stageReading (s : State) (k : Nat) (t : Int) : State :=
  if !wearOn s (7 + k) then s
  else
    let l := addTurn (NMap.get [] s.wear.turns k) t
    let (swings, left) := closeCycles l.length l []
    addDamage (s.setWear { s.wear with turns := NMap.put [] s.wear.turns k left }) k swings

/-- The slowdown in ppm that the counts of both oscillators over 1 ms give (R357): 1 − f_stressed / f_unstressed,
less the difference `diff` of final test. (DESIGN CHOICE, log entry 74) -/
def slowdown (stressed unstressed : Nat) (diff : Int) (free : Nat) : Int :=
  let num : Int := ((unstressed : Int) - stressed) * 1000000
  if unstressed = 0 then Config.slowAtZero free
  else num / unstressed + (if num % unstressed ≠ 0 ∧ Config.slowRoundUp free then 1 else 0) - diff

/-- One hour in TREF periods. -/
def hour : Nat := 360000000000

/-- The measurement `slow` of the chip-ageing indicator. -/
def ageingPoint (s : State) (slow : Int) : State :=
  (measure s 14 slow).set (WEAR_VAL.VAL 14) (if slow < 0 then Config.slowBelowZero s.free else satAt 32 slow.toNat)

/-- `AGEING_COUNT` (R357), once per hour. The difference is what TRIM holds. -/
def execAgeingCount (stressed unstressed : Nat) (s : State) : Host.Outcome State Fault Refusal :=
  let s0 := s.expire (nextBoundary s.now hour s.wear.ageAt)
  let s1 := { s0 with free := s.free + 1, wear := { s0.wear with ageAt := some s0.now } }
  .next (if !timeRuns s then s
    else if wearOn s 14 then
      ageingPoint s1 (slowdown stressed unstressed (Config.oscDifference (regionContent s.otp 1)) s.free)
    else s1)

/-- The OTP indicator's point at a boot (R356). Every boot takes it before a WEAR_IMPORT can be accepted, so that it
leaves BLANK as it is, and the import after a loss finds no wear state (R349). (DESIGN CHOICE, log entry 136) -/
def otpPoint (s : State) (weak spares : Nat) : State :=
  if wearOn s 13 then
    (noteMeasure (s.setWear { s.wear with weak, spares }) 13 weak).set (WEAR_VAL.VAL 13)
      (min spares 65535 * 2 ^ 16 + min weak 65535)
  else s

end Sys2Proof.Machine
end

