-- ==== Sys2Proof/Machine/Charger.lean ====
section
/-! DEFINITION. The backup-bank charger (R67 to R77, R87): its check, states, suspend causes, probes, safety
timer and current target, with VDRV and AON18 (R168, R169). -/

namespace Sys2Proof.Machine

/-- A charger event (Table 2.10): Foxglove line 2. -/
def chgEv (k : Nat) (cls : Cls) : Ev := { evt := CHG_EVT.EVT, bit := k, src := 0x010 + k, line := 2, cls }

/-- `s` with the charger state `c`. -/
def State.setChg (s : State) (c : Charger) : State := { s with charger := c }

/-- CHG_STATUS.STATE (Table 2.6). -/
def chgState (s : State) : Nat := s.get CHG_STATUS.STATE

/-- The charger is enabled and does not drain. -/
def chgRuns (s : State) : Bool := s.on CHG_CTRL.EN && !s.charger.draining

/-- PRECHARGE, CC, CV or TOPOFF. -/
def charges (st : Nat) : Bool := decide (2 ≤ st) && decide (st ≤ 5)

/-- The suspend cause NO_SOURCE (R67, R168, R334). (DEDUCED, log entry 24) -/
def noSource (s : State) : Bool := !onAux s || s.charger.vdrvLost || decide (s.get ADC_STATUS.USABLE = 0)

/-- The suspend cause TEMP: a selected NTC is outside the charge window (R71). -/
def chgTemp (s : State) : Bool := decide (s.thermal.chgOut &&& s.get CHG_NTC.NTC_SEL ≠ 0)

/-- A suspend cause is active (R70). -/
def suspended (s : State) : Bool := noSource s || chgTemp s || s.on CHG_CTRL.SUSPEND || s.charger.probe

/-- CHG_STATUS.SUSP: the lowest-numbered active cause (R70); 0 in OFF. (DEDUCED, log entry 131) -/
def chgSusp (s : State) : Nat :=
  if chgState s = 0 then 0
  else if noSource s then 1 else if chgTemp s then 2 else if s.on CHG_CTRL.SUSPEND then 3
  else if s.charger.probe then 4 else 0

/-- The charger enters state `st`: CHG_STATE where it changes, BANK_PRESENT where BANK_MISSING is left, the
timer held at 0 in OFF and BANK_MISSING, and the events of DONE. -/
def chgEnter (s : State) (st : Nat) : State :=
  let old := chgState s
  if st = old then s
  else
    let s1 := notice (s.set CHG_STATUS.STATE st) (chgEv 0 .notice)
    let s2 := s1.setChg { s1.charger with switching := charges st && !s1.charger.ovStopped,
                                          stateAt := s1.now, spent := 0, freeAt := s1.now }
    let s3 := if old = 8 then notice s2 (chgEv 3 .notice) else s2
    let s4 := if st = 0 ∨ st = 8 then s3.set CHG_TELAPSED.ELAPSED 0 else s3
    breakRest (if st = 6 then bankFull (notice s4 (chgEv 1 .notice)) else s4)

/-- The time that the charger has spent in its present state, without the time in SUSPENDED between (Table 2.7). -/
def timeInState (s : State) : Nat := s.charger.spent + (s.now - s.charger.stateAt)

/-- CHG_TEMP is raised when the suspend cause TEMP arises in a charger that is not OFF (Table 2.10). -/
def followTemp (s : State) : State :=
  let cause := chgTemp s && decide (chgState s ≠ 0)
  let s1 := if cause && !s.charger.temp then notice s (chgEv 6 .notice) else s
  s1.setChg { s1.charger with temp := cause }

/-- A charging state with an active suspend cause enters SUSPENDED, and SUSPENDED with none returns to the
state it left, with the time spent in it (R70, Table 2.7). -/
def followCauses (s : State) : State :=
  let st := chgState s
  if charges st && suspended s then
    let s1 := chgEnter s 7
    s1.setChg { s1.charger with left := st, switching := false, target := (0, 1), spent := timeInState s }
  else if decide (st = 7) && !suspended s && !s.charger.draining then
    let s1 := chgEnter s s.charger.left
    s1.setChg { s1.charger with spent := s.charger.spent }
  else s

/-- The charger follows its suspend causes (R70). -/
def chgRefresh (s : State) : State := followCauses (followTemp s)

/-- A charging state is entered, with the suspend causes that hold. -/
def chgGo (s : State) (st : Nat) : State := chgRefresh (chgEnter s st)

/-- The safety timer is set to 0 and a charging state entered. -/
def chgStart (s : State) (st : Nat) : State := chgGo (s.set CHG_TELAPSED.ELAPSED 0) st

/-- CELLS × a per-cell field, in mV. -/
def cellsOf (s : State) (f : Field) : Nat := s.get CHG_BANK.CELLS * s.get f

/-- BANK_MISSING is entered with its event (R77, Table 2.10). -/
def chgMissing (s : State) : State := raise (chgEnter s 8) (chgEv 2 .warning)

/-! ### The check -/

/-- The permitted cell counts and charge voltages of a chemistry (Table 2.5); none for the reserved code. -/
def chemRange (chem : Nat) : Option (Nat × Nat × Nat) :=
  match chem with
  | 0 => some (16, 3300, 3650)
  | 1 => some (16, 2500, 2850)
  | 2 => some (22, 2000, 3000)
  | _ => none

/-- A per-cell ordering of R68: VSHORT < `x` < VREG − VRECH. -/
def cellOrder (s : State) (x : Nat) : Bool :=
  decide (s.get CHG_VTHR.VSHORT_CELL < x) && decide (x + s.get CHG_VTHR.VRECH_CELL < s.get CHG_VREG.VREG_CELL)

/-- The code, the lowest of those that apply, with which the charger's enable is refused (Table 2.12); 0 for
none. (DESIGN CHOICE, log entry 102) -/
def chgReason (s : State) : Nat :=
  let cells := s.get CHG_BANK.CELLS
  let vreg := s.get CHG_VREG.VREG_CELL
  let chem := s.get CHG_BANK.CHEM
  firstCode
    [(0x01, match chemRange chem with
        | some (hi, _, _) => outside 4 hi cells
        | none => true),
     (0x02, match chemRange chem with
        | some (_, lo, hi) => outside lo hi vreg
        | none => true),
     (0x03, decide (60000 < cells * vreg)),
     (0x04, !cellOrder s (s.get CHG_VREG.VPRE_CELL) || !cellOrder s (s.get CHG_VTHR.VCUT_CELL)),
     (0x05, decide (s.getSigned CHG_TWIN.TCHG_HI ≤ s.getSigned CHG_TWIN.TCHG_LO) ||
        decide (s.getSigned CHG_TWIN.TDIS_HI ≤ s.getSigned CHG_TWIN.TDIS_LO)),
     (0x06, decide (chem < 2) && decide (s.get CHG_NTC.NTC_SEL = 0)),
     (0x07, decide (5000000 < s.get CHG_I.ICHG * s.get CHG_SHUNT.SHUNT)),
     (0x08, outside 10 60 (s.get CHG_BANK.FSW)), (0x09, s.charger.timeoutL || s.charger.shortL),
     (0x0A, !s.on PP_CTRL.BANK_EN), (0x0B, unusable s 6)]

/-- EN is set: the check either enters DETECT or refuses with its code (R20, R68). (DESIGN CHOICE, log entry 101) -/
def chgEnable (s : State) : State :=
  let code := chgReason s
  if code = 0 then followTemp (chgEnter (s.set CHG_CTRL.EN 1) 1) else s.set CHG_STATUS.REASON code

/-- `CHG_ENABLE` (R68): a write of 1 to EN; an enabled or draining charger ignores it (R38), and so does a level that
has no charger. (DEDUCED, log entry 117) -/
def execChgEnable (s : State) : Host.Outcome State Fault Refusal :=
  .next (if s.on CHG_CTRL.EN || !servesAt s 1 then s else chgEnable s)

/-- `CHG_DISABLE` (R37, R69): the charge current ramps to zero; EN reads 1 until the drain ends.
(DESIGN CHOICE, log entry 100) -/
def execChgDisable (s : State) : Host.Outcome State Fault Refusal :=
  .next (if s.on CHG_CTRL.EN then s.setChg { s.charger with draining := true } else s)

/-- The charger's drain ends (Table 1.6, R74): OFF, with the latches kept. -/
def chgDrained (s : State) : State :=
  if s.charger.draining then
    let s1 := chgEnter (s.set CHG_CTRL.EN 0) 0
    let c := s1.charger
    (s1.setChg { timeoutL := c.timeoutL, shortL := c.shortL, vdrvLost := c.vdrvLost, taken := c.taken }).set
      CHG_STATUS.LIMIT 0
  else s

/-! ### Presence probes (R75) -/

/-- `PROBE_START` (R75): from DETECT, or on the 2 s timer in DONE, BANK_MISSING and TIMEOUT. -/
def execProbeStart (s : State) : Host.Outcome State Fault Refusal :=
  let st := chgState s
  .next (if chgRuns s && !s.charger.probe && decide (st ∈ [1, 6, 8, 10]) then
    s.setChg { s.charger with probe := true, probeAt := s.now, terminating := false }
  else s)

/-- The verdict missing: no charge count stands for the bank any more (R346). -/
def probeMissing (s : State) : State := chgMissing (s.setWear { s.wear with qKnown := false })

/-- A bank is detected: where no charge count is held, Q follows from its voltage (R346). -/
def bankDetected (s : State) (start : Nat) : State := if s.wear.qKnown then s else setQFrom s start

/-- The verdict present, or short or dead (`short`), with the bank at `start` mV (Table 2.7, Table 2.8).
(DEDUCED, log entry 23) -/
def probePresent (s : State) (start : Nat) (short : Bool) (term : Bool) : State :=
  let st := chgState s
  let s1 := bankDetected s start
  if st = 1 then
    chgStart s1 (if short || decide (start < cellsOf s CHG_VREG.VPRE_CELL) then 2 else 3)
  else if st = 8 then
    if !short then chgEnter (s1.setChg { s1.charger with timeoutL := false }) 1
    else if s.charger.timeoutL then s1
    else chgStart s1 2
  else if term then
    if short then chgStart s1 2
    else if s.charger.taken.ttop = 0 then chgEnter s1 6
    else chgRefresh (s1.setChg { s1.charger with left := 5, spent := 0 })
  else chgRefresh s1

/-- `PROBE_END` (R75): the bank at `start` mV when the probe began, and `drop` mV lower after 20 ms. -/
def execProbeEnd (start drop : Nat) (s : State) : Host.Outcome State Fault Refusal :=
  if s.charger.probe && chgRuns s then
    let s0 := s.expire (s.charger.probeAt + 2000000)
    let term := s.charger.terminating
    let s1 := s0.setChg { s0.charger with probe := false, terminating := false }
    .next (if 50 < drop then probeMissing s1
      else probePresent s1 start (decide (start < cellsOf s CHG_VTHR.VSHORT_CELL)) term)
  else .next s

/-! ### Charge phases -/

/-- The charger is enabled and in state `st`. -/
def chgIn (s : State) (st : Nat) : Bool := chgRuns s && decide (chgState s = st)

/-- `s` at the end of `t` TREF periods in the present charger state, the time in SUSPENDED apart. -/
def afterInState (s : State) (t : Nat) : State := s.expire (s.charger.stateAt + (t - s.charger.spent))

/-- The charger enters state `st` at the end of `t` TREF periods in the present one. -/
def enterAfter (s : State) (t st : Nat) : State := chgEnter (afterInState s t) st

/-- `PRECHARGE_EXIT` (R69): the bank has stayed at or above VPRE for 1 s. -/
def execPrechargeExit (bkb : Nat) (s : State) : Host.Outcome State Fault Refusal :=
  .next (if chgIn s 2 && decide (cellsOf s CHG_VREG.VPRE_CELL ≤ bkb) then chgGo s 3 else s)

/-- `BANK_SHORT_DETECT` (R69): still below VSHORT after TSHORT in PRECHARGE. -/
def execBankShortDetect (bkb : Nat) (s : State) : Host.Outcome State Fault Refusal :=
  .next (if chgIn s 2 && decide (bkb < cellsOf s CHG_VTHR.VSHORT_CELL) then
    let s1 := enterAfter s (s.charger.taken.tshort * 100000000) 9
    raise (s1.setChg { s1.charger with shortL := true }) (chgEv 4 .fault)
  else s)

/-- `CHG_CV_ENTRY` (R69): the bank reaches VREG. -/
def execChgCvEntry (bkb : Nat) (s : State) : Host.Outcome State Fault Refusal :=
  .next (if chgIn s 3 && decide (cellsOf s CHG_VREG.VREG_CELL ≤ bkb) then chgGo s 4 else s)

/-- `CHG_TERMINATION` (R69): the current has stayed below ITERM for 60 s with no limiter active; a probe
runs, and its verdict decides. -/
def execChgTermination (current : Nat) (s : State) : Host.Outcome State Fault Refusal :=
  .next (if chgIn s 4 && decide (s.get CHG_STATUS.LIMIT = 0) && decide (current < s.charger.taken.iterm * 10) then
    let s1 := s.expire (s.charger.freeAt + 6000000000)
    chgRefresh (s1.setChg { s1.charger with probe := true, probeAt := s1.now, terminating := true })
  else s)

/-- `TOPOFF_END` (R69): TTOP has passed. -/
def execTopoffEnd (s : State) : Host.Outcome State Fault Refusal :=
  .next (if chgIn s 5 then enterAfter s (s.charger.taken.ttop * 6000000000) 6 else s)

/-- `RECHARGE_START` (R69): the bank, at `bkb` mV, has stayed below VREG − VRECH for 1 s. -/
def execRechargeStart (bkb : Nat) (s : State) : Host.Outcome State Fault Refusal :=
  .next (if chgIn s 6 && s.on CHG_CTRL.RECHG_EN &&
      decide (bkb + cellsOf s CHG_VTHR.VRECH_CELL < cellsOf s CHG_VREG.VREG_CELL) then
    chgStart s (if bkb < cellsOf s CHG_VREG.VPRE_CELL then 2 else 3)
  else s)

/-- The bank's voltage shows its removal (R77): it rises faster than 5 % of VREG per ms over 200 µs, or reaches
VREG + 1 %, while the current stays below 20 % of the target. -/
def removalSeen (s : State) (bkb rise current : Nat) : Bool :=
  let vreg := cellsOf s CHG_VREG.VREG_CELL
  (decide (vreg * 10 < rise) || decide (vreg * 101 ≤ bkb * 100)) &&
    decide (current * 5 * s.charger.target.2 < s.charger.target.1)

/-- `BANK_REMOVAL` (R77). -/
def execBankRemoval (bkb rise current : Nat) (s : State) : Host.Outcome State Fault Refusal :=
  .next (if chgRuns s && charges (chgState s) && removalSeen s bkb rise current then
    chgMissing (s.setWear { s.wear with qKnown := false })
  else s)

/-! ### Safety timer -/

/-- The unlimited demand of the present phase in mA (R72, R73); `cv` is the CV loop's own demand. -/
def phaseDemand (s : State) (cv : Nat) : Nat :=
  match chgState s with
  | 2 => s.charger.taken.ipre * 10
  | 3 => s.charger.taken.ichg * 10
  | _ => cv

/-- The rate of the last second (R73): 2 full, 1 half, 0 frozen. (DESIGN CHOICE, log entry 12) -/
def timerRate (actual demand i : Nat) : Nat :=
  if demand = 0 then Config.rateAtZero i % 3
  else if demand ≤ 2 * actual then 2
  else if demand ≤ 5 * actual then 1
  else 0

/-- `SAFETY_TIMER_TICK` (R73): `actual` is the current averaged over the second and `cv` the CV loop's demand,
in mA. -/
def execSafetyTimerTick (actual cv : Nat) (s : State) : Host.Outcome State Fault Refusal :=
  let st := chgState s
  let (i, s1) := s.fresh
  .next (if !vsysRuns s then s
    else if decide (2 ≤ st) && decide (st ≤ 4) then
    let rate := timerRate actual (phaseDemand s cv) i
    (s1.set CHG_STATUS.TRATE rate).addSat CHG_TELAPSED.ELAPSED rate
  else s1.set CHG_STATUS.TRATE 0)

/-- `CHG_TIMEOUT` (R73, R74): the weighted time has reached 120 × TSAFE. -/
def execChgTimeout (s : State) : Host.Outcome State Fault Refusal :=
  let st := chgState s
  .next (if chgRuns s && decide (2 ≤ st) && decide (st ≤ 4) &&
      decide (120 * s.charger.taken.tsafe ≤ s.get CHG_TELAPSED.ELAPSED) then
    let s1 := chgEnter s 10
    raise (s1.setChg { s1.charger with timeoutL := true }) (chgEv 5 .fault)
  else s)

/-- `CHG_HOST_SUSPEND` (R70): a write of CHG_CTRL.SUSPEND. -/
def execChgHostSuspend (on : Bool) (s : State) : Host.Outcome State Fault Refusal :=
  .next (if vsysRuns s then chgRefresh (s.set CHG_CTRL.SUSPEND (if on then 1 else 0)) else s)

/-- `CHG_CLRFLT` (R69, R74): the latches clear, and TIMEOUT or BANK_SHORT leads to DETECT. -/
def execChgClrflt (s : State) : Host.Outcome State Fault Refusal :=
  let s1 := s.setChg { s.charger with timeoutL := false, shortL := false }
  .next (if !vsysRuns s then s
    else if chgRuns s && decide (chgState s ∈ [9, 10]) then chgEnter (s1.setChg { s1.charger with probe := false }) 1
    else s1)

/-! ### Current target (R72) -/

/-- The charger's cap at rung `r` (Table 12.2), in mA. -/
def chgCap (r : Nat) : Nat :=
  match r with
  | 0 => 25000 | 1 => 16000 | 2 => 10000 | 3 => 6000 | 4 => 4000 | 5 => 2000 | 6 => 1000 | _ => 0

/-- The fraction `a` is below `b`; denominators are positive. -/
def fracLt (a b : Nat × Nat) : Bool := decide (a.1 * b.2 < b.1 * a.2)

/-- i_share in mA (R72) from the measured currents in mA and voltages in mV. (DESIGN CHOICE, log entry 22) -/
def shareOf (s : State) (iVaux iChgIn vsys vBank i : Nat) : Nat × Nat :=
  let cin := ((98 * (s.path.act.ilim * 10) : Nat) - 100 * ((iVaux : Int) - iChgIn) : Int).toNat
  if vBank = 0 then (Config.shareAtZero i, 1) else (s.charger.taken.eff * vsys * cin, 25600 * vBank)

/-- The current and timer fields of page 0x02 as they are now. -/
def chgFields (s : State) : ChgTaken :=
  { ipre := s.get CHG_I.IPRE, ichg := s.get CHG_I.ICHG, eff := s.get CHG_ITERM.EFF, iterm := s.get CHG_ITERM.ITERM,
    tshort := s.get CHG_TIMER.TSHORT, ttop := s.get CHG_TIMER.TTOP, tsafe := s.get CHG_TIMER.TSAFE }

/-- CHG_STATUS.LIMIT (R72): bit 0 for sharing, bit 1 for the rung, of those that set a target below i_phase. -/
def limitBits (demand : Nat) (rung share : Nat × Nat) : Nat :=
  let target := if fracLt rung share then rung else share
  if !fracLt target (demand, 1) then 0
  else (if fracLt target share then 0 else 1) + (if fracLt target rung then 0 else 2)

/-- `CHG_TARGET_RECOMPUTE` (R72): the measured VAUX and charger input currents and the CV loop's demand in mA,
VSYS and the bank voltage in mV. -/
def execChgTargetRecompute (iVaux iChgIn vsys vBank cv : Nat) (s : State) : Host.Outcome State Fault Refusal :=
  let (i, s1) := s.fresh
  let ov := s.charger.ovStopped && decide (cellsOf s CHG_VREG.VREG_CELL * 103 < vBank * 100)
  let go := charges (chgState s) && chgRuns s
  let s2 := breakRest (s1.setChg { s1.charger with switching := go && !ov, ovStopped := ov, taken := chgFields s1 })
  .next (if !vsysRuns s then s
    else if go then
    let demand := phaseDemand s2 cv
    let rung := (chgCap (rungNow s), 1)
    let share := shareOf s2 iVaux iChgIn vsys vBank i
    let low := if fracLt rung share then rung else share
    let target := if fracLt low (demand, 1) then low else (demand, 1)
    let limit := limitBits demand rung share
    let freeAt := if limit = 0 then s2.charger.freeAt else s2.now
    let s3 := (s2.setChg { s2.charger with target, freeAt }).set CHG_STATUS.LIMIT limit
    if decide (s.get CHG_STATUS.LIMIT = 0) && decide (limit ≠ 0) then notice s3 (chgEv 7 .notice) else s3
  else (s2.setChg { s2.charger with target := (0, 1) }).set CHG_STATUS.LIMIT 0)

/-- `CHG_OV` (R83): the bank exceeds CELLS × VREG_CELL + 3 %, and the charger stops switching.
(DEDUCED, log entry 25) -/
def execChgOv (bkb : Nat) (s : State) : Host.Outcome State Fault Refusal :=
  .next (if vsysRuns s ∧ cellsOf s CHG_VREG.VREG_CELL * 103 < bkb * 100 then
    raise (s.setChg { s.charger with ovStopped := true, switching := false, target := (0, 1) }) (chgEv 8 .fault)
  else s)

/-- `CHG_DEADLINE` (R83). -/
def execChgDeadline (s : State) : Host.Outcome State Fault Refusal :=
  .next (if chgRuns s then raise s (chgEv 9 .fault) else s)

/-! ### VDRV and AON18 -/

/-- A VDRV event (Table 5.5). -/
def vdrvEv (k : Nat) (cls : Cls) : Ev := { evt := VDRV_STATUS.EVT, bit := k, src := 0x066, line := 20, cls }

/-- `s` with the VDRV state `v`. -/
def State.setVdrv (s : State) (v : Vdrv) : State := { s with vdrv := v }

/-- VDRV is switched on, or off (R168). (DEDUCED, log entry 92) -/
def vdrvSwitch (s : State) (on : Bool) : State :=
  ((s.setVdrv { s.vdrv with on, armed := false, hiccup := false, startAt := s.now, lowAt := none }).set
    VDRV_STATUS.PG 0).set VDRV_STATUS.ILIM_ACT 0

/-- `VDRV_POWER_GOOD` (R168): VDRV reaches 4.5 V, and the undervoltage test is armed; or (`good` false) it falls below
4.5 V, and PG reads 0. -/
def execVdrvPowerGood (good : Bool) (s : State) : Host.Outcome State Fault Refusal :=
  .next (if !s.vdrv.on then s
    else if good then
      if s.vdrv.hiccup then s
      else
        let s1 := (s.setVdrv { s.vdrv with armed := true, lowAt := none }).set VDRV_STATUS.PG 1
        chgRefresh (s1.setChg { s1.charger with vdrvLost := false })
    else if s.on VDRV_STATUS.PG then (s.setVdrv { s.vdrv with lowAt := some s.now }).set VDRV_STATUS.PG 0
    else s)

/-- Every enabled loop drains (R168). -/
def loopsOff (s : State) : State := State.each (List.finRange 6) (fun s n => railOff s (.lp n)) s

/-- The device time at which the undervoltage test of VDRV expires (R168): 50 µs below 4.5 V once armed, 2 ms after a
switch-on or restart before. -/
def vdrvUvAt (s : State) : Nat :=
  if s.vdrv.armed then s.vdrv.lowAt.getD s.now + 5000 else s.vdrv.startAt + 200000

/-- `VDRV_UV` (R168): below 4.5 V for 50 µs once armed, or not there 2 ms after a switch-on or restart. -/
def execVdrvUv (s : State) : Host.Outcome State Fault Refusal :=
  .next (if s.vdrv.on then
    let s1 := raise ((s.expire (vdrvUvAt s)).set VDRV_STATUS.PG 0) (vdrvEv 0 .critical)
    loopsOff (chgRefresh (s1.setChg { s1.charger with vdrvLost := true, switching := false }))
  else s)

/-- `VDRV_HICCUP` (R168): in current limit for 1 ms, VDRV turns off for 4 ms. -/
def execVdrvHiccup (s : State) : Host.Outcome State Fault Refusal :=
  .next (if s.vdrv.on && s.on VDRV_STATUS.ILIM_ACT then
    let s1 := s.expire (s.vdrv.limAt + 100000)
    ((s1.setVdrv { s1.vdrv with hiccup := true, offAt := s1.now, lowAt := some (s1.vdrv.lowAt.getD s1.now) }).set
      VDRV_STATUS.PG 0).set VDRV_STATUS.ILIM_ACT 0
  else s)

/-- `VDRV_RESTART` (R168): the 4 ms end, and VDRV restarts. -/
def execVdrvRestart (s : State) : Host.Outcome State Fault Refusal :=
  .next (if s.vdrv.hiccup then
    let s1 := s.expire (s.vdrv.offAt + 400000)
    s1.setVdrv { s1.vdrv with hiccup := false, armed := false, startAt := s1.now, lowAt := none }
  else s)

/-- `VDRV_ILIM` (R168): VDRV enters its current limit, or leaves it (`active` false). -/
def execVdrvIlim (active : Bool) (s : State) : Host.Outcome State Fault Refusal :=
  .next (if !s.vdrv.on || s.vdrv.hiccup || decide (s.on VDRV_STATUS.ILIM_ACT = active) then s
    else if active then
      raise ((s.setVdrv { s.vdrv with limAt := s.now }).set VDRV_STATUS.ILIM_ACT 1) (vdrvEv 1 .warning)
    else s.set VDRV_STATUS.ILIM_ACT 0)

/-- AON18 is on (R169): always but in Snowdrop, where AON_CFG.SNOW_KEEP decides. -/
def aon18On (s : State) : Bool :=
  s.supply.released && (decide (s.path.off ≠ .snowdrop) || s.on AON_CFG.SNOW_KEEP)

/-- `AON18_ILIM` (R169): AON18 enters its current limit, or leaves it (`active` false). The register that shows it and
Foxglove run with the internal VSYS rails only (R24), and no reset may hold (R524). -/
def execAon18Ilim (active : Bool) (s : State) : Host.Outcome State Fault Refusal :=
  .next (if !aon18On s || !vsysRuns s || decide (s.on AON_STATUS.ILIM_ACT = active) then s
    else if active then
      raise (s.set AON_STATUS.ILIM_ACT 1)
        { evt := AON_STATUS.EVT, bit := 0, src := 0x067, line := 20, cls := .warning }
    else s.set AON_STATUS.ILIM_ACT 0)

end Sys2Proof.Machine
end

