-- ==== Sys2Proof/Machine/Outputs.lean ====
section
/-! DEFINITION. A running BK, LDO or SW: the end of its start, current limit, the short test, the input of a
BK, and discharge (R159 to R167). -/

namespace Sys2Proof.Machine


/-- The output runs: START or REGULATE. -/
def outputRuns (s : State) (r : Rail) : Bool :=
  isOutput r && (decide (s.get (railState r) = 2) || decide (s.get (railState r) = 3))

/-- `OUTPUT_START_END` (R159): the output has reached its setting, and REGULATE is entered. -/
def execOutputStartEnd (rail : Rail) (s : State) : Host.Outcome State Fault Refusal :=
  .next (if isOutput rail && decide (s.get (railState rail) = stStart) &&
      !(s.out (railCode rail)).startPending then
    let s1 := s.expire (settingArrival s rail)
    supEnterAll (notice (s1.set (railState rail) 3) (railEv rail 0 .notice)) rail
  else s)

/-- The output enters current limit (R163): ILIM_ACT is set and ILIM is raised. -/
def enterIlim (s : State) (r : Rail) : State :=
  if outputRuns s r && !s.on (railIlim r) then raise (s.set (railIlim r) 1) (railEv r 2 .warning) else s

/-- `BK_ILIM` (R163): 16 consecutive cycles have ended at the limit. -/
def execBkIlim (n : Fin 6) (s : State) : Host.Outcome State Fault Refusal := .next (enterIlim s (.bk n))

/-- `BK_ILIM_END` (R163): 16 consecutive cycles below the limit. -/
def execBkIlimEnd (n : Fin 6) (s : State) : Host.Outcome State Fault Refusal :=
  .next (s.set (BK_STATUS.ILIM_ACT n) 0)

/-- An LDO or a switch. -/
def isLdoSw : Rail → Bool
  | .ldo _ => true
  | .sw _ => true
  | _ => false

/-- `LDO_SW_ILIM` (R163). -/
def execLdoSwIlim (rail : Rail) (s : State) : Host.Outcome State Fault Refusal :=
  .next (if isLdoSw rail then enterIlim s rail else s)

/-- `LDO_SW_ILIM_END` (R163). -/
def execLdoSwIlimEnd (rail : Rail) (s : State) : Host.Outcome State Fault Refusal :=
  .next (if isLdoSw rail then s.set (railIlim rail) 0 else s)

/-- SHORTL is written in the rail's STATUS (R164); a loop has none. -/
def setShortl (s : State) (r : Rail) (v : Nat) : State :=
  match r with
  | .lp _ => s
  | .bk n => s.set (BK_STATUS.SHORTL n) v
  | .ldo n => s.set (LDO_STATUS.SHORTL n) v
  | .sw n => s.set (SW_STATUS.SHORTL n) v

/-- The earliest device time of a short of output `r` (R164): for a switch, whose test starts after TRISE, 200 µs
after that. -/
def shortAfter (s : State) : Rail → Nat
  | .sw n => (s.out (railCode (.sw n))).setAt + s.get (SW_CFG.TRISE n) * 10000 + 20000
  | _ => 0

/-- `OUTPUT_SHORT` (R164): in current limit below half of its setting for 200 µs. -/
def execOutputShort (rail : Rail) (s : State) : Host.Outcome State Fault Refusal :=
  .next (if outputRuns s rail && s.on (railIlim rail) then
    let s1 := s.expire (shortAfter s rail)
    railFails (raise (setShortl (railOff s1 rail) rail 1) (railEv rail 3 .fault)) rail
  else s)

/-- `OUTPUT_CLRFLT` (R164): the host writes 1 to CLRFLT. -/
def execOutputClrflt (rail : Rail) (s : State) : Host.Outcome State Fault Refusal := .next (setShortl s rail 0)

/-- `BK_VIN_UV` (R165): the input falls below 4.2 V; an enabled BK stops switching and is PAUSED.
(DEDUCED, log entry 130) -/
def execBkVinUv (n : Fin 6) (s : State) : Host.Outcome State Fault Refusal :=
  let s0 := s.set (BK_STATUS.VIN_OK n) 0
  .next (if !vsysRuns s then s
  else if outputRuns s0 (.bk n) then
    let s1 := if regulating s0 (.bk n) then supLeaveAll s0 (.bk n) else s0
    raise ((s1.set (BK_STATUS.ILIM_ACT n) 0).set (BK_STATUS.STATE n) 6) (railEv (.bk n) 4 .warning)
  else s0)

/-- `BK_VIN_RESTORE` (R165): the input rises above 4.4 V; a PAUSED BK starts again from its measured `start` µV, and
a setting in motion is given up. -/
def execBkVinRestore (n : Fin 6) (start : Nat) (s : State) : Host.Outcome State Fault Refusal :=
  let s0 := s.set (BK_STATUS.VIN_OK n) 1
  .next (if !vsysRuns s then s
  else if s0.get (BK_STATUS.STATE n) = 6 then
    let s1 := s0.set (BK_STATUS.STATE n) stStart
    if (s.out (railCode (.bk n))).startPending then s1 else startMotion s1 (.bk n) start
  else s0)

/-- `DISCHARGE_END` (R166): the output is below 100 mV. The discharge of R167 goes on; an output whose enable check
runs stays in it. -/
def execDischargeEnd (rail : Rail) (s : State) : Host.Outcome State Fault Refusal :=
  let o := s.out (railCode rail)
  let st := s.get (railState rail)
  .next (if isOutput rail && (decide (st = 5) || (decide (st = stCheck) && decide (o.left = 5))) then
    let s1 := s.setOut (railCode rail)
      { o with disch := s.vdrv.resetDischarge, forced := false, drainAt := none, left := 0 }
    if st = 5 then s1.set (railState rail) 0 else s1
  else s)

/-- The drain of a BK, LDO or SW ends (R161, R166): discharge applies where it left START, REGULATE or PAUSED
with DISCH at 1, where its discharge is forced, and where it goes on from before an enable check that accepted
nothing. -/
def outputDrained (s : State) (r : Rail) : State :=
  let o := s.out (railCode r)
  let want := match r with
    | .lp _ => false
    | .bk n => s.on (BK_CTRL.DISCH n)
    | .ldo n => s.on (LDO_CTRL.DISCH n)
    | .sw n => s.on (SW_CTRL.DISCH n)
  let ran := decide (o.left = 2) || decide (o.left = 3) || decide (o.left = 6)
  let disch := (ran && want) || o.forced || decide (o.left = 5)
  let s1 := s.setOut (railCode r)
    { o with disch := disch || s.vdrv.resetDischarge, startPending := false, left := 0, setRate := 0,
             prebias := none }
  let s2 := ((s1.set (railEn r) 0).set (railState r) (if disch then 5 else 0)).set (railIlim r) 0
  notice s2 (railEv r 0 .notice)

/-- The loop's drain ends (R109): a pending transition is acknowledged ABORTED, its phases return to the pool
(R100, R104), and the reference stands still. -/
def loopDrained (s : State) (n : Fin 6) : State :=
  let s1 := loopAlert (endFlights s n 4) n 4
  let held := refNow s1 n
  let l := s1.loop n
  let faulted := (phasesIn s1 n 3).foldl setBitNat (s1.get PH_FAULTED.MASK)
  let s2 := State.each (phasesIn s1 n 2 ++ phasesIn s1 n 3 ++ reserved s1 n) freePhase
    (s1.set PH_FAULTED.MASK faulted)
  let s3 := s2.setLoop n { refFrom := held, dacFrom := dacCode s1 n, q := l.q, s := l.s }
  let s4 := (((s3.set (LP_CTRL.EN n) 0).set (LP_STATUS.STATE n) 0).set (LP_STATUS.OST_ACT n) 0).set
    (LP_STATUS.ILIM_ACT n) 0
  dirtyLimits (notice (reservePhases s4) (railEv (.lp n) 0 .notice))

/-- The 10 ms of R167 are over for output `r`: a discharge of R166 goes on, and an output whose enable was accepted
meanwhile starts from its measured value in `measured`. -/
def endResetDischarge (measured : List Nat) (s : State) (r : Rail) : State :=
  let o := s.out (railCode r)
  let under := decide (s.get (railState r) = 5) || (decide (s.get (railState r) = stCheck) && decide (o.left = 5))
  let s1 := s.setOut (railCode r) { o with disch := under && o.disch, startPending := false }
  if o.startPending && decide (s.get (railState r) = stStart) then startMotion s1 r (measured.getD (railCode r) 0)
  else s1

/-- `RESET_DISCHARGE_END` (R167): 10 ms after a reset ended, the discharge of outputs that are off ends, and
an output whose enable was accepted meanwhile starts. -/
def execResetDischargeEnd (measured : List Nat) (s : State) : Host.Outcome State Fault Refusal :=
  match s.vdrv.resetEnd with
  | none => .next s
  | some t =>
    let s0 := s.expire (t + 1000000)
    let s1 := { s0 with vdrv := { s0.vdrv with resetDischarge := false, resetEnd := none } }
    .next (State.each (allRails.filter isOutput) (endResetDischarge measured) s1)

end Sys2Proof.Machine
end

