-- ==== Sys2Proof/Machine/Flow.lean ====
section
/-! DEFINITION. Flow and tasks: JMP, Bcc, CALL, RET, TASK, YIELD and the wake of an idle engine (R206, R207,
R230, R231, R234). -/

namespace Sys2Proof.Machine

/-- `JMP` (R206, R207). -/
def execJmp (i : Issue) (target : BitVec 13) (s : State) : Host.Outcome State Fault Refusal :=
  issue i (jmpWord target) s fun s t x => s.setTask i.eng t { x with pc := target.toNat }

/-- `BCC` (R207, Table 7.4). -/
def execBcc (i : Issue) (cond : Cond) (target : BitVec 13) (s : State) : Host.Outcome State Fault Refusal :=
  issue i (bccWord cond target) s fun s t x => s.setTask i.eng t { x with pc := if condMet x cond then target.toNat else x.pc }

/-- `CALL` (R230): with 8 entries on the return stack it raises STACK instead of pushing. -/
def execCall (i : Issue) (target : BitVec 13) (s : State) : Host.Outcome State Fault Refusal :=
  issue i (callWord target) s fun s t x =>
    if 8 ≤ x.stack.length then takeExc s i.eng t 6
    else s.setTask i.eng t { x with stack := x.pc :: x.stack, pc := target.toNat }

/-- The running task ends (R225); the power-down task's end drains its engine (R241). -/
def endRunning (s : State) (e t : Nat) : State :=
  let s1 := endTask s e t .idle
  if t = 15 then engineDrain s1 e else dispatch s1 e

/-- `RET` (R230): it pops, or with an empty stack ends the task. -/
def execRet (i : Issue) (s : State) : Host.Outcome State Fault Refusal :=
  issue i retWord s fun s t x =>
    match x.stack with
    | a :: rest => s.setTask i.eng t { x with pc := a, stack := rest }
    | [] => endRunning s i.eng t


/-- `TASK` (R231): it starts an IDLE or FAULTED task; TASK 15 raises ILLEGAL. -/
def execTask (i : Issue) (t : Fin 16) (prio cls : BitVec 3) (entry : BitVec 13) (s : State) :
    Host.Outcome State Fault Refusal :=
  issue i (taskWord t prio cls entry) s fun s me x =>
    let e := i.eng.val
    if t.val = 15 then takeExc s e me 5
    else if (s.task e t).st = .idle ∨ (s.task e t).st = .faulted then
      (startTask s e t entry.toNat prio.toNat cls.toNat).setTask e me { x with z := true }
    else s.setTask e me { x with z := false }

/-- `YIELD` (R234): a scheduling point; the task is READY, or REVOKED where it holds a revoked claim. -/
def execYield (i : Issue) (s : State) : Host.Outcome State Fault Refusal :=
  issue i yieldWord s fun s t x =>
    leaveRun s i.eng t { x with st := .ready }

/-- `ENGINE_IDLE_WAKE` (R234): an idle engine runs a scheduling point. -/
def execEngineIdleWake (e : Fin 4) (s : State) : Host.Outcome State Fault Refusal :=
  .next (if engineRuns s e && (s.engine e).cur.isNone then dispatch s e else s)

end Sys2Proof.Machine
end

