-- ==== Sys2Proof/Machine/EngineCtl.lean ====
section
/-! DEFINITION. Enabling and disabling an engine, the end of its drain, and the rails that the ROM firmware
switches off for it (R203, R241, R242, R247, R252, R531). -/

namespace Sys2Proof.Machine


/-- The code with which the enable of engine `e` is refused (Table 7.14); 0 for none. -/
def engineReason (s : State) (e : Nat) : Nat :=
  firstCode
    [(0x10, unusable s (12 + e)),
     (0x11, !s.on CAM_IMG_STATUS.LOADED || decide ((s.engine e).tab.entry = noEntry))]


/-- Engine `e` is enabled, or refused under R20; no task of it has run yet at any priority (R234).
(DESIGN CHOICE, log entry 146) -/
def enableEngine (s : State) (e : Nat) : State :=
  let code := engineReason s e
  if code = 0 then
    let s1 := (loadEngineTable s e).setEngine e { s.engine e with cur := none, lastRun := [], halted := false, handing := false }
    let s2 := ((s1.set (CAM_CTRL.EN e) 1).set (CAM_EXC.CAUSE e) 0).set (CAM_STATUS.PDOWN e) 0
    startEngine (notice s2 (camEv e 0 .notice 0 0)) e
  else notice (s.set (CAM_STATUS.REASON e) code) (camEv e 1 .notice 0 0)

/-- `CAM_ENABLE` (R247): a write of 1 to EN; an enabled or draining engine ignores it (R38). -/
def execCamEnable (e : Fin 4) (s : State) : Host.Outcome State Fault Refusal :=
  .next (if s.on (CAM_CTRL.EN e) || !servesAt s 2 then s else enableEngine s e)

/-- `CAM_DISABLE` (R252, R531): the engine drains. -/
def execCamDisable (e : Fin 4) (s : State) : Host.Outcome State Fault Refusal := .next (engineDrain s e)

/-- Claim `c` leaves its task at its engine's drain (R531): a granted steady claim passes to the ROM
firmware, any other is withdrawn. -/
def drainClaim (s : State) (c : Nat) : State :=
  let x := s.claim c
  if x.isGranted then s.setClaim c { x with rom := true } else dropClaim s c

/-- A claim of the ROM firmware becomes FREE when its last rail is off (R531). -/
def romFree (s : State) : State :=
  State.each (claimIds.filter fun c =>
      let x := s.claim c
      x.rom && (claimRails x).all fun r => !s.on (railEn r)) dropClaim s

/-- The claims that tasks of engine `e` hold or have pending. -/
def engineClaims (s : State) (e : Nat) : List Nat :=
  claimIds.filter fun c =>
    let x := s.claim c
    decide (x.st ≠ .free) && decide (x.st ≠ .absent) && decide (x.eng = e) && !x.rom

/-- The drain of engine `e` ends (R531). -/
def engineDrained (s : State) (e : Nat) : State :=
  let s1 := wipeTasks (State.each (engineClaims s e) drainClaim s) e
  let s2 := s1.setEngine e { s1.engine e with cur := none, handing := false }
  let s3 := ((s2.set (CAM_CTRL.EN e) 0).set (CAM_STATUS.STATE e) (if (s2.engine e).halted then 5 else 0)).set
    (CAM_STATUS.PDOWN e) 0
  romFree (notice s3 (camEv e 0 .notice 0 0))

/-- Every engine has drained. -/
def enginesOff (s : State) : Bool := (List.range 4).all fun e => !s.on (CAM_CTRL.EN e)

/-- The rails that the ROM firmware has still to switch off (R242, R531): those of its claims, and in step 2
of the power-down sequence every rail still enabled (R312). -/
def romRails (s : State) : List Rail :=
  let mine := claimIds.foldl (fun m c => if (s.claim c).rom then m ||| (s.claim c).rails else m) 0
  (enabledRails s).filter fun r =>
    !draining s r && (decide (bitOf mine (railCode r) = 1) || (inPowerdown s && enginesOff s))

/-- The order of the last RAILON commit of rail `r`. -/
def commitOf (s : State) (r : Rail) : Nat := NMap.get 0 s.ledger.commits (railCode r)

/-- The rail of `rs` with the latest RAILON commit. -/
def latestCommit (s : State) (rs : List Rail) : Option Rail :=
  (sortBy (fun a b => decide (commitOf s b ≤ commitOf s a)) rs).head?

/-- `ROM_RAIL_OFF_STEP` (R242): the ROM firmware switches the next rail off, in the reverse order of the
RAILON commits, 1 ms after the one before. -/
def execRomRailOffStep (s : State) : Host.Outcome State Fault Refusal :=
  match latestCommit s (romRails s) with
  | none => .next { romFree s with ledger := { (romFree s).ledger with romAt := none } }
  | some r =>
    let s1 := match s.ledger.romAt with
      | some t => s.expire (t + 100000)
      | none => s
    .next (railOff { s1 with ledger := { s1.ledger with romAt := some s1.now } } r)

end Sys2Proof.Machine
end

