-- ==== Sys2Proof/Machine/Intc.lean ====
section
/-! DEFINITION. The interrupt controller (R401 to R415): the four states of a source, routing, claims,
completions and the doorbell. The request line of a source follows its EVT bits at once; the controller takes
the change at `INTC_REQUEST_CHANGE`. -/

namespace Sys2Proof.Machine

/-- The targets that claim (Table 14.1). -/
def claimTargets : List Nat := [0, 1, 6, 7]

/-- Every source ID. -/
def sourceIds : List Nat := (List.range 256).map (· + 1)

/-- The enable of source `src` for claiming target `t` (Table 14.12). -/
def srcEnable (src t : Nat) : Field :=
  match t with
  | 0 => INTC_SRC.EN_K0 src
  | 1 => INTC_SRC.EN_K1 src
  | 6 => INTC_SRC.EN_H0 src
  | _ => INTC_SRC.EN_H1 src

/-- Source `src` is eligible for target `t` (R403). -/
def eligible (s : State) (src t : Nat) : Bool :=
  decide (s.get (INTC_SRC.STATE src) = 1) && !s.on (INTC_SRC.MASK src) && s.on (srcEnable src t) &&
    decide (s.get (INTC_T_CFG.THR t) < s.get (INTC_SRC.PRIO src))

/-- Source `src` is ACTIVE or ACTIVE_PENDING with OWNER `t`. -/
def activeWith (s : State) (t src : Nat) : Bool :=
  decide (2 ≤ s.get (INTC_SRC.STATE src)) && decide (s.get (INTC_SRC.OWNER src) = t)

/-- cur(t) of R408. -/
def curPrio (s : State) (t : Nat) : Nat :=
  (sourceIds.filter (activeWith s t)).foldl (fun m src => max m (s.get (INTC_SRC.PRIO src))) (s.get (INTC_T_CFG.THR t))

/-- The target of `ts` with the lowest `cur`, lowest index on a tie; `ts` is ascending. -/
def lowestOf (cur : Nat → Nat) : List Nat → Option Nat
  | [] => none
  | t :: ts => match lowestOf cur ts with
    | none => some t
    | some u => if cur t ≤ cur u then some t else some u

/-- The target that LOWEST chooses for source `src` (R408). -/
def lowestTarget (s : State) (src : Nat) : Option Nat :=
  let all := claimTargets.filter (eligible s src)
  let awake := all.filter fun t => !s.on (INTC_T_CFG.SLEEP t)
  lowestOf (curPrio s) (if awake.isEmpty then all else awake)

/-- Source `src` is presented to claiming target `t` (R407, R415). -/
def presented (s : State) (t src : Nat) : Bool :=
  !unusable s 27 && eligible s src t &&
    (match s.get (INTC_SRC.ROUTE src) with
      | 0 => true
      | 1 => decide (lowestTarget s src = some t)
      | 2 => decide (s.get SYS_STATUS.PHASE ≠ 7) || decide (lowestTarget s src = some t)
      | _ => false)

/-- The source that a claim of target `t` would obtain: the highest priority, lowest ID on a tie (R409). -/
def topSource (s : State) (t : Nat) : Option Nat :=
  (sourceIds.filter (presented s t)).foldl
    (fun best src => match best with
      | some b => if s.get (INTC_SRC.PRIO b) < s.get (INTC_SRC.PRIO src) then some src else some b
      | none => some src) none

/-- The line of target `t` before its polarity (R407). -/
def targetLine (s : State) (t : Nat) : Bool := sourceIds.any (presented s t)

/-- A ball of the VIO domain that the device drives: high impedance while VIO is absent (R514). -/
def vioBall (s : State) (level : Bool) : Option Bool := if s.supply.vio then some level else none

/-- The level of the HIRQ ball of host target `t` (6 or 7): its line at the polarity of POL (R407, R412). -/
def hirqBall (s : State) (t : Nat) : Option Bool := vioBall s (targetLine s t == s.on (INTC_T_CFG.POL t))

/-- Target `t`'s line has been 1 since its previous claim. -/
def noteLine (s : State) (t : Nat) : State :=
  if targetLine s t then { s with intc := { s.intc with lineSeen := NMap.put false s.intc.lineSeen t true } } else s

/-- The lines of all claiming targets are noted for R409. (DESIGN CHOICE, log entry 10) -/
def noteLines (s : State) : State := State.each claimTargets noteLine s

/-- SYS_STATUS.PHASE becomes `n`; the lines that it raises are noted (R407, R409). -/
def toPhase (s : State) (n : Nat) : State := noteLines (s.set SYS_STATUS.PHASE n)

/-- The pending state of source `src` for R216 (R404). -/
def pendingNow (s : State) (src : Nat) : Bool :=
  decide (s.get (INTC_SRC.STATE src) = 1) || decide (s.get (INTC_SRC.STATE src) = 3)

/-- WAITEVs on `src` complete where its pending state went from 0 to 1. -/
def wakeIfRaised (was : Bool) (s : State) (src : Nat) : State :=
  if !was && pendingNow s src then wakeEvent s src else s

/-- The state of source `src` after its request line becomes `req` (Table 14.2). -/
def requestState (s : State) (src : Nat) (req : Bool) : State :=
  match s.get (INTC_SRC.STATE src) with
  | 0 => if req then (s.set (INTC_SRC.STATE src) 1).set (INTC_SRC.LATCHED src) 0 else s
  | 1 => if !req && !s.on (INTC_SRC.LATCHED src) then s.set (INTC_SRC.STATE src) 0 else s
  | 2 => if req && !s.on (INTC_SRC.REQ src) then s.set (INTC_SRC.STATE src) 3 else s
  | _ => s

/-- The request line of source `src` reaches the controller (R405). (DESIGN CHOICE, log entry 9) -/
def takeRequest (s : State) (src : Nat) : State :=
  let req := s.request src
  let s1 := (requestState s src req).set (INTC_SRC.REQ src) (if req then 1 else 0)
  noteLines (wakeIfRaised (pendingNow s src) s1 src)

/-- `INTC_REQUEST_CHANGE` (R405). -/
def execIntcRequestChange (src : BitVec 9) (s : State) : Host.Outcome State Fault Refusal :=
  let n := src.toNat
  .next (if decide (1 ≤ n) && decide (n ≤ 256) && vsysRuns s then takeRequest s n else s)

/-- The result of a claim of target `t` is returned, and its line counts from now (R409). -/
def claimResult (s : State) (t id : Nat) : State :=
  noteLines { (s.set (INTC_T_CLAIM.ID t) id) with
    intc := { s.intc with lineSeen := NMap.put false s.intc.lineSeen t false } }

/-- Target `t` claims (R409). (DEDUCED, log entry 11) -/
def claimBy (s : State) (t : Nat) : State :=
  match topSource s t with
  | some src =>
    let s1 := ((s.set (INTC_SRC.STATE src) 2).set (INTC_SRC.OWNER src) t).set (INTC_SRC.LATCHED src) 0
    claimResult (s1.addWrap INTC_CNT.CLAIMS 1) t src
  | none =>
    if NMap.get false s.intc.lineSeen t && !unusable s 27 then claimResult (s.addSat (INTC_T_STAT.SPUR t) 1) t 0x1FF
    else claimResult s t 0

/-- `INTC_CLAIM` (R409): the engine targets take no claim (R404), and the controller is supplied with the VSYS rails
(R415). -/
def execIntcClaim (t : Fin 8) (s : State) : Host.Outcome State Fault Refusal :=
  .next (if t.val ∈ claimTargets ∧ vsysRuns s then claimBy s t else s)

/-- The event INTC_BADCOMP (R410). -/
def badCompEv : Ev := { evt := INTC_DBELL.RING, bit := 0, src := 0, line := 38, cls := .notice }

/-- The owner completes source `id` (R410, R413). -/
def completeBy (s : State) (id : Nat) : State :=
  let s0 := if id = 0x100 then (s.set INTC_DBELL.RING 0).set (INTC_SRC.REQ id) 0 else s
  let s1 :=
    if s.get (INTC_SRC.STATE id) = 3 then (s0.set (INTC_SRC.STATE id) 1).set (INTC_SRC.LATCHED id) 1
    else if s0.on (INTC_SRC.REQ id) then (s0.set (INTC_SRC.STATE id) 1).set (INTC_SRC.LATCHED id) 0
    else s0.set (INTC_SRC.STATE id) 0
  noteLines (wakeIfRaised (pendingNow s id) s1 id)

/-- `INTC_COMPLETE` (R410): any other write than the owner's completion of an active source is ignored and
counted. -/
def execIntcComplete (t : Fin 8) (id : BitVec 9) (s : State) : Host.Outcome State Fault Refusal :=
  let n := id.toNat
  let s1 := s.set (INTC_T_COMPLETE.ID t) n
  .next (if t.val ∉ claimTargets ∨ !vsysRuns s then s
    else if 1 ≤ n ∧ n ≤ 256 ∧ activeWith s t n then completeBy s1 n
    else noticeCount (s1.addWrap INTC_CNT.BADCOMP 1) badCompEv)

/-- `INTC_DBELL_SET` (R413, R415). -/
def execIntcDbellSet (s : State) : Host.Outcome State Fault Refusal :=
  .next (if vsysRuns s then s.set INTC_DBELL.RING 1 else s)

/-- `INTC_DBELL_CLR` (R413, R415): source 0x100 has no owning block, so the controller sees its request fall in the
same handshake, and a later ring is a rise again. -/
def execIntcDbellClr (s : State) : Host.Outcome State Fault Refusal :=
  .next (if vsysRuns s then takeRequest (s.set INTC_DBELL.RING 0) 0x100 else s)

end Sys2Proof.Machine
end

