-- ==== Sys2Proof/Machine/Sequence.lean ====
section
/-! DEFINITION. The start of the power-down sequence (R241, R271, R311, R312). -/

namespace Sys2Proof.Machine

/-- `s` with the start-up and shutdown state `x`. -/
def State.setSys (s : State) (x : Sys) : State := { s with sys := x }

/-- A task that is neither IDLE nor FAULTED is FROZEN, and its wait stands still (R241). -/
def freezeTask (s : State) (e t : Nat) : State :=
  let x := s.task e t
  if x.st = .idle ∨ x.st = .faulted then s
  else s.setTask e t { x with st := .frozen, wait := none, frozenWait := x.wait, runAt := none, resumeBy := none }

/-- Engine `e` at the start of the sequence (R241, R242): with a PDENTRY its tasks freeze and task 15 starts
there, with priority 7 and class 0; without one it drains. A handover that waits goes over to the new image first. -/
def pdEngine (k : State) (e : Nat) : State :=
  let s := finishHandover k e
  if !engineRuns s e then s
  else
    let v := (s.engine e).tab
    if v.pdEntry = noEntry then engineDrain s e
    else
      let s1 := State.each (List.range 15) (fun s t => freezeTask s e t) s
      let s2 := (s1.setEngine e { s1.engine e with cur := none }).set (CAM_STATUS.PDOWN e) 1
      dispatch (startTask s2 e 15 v.pdEntry 7 0) e

/-- The power-down sequence starts for trigger `trig` (Table 10.4, rows 1 to 4), unless one runs already or K0
has halted (R304, R311). -/
def pdStart (k : State) (trig : Nat) : State :=
  if k.sys.pd.isSome || k.sys.k0Halt then k
  else
    let op := if trig = 3 then 1 else if trig = 4 then 2 else 0
    let s := endBootLoad k
    let s1 := (s.setSys { s.sys with pd := some { trig, start := s.now }, stored := none, op }).set BIST_STATUS.STORED 0
    let s2 := (((s1.set SYS_PDSTAT.TRIG trig).set SYS_PDSTAT.DONE 0).set SYS_PDSTAT.TMAXHIT 0).set SYS_PDSTAT.DUR 0
    let s3 := opMark ((toPhase s2 8).set NRG_STATUS.PDOWN 1) 2 1
    State.each (List.range 4) pdEngine (formFit s3)

end Sys2Proof.Machine
end

