-- ==== Sys2Proof/Machine/Resets.lean ====
section
/-! DEFINITION. Resets (R40 to R42, R301, R524, R530): what each kind returns to reset values and what it keeps,
the internal VSYS rails, power loss, Snowdrop, and where start-up begins. -/

namespace Sys2Proof.Machine

/-- `s` with the power-path state `p`. -/
def State.setPath (s : State) (p : Path) : State := { s with path := p }

/-- Key `k` belongs to a field marked (POR). -/
def porKey (k : Nat) : Bool := porFields.any fun f => decide (f.key = k)

/-- Key `k` belongs to WEAR_In_VAL or WEAR_In_EOL, which show the wear state (R349). -/
def wearKey (k : Nat) : Bool := decide (0x2C20 * 8 ≤ k) && decide (k < 0x2C98 * 8)

/-- Address `a` lies in queue memory or in program memory, which no SYSTEM reset keeps (R247, R443). -/
def clearedMemory (a : Nat) : Bool :=
  (decide (0x010000 ≤ a) && decide (a < 0x014000)) || (decide (0x050000 ≤ a) && decide (a < 0x058000))

/-- Every BK, LDO and SW with its discharge connected where VSYS is present (R167). -/
def dischargeAll (vsys : Bool) : NMap OutSt :=
  if vsys then (allRails.filter isOutput).foldl (fun m r => NMap.put {} m (railCode r) { disch := true }) [] else []

/-- The power path through a SYSTEM reset: where it keeps its pair (R530), AUX, BANK and RETURN stand, and
SHUTDOWN becomes BANK; PWRBTN and the VAUX comparator go on. -/
def pathThroughReset (s : State) (keepPair : Bool) : Path :=
  let p := s.path
  let q : Path :=
    { off := p.off, bkb := p.bkb, rangeSince := p.rangeSince, aboveOv := p.aboveOv, returnAt := p.returnAt,
      pressAt := p.pressAt, warned := p.warned, openAt := p.openAt }
  if keepPair then { q with pairA := p.pairA, pairB := p.pairB, qualified := p.qualified } else q

/-- The fuses, the locks and the torn words as a reset or a loss leaves them (R494): the program operation under way is
cut after some pulse, which one R494 leaves open, and no voids are pending. -/
def otpCut (s : State) : Otp :=
  let o : Otp := { s.otp with pendingVoids := [] }
  match opUnderWay s.otp with
  | none => o
  | some op => { cutOp s.otp (Config.partialBlow s.free) (Config.partialBlow (s.free + 1)) op with pendingVoids := [] }

/-- OTP through a reset or a loss (R494): nothing of a command in progress stays. -/
def otpThroughReset (s : State) : Otp :=
  let o := otpCut s
  { fuses := o.fuses, weak := o.weak, locks := o.locks, torn := o.torn }

/-- OTP through a start-up without a reset: the key store stays too, since ID_LOCK keeps phase 4 from loading it again
(R488). (DEDUCED, log entry 121) -/
def otpThroughRestart (s : State) : Otp := { otpCut s with job := none, raw := [], keygen := none }

/-- What a SYSTEM reset leaves (Table 1.8): the fields marked (POR), the device time, the wear state, the
history queue, OTP, and of the memories those that VSYS still supplies. No verdict stays stored (Table 10.2). -/
def systemReset (s : State) (keepPair : Bool) : State :=
  let st := if ppState s = 4 then 2 else ppState s
  let f := s.fox
  let s1 : State :=
    { pending := s.pending, free := s.free, now := s.now, otp := otpThroughReset s,
      regs := s.regs.filter fun e => porKey e.1 || wearKey e.1,
      mem := s.mem.filter fun e => !clearedMemory e.1,
      supply := { s.supply with xref := false }, path := pathThroughReset s keepPair,
      fox := { hist := f.hist, histOver := f.histOver, readMark := f.readMark, logOver := f.logOver,
               logHeld := f.logHeld, logLost := f.logLost },
      outs := dischargeAll s.supply.rails, vdrv := { resetDischarge := true }, wear := s.wear }
  let s2 := ((s1.set PP_STATUS.VAUX_OK (s.get PP_STATUS.VAUX_OK)).set BIST_STATUS.STORED 0).setPath s1.path
  otpCfgReset { (if keepPair then s2.set PP_STATUS.STATE st else s2) with free := s.free + 2 }

/-- The internal VSYS rails go down, and the memories that they supply lose their contents (R24, R387). -/
def railsDown (s : State) : State :=
  State.set { s with
    mem := [], outs := [], supply := { s.supply with rails := false },
    fox := { s.fox with logLost := s.fox.logLost + s.fox.logHeld, logHeld := 0 } } FLT_LSTAT.HELD 0

/-- `v` is the verdict in the Crocus retention registers (R307). -/
def setStored (s : State) (v : Option Stored) : State :=
  (s.setSys { s.sys with stored := v }).set BIST_STATUS.STORED (if v.isSome then 1 else 0)

/-- Start-up phase 0 begins, and with it the end of the reset (R167); the log records lost with VSYS are added
to the log's books (R387), the power path runs with reset values until phase 6 (R305), no temperature input has
given a reading or a fault yet (R65, R71, R362), the ledger has no reading and no update behind it (R257), every
command slot is FREE, and the command interface waits for phase 5 (Table 15.5, R433, R441). -/
def beginStartup (s : State) : State :=
  let f := s.fox
  let s1 : State :=
    { s with
      fox := { f with logOver := f.logOver + f.logLost, logLost := 0 },
      thermal := { s.thermal with ntcBad := 0, tmonBad := 0, chgOut := 0xF, disOut := 0 },
      vdrv := { s.vdrv with resetEnd := if s.vdrv.resetDischarge then some s.now else none },
      path := { s.path with off := .start, act := {}, tempRaised := false },
      adc := { s.adc with sinceStart := 0 },
      ledger := { s.ledger with vauxAt := none, energyAt := none, energy := 0, loadAt := none, firstAt := none },
      sys := { s.sys with started := true, brought := 0, booted := false, op := 0 } }
  let s2 := ((hciClear s1).set HCI_CTRL.EN 0).set HCI_STATUS.STATE 0
  s2.set SYS_STATUS.PHASE 0

/-- Start-up begins, or waits for nRESET to rise (R524). -/
def startIfReleased (s : State) : State :=
  if s.supply.nreset then s.setPath { s.path with off := .start } else beginStartup s

/-- The VAUX comparator stops, so that VAUX has to be found in its range again (R320). -/
def comparatorOff (s : State) : State :=
  (s.setPath { s.path with rangeSince := none, aboveOv := false }).set PP_STATUS.VAUX_OK 0

/-- The power path enters OFF with both pairs open, which is a SYSTEM reset, and the rails go down (R24, R42); at
the entry to Snowdrop or Crocus standby a stored verdict stays (Table 10.2), and only the island runs on (R320). -/
def pathOff (s : State) (mode : OffMode) : State :=
  let s1 := railsDown (systemReset s false)
  let s2 := if mode = .start then s1 else comparatorOff (setStored s1 s.sys.stored)
  s2.setPath { s2.path with off := mode }

/-- A power loss (R319, R42). -/
def powerLoss (s : State) : State := startIfReleased ((pathOff s .start).set SYS_RSTCAUSE.POWER_LOSS 1)

/-- Entry to Snowdrop: both pairs open and the island waits for a wake (R81, Table 10.4). (DEDUCED, log entry 29) -/
def snowdrop (s : State) : State := pathOff s .snowdrop

/-! ### POR -/

/-- `POR` (R301): everything except OTP returns to its reset value; pins keep their levels. -/
def execPor (s : State) : Host.Outcome State Fault Refusal :=
  .next (otpCfgReset
    { pending := s.pending, free := s.free + 2, otp := otpThroughReset s,
      supply := { nreset := s.supply.nreset, testEn := s.supply.testEn, vio := s.supply.vio, vioVcl := s.supply.vioVcl } })

/-- The two-wire addresses that the straps give (R452). -/
def strapAddresses (s : State) : State :=
  (s.set TWT_STATUS.ADDR (0x20 + s.supply.straps)).set TWT_STATUS.KTADDR (0x60 + s.supply.straps)

/-- The VIO and VIO_VCL balls are supplied, or not, and TEST_EN is driven to a level: while VIO is absent, nRESET reads
high (R514). (DESIGN CHOICE, log entry 126) -/
def Supply.balls (p : Supply) (vio vioVcl testEn : Bool) : Supply :=
  { p with vio, vioVcl, testEn, nreset := p.nreset && vio }

/-- XREF is lost: TREF, if it was locked, goes on free-running, and a WARNING is recorded (R31). -/
def xrefLost (s : State) : State :=
  if s.supply.xref then
    raiseBare { s with supply := { s.supply with xref := false } }
      { evt := SYS_EVT.EVT, bit := 0, src := 0, line := 42, cls := .warning }
  else s

/-- The balls of VIO and VIO_VCL and TEST_EN are seen at their levels; without VIO, XREF reads low and is lost
(R514, R31). (DESIGN CHOICE, log entry 126) -/
def seeBalls (s : State) (vio vioVcl testEn : Bool) : State :=
  let s1 := if vio then s else xrefLost s
  { s1 with supply := s1.supply.balls vio vioVcl testEn }

/-- `POR_RELEASE` (R302): the straps are sampled; with VAUX above its detector start-up begins, and otherwise the
island waits as in Snowdrop. -/
def execPorRelease (straps : BitVec 4) (vaux vio vioVcl testEn : Bool) (s : State) : Host.Outcome State Fault Refusal :=
  if s.supply.released then .next s
  else
    let p := s.supply.balls vio vioVcl testEn
    let s1 : State :=
      { s with supply := { p with released := true, straps := straps.toNat, vauxDet := vaux },
               vdrv := { s.vdrv with resetDischarge := true } }
    let s2 := strapAddresses s1
    .next (if vaux then startIfReleased s2 else s2.setPath { s2.path with off := .snowdrop })

/-! ### nRESET and the reset command -/

/-- Only the Crocus island runs: in Snowdrop and in Crocus standby. -/
def islandOnly (s : State) : Bool := decide (s.path.off = .snowdrop) || decide (s.path.off = .standby)

/-- `NRESET_ASSERT` (R524, R530): the SYSTEM reset holds while nRESET is low; a ball that reads low has VIO (R514).
(DESIGN CHOICE, log entries 30, 126) -/
def execNresetAssert (s : State) : Host.Outcome State Fault Refusal :=
  if s.supply.nreset then .next s
  else
    let s1 : State := { s with supply := { s.supply with nreset := true, vio := true } }
    .next (if !s.supply.released then s1
      else (if islandOnly s then s1 else systemReset s1 true).set SYS_RSTCAUSE.NRESET 1)

/-- `NRESET_RELEASE` (R522, R524): nRESET reads high, driven so or for want of VIO, with the supply balls and TEST_EN as
they are now (R514); start-up begins unless the island waits or a long press holds the pairs open.
(DESIGN CHOICE, log entry 126) -/
def execNresetRelease (vio vioVcl testEn : Bool) (s : State) : Host.Outcome State Fault Refusal :=
  let s0 := seeBalls s vio vioVcl testEn
  let s1 : State := { s0 with supply := { s0.supply with nreset := false } }
  .next (if s.supply.nreset && s.supply.released && decide (s.path.off = .start) && !s.sys.started then beginStartup s1
    else s1)

/-- `SYS_IMMEDIATE` (R530): a SYSTEM reset without the power-down sequence, then start-up. (DEDUCED, log entry 35) -/
def execSysImmediate (s : State) : Host.Outcome State Fault Refusal :=
  .next (if k0Runs s then beginStartup ((systemReset s true).set SYS_RSTCAUSE.CMD 1) else s)

/-! ### Long press -/

/-- What a long press leaves (R41, R80): a SYSTEM reset that also returns the retention registers, the history
queue and the wear state, and keeps the device time and the test-key lockout. (DESIGN CHOICE, log entry 31) -/
def longReset (s : State) : State :=
  let s1 : State :=
    { pending := s.pending, free := s.free + 2, now := s.now, otp := otpThroughReset s,
      supply := { s.supply with xref := false, rails := false }, vdrv := { resetDischarge := true },
      path := { off := .opening, bkb := s.path.bkb, rangeSince := s.path.rangeSince, aboveOv := s.path.aboveOv,
                openAt := s.now } }
  let s2 := (s1.set PP_STATUS.VAUX_OK (s.get PP_STATUS.VAUX_OK)).set FLT_TEST.TRIES (s.get FLT_TEST.TRIES)
  let s3 := (strapAddresses (s2.set FLT_TEST.LOCKOUT (s.get FLT_TEST.LOCKOUT))).set SYS_RSTCAUSE.LONG 1
  otpCfgReset (if s.supply.nreset then s3.set SYS_RSTCAUSE.NRESET 1 else s3)

/-- The press of PWRBTN has lasted the `ms` of a function of Table 2.9. -/
def pressed (s : State) (held ms : Nat) : Bool := s.path.pressAt.isSome && decide (ms ≤ held)

/-- `LONG_PRESS` (R80): PWRBTN has been held for LONG; both pairs open. -/
def execLongPress (held : Nat) (s : State) : Host.Outcome State Fault Refusal :=
  .next (if s.supply.released && s.on PP_BTN.LONG_EN && pressed s held (s.get PP_BTN.LONG * 1000) then longReset s
    else s)

/-- `LONG_PRESS_OPEN_END` (R530): the opening ends; with VAUX below UV_RISE the press serves as the bank wake. -/
def execLongPressOpenEnd (s : State) : Host.Outcome State Fault Refusal :=
  .next (if s.path.off = .opening then
    startIfReleased (s.setSys { s.sys with bankWake := !s.on PP_STATUS.VAUX_OK && !s.path.aboveOv })
  else s)

/-! ### TREF -/

/-- `XREF_LOCK` (R523): XREF carries edges within the lock range during phase 1; a ball that carries edges has VIO
(R514). (DESIGN CHOICE, log entry 126) -/
def execXrefLock (s : State) : Host.Outcome State Fault Refusal :=
  .next (if k0Runs s && s.sys.started && decide (phaseNow s = 1) then
    { s with supply := { s.supply with xref := true, vio := true } }
  else s)

/-- `XREF_LOSS` (R31). -/
def execXrefLoss (s : State) : Host.Outcome State Fault Refusal := .next (xrefLost s)

end Sys2Proof.Machine
end

