-- ==== Sys2Proof/Machine/PowerPath.lean ====
section
/-! DEFINITION. The power path (R52 to R65, R79, R81, R82, R85): its transitions, the FET pairs, the input
current limit, bank protection, PWRBTN and Snowdrop. -/

namespace Sys2Proof.Machine

/-- A power-path event (Table 2.10): PP_EVT bit `k`, Foxglove line 1. -/
def ppEv (k : Nat) (cls : Cls) : Ev := { evt := PP_EVT.EVT, bit := k, src := 0x001 + k, line := 1, cls }

/-- PP_STATUS.STATE takes `st`; the charger's NO_SOURCE cause follows (R67). -/
def ppEnter (s : State) (st : Nat) : State := chgRefresh (s.set PP_STATUS.STATE st)

/-- SRC_CHANGE (Table 2.10); while a reset holds no event is raised (R524). -/
def srcChange (s : State) : State := if s.supply.nreset then s else notice s (ppEv 0 .notice)

/-- How the bank pair turns on with the bank at `bkb` mV and VSYS at `vsys` mV (R56). -/
def bankPair (bkb vsys : Nat) : Pair :=
  if vsys + 2000 < bkb then .limited else if bkb < vsys then .blocking else .on

/-- VSYS moves to the bank: the bank pair turns on, the VAUX pair opens, and its current regulation ends. -/
def ontoBank (s : State) (st bkb vsys : Nat) : State :=
  let s1 := s.setPath { s.path with pairA := .off, pairB := bankPair bkb vsys, soaSince := none, lowRaised := false }
  srcChange (ppEnter (s1.set PP_STATUS.ILIM_ACT 0) st)

/-- SHUTDOWN is entered for trigger `trig` of Table 10.4, and the power-down sequence starts; after bank cutoff or
the temperature block a qualified VAUX leads to RETURN. -/
def enterShutdown (s : State) (trig : Nat) : State :=
  let s1 := s.setPath { s.path with shutAt := s.now, shutReturns := decide (trig = 1), restart := false }
  pdStart (ppEnter s1 4) trig

/-- BANK_TEMP is raised for the readings that are outside the discharge window (R65). -/
def bankTemp (s : State) (cls : Cls) : State := raise (s.setPath { s.path with tempRaised := true }) (ppEv 10 cls)

/-- BANK has been entered: a reading outside the discharge window is then a FAULT, and with DIS_TBLOCK it leads
to SHUTDOWN (R65). -/
def bankEntered (s : State) : State :=
  if !dischargeOut s then s
  else
    let s1 := bankTemp s .fault
    if s.on PP_CTRL.DIS_TBLOCK then enterShutdown s1 1 else s1

/-- BANK is entered from AUX, or at start-up. -/
def enterBank (s : State) (bkb vsys : Nat) : State := bankEntered (ontoBank s 2 bkb vsys)

/-- BANK is entered from RETURN, where the bank pair conducts already: the VAUX pair opens, and its current
regulation ends (Table 2.3, R60). -/
def backToBank (s : State) : State :=
  let s1 := s.setPath { s.path with pairA := .off, soaSince := none }
  bankEntered (ppEnter (s1.set PP_STATUS.ILIM_ACT 0) 2)

/-- AUX is entered: the VAUX pair closes unless it does already, the bank pair opens, and a change of BANK_EN takes
effect (Tables 2.3 and 2.13). -/
def enterAux (s : State) : State :=
  let pairA := if s.path.pairA = .off then .on else s.path.pairA
  let s1 := s.setPath { s.path with pairA, pairB := .off, bankEn := s.on PP_CTRL.BANK_EN }
  srcChange (ppEnter s1 1)

/-- RETURN is entered: the VAUX pair turns on, and the bank pair goes on as it was (Table 2.3, R56). -/
def enterReturn (s : State) : State :=
  let restart := decide (ppState s = 4) || s.path.restart
  ppEnter (s.setPath { s.path with pairA := .on, returnAt := s.now, restart }) 3

/-- VSYS has fallen below 5.7 V, so that the internal VSYS rails are down (R24). -/
def vsysCollapsed (vsys : Nat) : Bool := decide (vsys < 5700)

/-- VAUX or VSYS fails in AUX (Table 2.3); a VSYS that has collapsed is a power loss (R42). -/
def auxFails (s : State) (bkb vsys : Nat) : State :=
  if !bankAvail s || vsysCollapsed vsys then powerLoss s
  else if s.on PP_CTRL.SNOW_ARM then enterShutdown (ontoBank s 2 bkb vsys) 2
  else enterBank s bkb vsys

/-- The VAUX and VSYS comparators run (R24). -/
def pathRuns (s : State) : Bool := s.supply.released && !islandOnly s

/-- The power path acts on what it measures: while a reset holds, it holds the pair that carries VSYS (R524, R530).
(DEDUCED, log entry 116) -/
def pathActs (s : State) : Bool := pathRuns s && !s.supply.nreset

/-- VAUX is out of its range, above OV where `over` holds, so its qualification ends. -/
def vauxOut (s : State) (above : Bool) : State :=
  (s.setPath { s.path with rangeSince := none, qualified := false, aboveOv := above }).set PP_STATUS.VAUX_OK 0

/-- The event of a VAUX or VSYS failure (Table 2.10); in OFF, and while a reset holds, none is raised.
(DEDUCED, log entry 28) -/
def vauxLossEvent (s : State) (cause : VauxCause) : State :=
  if ppState s = 0 ∨ s.supply.nreset then s
  else match cause with
    | .uv => raise s (ppEv 1 .warning)
    | .ov => raise s (ppEv 2 .warning)
    | _ => s

/-- `VAUX_LOSS` (R55). (DEDUCED, log entry 116) -/
def execVauxLoss (cause : VauxCause) (bkb vsys : Nat) (s : State) : Host.Outcome State Fault Refusal :=
  if !pathRuns s then .next s
  else
    let s0 := s.setPath { s.path with bkb }
    let s1 := if cause = .vsysUv then s0 else vauxOut s0 (decide (cause = .ov))
    let s2 := vauxLossEvent s1 cause
    .next (if !pathActs s then (if ppState s ≠ 0 ∧ vsysCollapsed vsys then powerLoss s2 else s2)
      else if ppState s = 1 ∧ cause ≠ .dip then auxFails s2 bkb vsys
      else if ppState s = 3 ∧ (cause = .uv ∨ cause = .ov) then backToBank s2
      else s2)

/-- `VAUX_RISE` (R55): VAUX enters the range from UV_RISE to OV, and its qualification starts. -/
def execVauxRise (s : State) : Host.Outcome State Fault Refusal :=
  .next (if pathRuns s && s.path.rangeSince.isNone then
    (s.setPath { s.path with rangeSince := some s.now, aboveOv := false }).set PP_STATUS.VAUX_OK 1
  else s)

/-- `VSYS_UV` (R55, R24): VSYS sags in BANK below VSYS_UV, or anywhere below 5.7 V, which is a power loss.
(DEDUCED, log entry 94) -/
def execVsysUv (vsys : Nat) (s : State) : Host.Outcome State Fault Refusal :=
  .next (if pathActs s ∧ ppState s = 2 ∧ vsys < s.path.act.vsysUv * 250 then powerLoss (raise s (ppEv 6 .critical))
    else if ppState s ≠ 0 ∧ vsysCollapsed vsys then powerLoss s
    else s)

/-- VAUX has qualified: BANK, and SHUTDOWN where it may, go to RETURN unless LOCKOUT holds (Table 2.3). -/
def returnIfAllowed (s : State) : State :=
  if (decide (ppState s = 2) || (decide (ppState s = 4) && s.path.shutReturns)) && !s.on PP_STATUS.LOCKOUT then
    enterReturn s
  else s

/-- `VAUX_QUALIFIED` (R55, R61): VAUX has been in range for AUX_QUAL. (DEDUCED, log entry 28) -/
def execVauxQualified (s : State) : Host.Outcome State Fault Refusal :=
  match s.path.rangeSince with
  | none => .next s
  | some t =>
    if !pathActs s ∨ ppState s = 0 ∨ (s.path.qualified ∧ onAux s) then .next s
    else
      let s0 := s.expire (deadlineAt t (s.path.act.auxQual * 1000))
      let s1 := notice (s0.setPath { s0.path with qualified := true }) (ppEv 3 .notice)
      .next (returnIfAllowed s1)

/-- `RETURN_OVERLAP_END` (R55): the 10 µs of RETURN end in AUX. -/
def execReturnOverlapEnd (s : State) : Host.Outcome State Fault Refusal :=
  .next (if ppState s = 3 then enterAux (s.expire (s.path.returnAt + 1000)) else s)

/-! ### The pairs -/

/-- A pair's state. -/
def pairOf (s : State) : FetPair → Pair
  | .vaux => s.path.pairA
  | .bank => s.path.pairB

/-- `s` with a pair's state. -/
def setPair (s : State) (p : FetPair) (x : Pair) : State :=
  s.setPath (match p with
    | .vaux => { s.path with pairA := x }
    | .bank => { s.path with pairB := x })

/-- The power-path state enables the pair (Table 2.2). -/
def pairEnabled (s : State) : FetPair → Bool
  | .vaux => onAux s
  | .bank => onBank s || decide (ppState s = 3)

/-- `PAIR_REVERSE_BLOCK` (R53). -/
def execPairReverseBlock (p : FetPair) (s : State) : Host.Outcome State Fault Refusal :=
  .next (if pairOf s p = .off then s else setPair s p .blocking)

/-- `PAIR_FORWARD_ON` (R53). -/
def execPairForwardOn (p : FetPair) (s : State) : Host.Outcome State Fault Refusal :=
  .next (if pairOf s p = .blocking ∧ pairEnabled s p then setPair s p .on else s)

/-- `BANK_PAIR_FULL_ENHANCE` (R56): VSYS is within 2 V of the bank. -/
def execBankPairFullEnhance (s : State) : Host.Outcome State Fault Refusal :=
  .next (if s.path.pairB = .limited then setPair s .bank .on else s)

/-! ### Input current limit -/

/-- `ILIM_ACT` (R60). -/
def execIlimAct (s : State) : Host.Outcome State Fault Refusal :=
  .next (if pathActs s && onAux s && !s.on PP_STATUS.ILIM_ACT then
    notice ((s.setPath { s.path with soaSince := some s.now }).set PP_STATUS.ILIM_ACT 1) (ppEv 4 .notice)
  else s)

/-- `ILIM_END` (R60). -/
def execIlimEnd (s : State) : Host.Outcome State Fault Refusal :=
  .next ((s.setPath { s.path with soaSince := none }).set PP_STATUS.ILIM_ACT 0)

/-- An ILIM_SOA trip is counted; the third within 10 s sets LOCKOUT (R61). -/
def countTrip (s : State) : State :=
  let trips := s.now :: s.path.soaTrips.filter fun t => decide (s.now ≤ t + 1000000000)
  let s1 := s.setPath { s.path with soaTrips := trips, soaSince := none }
  if 3 ≤ trips.length ∧ ¬ s.on PP_STATUS.LOCKOUT then raise (s1.set PP_STATUS.LOCKOUT 1) (ppEv 13 .fault) else s1

/-- `ILIM_SOA` (R61): the VAUX pair has regulated for SOA_T. -/
def execIlimSoa (bkb vsys : Nat) (s : State) : Host.Outcome State Fault Refusal :=
  match s.path.soaSince with
  | none => .next s
  | some t =>
    let s0 := s.expire (deadlineAt t (s.path.act.soaT * 1000))
    let s1 := countTrip (raise (s0.setPath { s0.path with bkb }) (ppEv 5 .fault))
    .next (if !pathActs s then s else if ppState s = 1 then auxFails s1 bkb vsys else s1)

/-- The code, the lowest of those that apply, with which APPLY is refused (Table 2.11); 0 for none.
(DESIGN CHOICE, log entry 102) -/
def ppReason (s : State) : Nat :=
  let fall := s.get PP_VAUX_THR.UV_FALL
  let uv := s.get PP_VSYS_THR.VSYS_UV
  firstCode
    [(0x01, decide (s.get PP_VAUX_THR.UV_RISE ≤ fall) || decide (s.get PP_VAUX_THR.OV ≤ s.get PP_VAUX_THR.UV_RISE) ||
        decide (fall < 0x18)),
     (0x02, decide (uv < 0x18) || decide (fall ≤ uv) || decide (bankCut s ≤ uv * 250 + 500)),
     (0x03, outside 500000 8000000 (s.get PP_ILIM.ILIM * s.get PP_ILIM.SHUNT)),
     (0x04, decide (s.get PP_TIMERS.SOA_T = 0) || outside 1 1000 (s.get PP_TIMERS.AUX_QUAL)),
     (0x06, unusable s 4 || unusable s 5)]

/-- The staged values as active values (R85). -/
def staged (s : State) : PpActive :=
  { ov := s.get PP_VAUX_THR.OV, uvRise := s.get PP_VAUX_THR.UV_RISE, uvFall := s.get PP_VAUX_THR.UV_FALL,
    vsysUv := s.get PP_VSYS_THR.VSYS_UV, shunt := s.get PP_ILIM.SHUNT, ilim := s.get PP_ILIM.ILIM,
    auxQual := s.get PP_TIMERS.AUX_QUAL, soaT := s.get PP_TIMERS.SOA_T, oc := s.get PP_BKB_LIM.OC,
    plim := s.get PP_BKB_LIM.PLIM }

/-- APPLY commits the staged values or refuses them (R85). (DESIGN CHOICE, log entry 101) -/
def ppCommit (s : State) : State :=
  let code := ppReason s
  if code = 0 then s.setPath { s.path with act := staged s } else s.set PP_STATUS.REASON code

/-- `PP_APPLY` (R85). -/
def execPpApply (s : State) : Host.Outcome State Fault Refusal := .next (if vsysRuns s then ppCommit s else s)

/-- `PP_CLRFLT` (R61, R63): LOCKOUT, BKB_OCL and the record of trips clear; a VAUX that has qualified meanwhile
is returned to at once. -/
def execPpClrflt (s : State) : Host.Outcome State Fault Refusal :=
  let s1 := ((s.setPath { s.path with soaTrips := [] }).set PP_STATUS.LOCKOUT 0).set PP_STATUS.BKB_OCL 0
  .next (if !vsysRuns s then s
    else match s.path.rangeSince with
      | some t => if deadlineAt t (s.path.act.auxQual * 1000) ≤ s.now then returnIfAllowed s1 else s1
      | none => s1)

/-! ### Bank protection -/

/-- `BKB_OC` (R63). (DEDUCED, log entry 27) -/
def execBkbOc (s : State) : Host.Outcome State Fault Refusal :=
  .next (if pathActs s && (onBank s || decide (ppState s = 3)) then
    let s1 := raise (s.set PP_STATUS.BKB_OCL 1) (ppEv 7 .fault)
    if ppState s = 3 then enterAux s1 else powerLoss s1
  else s)

/-- The bank is at `bkb` mV. -/
def bankAt (s : State) (bkb : Nat) : State := s.setPath { s.path with bkb }

/-- `BANK_LOW` (R64): the bank falls below CELLS × (VCUT_CELL + 100 mV), which is raised once. -/
def execBankLow (bkb : Nat) (s : State) : Host.Outcome State Fault Refusal :=
  let s1 := bankAt s bkb
  .next (if pathActs s ∧ ppState s = 2 ∧ ¬ s.path.lowRaised ∧ bkb < s.get CHG_BANK.CELLS * (s.get CHG_VTHR.VCUT_CELL + 100) then
    raise (s1.setPath { s1.path with lowRaised := true }) (ppEv 8 .warning)
  else s1)

/-- `BANK_CUTOFF` (R64): the bank is empty, and SHUTDOWN is entered. -/
def execBankCutoff (bkb : Nat) (s : State) : Host.Outcome State Fault Refusal :=
  let s1 := bankAt s bkb
  .next (if pathActs s ∧ ppState s = 2 ∧ bkb < bankCut s then enterShutdown (raise (bankEmpty s1) (ppEv 9 .critical)) 1 else s1)

/-- The discharge-temperature rule after a round (R65): BANK_TEMP is raised once while a selected reading is outside.
(DEDUCED, log entry 118) -/
def dischargeRule (s : State) : State :=
  if !dischargeOut s then s.setPath { s.path with tempRaised := false }
  else if decide (ppState s = 2) && s.on PP_CTRL.DIS_TBLOCK then enterShutdown (bankTemp s .fault) 1
  else if s.path.tempRaised then s
  else if ppState s = 2 then bankTemp s .fault
  else if onAux s then bankTemp s .warning
  else s

/-! ### PWRBTN and Snowdrop -/

/-- `BTN_PRESS` (R79). -/
def execBtnPress (s : State) : Host.Outcome State Fault Refusal :=
  .next (if s.supply.released then s.setPath { s.path with pressAt := some s.now, warned := false } else s)

/-- `BTN_RELEASE` (R79): BTN_SHORT for a press of 50 ms or more and shorter than LONG. -/
def execBtnRelease (held : Nat) (s : State) : Host.Outcome State Fault Refusal :=
  let s1 := s.setPath { s.path with pressAt := none, warned := false }
  .next (if s.path.pressAt.isSome && k0Runs s && decide (50 ≤ held) && decide (held < s.get PP_BTN.LONG * 1000) then
    notice s1 (ppEv 11 .notice)
  else s1)

/-- `BTN_LONG_WARN` (R79): PWRBTN has been held for LONG − 2 s. (DESIGN CHOICE, log entry 6) -/
def execBtnLongWarn (held : Nat) (s : State) : Host.Outcome State Fault Refusal :=
  .next (if pressed s held ((s.get PP_BTN.LONG - 2) * 1000) && !s.path.warned && k0Runs s then
    notice (s.setPath { s.path with warned := true }) (ppEv 12 .notice)
  else s)

/-- PWRBTN has been held for SNOW_BTN (Table 2.9). -/
def wakePress (s : State) (held : Nat) : Bool := pressed s held (s.get PP_BTN.SNOW_BTN * 100)

/-- `SNOWDROP_WAKE` (R79, R302, R319): from Snowdrop or the wait at the release of POR the device starts up; in
the wait of phase 0 after a power loss a press is the bank wake. -/
def execSnowdropWake (press : Option Nat) (s : State) : Host.Outcome State Fault Refusal :=
  let button := press.isSome
  .next (if !s.supply.released || press.any fun held => !wakePress s held then s
    else
      let s1 := { s with supply := { s.supply with vauxDet := s.supply.vauxDet || !button } }
      let s2 := s1.setSys { s1.sys with bankWake := s1.sys.bankWake || button }
      if s.path.off = .snowdrop then startIfReleased (s2.set SYS_RSTCAUSE.SNOW_WAKE 1)
      else if s.path.off = .start ∧ phaseNow s = 0 then s2
      else s)

/-- `SNOWDROP_ENTER` (R81, R82): ENTER reads 1 from an accepted entry until Snowdrop (Table 0.6). -/
def execSnowdropEnter (s : State) : Host.Outcome State Fault Refusal :=
  .next (if !k0Runs s then s
    else if ppState s = 2 then enterShutdown (s.setPath { s.path with entering := true }) 2
    else s.set PP_STATUS.REASON (if onAux s then 5 else 7))

/-- `SHUTDOWN_TIMEOUT` (R315): 5 s after the entry to SHUTDOWN the bank pair opens, whatever is left undone. -/
def execShutdownTimeout (s : State) : Host.Outcome State Fault Refusal :=
  .next (if ppState s = 4 then snowdrop (s.expire (s.path.shutAt + 500000000)) else s)

end Sys2Proof.Machine
end

