-- ==== Sys2Proof/Machine/Waits.lean ====
section
/-! DEFINITION. The waiting instructions WAITPG, WAITT and WAITEV, and the deadlines of waits (R214 to R219,
R235). -/

namespace Sys2Proof.Machine

/-- The running task waits for `w`: a scheduling point (R234). -/
def enterWait (s : State) (e t : Nat) (x : Task) (w : Wait) : State :=
  leaveRun s e t { x.startWait with st := .wait, wait := some w }

/-- `WAITPG` (R214). -/
def execWaitpg (i : Issue) (ch : Fin 64) (deadline : BitVec 16) (s : State) : Host.Outcome State Fault Refusal :=
  issue i (waitpgWord ch deadline) s fun s t x =>
    if s.on (SUP_STAT.PGS ch) then s.setTask i.eng t x.startWait
    else enterWait s i.eng t x (.pg ch (deadlineOf s deadline))

/-- `WAITT` (R215): ready after the duration, with the deadline a slack later. -/
def execWaitt (i : Issue) (duration : BitVec 16) (slack : BitVec 8) (s : State) :
    Host.Outcome State Fault Refusal :=
  issue i (waittWord duration slack) s fun s t x =>
    let us := (deadlineUs duration.toNat).getD 0
    enterWait s i.eng t x (.time (deadlineAt s.now us) (deadlineAt s.now (us + slack.toNat)))

/-- `WAITT_READY` (R215): the duration of a WAITT ends. -/
def execWaittReady (e : Fin 4) (t : Fin 16) (s : State) : Host.Outcome State Fault Refusal :=
  let x := s.task e t
  match x.st, x.wait with
  | .wait, some (.time ready dl) =>
    let s1 := s.expire ready
    .next (s1.setTask e t { x with st := .ready, wait := none, resumeBy := some dl })
  | _, _ => .next s

/-- The pending state of source `src` (R404): PENDING or ACTIVE_PENDING. -/
def srcPending (s : State) (src : Nat) : Bool :=
  decide (s.get (INTC_SRC.STATE src) = 1) || decide (s.get (INTC_SRC.STATE src) = 3)

/-- `WAITEV` (R216). -/
def execWaitev (i : Issue) (src : BitVec 9) (l : Bool) (deadline : BitVec 16) (s : State) :
    Host.Outcome State Fault Refusal :=
  issue i (waitevWord src l deadline) s fun s t x =>
    if l && srcPending s src.toNat then s.setTask i.eng t x.startWait
    else enterWait s i.eng t x (.event src.toNat (deadlineOf s deadline))

/-- The device time at which the deadline of task `x`'s wait expires; a WAITT that is READY keeps its own
until the dispatcher resumes it (R215). A claim's deadline is CLAIM_DEADLINE's. -/
def waitDeadlineOf (x : Task) : Option Nat :=
  match x.st, x.wait with
  | .wait, some (.pg _ d) => d
  | .wait, some (.time _ d) => some d
  | .wait, some (.event _ d) => d
  | .wait, some (.step _ d) => d
  | .ready, _ => x.resumeBy
  | _, _ => none

/-- `WAIT_DEADLINE` (R218): the wait ends with D = 1, and the task takes the exception. -/
def execWaitDeadline (e : Fin 4) (t : Fin 16) (s : State) : Host.Outcome State Fault Refusal :=
  let x := s.task e t
  match waitDeadlineOf x with
  | some d =>
    let s1 := (s.expire d).setTask e t { x with st := .ready, wait := none, resumeBy := none, d := true }
    .next (deadlineExc s1 e t 1)
  | none => .next s

/-- Task `x` counts as RUN (R227, R235): it runs, or its urgent RDADC waits. -/
def countsAsRun (x : Task) : Bool :=
  match x.st, x.wait with
  | .run, _ => true
  | .wait, some (.urgent ..) => true
  | _, _ => false

/-- `RUN_DEADLINE` (R235): the running task takes the exception with D = 1. An instruction that waits for a
verdict, a drain or an urgent conversion ends in its own time, and the handler runs after it. -/
def execRunDeadline (e : Fin 4) (s : State) : Host.Outcome State Fault Refusal :=
  match (s.engine e).cur with
  | none => .next s
  | some t =>
    let x := s.task e t
    match countsAsRun x, x.runAt with
    | true, some r =>
      let s1 := (s.expire (deadlineAt r (s.get (CAM_CFG.RUNMAX e)))).setTask e t { x with d := true, runAt := none }
      .next (deadlineExc s1 e t 2)
    | _, _ => .next s

end Sys2Proof.Machine
end

