-- ==== Sys2Proof/Machine/Ring.lean ====
section
/-! DEFINITION. The Meing ring (chapter 9): frames, joining and leaving, stepping on MSTEP, enumeration, aborts
and isolation, and the engines' STEP and WAITSTEP (R217, R226). -/

namespace Sys2Proof.Machine

/-! ### Frames -/

/-- The content bits [55:16] of a frame (Table 9.3). -/
def ringBody (type flags payload : Nat) : Nat := type * 2 ^ 36 + flags % 16 * 2 ^ 32 + payload % 2 ^ 32

/-- The CRC of a frame's content (Table 9.3). -/
def ringCrc (body : Nat) : Nat :=
  ((List.range 40).map fun i => bitOf body (39 - i)).foldl (crcBit 16 0x1021) 0xFFFF

/-- A frame's 72 bits, the preamble first (R286); a bad frame carries the complement of its CRC (R287). -/
def ringFrame (body : Nat) (bad : Bool := false) : Nat :=
  0xAA * 2 ^ 64 + 0xA7 * 2 ^ 56 + body * 2 ^ 16 + (if bad then 0xFFFF - ringCrc body else ringCrc body)

/-- The content of each type (Table 9.4). -/
def stateBody (seq state count : Nat) (areq : Bool) (node target : Nat) : Nat :=
  ringBody 1 seq (state * 2 ^ 24 + count * 2 ^ 16 + flagAt areq 15 + node * 2 ^ 8 + target)
def enumBody (addr : Nat) (taken clr : Bool) : Nat := ringBody 2 (flagAt clr 3) (addr * 2 ^ 25 + flagAt taken 24)
def abortBody (target node seq : Nat) : Nat := ringBody 3 seq (target * 2 ^ 24 + node * 2 ^ 17)
def pollBody (holders : Bool) (g bits : Nat) : Nat := ringBody 4 (flagAt holders 3 + g) bits
def isolateBody (addr : Nat) : Nat := ringBody 5 0 (addr * 2 ^ 25)
def lostBody (addr : Nat) : Nat := ringBody 6 0 (addr * 2 ^ 25)

/-- `s` with the ring state `r`. -/
def State.setRing (s : State) (r : Ring) : State := { s with ring := r }

/-- The frames `bodies` leave the node. -/
def ringSend (s : State) (bodies : List Nat) : State :=
  s.setRing { s.ring with tx := bodies.map fun b => ringFrame b }

/-- No frame has left the node yet: the command under way sends its own. -/
def ringQuiet (s : State) : State := s.setRing { s.ring with tx := [] }

/-- The frame `body` leaves the master, which resends it unless it returns (R289). -/
def ringSendAcked (s : State) (body : Nat) : State :=
  s.setRing { s.ring with tx := s.ring.tx ++ [ringFrame body],
                          unacked := s.ring.unacked ++ [{ frame := body, sentAt := s.now }] }

/-- The type of a frame's content. -/
def bodyType (b : Nat) : Nat := b / 2 ^ 36 % 16

/-- `l` without the first entry that sent `body`. -/
def dropSent (body : Nat) : List RingSent → List RingSent
  | [] => []
  | x :: l => if x.frame = body then l else x :: dropSent body l

/-- The frame `body` has returned and is no longer to be resent. -/
def ringAck (s : State) (body : Nat) : State := s.setRing { s.ring with unacked := dropSent body s.ring.unacked }

/-! ### The node -/

/-- A ring event (Table 9.8). -/
def mngEv (k : Nat) (cls : Cls) : Ev :=
  { evt := MNG_EVT.EVT, bit := k, line := 30, cls,
    src := if k < 2 then 0x0EC else if k < 4 then 0x0ED else if k < 7 then 0x0EE else 0x0EF }

/-- MNG_STATUS.JSTATE: 0 OFF, 1 LISTEN, 2 JOINED, 3 DRAIN, 4 ISOLATED. -/
def jstate (s : State) : Nat := s.get MNG_STATUS.JSTATE

/-- The node is joined. -/
def joined (s : State) : Bool := decide (jstate s = 2)

/-- The node originates cycles. -/
def masterActs (s : State) : Bool := s.on MNG_STATUS.MASTER_ACT

/-- The state counter (R282). -/
def ringState (s : State) : Nat := s.get MNG_STATUS.STATE

/-- The counter takes `n`, the step deadline of the state starts (R285), FLT_OPMARK follows (R394), and state 0 has
been left where it was the state before (R284). (DEDUCED, log entry 49) -/
def enterRingState (s : State) (n : Nat) : State :=
  let left0 := s.ring.departed || (decide (ringState s = 0) && decide (n ≠ 0))
  opMark ((s.set MNG_STATUS.STATE n).setRing { s.ring with stateAt := some s.now, departed := left0 }) 4 n

/-- The counter follows the ring's frames again (R294). -/
def agree (s : State) : State := s.setRing { s.ring with mismatches := 0 }

/-- MSTEP is at level `line`, which is low while the node holds it (Table 9.10). (DEDUCED, log entry 109) -/
def seeLine (s : State) (line : Bool) : State :=
  s.set MNG_STATUS.LINE (if line && !s.on MNG_STATUS.HOLD then 1 else 0)

/-- The node takes its hold on MSTEP. -/
def takeHold (s : State) : State :=
  ((s.set MNG_STATUS.HOLD 1).set MNG_STATUS.LINE 0).setRing { s.ring with retakeAt := none }

/-- The number of enumerated nodes. -/
def enumerated (s : State) : Nat := ((List.range 4).map fun g => popCount 32 (s.get (MNG_PRESENT.MASK g))).foldl (· + ·) 0

/-- The master's hold in state 0 stays until EXPECT nodes are enumerated, at the first departure (R284). -/
def waitsExpect (s : State) : Bool :=
  masterActs s && decide (ringState s = 0) && !s.ring.departed && decide (enumerated s < s.get MNG_CFG.EXPECT)

/-- A remembered STEP releases the hold where the state is the one before its own; the master's waits for EXPECT;
any other is discarded (R226, R284). (DEDUCED, log entry 53) -/
def useRemembered (s : State) : State :=
  match s.ring.remembered with
  | none => s
  | some n =>
    if n = ringState s + 1 then
      if waitsExpect s then s else (s.set MNG_STATUS.HOLD 0).setRing { s.ring with remembered := none }
    else s.setRing { s.ring with remembered := none }

/-- The node joins in state `n` (R283, R289). -/
def joinRing (s : State) (n : Nat) : State :=
  let s1 := agree (enterRingState (s.set MNG_STATUS.JSTATE 2) n)
  let s2 := if n = 0 ∨ s.on MNG_CFG.JOINHOLD then takeHold s1 else s1
  wakeStep (useRemembered s2) n

/-- Node `a` is enumerated, or is not. -/
def setPresent (s : State) (a : Nat) : State := s.setBit (MNG_PRESENT.MASK (a / 32)) (a % 32)
def clearPresent (s : State) (a : Nat) : State := s.clearBits (MNG_PRESENT.MASK (a / 32)) (2 ^ (a % 32))
def present (s : State) (a : Nat) : Bool := s.hasBit (MNG_PRESENT.MASK (a / 32)) (a % 32)

/-- The lowest free address (R290). -/
def freeAddress (s : State) : Option Nat := ((List.range 127).map (· + 1)).find? fun a => !present s a

/-- The ring-owner engine (Table 7.12). -/
def ringOwner (s : State) : Option Nat := (List.range 4).find? fun e => s.on (CAM_STATUS.RINGOWN e) && engineRuns s e

/-- Task 0 of the ring-owner engine takes RING_ABORT (R293, Table 7.8); its wait, if it waits, ends with T = 1. A
task that is IDLE, FAULTED or FROZEN takes nothing. -/
def ringAbortTask (s : State) : State :=
  match ringOwner s with
  | none => s
  | some e =>
    let x := s.task e 0
    match x.st with
    | .idle | .faulted | .frozen => s
    | .wait => takeExc (s.setTask e 0 { x with st := .ready, wait := none, resumeBy := none, t := true }) e 0 7
    | _ => takeExc s e 0 7

/-- The node is no longer on the ring: the hold is released, the bypass closes, the WAITSTEPs end with T = 1
and the ring owner takes RING_ABORT (R291). -/
def offRing (s : State) : State :=
  let fs := [MNG_STATUS.HOLD, MNG_STATUS.MASTER_ACT, MNG_STATUS.SILENT, MNG_STATUS.OPEN, MNG_STATUS.ADDRV, MNG_STATUS.ADDR]
  let s1 := State.each fs (fun s f => s.set f 0) (s.setRing { tx := s.ring.tx })
  ringAbortTask (abortSteps (opEnd s1 4))

/-- The node leaves the ring (R291): its drain begins. -/
def leaveRing (s : State) : State :=
  if jstate s = 1 ∨ jstate s = 2 then offRing (s.set MNG_STATUS.JSTATE 3) else s

/-- The end of the ring's drain. -/
def ringDrained (s : State) : State :=
  if jstate s = 3 then (s.set MNG_STATUS.JSTATE 0).set MNG_CTRL.EN 0 else s

/-- The code with which the ring's enable is refused (Table 9.5); 0 for none. -/
def ringReason (s : State) : Nat :=
  let dl0 := s.get MNG_STEPDL.DL0
  firstCode
    [(0x01, decide (s.get MNG_STEPDL.DLN % 2 ^ 14 = 0) || (decide (dl0 % 2 ^ 14 = 0) && decide (dl0 ≠ 0))),
     (0x02, s.on MNG_CFG.MASTER && outside 1 128 (s.get MNG_CFG.EXPECT)),
     (0x03, unusable s 16 || unusable s 17)]

/-- The node's enable: it inserts itself and listens, or is refused under R20 (R289). -/
def enableRing (s : State) : State :=
  let code := ringReason s
  if code = 0 then
    let s1 := State.each (List.range 4) (fun s g => s.set (MNG_PRESENT.MASK g) 0) (s.setRing {})
    (s1.set MNG_CTRL.EN 1).set MNG_STATUS.JSTATE 1
  else s.set MNG_STATUS.REASON code

/-- `RING_ENABLE` (R289). -/
def execRingEnable (s : State) : Host.Outcome State Fault Refusal :=
  .next (if s.on MNG_CTRL.EN || !servesAt s 3 then s else enableRing s)

/-- A listening node opens its bypass and drives MRING_OUT, unless MRING_IN reads low for want of VIO (R289, R514). -/
def insertNode (s : State) : State :=
  if decide (jstate s = 1) && s.ring.inserted.isNone && s.supply.vio then
    s.setRing { s.ring with inserted := some s.now }
  else s

/-- `RING_INSERT` (R289): MRING_IN has rested high for 2 µs. -/
def execRingInsert (s : State) : Host.Outcome State Fault Refusal :=
  .next (if servesAt s 3 then insertNode s else s)

/-- `RING_MASTER_START` (R289): 500 µs after insertion without a STATE frame, a master originates cycles, takes
address 0 and is joined; after a master loss it first has every node drop its address (R290). -/
def execRingMasterStart (afterLoss : Bool) (s : State) : Host.Outcome State Fault Refusal :=
  match s.ring.inserted with
  | none => .next s
  | some t =>
    .next (if decide (jstate s = 1) && s.on MNG_CFG.MASTER then
      let s0 := s.expire (t + 50000)
      let s1 := ((s0.set MNG_STATUS.MASTER_ACT 1).set MNG_STATUS.ADDR 0).set MNG_STATUS.ADDRV 1
      let s2 := (setPresent s1 0).setRing { s1.ring with clear := afterLoss, stateSeen := s0.now, ownSeen := s0.now }
      joinRing s2 (ringState s)
    else s)

/-- `RING_LEAVE` (R291): EN is cleared. -/
def execRingLeave (s : State) : Host.Outcome State Fault Refusal := .next (if s.on MNG_CTRL.EN then leaveRing s else s)

/-! ### Stepping -/

/-- `MSTEP_ADVANCE` (R282): MSTEP rises, and a joined node counts the edge. While it holds the line there is none, and
within an abort it counts none (R293). (DEDUCED, log entry 50) -/
def execMstepAdvance (s : State) : Host.Outcome State Fault Refusal :=
  let s0 := seeLine s true
  .next (if !vsysRuns s then s
    else if !joined s || s.on MNG_STATUS.HOLD || s.ring.window then s0
    else
      let n := ringState s
      let s1 := notice (s0.addWrap MNG_CNT.ADV 1) (mngEv 0 .notice)
      if n = 255 then s1
      else
        let s2 := enterRingState s1 (n + 1)
        let retake := if n + 1 = 255 then none else some s.now
        wakeStep (s2.setRing { s2.ring with retakeAt := retake }) (n + 1))

/-- `HOLD_RETAKE` (R283): 2.0 µs after the edge the node takes its hold again. -/
def execHoldRetake (s : State) : Host.Outcome State Fault Refusal :=
  match s.ring.retakeAt with
  | none => .next s
  | some t => .next (if joined s then takeHold (s.expire (t + 200)) else s)

/-- The step deadline of the present state in µs; none where it has none (R285). -/
def stepDeadline (s : State) : Option Nat :=
  deadlineUs (s.get (if ringState s = 0 then MNG_STEPDL.DL0 else MNG_STEPDL.DLN))

/-! ### Aborts -/

/-- The master begins the first of its abort requests: it takes its hold (R293). While the ring is open the request
waits (R297). -/
def beginAbort (s : State) : State :=
  if masterActs s && s.ring.abortHold.isNone && !s.ring.requests.isEmpty && !s.on MNG_STATUS.OPEN then
    let s1 := takeHold s
    s1.setRing { s1.ring with abortHold := some s.now, abortSent := false }
  else s

/-- The master takes the request `q`. -/
def requestAbort (s : State) (q : AbortReq) : State :=
  beginAbort (s.setRing { s.ring with requests := s.ring.requests ++ [q] })

/-- ISOSTATE, where 0xFF names the present state (R292): the one in which the abort is requested.
(DESIGN CHOICE, log entry 134) -/
def isoTarget (s : State) : Nat := if s.get MNG_CFG.ISOSTATE = 255 then ringState s else s.get MNG_CFG.ISOSTATE

/-- The node itself wants an abort to `n`: the master's own request needs no frame (R293). -/
def wantAbort (s : State) (n : Nat) : State :=
  if masterActs s then requestAbort s { target := n, node := s.get MNG_STATUS.ADDR }
  else s.setRing { s.ring with wants := s.ring.wants ++ [n] }

/-! ### What waits while the ring is open (R297) -/

/-- The groups in use. -/
def groupsInUse (s : State) : List Nat := (List.range 4).filter fun g => decide (s.get (MNG_PRESENT.MASK g) ≠ 0)

/-- The polls of kind `h` for the groups `gs`; the master enters its own bit. -/
def pollBodies (s : State) (h : Bool) (gs : List Nat) : List Nat :=
  gs.map fun g => pollBody h g (if g = 0 ∧ (¬ h ∨ s.on MNG_STATUS.HOLD) then 1 else 0)

/-- The master sends holder polls for every group in use (R295), after what it sends already. -/
def holderPolls (s : State) : State :=
  let frames := (pollBodies s true (groupsInUse s)).map fun b => ringFrame b
  s.setRing { s.ring with tx := s.ring.tx ++ frames, polls := groupsInUse s }

/-- The master sends the holder polls of R295, or has them wait. -/
def isolatePolls (s : State) : State :=
  if s.on MNG_STATUS.OPEN then s.setRing { s.ring with pollsWait := true }
  else
    let s1 := holderPolls s
    s1.setRing { s1.ring with isolating := true, found := [], pollsWait := false }

/-- The master sends ISOLATE for node `a`, or has it wait. -/
def sendIsolate (s : State) (a : Nat) : State :=
  if s.on MNG_STATUS.OPEN then s.setRing { s.ring with isoWaits := s.ring.isoWaits ++ [a] }
  else
    let s1 := ringSendAcked s (isolateBody a)
    s1.setRing { s1.ring with isoAt := some s.now, stuckPolled := false }

/-- A frame of the master's own has returned, which it removes: what waited for that goes on, the resending of frames
among it (R297). What the command sends beside follows it. (DEDUCED, log entry 125) -/
def ringReturned (s : State) : State :=
  let s1 := (s.setRing { s.ring with ownSeen := s.now, tx := [] }).set MNG_STATUS.OPEN 0
  if s.on MNG_STATUS.OPEN then
    let again := s.ring.unacked.map fun x => { x with resends := 0 }
    let s2 := State.each s.ring.isoWaits sendIsolate (s1.setRing { s1.ring with isoWaits := [], unacked := again })
    beginAbort (if s.ring.pollsWait then isolatePolls s2 else s2)
  else s1

/-- `ABORT_HOLD_WAIT_END` (R293): 3 µs after its hold the master sends ABORT; while the ring is open it waits (R297). -/
def execAbortHoldWaitEnd (s : State) : Host.Outcome State Fault Refusal :=
  match s.ring.abortHold, s.ring.requests with
  | some t, r :: _ =>
    if s.ring.abortSent || !masterActs s || s.on MNG_STATUS.OPEN then .next s
    else
      let s1 := s.expire (t + 300)
      let q := s.ring.abortSeq
      let s2 := s1.setRing { s1.ring with abortSent := true, abortSeq := (q + 1) % 16, window := true, tx := [] }
      .next (ringSendAcked s2 (abortBody r.target r.node q))
  | _, _ => .next s

/-- An ABORT takes effect at the node (R293). A remembered STEP stays where the target is the state before its own
(R226). -/
def applyAbort (s : State) (target node seq : Nat) : State :=
  let s1 := agree (enterRingState s target)
  let s2 := if s.on MNG_STATUS.HOLD then s1.setRing { s1.ring with retakeAt := none } else takeHold s1
  let s3 := ((s2.set MNG_LASTAB.TARGET target).set MNG_LASTAB.NODE node).set MNG_LASTAB.SEQ seq
  let s4 := notice (s3.addSat MNG_CNT.ABORTS 1) (mngEv 1 .notice)
  let kept := s.ring.remembered.filter fun n => decide (n = target + 1)
  ringAbortTask (abortSteps (s4.setRing { s4.ring with window := true, remembered := kept }))

/-- The STATE frame that the master sends now. -/
def masterState (s : State) : Nat := stateBody s.ring.seq (ringState s) (enumerated s) false 0 0

/-- Holders as the last poll found them, in ascending address order. -/
def holders (s : State) : List Nat := (List.range 128).filter fun a => s.hasBit (MNG_HOLDERS.MASK (a / 32)) (a % 32)

/-- The STATE frame `masterState` has been sent: its sequence is outstanding, of which the latest 8 are kept, and the
next frame has the next one. (DEDUCED, log entry 110) -/
def stateSent (s : State) : State :=
  let r := s.ring
  s.setRing { r with seq := (r.seq + 1) % 16, seqs := (r.seqs ++ [r.seq]).drop (r.seqs.length - 7) }

/-- The master's own ABORT has returned: it acts on it, sends STATE with the target state, isolates the holders
found where R295 asked for the abort, and takes the next request. -/
def masterAborted (s : State) (target node seq : Nat) : State :=
  let iso := (s.ring.requests.head?.map AbortReq.iso).getD false
  let s1 := applyAbort (ringAck (ringReturned s) (abortBody target node seq)) target node seq
  let r := s1.ring
  let s2 := stateSent (s1.setRing { r with requests := r.requests.drop 1, abortHold := none, abortSent := false,
                                           tx := r.tx ++ [ringFrame (masterState s1)] })
  beginAbort (if iso then State.each r.found sendIsolate (s2.setRing { s2.ring with found := [] }) else s2)

/-- `RING_ABORT_FRAME` (R293). -/
def execRingAbortFrame (target : BitVec 8) (node : BitVec 7) (seq : BitVec 4) (s : State) :
    Host.Outcome State Fault Refusal :=
  .next (if masterActs s then (if s.ring.abortSent then masterAborted s target.toNat node.toNat seq.toNat else s)
    else
      let s1 := ringSend s [abortBody target.toNat node.toNat seq.toNat]
      if joined s then applyAbort s1 target.toNat node.toNat seq.toNat
      else if s.ring.inserted.isSome then s1 else s)

/-! ### STATE frames and cycles -/

/-- Frame `x` is no longer resent: its third resending has not returned within 200 µs, and frames do return (R289,
R297). -/
def givenUp (s : State) (x : RingSent) : Bool :=
  !s.on MNG_STATUS.OPEN && decide (3 ≤ x.resends) && decide (x.sentAt + 20000 ≤ s.now)

/-- The master gives up what is no longer resent; an abort whose ABORT this is ends there, and the next request begins.
(DEDUCED, log entry 125) -/
def giveUp (s : State) : State :=
  let lost := s.ring.unacked.filter (givenUp s)
  let s1 := s.setRing { s.ring with unacked := s.ring.unacked.filter fun x => !givenUp s x }
  if s.ring.abortSent && lost.any (fun x => decide (bodyType x.frame = 3)) then
    beginAbort (s1.setRing { s1.ring with
      requests := s1.ring.requests.drop 1, abortHold := none, abortSent := false, window := false })
  else s1

/-- `RING_CYCLE` (R288): a STATE frame, the presence polls, the holder polls that have not returned (R289), and an ENUM
while an address is free; enumeration and isolation wait while the ring is open (R297). (DEDUCED, log entry 53) -/
def execRingCycle (s : State) : Host.Outcome State Fault Refusal :=
  if !masterActs s then .next s
  else
    let s0 := giveUp (match s.ring.cycleAt with
      | some t => s.expire (t + 10000)
      | none => s)
    let polls := pollBodies s0 false (groupsInUse s0) ++
      (if s0.on MNG_STATUS.OPEN then [] else pollBodies s0 true s0.ring.polls)
    let s1 := stateSent (ringSend s0 (masterState s0 :: polls))
    let s2 := s1.setRing { s1.ring with cycleAt := some s0.now }
    match freeAddress s0 with
    | some a =>
      .next (if s.on MNG_STATUS.OPEN then s2
        else ringSendAcked (s2.setRing { s2.ring with clear := false }) (enumBody a false s0.ring.clear))
    | none => .next s2

/-- The master has met another one and stops originating (R297); requests of its own go the way of any node's. -/
def stopMaster (s : State) : State :=
  let own := s.ring.requests.filter fun q => decide (q.node = s.get MNG_STATUS.ADDR) && !q.iso
  (s.setRing { s.ring with
    wants := s.ring.wants ++ own.map AbortReq.target, requests := [], abortHold := none, abortSent := false, unacked := [],
    polls := [], isolating := false, found := [], cmdPoll := false, isoWaits := [], pollsWait := false, isoAt := none,
    seqs := [] }).set
    MNG_STATUS.MASTER_ACT 0

/-- A STATE frame that the master did not send shows another master; its own completes a round and may carry a
request (R293, R297). -/
def masterSawState (s : State) (f : StateFrame) : State :=
  if s.ring.seqs.contains f.seq.toNat then
    let s1 := ringReturned s
    let later := s1.ring.seqs.drop (s.ring.seqs.idxOf f.seq.toNat + 1)
    let s2 := s1.setRing { s1.ring with stateSeen := s.now, window := false, seqs := later }
    let s3 := s2.set MNG_STATUS.SILENT 0
    if f.areq then requestAbort s3 { target := f.target.toNat, node := f.node.toNat } else s3
  else raise (stopMaster s) (mngEv 10 .fault)

/-- The content of a frame as it leaves the node, which fills in what Table 9.4 gives it: AREQ where it arrives 0 and
the node wants an abort, TAKEN of an ENUM that the node takes or whose address it has, and its own bit of a POLL. -/
def fillBody (s : State) (body : Nat) : Nat :=
  let a := s.get MNG_STATUS.ADDR
  match bodyType body, s.ring.wants with
  | 1, n :: _ =>
    if bitOf body 15 = 1 then body else body / 2 ^ 16 * 2 ^ 16 + 2 ^ 15 + a * 2 ^ 8 + n
  | 2, _ =>
    let fresh := joined s && !s.on MNG_STATUS.ADDRV && decide (bitOf body 24 = 0) && decide (bitOf body 35 = 0)
    let mine := s.on MNG_STATUS.ADDRV && decide (body / 2 ^ 25 % 128 = a) && decide (bitOf body 35 = 0)
    if fresh || mine then setBitNat body 24 else body
  | 4, _ =>
    let hold := decide (bitOf body 35 = 1)
    if s.on MNG_STATUS.ADDRV && decide (a / 32 = body / 2 ^ 32 % 4) && (!hold || s.on MNG_STATUS.HOLD) then
      setBitNat body (a % 32)
    else body
  | _, _ => body

/-- The content of a STATE frame. -/
def frameBody (f : StateFrame) : Nat :=
  stateBody f.seq.toNat f.state.toNat f.count.toNat f.areq f.node.toNat f.target.toNat

/-- A STATE frame passes on, with the node's request where AREQ arrives 0 (R293). -/
def fillAreq (s : State) (f : StateFrame) : State :=
  let s1 := ringSend s [fillBody s (frameBody f)]
  if f.areq then s1 else s1.setRing { s1.ring with wants := s1.ring.wants.drop 1 }

/-- The counter against the state `n` of an intact frame (R294). -/
def checkState (s : State) (n : Nat) : State :=
  if s.ring.window then (agree s).setRing { (agree s).ring with window := false }
  else if n = ringState s then agree s
  else if s.ring.mismatches = 0 then s.setRing { s.ring with mismatches := 1 }
  else wakeStep (raise (agree (enterRingState s n)) (mngEv 9 .fault)) n

/-- `RING_STATE_FRAME` (R289, R290, R293, R294). -/
def execRingStateFrame (f : StateFrame) (k : State) : Host.Outcome State Fault Refusal :=
  let s := if k.ring.inserted.isSome then seeLine k f.line else k
  .next (if masterActs s then masterSawState s f
    else if s.ring.inserted.isNone then s
    else
      let s1 := (fillAreq s f).set MNG_STATUS.SILENT 0
      let s2 := s1.setRing { s1.ring with stateSeen := s.now }
      if jstate s = 1 then joinRing s2 f.state.toNat
      else if !joined s then s
      else
        let s3 := checkState s2 f.state.toNat
        if f.count.toNat = 128 ∧ ¬ s.on MNG_STATUS.ADDRV then leaveRing (raise s3 (mngEv 11 .fault)) else s3)

/-! ### Enumeration, polls and losses -/

/-- Every node drops its address (R290): only the master stays enumerated, at address 0. -/
def dropAddresses (s : State) : State :=
  let s1 := State.each [1, 2, 3] (fun s g => s.set (MNG_PRESENT.MASK g) 0) s
  (s1.set (MNG_PRESENT.MASK 0) (s.get (MNG_PRESENT.MASK 0) % 2)).set MNG_STATUS.ADDRV 0

/-- `RING_ENUM_FRAME` (R290). -/
def execRingEnumFrame (offered : BitVec 7) (taken clr : Bool) (s : State) : Host.Outcome State Fault Refusal :=
  let a := offered.toNat
  .next (if masterActs s || s.ring.inserted.isNone then s
    else
      let s1 := ringSend s [fillBody s (enumBody a taken clr)]
      if clr then dropAddresses s1
      else if joined s && !s.on MNG_STATUS.ADDRV && !taken then
        setPresent ((s1.set MNG_STATUS.ADDR a).set MNG_STATUS.ADDRV 1) a
      else s1)

/-- `RING_ENUM_RETURN` (R290): an address taken is in use, NODE_JOIN is raised, and a master that waited for
EXPECT may release (R284). -/
def execRingEnumReturn (offered : BitVec 7) (taken clr : Bool) (s : State) : Host.Outcome State Fault Refusal :=
  let a := offered.toNat
  let sent := s.ring.unacked.any fun x => decide (x.frame = enumBody a false clr)
  .next (if masterActs s && sent then
    let s1 := ringAck (ringReturned s) (enumBody a false clr)
    if taken && !clr && !present s a then useRemembered (notice (setPresent s1 a) (mngEv 2 .notice)) else s1
  else s)

/-- `RING_POLL_FRAME` (R287): the node sets its own bit, of presence or of its hold. -/
def execRingPollFrame (holders : Bool) (group : BitVec 2) (bits : Word) (s : State) : Host.Outcome State Fault Refusal :=
  let g := group.toNat
  .next (if masterActs s || s.ring.inserted.isNone then s
    else
      let b := fillBody s (pollBody holders g bits.toNat)
      let s1 := ringSend s [b]
      if holders then s1 else s1.set (MNG_PRESENT.MASK g) (s.get (MNG_PRESENT.MASK g) ||| b % 2 ^ 32))

/-- A presence poll of group `g` returned: a node missed by two consecutive polls is lost (R291). -/
def presencePoll (s : State) (g bits : Nat) : State :=
  State.each ((List.range 32).filter fun k => s.hasBit (MNG_PRESENT.MASK g) k)
    (fun s k =>
      let a := 32 * g + k
      let n := if bitOf bits k = 1 then 0 else NMap.get 0 s.ring.absent a + 1
      let s1 := s.setRing { s.ring with absent := NMap.put 0 s.ring.absent a (if n = 2 then 0 else n) }
      if n = 2 then ringSendAcked s1 (lostBody a) else s1) s

/-- `RING_POLL_RETURN` (R291, R295): a presence poll, or a holder poll, whose last group leads to the abort of
R295. -/
def execRingPollReturn (holders : Bool) (group : BitVec 2) (bits : Word) (s : State) : Host.Outcome State Fault Refusal :=
  let g := group.toNat
  .next (if !masterActs s then s
    else
      let s1 := ringReturned s
      if !holders then presencePoll s1 g bits.toNat
      else
        let s2 := s1.set (MNG_HOLDERS.MASK g) bits.toNat
        let left := s1.ring.polls.filter (· ≠ g)
        let s3 := s2.setRing { s2.ring with polls := left, cmdPoll := s2.ring.cmdPoll && !left.isEmpty }
        if s1.ring.isolating && s1.ring.polls.contains g then
          let held := ((List.range 32).filter fun k => bitOf bits.toNat k = 1).map (32 * g + ·)
          let mine := held.filter fun a => !s3.ring.found.contains a
          let s4 := s3.setRing { s3.ring with found := sortBy (fun a b => decide (a ≤ b)) (s3.ring.found ++ mine) }
          if left.isEmpty then
            requestAbort (s4.setRing { s4.ring with isolating := false })
              { target := isoTarget s4, node := s.get MNG_STATUS.ADDR, iso := true }
          else s4
        else s3)

/-- `RING_NODE_LOST_FRAME` (R291, R292). -/
def execRingNodeLostFrame (addr : BitVec 7) (s : State) : Host.Outcome State Fault Refusal :=
  let a := addr.toNat
  .next (if s.ring.inserted.isNone then s
    else
      let s1 := if masterActs s then ringAck (ringReturned s) (lostBody a) else ringSend s [lostBody a]
      let s2 := raise (clearPresent s1 a) (mngEv 3 .warning)
      if masterActs s && s.on MNG_CFG.LOSTPOL then
        requestAbort s2 { target := isoTarget s2, node := s.get MNG_STATUS.ADDR }
      else s2)

/-- `RING_ISOLATE_FRAME` (R295): the node with the address passes the frame on, releases its hold, closes its bypass
and is ISOLATED; at the master its own ISOLATE has returned, and it sends NODE_LOST for the node. -/
def execRingIsolateFrame (addr : BitVec 7) (s : State) : Host.Outcome State Fault Refusal :=
  let a := addr.toNat
  .next (if s.ring.inserted.isNone then s
    else if s.on MNG_STATUS.ADDRV ∧ s.get MNG_STATUS.ADDR = a then
      raise (((offRing (ringSend s [isolateBody a])).set MNG_STATUS.JSTATE 4).set MNG_CTRL.EN 0) (mngEv 5 .fault)
    else if masterActs s then
      ringSendAcked (ringAck (ringReturned s) (isolateBody a)) (lostBody a)
    else ringSend s [isolateBody a])

/-- A frame of this type is passed on (Table 9.4). -/
def forwarded (type : Nat) : Bool := decide (1 ≤ type) && decide (type ≤ 6)

/-- `RING_FRAME_CRC_ERROR` (R287): the frame is counted and passed on as the node fills it in, still bad, unless its
type is reserved; the master removes it. (DEDUCED, log entry 51) -/
def execRingFrameCrcError (body : BitVec 40) (s : State) : Host.Outcome State Fault Refusal :=
  .next (if s.ring.inserted.isNone then s
    else
      let s1 := s.addSat MNG_CNT.CRCERR 1
      if masterActs s || !forwarded (bodyType body.toNat) then s1
      else s1.setRing { s1.ring with tx := [ringFrame (fillBody s body.toNat) true] })

/-- The entry of `l` that was sent first among those that may be resent. -/
def firstDue (l : List RingSent) : Option RingSent :=
  (sortBy (fun a b => decide (a.sentAt ≤ b.sentAt)) (l.filter fun x => decide (x.resends < 3))).head?

/-- `RING_FRAME_RESEND` (R289): the frame that was sent first and has not returned within 200 µs is resent, up to three
times, once frames return (R297). (DESIGN CHOICE, log entry 52) -/
def execRingFrameResend (s : State) : Host.Outcome State Fault Refusal :=
  match firstDue s.ring.unacked with
  | none => .next s
  | some x =>
    let s1 := s.expire (x.sentAt + 20000)
    .next (if masterActs s && !s.on MNG_STATUS.OPEN then
      s1.setRing { s1.ring with
        tx := [ringFrame x.frame],
        unacked := s.ring.unacked.erase x ++ [{ x with sentAt := s1.now, resends := x.resends + 1 }] }
    else s)

/-- `RING_SILENT` (R297). -/
def execRingSilent (s : State) : Host.Outcome State Fault Refusal :=
  .next (if joined s && !s.on MNG_STATUS.SILENT then
    raise ((s.expire (s.ring.stateSeen + 50000)).set MNG_STATUS.SILENT 1) (mngEv 8 .warning)
  else s)

/-- `RING_OPEN` (R297). -/
def execRingOpen (s : State) : Host.Outcome State Fault Refusal :=
  .next (if masterActs s && !s.on MNG_STATUS.OPEN then
    raise ((s.expire (s.ring.ownSeen + 20000)).set MNG_STATUS.OPEN 1) (mngEv 7 .fault)
  else s)

/-- `MSTEP_DEADLINE` (R285, R295): the step deadline expires with MSTEP at `line`; where it is low the event is raised,
and a master with AUTOISO begins to isolate. -/
def execMstepDeadline (line : Bool) (s : State) : Host.Outcome State Fault Refusal :=
  match s.ring.stateAt, stepDeadline s with
  | some t, some us =>
    if joined s then
      let s0 := seeLine (s.expire (deadlineAt t us)) line
      let s1 := s0.setRing { s0.ring with stateAt := none }
      .next (if s1.on MNG_STATUS.LINE then s1
        else
          let s2 := raise s1 (mngEv 4 .fault)
          if masterActs s && s.on MNG_CFG.AUTOISO then isolatePolls (ringQuiet s2) else s2)
    else .next s
  | _, _ => .next s

/-- `MSTEP_STUCK` (R296): 1 ms after the last ISOLATE with MSTEP at `line`; where it is low the master sends a further
holder poll, and once that has returned without a present node that holds the line, the event is raised.
(DEDUCED, log entry 111) -/
def execMstepStuck (line : Bool) (s : State) : Host.Outcome State Fault Refusal :=
  match s.ring.isoAt with
  | some t =>
    if masterActs s then
      let s1 := seeLine (s.expire (t + 100000)) line
      let ended := s1.setRing { s1.ring with isoAt := none, stuckPolled := false }
      .next (if s1.on MNG_STATUS.LINE then ended
        else if !s.ring.stuckPolled then
          let s2 := holderPolls (ringQuiet s1)
          s2.setRing { s2.ring with stuckPolled := true }
        else if !s.ring.polls.isEmpty then s1
        else if (holders s).any (present s) then ended
        else raise ended (mngEv 6 .fault))
    else .next s
  | none => .next s

/-! ### Host and program -/

/-- The action of an earlier MNG_CMD still runs, so that another GO is ignored (R16): a POLL's, until its polls have
returned. (DEDUCED, log entry 125) -/
def mngBusy (s : State) : Bool := s.ring.cmdPoll

/-- `MNG_CMD_ABORT` (R293, Table 9.16): carried out by a joined node. -/
def execMngCmdAbort (arg : BitVec 8) (s : State) : Host.Outcome State Fault Refusal :=
  .next (if joined s && !mngBusy s then wantAbort s arg.toNat else s)

/-- `MNG_CMD_ISOLATE` (R295): the master isolates node ARG. -/
def execMngCmdIsolate (arg : BitVec 8) (s : State) : Host.Outcome State Fault Refusal :=
  .next (if masterActs s && decide (arg.toNat < 128) && !mngBusy s then sendIsolate (ringQuiet s) arg.toNat else s)

/-- `MNG_CMD_POLL` (R295): the master sends holder polls. (DEDUCED, log entry 125) -/
def execMngCmdPoll (s : State) : Host.Outcome State Fault Refusal :=
  .next (if masterActs s && !mngBusy s then
    let s1 := holderPolls (ringQuiet s)
    s1.setRing { s1.ring with cmdPoll := !s1.ring.polls.isEmpty }
  else s)

/-- The task's result of a STEP. -/
def stepResult (s : State) (e t : Nat) (x : Task) (z : Bool) : State := s.setTask e t { x with z }

/-- `STEP` (R226) with A = 0. -/
def execStep (i : Issue) (n : BitVec 8) (s : State) : Host.Outcome State Fault Refusal :=
  issue i (stepWord n false) s fun s t x =>
    let e := i.eng.val
    if !s.on (CAM_STATUS.RINGOWN e) then takeExc s e t 5
    else if jstate s = 1 then stepResult (s.setRing { s.ring with remembered := some n.toNat }) e t x true
    else if joined s && s.on MNG_STATUS.HOLD && decide (n.toNat = ringState s + 1) then
      let s1 := s.setRing { s.ring with remembered := some n.toNat }
      stepResult (useRemembered s1) e t x true
    else stepResult s e t x false

/-- `STEP_ABORT` (R226, R293): STEP with A = 1; on a joined node Z reads 1. (DESIGN CHOICE, log entry 135) -/
def execStepAbort (i : Issue) (n : BitVec 8) (s : State) : Host.Outcome State Fault Refusal :=
  issue i (stepWord n true) s fun s t x =>
    let e := i.eng.val
    if !s.on (CAM_STATUS.RINGOWN e) then takeExc s e t 5
    else if joined s then wantAbort (stepResult s e t x true) n.toNat
    else stepResult s e t x false

/-- `WAITSTEP` (R217). -/
def execWaitstep (i : Issue) (n : BitVec 8) (deadline : BitVec 16) (s : State) : Host.Outcome State Fault Refusal :=
  issue i (waitstepWord n deadline) s fun s t x =>
    if n.toNat ≤ ringState s then s.setTask i.eng t x.startWait
    else enterWait s i.eng t x (.step n.toNat (deadlineOf s deadline))

end Sys2Proof.Machine
end

