-- ==== Sys2Proof/Machine/Thermal.lean ====
section
/-! DEFINITION. Thermal sensing and the Lupin ladder (R360 to R371): what a completed housekeeping round gives
them, and thermal shutdown. -/

namespace Sys2Proof.Machine

/-- A thermal event (Table 12.3): Foxglove line 3. -/
def thmEv (k : Nat) (cls : Cls) : Ev := { evt := THM_EVT.EVT, bit := k, src := 0x0D0 + k, line := 3, cls }

/-- `s` with the thermal state `x`. -/
def State.setThermal (s : State) (x : Thermal) : State := { s with thermal := x }

/-- The value of a reading that is marked invalid (R360). (DEDUCED, log entry 76) -/
def invalidReading : Nat := 0x8000

/-- The housekeeping table holds a valid reading of channel `c` (R334, R360). -/
def reads (s : State) (c : Nat) : Bool := hkValid s c && decide (hkVal s c ≠ invalidReading)

/-- Die sensor `n` is excluded (R361). -/
def excluded (s : State) (n : Nat) : Bool := s.hasBit THM_STATUS.DTEXCL n

/-- The die sensors that are not excluded, with their readings in 0.1 °C. -/
def dieReadings (s : State) : List (Nat × Int) :=
  ((List.range 8).filter fun n => !excluded s n && reads s (0x1E + n)).map fun n => (n, hkSigned s (0x1E + n))

/-- Sensor `n` lies more than 10 °C from the median, twice which is `m`, or not; the third round in a row
excludes it (R361). -/
def judgeSensor (m : Int) (s : State) (x : Nat × Int) : State :=
  let (n, v) := x
  let count := if 200 < (2 * v - m).natAbs then NMap.get 0 s.thermal.away n + 1 else 0
  if count < 3 then s.setThermal { s.thermal with away := NMap.put 0 s.thermal.away n count }
  else
    raise ((s.setThermal { s.thermal with away := NMap.put 0 s.thermal.away n 0 }).setBit THM_STATUS.DTEXCL n)
      (thmEv 2 .fault)

/-- Sensors are judged against the median of the round (R361). -/
def judgeSensors (s : State) : State :=
  let rs := dieReadings s
  if rs.isEmpty then s else State.each rs (judgeSensor (medianX2 (rs.map Prod.snd))) s

/-- The highest of some readings. -/
def highest : List Int → Option Int
  | [] => none
  | a :: l => match highest l with
    | some b => some (max a b)
    | none => some a

/-- OTPOK: every die sensor that is not excluded read between 0 °C and 85 °C (R367). -/
def formOtpOk (s : State) : State :=
  let ok := (List.range 8).all fun n =>
    excluded s n || (reads s (0x1E + n) && decide (0 ≤ hkSigned s (0x1E + n)) && decide (hkSigned s (0x1E + n) ≤ 850))
  s.set THM_STATUS.OTPOK (if ok then 1 else 0)

/-- Thresholds rise strictly. -/
def rising : List Nat → Bool
  | a :: b :: l => decide (a < b) && rising (b :: l)
  | _ => true

/-- The ladder takes the values of its registers, or keeps those it has (R365). -/
def takeLadder (s : State) : State :=
  let ts := [s.get THM_RUNGT0.T1, s.get THM_RUNGT0.T2, s.get THM_RUNGT0.T3, s.get THM_RUNGT0.T4,
    s.get THM_RUNGT1.T5, s.get THM_RUNGT1.T6, s.get THM_RUNGT1.T7]
  if rising ts && ts.all fun t => decide (60 ≤ t) && decide (t ≤ 155) then
    let l : Ladder :=
      { twarn := s.get THM_CFG.TWARN, stofs := s.get THM_CFG.STOFS, stgEn := s.on THM_CFG.STG_EN,
        hyst := s.get THM_CFG.HYST, dwell := s.get THM_CFG.DWELL, thresholds := ts }
    (s.setThermal { s.thermal with ladder := l }).set THM_STATUS.CFGBAD 0
  else s.set THM_STATUS.CFGBAD 1

/-- The highest valid TMON reading less STOFS, where the ladder uses it (R363). -/
def stageTerm (s : State) : Option Int :=
  if s.thermal.ladder.stgEn then
    (highest (((List.range 6).filter fun k => reads s (0x2A + k)).map fun k => hkSigned s (0x2A + k))).map
      fun t => t - s.thermal.ladder.stofs * 10
  else none

/-- Threshold Tr of the ladder, in 0.1 °C. -/
def threshold (l : Ladder) (r : Nat) : Int := (l.thresholds.getD (r - 1) 0 * 10 : Nat)

/-- The highest rung whose threshold is at or below `tj`; 0 for none (R363). -/
def rungFor (l : Ladder) (tj : Int) : Nat :=
  ((List.range 8).filter fun r => decide (0 < r) && decide (threshold l r ≤ tj)).foldl max 0

/-- The ladder moves to rung `r`: RUNG_CHANGE is raised, and with the BK caps the capacity of BK rails changes
(R273, R363, R364). -/
def toRung (s : State) (r : Nat) : State :=
  let s1 := (s.setThermal { s.thermal with below := 0 }).set THM_STATUS.RUNG r
  dirtyLimits (notice s1 (thmEv 0 .notice))

/-- Four or more die sensors are excluded, so that the ladder holds rung 7 (R361). -/
def heldAtSeven (s : State) : Bool := decide (4 ≤ popCount 8 (s.get THM_STATUS.DTEXCL))

/-- The rung after a round with TJ_EFF `tj` (R361, R363). -/
def stepLadder (s : State) (tj : Int) : State :=
  let l := s.thermal.ladder
  let r := rungNow s
  let up := if heldAtSeven s then 7 else rungFor l tj
  if r < up then toRung s up
  else if up < 7 ∧ 0 < r ∧ tj < threshold l r - l.hyst * 10 then
    let below := s.thermal.below + 1
    if 10 * l.dwell ≤ below then toRung s (r - 1) else s.setThermal { s.thermal with below }
  else s.setThermal { s.thermal with below := 0 }

/-- TJ_WARN (R366). -/
def warnTj (s : State) (tj : Int) : State :=
  let l := s.thermal.ladder
  if (l.twarn * 10 : Nat) ≤ tj then
    if s.thermal.warned then s else raise (s.setThermal { s.thermal with warned := true }) (thmEv 1 .warning)
  else if tj < (l.twarn * 10 : Nat) - (l.hyst * 10 : Nat) then s.setThermal { s.thermal with warned := false }
  else s

/-- The die sensors and the ladder at a round completion (R361 to R367). (DEDUCED, log entry 76) -/
def ladderRound (s : State) : State :=
  let s1 := takeLadder (formOtpOk (judgeSensors s))
  match highest ((dieReadings s1).map Prod.snd) with
  | none => if heldAtSeven s1 && decide (rungNow s1 < 7) then toRung s1 7 else s1
  | some tjmax =>
    let s2 := s1.set THM_STATUS.TJMAX (ofSigned 16 tjmax)
    let stage := (stageTerm s2).getD tjmax
    let s3 := s2.set THM_STATUS.STGBIND (if tjmax < stage then 1 else 0)
    warnTj (stepLadder s3 (max tjmax stage)) (max tjmax stage)

/-! ### NTC and TMON inputs -/

/-- A reading `v`, in 0.1 °C, lies outside a window of whole degrees; one that was outside returns 2 °C inside
(R65, R71). -/
def outOfWindow (was : Bool) (lo hi v : Int) : Bool :=
  if was then decide (v < lo * 10 + 20) || decide (hi * 10 - 20 < v) else decide (v < lo * 10) || decide (hi * 10 < v)

/-- `m` with bit `k` as `b`. -/
def withBit (m k : Nat) (b : Bool) : Nat := if b then setBitNat m k else m - bitOf m k * 2 ^ k

/-- NTCk at a round completion: the bank windows, and whether the reading is invalid (R65, R71, R362). -/
def ntcRound (s : State) (k : Nat) : State :=
  let t := s.thermal
  if !hkValid s (0x26 + k) then s
  else if hkVal s (0x26 + k) = invalidReading then
    s.setThermal { t with chgOut := withBit t.chgOut k true, disOut := withBit t.disOut k true,
                          ntcBad := withBit t.ntcBad k true }
  else
    let v := hkSigned s (0x26 + k)
    let chg := outOfWindow (decide (bitOf t.chgOut k = 1)) (s.getSigned CHG_TWIN.TCHG_LO) (s.getSigned CHG_TWIN.TCHG_HI) v
    let dis := outOfWindow (decide (bitOf t.disOut k = 1)) (s.getSigned CHG_TWIN.TDIS_LO) (s.getSigned CHG_TWIN.TDIS_HI) v
    s.setThermal { t with chgOut := withBit t.chgOut k chg, disOut := withBit t.disOut k dis,
                          ntcBad := withBit t.ntcBad k false }

/-- NTC_FAULT, once for each NTC whose reading has become invalid; `was` holds those that were before (R362). -/
def ntcFaults (s : State) (was : Nat) : State :=
  State.each ((List.range 4).filter fun k => decide (bitOf s.thermal.ntcBad k = 1) && decide (bitOf was k = 0))
    (fun s _ => raise s (thmEv 3 .warning)) s

/-- TMONk at a round completion: its stage's indicator, and TMON_FAULT once for an invalid reading (R355,
R362). -/
def tmonRound (s : State) (k : Nat) : State :=
  let t := s.thermal
  if !hkValid s (0x2A + k) then s
  else if hkVal s (0x2A + k) = invalidReading then
    let s1 := s.setThermal { t with tmonBad := withBit t.tmonBad k true }
    if bitOf t.tmonBad k = 1 then s1 else raise s1 (thmEv 4 .warning)
  else stageReading (s.setThermal { t with tmonBad := withBit t.tmonBad k false }) k (hkSigned s (0x2A + k))

/-- Every temperature input at a round completion. The events come in the order of their lines, so that the
lowest opens a record (R381). -/
def thermalRound (s : State) : State :=
  let s1 := dischargeRule (State.each (List.range 4) ntcRound s)
  let s2 := ntcFaults (ladderRound s1) s.thermal.ntcBad
  chgRefresh (State.each (List.range 6) tmonRound s2)

/-! ### Thermal shutdown -/

/-- A rail drains with its discharge forced (R368). -/
def forceOff (s : State) (r : Rail) : State :=
  let s1 := railOff s r
  match r with
  | .lp _ => s1
  | _ => if s.on (railEn r) then s1.setOut (railCode r) { s1.out (railCode r) with forced := true } else s1

/-- What a trip switches off (R368, R369): the charger is suspended with VDRV off, the power-down sequence ends
where one ran, no verdict stays stored, and the device halts. (DEDUCED, log entry 78) -/
def tsdActs (s : State) : State :=
  let s1 := State.each (enabledRails s) forceOff s
  let s2 := vdrvSwitch (chgRefresh (s1.setChg { s1.charger with switching := false, target := (0, 1), vdrvLost := true })) false
  let s3 := enginesDrain s2
  let s4 := if s3.on MNG_CTRL.EN then leaveRing s3 else s3
  let s5 := opEnd (opEnd (setStored ((endBootLoad s4).setSys { s4.sys with pd := none, op := 0 }) none) 2) 3
  let s6 := (toPhase (s5.set NRG_STATUS.PDOWN 0) 10).set SYS_SERVICE.LEVEL 0
  if decide (s6.fox.alive = .low) && !s.sys.k0Halt then aliveRun s6 else s6

/-- `THERMAL_SHUTDOWN` (R368): the comparator of die sensor `n` trips; it runs while the internal VSYS rails are up,
whatever K0 does. In a reset that holds, where nothing is on, the trip is only latched, and start-up acts on it
(R370). (DEDUCED, log entry 78) -/
def execThermalShutdown (n : Fin 8) (s : State) : Host.Outcome State Fault Refusal :=
  .next (if !s.supply.rails then s
    else
      let s1 := ((s.set THM_TSD.LATCH 1).set THM_TSD.SENSOR n).set THM_TSD.TJLAST (s.get THM_STATUS.TJMAX)
      if s.supply.nreset then s1 else tsdActs (raise s1 (thmEv 5 .critical)))

end Sys2Proof.Machine
end

