-- ==== Sys2Proof/Machine/Adc.lean ====
section
/-! DEFINITION. The ADC (R323 to R345): slices and their sequences, the housekeeping round, urgent conversions,
bursts, the capture buffer and snapshots; and the capacitor injections of R354. -/

namespace Sys2Proof.Machine


/-- Slice `k` is usable. -/
def sliceUsable (s : State) (k : Nat) : Bool := s.hasBit ADC_STATUS.USABLE k

/-- Slice `k` is enabled and does not drain. -/
def sliceRuns (s : State) (k : Nat) : Bool := s.on (ADC_SL_CTRL.EN k) && decide (bitOf s.adc.slDrain k = 0)

/-- Slice `k`'s sequence runs. -/
def seqRuns (s : State) (k : Nat) : Bool := decide (bitOf s.adc.running k = 1)

/-- Slice `k`'s sequence starts at entry 0. -/
def startSeq (s : State) (k : Nat) : State :=
  s.setAdc { s.adc with running := setBitNat s.adc.running k, pos := NMap.put 0 s.adc.pos k 0 }

/-- Slice `k`'s sequence stops, and a round no longer waits for it. -/
def stopSeq (s : State) (k : Nat) : State :=
  s.setAdc { s.adc with running := withBit s.adc.running k false, roundWaits := withBit s.adc.roundWaits k false }

/-- A refusal with code `code` of source `src` (R329). -/
def adcRefuse (s : State) (code src : Nat) : State := (s.set ADC_STATUS.REASON code).set ADC_STATUS.RSRC src

/-! ### Slices -/

/-- The entries of slice `k`'s sequence, at most 16. -/
def seqEntries (s : State) (k : Nat) : List Nat := List.range (min 16 (s.get (ADC_SL_CTRL.LEN k)))

/-- A channel that a sequence entry may name. -/
def seqChannel (c : Nat) : Bool := decide (c ≤ 0x3F) && !(decide (0x1A ≤ c) && decide (c ≤ 0x1D))

/-- A channel with "Yes" in Table 11.1. -/
def burstChannel (c : Nat) : Bool := decide (c ≤ 0x19) || (decide (0x30 ≤ c) && decide (c ≤ 0x3F))

/-- The code with which slice `k`'s enable is refused (Table 11.3); 0 for none. -/
def sliceReason (s : State) (k : Nat) : Nat :=
  let es := seqEntries s k
  let run := s.get (ADC_SL_CTRL.RUN k)
  firstCode
    [(0x01, decide (s.get SYS_SERVICE.LEVEL < 3)), (0x02, !sliceUsable s k),
     (0x03, es.any fun e => !seqChannel (s.get (ADC_SEQ.CH k e))),
     (0x04, es.any fun e => decide (s.get (ADC_SEQ.GAIN k e) ≠ 0) && decide (s.get (ADC_SEQ.CH k e) < 0x30)),
     (0x05, es.any fun e => decide (8 < s.get (ADC_SEQ.AVG k e)) ||
        decide (s.get (ADC_SEQ.AVG k e) < s.get (ADC_SEQ.SHIFT k e))),
     (0x06, outside 1 16 (s.get (ADC_SL_CTRL.LEN k)) || decide (run = 0) ||
        (decide (run = 3) && decide (s.get (ADC_SL_CTRL.PER k) = 0))),
     (0x07, s.on ADC_CAP.EN && decide (s.get ADC_CAP.SRC = 1) && decide (s.get ADC_CAP.SLICE = k))]

/-- Slice `k` is enabled, or refused (R20, R329). A RUN 2 sequence starts at once. -/
def enableSlice (s : State) (k : Nat) : State :=
  let code := sliceReason s k
  if code = 0 then
    let s1 := s.set (ADC_SL_CTRL.EN k) 1
    let s2 := s1.setAdc { s1.adc with perAt := NMap.put 0 s1.adc.perAt k (s1.now + 1) }
    notice (if s.get (ADC_SL_CTRL.RUN k) = 2 then startSeq s2 k else s2) (adcEv 2 .notice)
  else notice (adcRefuse s code k) (adcEv 2 .notice)

/-- `ADC_SLICE_ENABLE` (R329): an enabled or draining slice ignores it (R38). -/
def execAdcSliceEnable (k : Fin 4) (s : State) : Host.Outcome State Fault Refusal :=
  .next (if s.on (ADC_SL_CTRL.EN k) || !unitsServe s then s else enableSlice s k)

/-- `ADC_SLICE_DISABLE` (R330): the drain begins, and the entry under conversion ends DISCARDED. -/
def execAdcSliceDisable (k : Fin 4) (s : State) : Host.Outcome State Fault Refusal :=
  .next (if !sliceRuns s k then s
    else
      let s1 := s.setAdc { s.adc with slDrain := setBitNat s.adc.slDrain k }
      if seqRuns s k then
        let (i, s2) := (stopSeq s1 k).fresh
        ((s2.set (ADC_SL_RAW.RAW k) (Config.discardedRaw i)).set (ADC_SL_RAW.ENTRY k) (NMap.get 0 s.adc.pos k)).set
          (ADC_SL_RAW.DISCARDED k) 1
      else s1)

/-- The drain of slice `k` ends (R330, Table 11.7). (DESIGN CHOICE, log entry 77) -/
def sliceDrained (s : State) (k : Nat) : State :=
  if bitOf s.adc.slDrain k = 1 then
    let s1 := s.setAdc { s.adc with slDrain := withBit s.adc.slDrain k false, perAt := NMap.put 0 s.adc.perAt k 0 }
    notice (s1.set (ADC_SL_CTRL.EN k) 0) (adcEv 2 .notice)
  else s

/-- `ADC_SEQ_PERIOD` (R327): PER µs after the last start or the enable the sequence starts again, or a start is
skipped. (DEDUCED, log entry 75) -/
def execAdcSeqPeriod (k : Fin 4) (s : State) : Host.Outcome State Fault Refusal :=
  let t := NMap.get 0 s.adc.perAt k
  .next (if sliceRuns s k && decide (s.get (ADC_SL_CTRL.RUN k) = 3) && decide (0 < t) then
    let due := deadlineAt (t - 1) (s.get (ADC_SL_CTRL.PER k))
    let s0 := s.expire due
    let s1 := s0.setAdc { s0.adc with perAt := NMap.put 0 s0.adc.perAt k (due + 1) }
    if seqRuns s k then s1.addSat (ADC_SL_RAW.SKIP k) 1 else startSeq s1 k
  else s)

/-! ### Results -/

/-- The reading of channel `c` becomes its latest result; an excluded die sensor's is invalid (R328, R360). -/
def setLatest (s : State) (c reading : Nat) : State :=
  let v := if 0x1E ≤ c ∧ c ≤ 0x25 ∧ excluded s (c - 0x1E) then invalidReading else reading
  s.setAdc { s.adc with latest := NMap.put 0 s.adc.latest c v, latestValid := setBitNat s.adc.latestValid c,
                        sinceStart := setBitNat s.adc.sinceStart c }

/-- The entry after entry `e` of slice `k`: at the sequence's end RUN 1 and RUN 3 stop and RUN 2 goes on at
entry 0 (R327). -/
def nextEntry (s : State) (k e : Nat) : State :=
  if e + 1 < s.get (ADC_SL_CTRL.LEN k) then s.setAdc { s.adc with pos := NMap.put 0 s.adc.pos k (e + 1) }
  else if s.get (ADC_SL_CTRL.RUN k) = 2 then startSeq s k
  else stopSeq s k

/-- A signed reading that the equation of an input leaves open, or that has no 16-bit form, is `free`. -/
def signedReading (open' : Bool) (t free : Int) : Nat := ofSigned 16 (if open' ∨ t < -0x8000 ∨ 0x7FFF < t then free else t)

/-- ln(R_ntc / R26) in 2⁻⁸⁰ for a ball voltage of `uv` µV below the 10.0 kΩ pull-up to 1.8 V (Table 12.1). -/
def ntcLog (s : State) (uv : Nat) : Int :=
  (logOf (1000 * uv) - logOf ((1800000 - uv) * s.get THM_NTC.R26)) * ln2

/-- The reading of NTCk in 0.1 °C: invalid above 98 % or below 2 % of the 1.8 V reference, else the T that solves
R_ntc = R26 × exp(BETA × (1/T − 1/298.15 K)) (Table 12.1). (DEDUCED, log entry 76) -/
def ntcReading (s : State) (uv : Nat) : Nat :=
  if 1764000 < uv ∨ uv < 36000 then invalidReading
  else
    let beta : Int := s.get THM_NTC.BETA * 2 ^ 80
    let den := 2 * (100 * beta + 29815 * ntcLog s uv)
    let num := 2 * 298150 * beta - 5463 * (den / 2)
    let t := num.fdiv den + (if num.fmod den ≠ 0 ∧ Config.ntcRoundUp s.free then 1 else 0)
    signedReading (decide (den ≤ 0) || decide (s.get THM_NTC.R26 = 0)) t (Config.ntcAtZero s.free)

/-- The reading of TMONk in 0.1 °C: invalid below 200 mV, else (V − V0) / SLOPE (Table 12.1). Where SLOPE is 0
or the result has no 16-bit form, the value is free. (DEDUCED, log entry 76) -/
def tmonReading (s : State) (uv : Nat) : Nat :=
  if uv < 200000 then invalidReading
  else
    let slope : Int := s.get THM_TMON.SLOPE
    let num : Int := ((uv : Int) - s.get THM_TMON.V0 * 1000) * 10
    let t := num / slope + (if num % slope ≠ 0 ∧ Config.tmonRoundUp s.free then 1 else 0)
    signedReading (decide (slope = 0)) t (Config.tmonAtZero s.free)

/-- RAW of an entry (R328): the sum of its samples, shifted right by SHIFT. -/
def rawOf (codes : List (BitVec 12)) (shift : Nat) : Nat := (codes.map BitVec.toNat).foldl (· + ·) 0 / 2 ^ shift

/-- RAW scaled with 2^`extra` as the divisor (R328): in the channel's unit, or in µV at an NTC or stage input. The 4096
codes of an AIN channel span 2.5 V / gain, 50 000 of its units (Table 11.1). (DESIGN CHOICE, log entry 112) -/
def scaled (s : State) (c raw extra : Nat) : Int :=
  let (a, b) := if 0x30 ≤ c then (50000, 4095) else Config.adcScale c
  let den := (b + 1) * 2 ^ extra
  (if 0x30 ≤ c then 0 else Config.adcOffset c) + ((raw * a / den + (if raw * a % den ≠ 0 ∧ Config.adcRoundUp s.free then 1 else 0) : Nat) : Int)

/-- The reading that RAW gives (R328, R360). -/
def readingOf (s : State) (c raw extra : Nat) : Nat :=
  let v := scaled s c raw extra
  let s1 := { s with free := s.free + 1 }
  if 0x26 ≤ c ∧ c ≤ 0x29 then ntcReading s1 v.toNat
  else if 0x2A ≤ c ∧ c ≤ 0x2F then tmonReading s1 v.toNat
  else ofSigned 16 v

/-- The present entry of slice `k` ends with its 2^AVG samples (R328); OVERRANGE where one is at full scale. A burst
pauses the slices (R338). -/
def seqEntryDone (s : State) (k : Nat) (codes : List (BitVec 12)) : State :=
  let e := NMap.get 0 s.adc.pos k
  let avg := s.get (ADC_SEQ.AVG k e)
  if seqRuns s k ∧ s.adc.burst.isNone ∧ codes.length = 2 ^ avg then
    let shift := s.get (ADC_SEQ.SHIFT k e)
    let c := s.get (ADC_SEQ.CH k e)
    let raw := rawOf codes shift
    let s1 := ((s.set (ADC_SL_RAW.RAW k) raw).set (ADC_SL_RAW.ENTRY k) e).set (ADC_SL_RAW.DISCARDED k) 0
    let s2 := { (setLatest s1 c (readingOf s c raw (avg - shift))) with free := s.free + 2 }
    nextEntry (if codes.any fun x => decide (x = 0xFFF#12) then notice s2 (adcEv 8 .notice) else s2) k e
  else s

/-- Channel `c` of the base list has its result in this round (R331), unless a burst pauses the base slice (R338). -/
def baseDone (s : State) (c reading : Nat) : State :=
  if bitOf s.adc.baseLeft c = 1 ∧ s.adc.burst.isNone then
    let s1 := setLatest s c reading
    { (s1.setAdc { s1.adc with baseLeft := withBit s1.adc.baseLeft c false }) with free := s.free + 2 }
  else s

/-- The base list converts with AVG 4 and SHIFT 4 (R331). -/
def baseEntry (s : State) (c : Nat) (codes : List (BitVec 12)) : State :=
  if codes.length = 16 then baseDone s c (readingOf s c (rawOf codes 4) 0) else s

/-- `ADC_ENTRY_DONE` (R328, R331, R340, R360). -/
def execAdcEntryDone (e : AdcEntry) (s : State) : Host.Outcome State Fault Refusal :=
  .next (match e with
    | .seq k codes => seqEntryDone s k codes
    | .base c codes => baseEntry s c.toNat codes
    | .ntc k uv => baseDone s (0x26 + k) (ntcReading s uv)
    | .tmon k uv => baseDone s (0x2A + k) (tmonReading s uv)
    | .capture samples => captureSamples s samples)

/-! ### The housekeeping round -/

/-- The channels of the base list (R331). -/
def baseList : Nat := (List.range 14 |>.map (0x0C + ·)).foldl setBitNat 0 ||| (List.range 18 |>.map (0x1E + ·)).foldl setBitNat 0

/-- The base list runs: a slice is usable, and the level was S1 or higher (R331, R369). -/
def baseRuns (s : State) : Bool := decide (s.get ADC_STATUS.USABLE ≠ 0) && s.adc.doneAt.isSome

/-- The slices whose RUN 1 sequence a round starts. -/
def roundSlices (s : State) : List Nat :=
  (List.range 4).filter fun k => sliceRuns s k && decide (s.get (ADC_SL_CTRL.RUN k) = 1)

/-- A round starts (R332), and with it the controller port's poll pass (R469). -/
def startRound (s : State) : State :=
  let ks := roundSlices s
  let s1 := s.setAdc { s.adc with round := true, roundAt := some s.now, roundWaits := ks.foldl setBitNat 0,
                                  baseLeft := if baseRuns s then baseList else 0 }
  startPass (State.each ks startSeq s1)

/-- The device time of the next round's start. -/
def roundBoundary (s : State) : Nat := nextBoundary s.now 1000000 s.adc.roundAt


/-- The integrators' means since the last completion become readings, and the bank current is integrated (R324,
R346). -/
def readIntegrators (s : State) (iVaux iBank iChgIn : Nat) : State :=
  match s.adc.doneAt with
  | none => s
  | some t =>
    let s1 := setLatest (setLatest (setLatest s 0x1A iVaux) 0x1B iBank) 0x1C iChgIn
    let dq := signedOf 16 iBank * ((s.now - t : Nat) : Int)
    followRest ((s1.setAdc { s1.adc with doneAt := some s.now }).setWear
      { s1.wear with q := s1.wear.q + dq, coul := s1.wear.coul + dq }) (signedOf 16 iBank)

/-- The latest results enter the housekeeping table (R332). -/
def copyTable (s : State) : State :=
  let known := (List.range 64).filter fun c => bitOf s.adc.latestValid c = 1
  let s1 := State.each known (fun s c => s.set (ADC_HK.VAL c) (NMap.get 0 s.adc.latest c)) s
  (s1.set ADC_HKVAL0.VALID s.adc.latestValid).set ADC_HKVAL1.VALID (s.adc.latestValid / 2 ^ 32)

/-- The device input-power estimate of R345, in 10 mW units. -/
def powerEstimate (s : State) : State :=
  let pin : Nat :=
    if onAux s then hkVal s 0x14 * hkVal s 0x1A / 500
    else if onBank s then hkVal s 0x16 * (-(hkSigned s 0x1B)).toNat / 500
    else 0
  let loops := ((List.range 6).filter fun n => s.on (LP_CTRL.EN n)).foldl (fun a n => a + s.get (LP_PIN.PIN n)) 0
  let rest : Int := (pin : Int) - loops - (hkVal s 0x15 * hkVal s 0x1C / 500 : Nat)
  ((s.set ADC_PIN.PIN pin).set ADC_PINLOOP.PIN loops).set ADC_PINREST.PIN (ofSigned 32 rest)

/-- The load of R274 in 10 mW units. -/
def loadEstimate (s : State) : Int :=
  if onAux s then ((hkVal s 0x1A : Int) - hkVal s 0x1C) * hkVal s 0x15 / 500
  else if onBank s then -(hkSigned s 0x1B) * hkVal s 0x16 / 500
  else 0

/-- The ledger's measured inputs (R254, R257, R274, R346), of the channels read since start-up. -/
def feedLedger (s : State) : State :=
  let l := s.ledger
  let (i, s1) := s.fresh
  let load := loadEstimate s
  let here (b : Bool) (t : Option Nat) := if b then some s.now else t
  { s1 with ledger :=
    { l with
      vauxAt := here (hkRead s 0x14) l.vauxAt
      energyAt := here (hkRead s 0x16) l.energyAt
      energy := if hkRead s 0x16 then bankEnergy s s.path.bkb else l.energy
      loadAt := here (hkRead s 0x15 && hkRead s 0x1B) l.loadAt
      load := if hkRead s 0x15 && hkRead s 0x1B then
          (if load < 0 then Config.negativeLoad i else load.toNat)
        else l.load } }


/-- A die sensor has moved by more than 10 °C since the last interleave correction (R339). -/
def dieMoved (s : State) : Bool :=
  (List.range 8).any fun n =>
    !excluded s n && decide (100 < (hkSigned s (0x1E + n) - signedOf 16 (NMap.get noTemp s.adc.corrTemps n)).natAbs)

/-- MISMATCH: the corrections no longer hold (R339). -/
def mismatch (s : State) : State :=
  raise ((s.setAdc { s.adc with corrTemps := [] }).set ADC_MISM.CONV 0) (adcEv 7 .warning)

/-- The interleave corrections no longer hold at a round completion (R339). -/
def mismatchDue (s : State) : Bool := !s.adc.corrTemps.isEmpty && dieMoved s

/-- A round completes (R332, R345, R346, R361 to R367); MISMATCH, on the highest line, comes last (R381). -/
def completeRound (s : State) (iVaux iBank iChgIn : Nat) : State :=
  let s1 := copyTable (readIntegrators s iVaux iBank iChgIn)
  let s2 := notice ((s1.setAdc { s1.adc with round := false }).addWrap ADC_HKSTAT.ROUND 1) (adcEv 0 .notice)
  let s3 := if hkRead s2 0x16 then s2.setPath { s2.path with bkb := hkVal s2 0x16 * 2 } else s2
  let s4 := feedLedger (powerEstimate (if s3.wear.qKnown then showBank s3 else s3))
  let s5 := thermalRound s4
  if mismatchDue s4 then mismatch s5 else s5

/-- The base list and every RUN 1 sequence have run once in the round that is under way. -/
def roundIsDone (s : State) : Bool := s.adc.round && decide (s.adc.roundWaits = 0) && decide (s.adc.baseLeft = 0)

/-- `HK_ROUND_START` (R332): a round with no base list and no RUN 1 sequence completes in its own handshake. While a
round is unfinished the boundary is that of HK_DEADLINE. -/
def execHkRoundStart (iVaux iBank iChgIn : BitVec 16) (s : State) : Host.Outcome State Fault Refusal :=
  .next (if s.adc.round || !unitsServe s then s
    else
      let s1 := startRound (s.expire (roundBoundary s))
      if roundIsDone s1 then completeRound s1 iVaux.toNat iBank.toNat iChgIn.toNat else s1)

/-- `HK_DEADLINE` (R333): the unfinished round is abandoned and the next begins. -/
def execHkDeadline (s : State) : Host.Outcome State Fault Refusal :=
  .next (if s.adc.round then startRound (raise (s.expire (roundBoundary s)) (adcEv 1 .fault)) else s)

/-- `HK_ROUND_COMPLETE` (R332): the base list and every RUN 1 sequence have run once. -/
def execHkRoundComplete (iVaux iBank iChgIn : BitVec 16) (s : State) : Host.Outcome State Fault Refusal :=
  .next (if roundIsDone s then completeRound s iVaux.toNat iBank.toNat iChgIn.toNat else s)

/-! ### Urgent conversions -/

/-- A channel that a slice converts. -/
def bySlice (c : Nat) : Bool := !(decide (0x1A ≤ c) && decide (c ≤ 0x1C))

/-- A request is dropped (R336). -/
def urgentDropped (s : State) : State :=
  notice (s.setAdc { s.adc with dropped := wrapAt 16 (s.adc.dropped + 1) }) (adcEv 3 .notice)

/-- An urgent request of `who` for channel `c` (R335 to R337): whether it is taken, and the state after it. -/
def urgentRequest (s : State) (who : Requester) (c : Nat) : Bool × State :=
  let s1 := s.setAdc { s.adc with asked := wrapAt 16 (s.adc.asked + 1) }
  if s.adc.urgent.isSome || s.adc.burst.isSome || (bySlice c && decide (s.get ADC_STATUS.USABLE = 0)) then
    (false, urgentDropped s1)
  else (true, s1.setAdc { s1.adc with urgent := some (who, c) })

/-- `RDADC_URGENT` (R227): an urgent request for an analog channel but 0x1D; derived channels are read at
once. -/
def execRdadcUrgent (i : Issue) (wd : Fin 16) (ch : BitVec 7) (s : State) : Host.Outcome State Fault Refusal :=
  issue i (rdadcWord wd ch true) s fun s t x =>
    let c := ch.toNat
    if 0x40 ≤ c ∨ c = 0x1D then s.setTask i.eng t (readResult x wd (if c < 0x40 then none else derivedChannel s c))
    else
      let (taken, s1) := urgentRequest s (.task i.eng t) c
      s1.setTask i.eng t (if taken then { x with wait := some (.urgent c wd) } else readResult x wd none)

/-- The value reaches its requester (R335). -/
def deliver (s : State) (who : Requester) (c v : Nat) : State :=
  match who with
  | .task e t =>
    let x := s.task e t
    match x.wait with
    | some (.urgent _ wd) =>
      finishHandover (s.setTask e t (readResult { x with wait := none } wd (some (readingWord c v)))) e
    | _ => s
  | .host k => endCommand s k { status := 0, r0 := readingWord c v }

/-- `URGENT_CONVERSION_DONE` (R335). -/
def execUrgentConversionDone (reading : BitVec 16) (s : State) : Host.Outcome State Fault Refusal :=
  match s.adc.urgent with
  | none => .next s
  | some (who, c) =>
    .next (deliver (s.setAdc { s.adc with urgent := none, served := wrapAt 16 (s.adc.served + 1) }) who c reading.toNat)

/-- `ADC_CLRCNT` (R337, Table 11.9). -/
def execAdcClrcnt (s : State) : Host.Outcome State Fault Refusal :=
  let s1 := s.setAdc { s.adc with asked := if s.adc.urgent.isSome then 1 else 0, served := 0, dropped := 0 }
  .next (if vsysRuns s then (s1.set ADC_SNAP.MISSED 0).set ADC_SNAP.ALSO 0 else s)

/-! ### Bursts -/

/-- The code with which a burst on channel `c` is refused (Table 11.3, R338); 0 for none. -/
def burstReason (s : State) (c : Nat) : Nat :=
  firstCode
    [(0x01, decide (s.get SYS_SERVICE.LEVEL < 3)), (0x02, decide (s.get ADC_STATUS.USABLE ≠ 15) || unusable s 22),
     (0x03, !burstChannel c), (0x07, s.on ADC_CAP.EN && decide (s.get ADC_CAP.SRC = 1)),
     (0x08, s.adc.burst.isSome || decide (s.get ADC_SNAP.STATE ≠ 0))]

/-- A burst starts. -/
def startBurst (s : State) (b : Burst) : State :=
  (s.setAdc { s.adc with burst := some b, burstCh := b.ch }).set ADC_STATUS.BURST 1

/-- The burst of ADC_BURST.GO runs. -/
def goRuns (s : State) : Bool := s.adc.burst.any fun b => b.injection.isNone

/-- `ADC_BURST_GO` (R338): while its own burst runs the field is busy (R16). -/
def execAdcBurstGo (s : State) : Host.Outcome State Fault Refusal :=
  let ch := s.get ADC_BURST.CH
  let code := burstReason s ch
  .next (if goRuns s || !unitsServe s then s
    else if code = 0 then startBurst s { ch, len := s.get ADC_BURST.LEN, start := s.now } else adcRefuse s code 4)

/-- The burst `b` reaches its length, and the interleave estimate is updated (R338, R339). -/
def burstEnds (s : State) (b : Burst) (converged limit : Bool) : State :=
  let s1 := stopBurst (s.expire (b.start + b.len * 100))
  if limit then mismatch s1 else if converged then s1.set ADC_MISM.CONV 1 else s1

/-- `BURST_END` (R338, R339). -/
def execBurstEnd (converged limit : Bool) (s : State) : Host.Outcome State Fault Refusal :=
  match s.adc.burst with
  | none => .next s
  | some b => .next (if b.injection.isSome then s else burstEnds s b converged limit)

/-- `MISM_CLR` (R339): the corrections are discarded. -/
def execMismClr (s : State) : Host.Outcome State Fault Refusal :=
  .next (if vsysRuns s then (s.setAdc { s.adc with corrTemps := [] }).set ADC_MISM.CONV 0 else s)

/-! ### Capture and snapshots -/

/-- The number of usable slices. -/
def usableSlices (s : State) : Nat := popCount 4 (s.get ADC_STATUS.USABLE)

/-- The code with which an enable of capture is refused (Table 11.3); 0 for none. -/
def captureReason (s : State) : Nat :=
  let src := s.get ADC_CAP.SRC
  let k := s.get ADC_CAP.SLICE
  let one := decide (src = 1)
  firstCode
    [(0x01, decide (s.get SYS_SERVICE.LEVEL < 3)), (0x02, unusable s 22 || (one && !sliceUsable s k)),
     (0x03, one && !burstChannel (s.get ADC_CAP.CH)),
     (0x07, one && (decide (k = s.get ADC_STATUS.BASE) || s.on (ADC_SL_CTRL.EN k) || decide (usableSlices s < 2))),
     (0x09, decide (src = 0) || decide (src = 3))]

/-- Capture is enabled: circular writing starts, at an index that R340 leaves open. -/
def startCapture (s : State) : State :=
  let s1 := (s.set ADC_CAP.EN 1).setAdc { s.adc with capPos := Config.captureStart s.free % 32768, capLen := 0 }
  { s1 with free := s.free + 1 }

/-- `CAPTURE_ENABLE` (R329, R340): an enabled capture ignores it (R38). -/
def execCaptureEnable (s : State) : Host.Outcome State Fault Refusal :=
  let code := captureReason s
  .next (if s.on ADC_CAP.EN || !unitsServe s then s else if code = 0 then startCapture s else adcRefuse s code 5)

/-- `ADC_CTRL_SNAP` (R341): a snapshot request with TRIG 2. -/
def execAdcCtrlSnap (s : State) : Host.Outcome State Fault Refusal :=
  .next (if vsysRuns s then snapRequest s 2 0 else s)

/-- `SNAPSHOT_FREEZE` (R341, R343): the fill takes `samples`, and ends when it has taken all its samples. The end of
capture or of a burst ends a fill by itself. -/
def execSnapshotFreeze (samples : List (BitVec 16)) (s : State) : Host.Outcome State Fault Refusal :=
  .next (if s.get ADC_SNAP.STATE = 1 then
    let s1 := captureSamples s samples
    if s1.adc.fillLeft = 0 then endFill (s1.expire s1.adc.fillEnd) else s1
  else s)

/-- The bytes of the frozen samples, oldest first. -/
def snapSamples (s : State) : List Byte :=
  (List.range (s.get ADC_SNAPINFO.CAPLEN)).flatMap fun i =>
    s.bytes (0x030000 + (s.get ADC_SNAPCAP.OLDEST + i) % 32768 * 2) 2

/-- The bytes that the snapshot digest covers (R344). -/
def snapMessage (s : State) : List Byte :=
  wordsBytes (([0x1A3C, 0x1A40, 0x1A44, 0x1A48, 0x1A4C] ++ (List.range 32).map fun q => 0x1C80 + 4 * q).map s.regWord) ++
    snapSamples s

/-- Eight digest words, the first four bytes in the first. (DEDUCED, log entry 79) -/
def digestWords (d : List Byte) : List Nat := (List.range 8).map fun i => leNat ((d.drop (4 * i)).take 4)

/-- `SNAPSHOT_DIGEST_DONE` (R344). -/
def execSnapshotDigestDone (s : State) : Host.Outcome State Fault Refusal :=
  .next (if decide (s.get ADC_SNAP.STATE = 2) && !s.on ADC_SNAP.DIGV then
    let s1 := State.each (digestWords (sha256 (snapMessage s))).zipIdx (fun s x => s.set (ADC_SNAPDIG.DIGEST x.2) x.1) s
    notice (s1.set ADC_SNAP.DIGV 1) (adcEv 6 .notice)
  else s)

/-- The held snapshot is released (R342), and the samples are counted anew (R343). -/
def snapRelease (s : State) : State :=
  if s.get ADC_SNAP.STATE = 2 then (s.setAdc { s.adc with capLen := 0 }).set ADC_SNAP.STATE 0 else s

/-- `SNAPSHOT_RELEASE` (R342), where the ADC's registers are served (R24, R304). -/
def execSnapshotRelease (s : State) : Host.Outcome State Fault Refusal :=
  .next (if vsysRuns s then snapRelease s else s)

/-! ### Capacitor injections -/

/-- The loops whose indicator is enabled, from the one whose turn it is. -/
def injectionLoops (s : State) : List Nat :=
  ((List.range 6).map fun i => (s.adc.injNext + i) % 6).filter fun n => wearOn s (1 + n)

/-- The injection of loop `n` is due at device time `t`, and waits for its conditions. -/
def awaitInjection (s : State) (n t : Nat) : State :=
  let s1 := s.expire t
  s1.setAdc { s1.adc with injNext := (n + 1) % 6, injWait := some (n, s1.now),
                          injAt := NMap.put 0 s1.adc.injAt n (s1.now + 1) }

/-- When the injection of loop `n` is due: INJINT hours after its last (R354). (DEDUCED, log entry 75) -/
def injectionTime (s : State) (n : Nat) : Nat :=
  let last := NMap.get 0 s.adc.injAt n
  if last = 0 then s.now else last - 1 + s.get WEAR_CFG.INJINT * hour

/-- The injection that waits, with the device time from which it does: only an enabled indicator makes one (R350,
R354). -/
def waitingInjection (s : State) : Option (Nat × Nat) :=
  s.adc.injWait.filter fun x => s.on WEAR_CTRL.INJ_EN && wearOn s (1 + x.1)

/-- What WEAR_CTRL disables no longer waits for its injection (R350). -/
def dropDisabledWait (s : State) : State := s.setAdc { s.adc with injWait := waitingInjection s }

/-- `INJECTION_DUE` (R354): the next loop's injection waits for its conditions. -/
def execInjectionDue (s : State) : Host.Outcome State Fault Refusal :=
  match injectionLoops s with
  | n :: _ =>
    .next (if s.on WEAR_CTRL.INJ_EN && (waitingInjection s).isNone && (injecting s).isNone then
      awaitInjection s n (injectionTime s n)
    else s)
  | [] => .next s

/-- LPn_IOUT has stayed within 5 % over the last 10 ms (R354). (DEDUCED, log entry 75) -/
def steadyOut (l : LoopSt) : Bool :=
  let hi := l.iouts.foldl max 0
  decide (l.iouts.length = 10) && decide ((hi - l.iouts.foldl min hi) * 20 ≤ hi)

/-- The lowest cause of Table 11.16 for which the injection of loop `n` cannot start (step 1 of R354); 0 for none. -/
def injectionCause (s : State) (n : Nat) : Nat :=
  firstCode
    [(1, decide (s.get (LP_STATUS.STATE n) ≠ 4) || !steadyOut (s.loop n)), (2, s.on (LP_STATUS.ILIM_ACT n)),
     (3, s.on (LP_STATUS.OST_ACT n)), (4, !refArrived s n), (5, decide (s.get ADC_SNAP.STATE ≠ 0)),
     (6, decide (4 ≤ rungNow s))]

/-- `INJECTION_START` (R354): the 40 µs burst starts, or its check refuses it (RSRC 6). -/
def execInjectionStart (s : State) : Host.Outcome State Fault Refusal :=
  match waitingInjection s with
  | none => .next s
  | some (n, _) =>
    let code := burstReason s n
    .next (if injectionCause s n ≠ 0 then s
      else if code = 0 then
        startBurst (s.setAdc { s.adc with injWait := none })
          { ch := n, len := 40, start := s.now, injection := some n }
      else adcRefuse s code 6)

/-- A quotient, rounded in a way that the spec leaves open; free where the divisor is 0 or the quotient is below 0.
(DESIGN CHOICE, log entry 74) -/
def freeQuotient (s : State) (num den : Int) : Nat :=
  if den = 0 ∨ num * den < 0 then Config.injectionAtZero s.free
  else num.natAbs / den.natAbs + (if num.natAbs % den.natAbs ≠ 0 ∧ Config.injectionRoundUp s.free then 1 else 0)

/-- The step ΔI of an injection as a fraction of 12.5 mA / 2048: the mean total current of its raised periods less that
of the eight periods before it (R354). (DESIGN CHOICE, log entry 132) -/
def injectionStep (b : Burst) : Int × Nat :=
  let mean (l : List Nat) (k : Nat) : Int := ((l.foldl (· + ·) 0 * k : Nat) : Int)
  (mean b.during b.before.length - mean b.before b.during.length, b.before.length * b.during.length)

/-- The samples of the fit, from the end of the first raised period to the end of the injection: the n-th 2.5 ns
after it, at its distance from the injection's start and with code 0x800 for 0 V (R338, R354).
(DESIGN CHOICE, log entry 132) -/
def injectionPoints (b : Burst) (codes : List (BitVec 12)) : List (Int × Int) :=
  codes.zipIdx.map fun (c, j) => ((((b.firstEnd - b.stepAt) * 4 + j : Nat) : Int), (c.toNat : Int) - 2048)

/-- The samples of the fit are as many as the slices take in its window, four in each TREF period (R338, R354). -/
def injectionSampled (b : Burst) (codes : List (BitVec 12)) : Bool :=
  decide (codes.length = (b.stepEnd - b.firstEnd) * 4)

/-- ESR in µΩ and capacitance in 10 µF enter the indicator of loop `n` (R354): the line through the samples, whose
codes are 256 mV / 4096, has its intercept at the injection's start divided by ΔI, and ΔI divided by its slope. -/
def fitInjection (s : State) (n : Nat) (b : Burst) (codes : List (BitVec 12)) : State :=
  let (cnt, sx, sy, bn, bd) := fitLine (injectionPoints b codes)
  let (num, den) := injectionStep b
  let esr := freeQuotient s ((sy * bd - bn * sx) * 62500 * 2048 * 2 * den) (cnt * bd * num * 25)
  let cap := freeQuotient { s with free := s.free + 1 } (num * bd) ((den : Int) * 2048 * 20 * bn)
  let s1 := { s with free := s.free + 2 }
  if wearOn s (1 + n) then
    (measure (measure s1 (1 + n) esr) (17 + n) cap).set (WEAR_VAL.VAL (1 + n))
      (min cap 65535 * 2 ^ 16 + min esr 65535)
  else s1

/-- The injection of loop `n` is over: it has begun, and every raised period has ended (R354). -/
def injectionOver (s : State) (n : Nat) (b : Burst) : Bool :=
  b.injected && !b.raised && decide ((s.loop n).inj = 0)

/-- The burst has lasted its length, or its loop, which has left RAMP and REGULATE, gives no more periods. -/
def injectionCut (s : State) (n : Nat) (b : Burst) : Bool :=
  let st := s.get (LP_STATUS.STATE n)
  decide (b.start + b.len * 100 ≤ s.now) || (decide (st ≠ 3) && decide (st ≠ 4))

/-- `INJECTION_DONE` (R354): the burst ends, with its samples `codes`, and the line is fitted; a burst that ends before
its injection is over gives no measurement. (DESIGN CHOICE, log entry 132) -/
def execInjectionDone (codes : List (BitVec 12)) (converged limit : Bool) (s : State) :
    Host.Outcome State Fault Refusal :=
  match s.adc.burst with
  | none => .next s
  | some b =>
    match b.injection with
    | none => .next s
    | some n =>
      .next (if injectionOver s n b then
          (if injectionSampled b codes then fitInjection (burstEnds s b converged limit) n b codes else s)
        else if injectionCut s n b then
          let s1 := burstEnds s b converged limit
          s1.setLoop n { s1.loop n with inj := 0 }
        else s)

/-- Why an injection that waits has not begun; a burst that its check refuses counts as BUSY.
(DEDUCED, log entry 75) -/
def waitCause (s : State) (n : Nat) : Nat :=
  let cause := injectionCause s n
  if cause = 0 ∧ burstReason s n ≠ 0 then 5 else cause

/-- `INJ_ABORT` (R354): a condition has not been met within 1 h. A truncation or a trigger abandons a running
injection by itself. -/
def execInjAbort (s : State) : Host.Outcome State Fault Refusal :=
  match waitingInjection s with
  | none => .next s
  | some (n, t) =>
    let cause := waitCause s n
    .next (if cause = 0 then s else abortInjection (s.expire (t + hour)) n cause)

end Sys2Proof.Machine
end

