-- ==== Sys2Proof/Machine/Ecdsa.lean ====
section
/-! DEFINITION. ECDSA over P-256 with SHA-256 (R246, R437, R501): the curve, signing and verifying. -/

namespace Sys2Proof.Machine

/-- The field's prime, the group's order, the coefficient b and the base point of P-256. -/
def p256P : Nat := 0xffffffff00000001000000000000000000000000ffffffffffffffffffffffff
def p256N : Nat := 0xffffffff00000000ffffffffffffffffbce6faada7179e84f3b9cac2fc632551
def p256B : Nat := 0x5ac635d8aa3a93e7b3ebbd55769886bc651d06b0cc53b0f63bce3c3e27d2604b
def p256G : Nat × Nat :=
  (0x6b17d1f2e12c4247f8bce6e563a440f277037d812deb33a0f4a13945d898c296,
   0x4fe342e2fe1a7f9b8ee7eb4a7c0f9e162bce33576b315ececbb6406837bf51f5)

/-- A point: none is the point at infinity. -/
abbrev Point := Option (Nat × Nat)

/-- `a` to the power `e` modulo `m`, over the low `n` bits of `e`. -/
def powMod : Nat → Nat → Nat → Nat → Nat
  | 0, _, _, m => 1 % m
  | n + 1, a, e, m =>
    let r := powMod n (a * a % m) (e / 2) m
    if e % 2 = 1 then r * a % m else r

/-- The inverse of `a` modulo the prime `m`. -/
def invMod (a m : Nat) : Nat := powMod 256 (a % m) (m - 2) m

/-- `a` − `b` modulo p. -/
def subP (a b : Nat) : Nat := (a + p256P - b % p256P) % p256P

/-- The third point of the line of slope `l` through `p` and `q`, mirrored. -/
def chord (p q : Nat × Nat) (l : Nat) : Point :=
  let x := subP (subP (l * l) p.1) q.1
  some (x, subP (l * subP p.1 x) p.2)

/-- Point addition. -/
def pointAdd (p q : Point) : Point :=
  match p, q with
  | none, q => q
  | p, none => p
  | some p, some q =>
    if p.1 = q.1 then
      if (p.2 + q.2) % p256P = 0 then none
      else chord p q (subP (3 * p.1 * p.1) 3 * invMod (2 * p.2) p256P % p256P)
    else chord p q (subP q.2 p.2 * invMod (subP q.1 p.1) p256P % p256P)

/-- `k` · `p`, over the low `n` bits of `k`. -/
def pointMul : Nat → Nat → Point → Point
  | 0, _, _ => none
  | n + 1, k, p =>
    let r := pointMul n (k / 2) (pointAdd p p)
    if k % 2 = 1 then pointAdd r p else r

/-- The point lies on the curve. -/
def onCurve (p : Nat × Nat) : Bool :=
  decide (p.1 < p256P) && decide (p.2 < p256P) &&
    decide (p.2 * p.2 % p256P = (p.1 * p.1 * p.1 + (p256P - 3) * p.1 + p256B) % p256P)

/-- The public key of a scalar. -/
def publicKey (d : Nat) : Nat × Nat := (pointMul 256 d (some p256G)).getD (0, 0)

/-- The hash of a message as a number. -/
def hashNat (msg : List Byte) : Nat := beNat (sha256 msg)

/-- The signature (r, s) of `msg` under scalar `d` with the nonce `k`. -/
def ecdsaSign (d k : Nat) (msg : List Byte) : Nat × Nat :=
  let r := ((pointMul 256 k (some p256G)).getD (0, 0)).1 % p256N
  (r, invMod k p256N * ((hashNat msg + r * d) % p256N) % p256N)

/-- (r, s) is a signature of `msg` under the public key `q`. -/
def ecdsaVerify (q : Nat × Nat) (r s : Nat) (msg : List Byte) : Bool :=
  let inRange (x : Nat) : Bool := decide (0 < x) && decide (x < p256N)
  if !inRange r || !inRange s || !onCurve q then false
  else
    let w := invMod s p256N
    let u1 := hashNat msg * w % p256N
    let u2 := r * w % p256N
    match pointAdd (pointMul 256 u1 (some p256G)) (pointMul 256 u2 (some q)) with
    | none => false
    | some x => decide (x.1 % p256N = r)

end Sys2Proof.Machine
end

