-- ==== Sys2Proof/Machine/Otp.lean ====
section
/-! DEFINITION. OTP (chapter 17): the boot read with its voids, lock completions and re-burns, the device identity,
OTP_COMMIT and OTP_READ, and the raw path. -/

namespace Sys2Proof.Machine

/-- `s` with the OTP state `o`. -/
def State.setOtp (s : State) (o : Otp) : State := { s with otp := o }

/-- Event `k` of Table 17.9. -/
def otpEv (k : Nat) (cls : Cls) (detail : Nat := 0) : Ev :=
  { evt := OTP_EVT.EVT, bit := k, src := if k < 2 then 0x0F8 else if k < 4 then 0x0F9 else 0x0F6 + k,
    line := if k = 5 then 40 else 39, cls, detail }

/-- The number of all regions' spares left. -/
def allSpares (o : Otp) : Nat := ((List.range 24).map (sparesLeft o)).foldl (· + ·) 0

/-- The number of all voided words. -/
def allVoids (o : Otp) : Nat := ((List.range 24).map (voidCount o)).foldl (· + ·) 0

/-- The registers that show the regions and locks; `dead` says that OTP is marked unusable. -/
def showOtp (s : State) (dead : Bool) : State :=
  let o := s.otp
  let s1 := State.each (List.range 24) (fun s r => s.set (OTP_RGNST.STATE r) (regionState o r dead)) s
  let s2 := (s1.set OTP_WEAK.SPARES (allSpares o)).set OTP_VOIDS.TOTAL (allVoids o)
  (s2.set OTP_STATUS.AUTHREQ (if lockBlown o authreqLock then 1 else 0)).set OTP_STATUS.TEST_DIS
    (if lockBlown o testDisLock then 1 else 0)

/-- The registers after an operation, OTP being in use. -/
def refreshOtp (s : State) : State := showOtp s (unusable s 28)

/-- Physical word `p` of region `r` is voided: OTP_VOID, with the low eight bits of the offset in DETAIL [15:8], and
SPARES_LOW where the spares fall to 1 (Table 17.9). (DEDUCED, log entry 122) -/
def voidWord (s : State) (r p : Nat) : State :=
  let o := { s.otp with pendingVoids := s.otp.pendingVoids.filter (· ≠ p) }
  let o1 := { o with fuses := NMap.put 0 o.fuses p (fusesOf o p ||| voidFuses) }
  let s1 := raise (s.setOtp o1) (otpEv 2 .warning (r + (p - regionBase r) % 2 ^ 8 * 2 ^ 8))
  if sparesLeft o r = 2 ∧ sparesLeft o1 r = 1 then raise s1 (otpEv 3 .warning) else s1

/-- A sticky lock holds region `r`: no path reads it or programs any fuse of it (R488). -/
def heldRegion (s : State) (r : Nat) : Bool :=
  (decide (r = 2) && s.on ID_LOCK.KEYPRIV) || (decide (r = 9) && s.on ID_LOCK.FWPATCH)

/-- The regions that phase 4 may work on. -/
def bootRegions (s : State) : List Nat := (List.range 24).filter fun r => !heldRegion s r

/-! ### The boot read -/

/-- What phase 4 has left: the state, the budget of R493 in 0.05 ms units, and the words voided. -/
structure Boot where
  s : State
  left : Nat := 48
  voids : Nat := 0

/-- An uncorrectable word is voided if its time fits, and otherwise its void is pending (R492, R493). -/
def bootVoid (ok : Bool) (b : Boot) (r p : Nat) : Boot :=
  if ok && decide (4 ≤ b.left) then { s := voidWord b.s r p, left := b.left - 4, voids := b.voids + 1 }
  else { b with s := b.s.setOtp { b.s.otp with pendingVoids := b.s.otp.pendingVoids ++ [p] } }

/-- The voids of region `r`; the first argument bounds its words. -/
def bootVoids (ok : Bool) (r : Nat) : Nat → Boot → Boot
  | 0, b => b
  | fuel + 1, b =>
    match (badWords b.s.otp r).find? (voidable b.s.otp r) with
    | some p => bootVoids ok r fuel (bootVoid ok b r p)
    | none => b

/-- The third fuse of a lock of which two are blown (R487). -/
def bootLock (ok : Bool) (b : Boot) (k : Nat) : Boot :=
  if ok && b.s.on OTP_CFG.REBURN && decide (popCount 3 (NMap.get 0 b.s.otp.locks k) = 2) && decide (4 ≤ b.left) then
    let m := b.s.otp.locks
    { b with s := b.s.setOtp { b.s.otp with locks := NMap.put 0 m k (NMap.get 0 m k ||| 7) }, left := b.left - 4 }
  else b

/-- The weak words that a re-burn can mend: those whose value is corrected (R491). -/
def reburnable (o : Otp) (p : Nat) : Bool := isWeak o p && !voided o p && (wordData o p).isSome

/-- A weak word is re-burnt if its time fits (R491, R492). -/
def bootReburn (ok : Bool) (b : Boot) (p : Nat) : Boot :=
  if ok && decide (29 ≤ b.left) then
    let o := b.s.otp
    let value := codeword ((wordData o p).getD 0)
    let o1 := { o with fuses := NMap.put 0 o.fuses p (fusesOf o p ||| value),
                       weak := NMap.put 0 o.weak p (NMap.get 0 o.weak p &&& (2 ^ 148 - 1 - value)) }
    { b with s := notice (b.s.setOtp o1) (otpEv 1 .notice), left := b.left - 29 }
  else b

/-- Every physical word that phase 4 may work on (R488). -/
def bootWords (s : State) : List Nat := (bootRegions s).flatMap regionWords

/-- The weak words are counted, and OTP_WEAK raised once (R478). -/
def countWeak (s : State) : State :=
  let ws := (bootWords s).filter (isWeak s.otp)
  let s1 := s.set OTP_WEAK.WEAK ws.length
  match ws with
  | [] => s1
  | p :: _ => raise s1 (otpEv 0 .warning (ws.length + (regionOf p).getD 0 * 2 ^ 16))

/-- The program operations of phase 4, in the order of R492; `ok` says that R490 allows them.
(DEDUCED, log entry 61) -/
def bootOperations (s : State) (ok : Bool) : State :=
  let b1 := (bootRegions s).foldl (fun b r => bootVoids ok r (regionSize r).1 b)
    { s := s.setOtp { s.otp with pendingVoids := [] } }
  let b2 := (List.range 52).foldl (bootLock ok) b1
  let weak := if s.on OTP_CFG.REBURN then (bootWords s).filter (reburnable b2.s.otp) else []
  let b3 := weak.foldl (bootReburn ok) b2
  let left := if s.on OTP_CFG.REBURN then ((bootWords s).filter (reburnable b3.s.otp)).length else 0
  (b3.s.set OTP_VOIDS.BOOT b3.voids).set OTP_STATUS.PENDING (satAt 8 (b3.s.otp.pendingVoids.length + left))

/-- OTP_REGION for every region found SEALED_INCOMPLETE or UNUSABLE (R484). -/
def reportRegions (s : State) : State :=
  State.each (List.range 24) (fun s r => if 4 ≤ s.get (OTP_RGNST.STATE r) then raise s (otpEv 4 .fault) else s) s

/-- Region `r` is used: SEALED or LOCKED (R483). -/
def regionUsed (s : State) (r : Nat) : Bool :=
  decide (s.get (OTP_RGNST.STATE r) = 2) || decide (s.get (OTP_RGNST.STATE r) = 3)

/-- Region `r` is LOCKED. -/
def regionLocked (s : State) (r : Nat) : Bool := decide (s.get (OTP_RGNST.STATE r) = 3)

/-! ### DER (R501, R502): an element's content and what follows it -/

/-- The element at the front of `bs`: tag, content, and the rest. (PRESUMED, log entry 65) -/
def derElem (bs : List Byte) : Option (Nat × List Byte × List Byte) :=
  match bs with
  | tag :: len :: rest =>
    let n := len.toNat
    let (size, body) :=
      if n < 128 then (n, rest) else (beNat (rest.take (n - 128)), rest.drop (n - 128))
    if size ≤ body.length ∧ n ≠ 128 then some (tag.toNat, body.take size, body.drop size) else none
  | _ => none

/-- The `k`-th element of a sequence's content. -/
def derNth : Nat → List Byte → Option (Nat × List Byte)
  | 0, bs => (derElem bs).map fun e => (e.1, e.2.1)
  | k + 1, bs => (derElem bs).bind fun e => derNth k e.2.2

/-- The length of the certificate in `bs`: its outermost element. -/
def certLen (bs : List Byte) : Nat :=
  match derElem bs with
  | some (0x30, _, rest) => bs.length - rest.length
  | _ => Config.certLength bs % 721

/-- The public key in the certificate `bs`: the uncompressed point of subjectPublicKeyInfo, which follows version,
serialNumber, signature, issuer, validity and subject. -/
def certKey (bs : List Byte) : Option (Nat × Nat) := do
  let (_, cert, _) ← derElem bs
  let (_, tbs) ← derNth 0 cert
  let (_, spki) ← derNth 6 tbs
  let (_, point) ← derNth 1 spki
  if point.length = 66 ∧ (point.drop 1).head? = some 4#8 then
    some (beNat ((point.drop 2).take 32), beNat (point.drop 34))
  else none

/-! ### Identity -/

/-- The certificate's bytes, where CERT is used. -/
def certBytes (s : State) : List Byte :=
  let bs := regionBytes s.otp 3
  bs.take (certLen bs)

/-- The two coordinates of the public key are shown. -/
def showPub (s : State) (q : Nat × Nat) : State :=
  State.each (List.range 8) (fun s j =>
    (s.set (ID_PUBX.WORD j) (q.1 / 2 ^ (32 * (7 - j)))).set (ID_PUBY.WORD j) (q.2 / 2 ^ (32 * (7 - j)))) s

/-- ID_SERIAL, ID_ORDER and ID_PUB read what they hold: IDENT and KEYPRIV are LOCKED (R506). -/
def identShown (s : State) : Bool := regionLocked s 0 && regionLocked s 2

/-- The serial number as ID_SERIAL shows it (R506). -/
def serialNow (s : State) : Nat := if identShown s then s.otp.serial else 0

/-- The public key as ID_PUBX and ID_PUBY show it. -/
def shownPub (s : State) : Nat × Nat :=
  if identShown s then
    ((List.range 8).foldl (fun a j => a * 2 ^ 32 + s.get (ID_PUBX.WORD j)) 0,
     (List.range 8).foldl (fun a j => a * 2 ^ 32 + s.get (ID_PUBY.WORD j)) 0)
  else (0, 0)

/-- What phase 4 takes from IDENT (R506). -/
def showIdent (s : State) : State :=
  if regionUsed s 0 then
    let ws := regionContent s.otp 0
    let serial := Config.identSerial ws % 2 ^ 64
    let s1 := (s.setOtp { s.otp with serial }).set ID_SERIAL_LO.SERIAL serial
    let s2 := (s1.set ID_ORDER.GRADE (Config.identGrade ws)).set ID_ORDER.PROV (if Config.identProv ws then 1 else 0)
    showPub s2 (Config.identPub ws)
  else s

/-- The private scalar enters the key store, unless ID_LOCK.KEYPRIV holds the region (R488). -/
def loadKey (s : State) : State :=
  if regionUsed s 2 ∧ ¬ heldRegion s 2 then s.setOtp { s.otp with scalar := some (beNat ((regionBytes s.otp 2).take 32)) } else s

/-- The identity check of R502. -/
def checkIdentity (s : State) : State :=
  let key := s.otp.scalar.map publicKey
  let pub := decide (key = some (shownPub s))
  let cert := regionUsed s 3 && key.isSome && decide (certKey (certBytes s) = key)
  let s1 := (s.set ID_KEYSTAT.PUBMATCH (if pub then 1 else 0)).set ID_KEYSTAT.CERTMATCH (if cert then 1 else 0)
  let s2 := (s1.set ID_KEYSTAT.CERTOK (if regionLocked s 3 then 1 else 0)).set ID_CERTLEN.LEN
    (if regionUsed s 3 then (certBytes s).length else 0)
  if regionLocked s 2 && pub && cert && regionLocked s 3 then s2 else raise s2 (otpEv 5 .fault)

/-- ATTEST can sign: the key is in the store and the checks of R502 hold. (DEDUCED, log entry 72) -/
def keyReady (s : State) : Bool :=
  s.otp.scalar.isSome && regionLocked s 2 && s.on ID_KEYSTAT.CERTOK && s.on ID_KEYSTAT.CERTMATCH && s.on ID_KEYSTAT.PUBMATCH

/-- The patch records that R504 applies are counted, unless ID_LOCK.FWPATCH holds the region (R488). -/
def countPatches (s : State) : State :=
  if regionUsed s 9 ∧ ¬ heldRegion s 9 then s.set ID_ROM.PATCHES (Config.patchCount (regionContent s.otp 9)) else s

/-- The OTP work of phase 4 but for the board configuration (R306, R478 to R504); `dead` says that the verdicts to be
applied mark OTP unusable. -/
def bootOtp (s : State) (dead progOk : Bool) : State :=
  let s1 :=
    if dead then showOtp s true
    else
      let s2 := bootOperations (countWeak s) progOk
      let s3 := showOtp (s2.setOtp { s2.otp with read := true }) false
      otpPoint s3 (s3.get OTP_WEAK.WEAK) (allSpares s3.otp)
  let s4 := checkIdentity (loadKey (showIdent (reportRegions s1)))
  ((countPatches s4).set ID_LOCK.KEYPRIV 1).set ID_LOCK.FWPATCH 1

/-- The configuration entries of a logical word: the one in [63:0] first (R500). -/
def entriesOf (w : Nat) : List (Nat × Nat) :=
  [(bitsOf w 40 24, bitsOf w 0 32), (bitsOf w 104 24, bitsOf w 64 32)]

/-- The configuration entries in their order, padding left out (R500). -/
def configEntries (s : State) : List (Nat × Nat) :=
  let ws := ((List.range 2).filter fun i => regionUsed s (10 + i)).flatMap fun i => regionContent s.otp (10 + i)
  (ws.flatMap entriesOf).filter fun e => decide (e.1 ≠ 0)

/-! ### OTP_COMMIT -/

/-- The arguments of an OTP_COMMIT (Table 15.9). -/
structure CommitArgs where
  region : Nat
  lockW : Bool
  lockR : Bool
  first : Nat
  count : Nat
  data : List Nat

/-- The 16-byte words of a data area input. -/
def inputWords (bs : List Byte) (n : Nat) : List Nat := (List.range n).map fun i => leNat ((bs.drop (16 * i)).take 16)

/-- The arguments in the descriptor and the input of slot `k`. -/
def commitArgs (s : State) (k : Nat) : CommitArgs :=
  let a := slotArg s k 0
  { region := a % 32, lockW := decide (bitOf a 8 = 1), lockR := decide (bitOf a 9 = 1), first := slotArg s k 1,
    count := slotArg s k 2, data := inputWords (s.slot k).input (slotArg s k 2) }

/-- Word `w` of the verdict that phase 5 will apply; no unit is marked while there is none. -/
def verdictWord (s : State) (w : Nat) : Nat := ((s.sys.verdict.map Verdict.words).getD []).getD w 0

/-- Before phase 7 K0 converts through the base slice, for which a slice must be usable (R490): until phase 5 ends as
the verdict that it will apply says, and then as applied (R310, R331). -/
def k0Converts (s : State) : Bool :=
  if phaseNow s < 6 then decide (verdictWord s 0 / 2 ^ 18 % 16 ≠ 15) else decide (s.get ADC_STATUS.USABLE ≠ 0)

/-- The temperature condition and the VSYS condition of R490: from phase 7 of THM_STATUS and the housekeeping table,
before it of K0's own conversions, whose values the model does not hold. (DEDUCED, log entry 88) -/
def tempOk (s : State) : Bool :=
  if 7 ≤ phaseNow s then s.on THM_STATUS.OTPOK else k0Converts s && Config.k0TempOk s.free
def vsysOk (s : State) : Bool :=
  if 7 ≤ phaseNow s then reads s 0x15 && decide (4500 ≤ hkVal s 0x15) else k0Converts s && Config.k0VsysOk s.free

/-- The code with which R490 stops a program operation; 0 for none. -/
def progReason (s : State) : Nat := firstCode [(0x09, !tempOk s), (0x0A, !vsysOk s)]

/-- Logical word `i` of region `r` holds `d`. -/
def holds (o : Otp) (r i d : Nat) : Bool := ((chain o r)[i]?.bind (wordData o)) == some d

/-- The pairs of logical word and data that a commit compares with what is written (R495). -/
def compared (o : Otp) (a : CommitArgs) : List (Nat × Nat) :=
  ((a.data.zipIdx).map fun x => (a.first + x.2, x.1)).filter fun x => decide (x.1 < writtenLen o a.region)

/-- A compared word that differs is the highest written word, which R496 voids. -/
def lastDiffers (o : Otp) (a : CommitArgs) : Bool :=
  (compared o a).any fun x => !holds o a.region x.1 x.2 && decide (x.1 + 1 = writtenLen o a.region)

/-- A compared word differs that R496 does not void. -/
def conflicts (o : Otp) (a : CommitArgs) : Bool :=
  (compared o a).any fun x => !holds o a.region x.1 x.2 && decide (x.1 + 1 ≠ writtenLen o a.region)

/-- Image-key slot `i` is usable (R503). -/
def imageKeyUsable (s : State) (i : Nat) : Bool := regionUsed s (4 + i) && !readLocked s.otp (4 + i)

/-- The command has fuses to blow. -/
def commitWorks (o : Otp) (a : CommitArgs) : Bool :=
  a.lockW || a.lockR || lastDiffers o a || (o.pendingVoids.any fun p => decide (regionOf p = some a.region)) ||
    (a.data.zipIdx).any fun x => decide (writtenLen o a.region ≤ a.first + x.2) && decide (x.1 ≠ 0)

/-- The code with which an OTP_COMMIT is refused (Table 17.6), in table order; 0 for none. (DEDUCED, log entry 66) -/
def commitReason (s : State) (a : CommitArgs) : Nat :=
  let o := s.otp
  let r := a.region
  let dev := decide (r = 0x1F)
  let st := s.get (OTP_RGNST.STATE r)
  let lock := a.lockW || a.lockR
  firstCode
    [(0x01, (decide (24 ≤ r) && !dev) || (dev && decide (a.count ≠ 0))),
     (0x02, decide (r ≤ 3) || decide (r = 9)),
     (0x03, !dev && writeLocked o r),
     (0x05, !dev && decide (0 < a.count) && decide (2 ≤ st) && decide (st ≤ 4)),
     (0x06, !dev && decide (writtenLen o r < a.first)),
     (0x07, !dev && decide (usableCapacity o r < a.first + a.count)),
     (0x08, !dev && conflicts o a),
     (0x09, commitWorks o a && !tempOk s), (0x0A, commitWorks o a && !vsysOk s),
     (0x0B, !dev && lock && decide (a.count = 0) && decide (committedLen o r = 0)),
     (0x0C, !dev && lock && decide (writtenLen o r = 0) && a.data.all fun d => decide (d = 0)),
     (0x0D, dev && a.lockW && !((List.range 4).any (imageKeyUsable s))),
     (0x0E, unusable s 28 || (!dev && decide (st = 5)))]

/-- An OTP command in slot `k` is refused with `code` (SPACE 2). -/
def otpRefuse (s : State) (k code : Nat) (r0 : Nat := 0) : State :=
  refuseCommand (s.set OTP_STATUS.REASON code) k 2 code r0


/-- The commit ends with outcome `c`. -/
def commitEnds (s : State) (j : OtpJob) (c : Completion) : State :=
  endCommand (opEnd (refreshOtp (s.setOtp { s.otp with job := none })) 1) j.slot c

/-- The commit ends early with `code`; the words programmed stay (Table 17.6). -/
def commitFails (s : State) (j : OtpJob) (code : Nat) : State :=
  commitEnds (s.set OTP_STATUS.REASON code) j { status := 1, space := 2, reason := code, r0 := j.wrote, r1 := j.found }

/-- The commit completes OK (R495). -/
def commitOk (s : State) (j : OtpJob) : State := commitEnds s j { status := 0, r0 := j.wrote, r1 := j.found }

/-- The locks that the commit asked for are blown, fuse by fuse, and it completes OK (R487, R495). -/
def commitLocked (s : State) (j : OtpJob) : State := commitOk (s.setOtp (blowFuses s.otp (jobFuses j))) j

/-- A program operation of the commit starts with `go`, if the conditions of R490 hold; K0 has read them. -/
def commitStarts (s : State) (j : OtpJob) (go : State → State) : State :=
  let code := progReason s
  if code = 0 then go { s with free := s.free + 1 } else commitFails s j code

/-- The commit has written its words: it completes OK, or begins to blow its locks, past its commit point (R436,
R490, R495). The blow ends when the command completes (R487). -/
def commitDone (s : State) (j : OtpJob) : State :=
  if j.lockW || j.lockR then
    commitStarts s j fun s => commitSlot (s.setOtp { s.otp with job := some { j with locking := true } }) j.slot
  else commitOk s j

/-- The blow of the locks of the commit in slot `k`, if one is under way, ends. -/
def endLocking (s : State) (k : Nat) : State :=
  match s.otp.job with
  | some j => if j.locking && decide (j.slot = k) then commitLocked s j else s
  | none => s

/-- The word at `p` is under programming, if the conditions of R490 hold; FLT_OPMARK names the logical word (R394). -/
def programWord (s : State) (j : OtpJob) (p data : Nat) : State :=
  commitStarts s j fun s =>
    opMark (s.setOtp { s.otp with job := some { j with phys := p, target := codeword data } }) 1 j.logical

/-- The seal over the written run, of `j.run` words, goes to the seal position; a position that is not blank is
voided, and the next one below takes its place, until the spares run out (R482, R495). The first argument bounds the
positions. (DEDUCED, log entry 122) -/
def programSeal : Nat → State → OtpJob → State
  | 0, s, j => commitFails s j 0x07
  | fuel + 1, s, j =>
    match dataOf s.otp (writtenRun s.otp j.region), sealPosition s.otp j.region with
    | some ds, some p =>
      if ds.length < j.run then commitFails s j 0x07
      else if blank s.otp p then programWord s { j with sealing := true, words := [] } p (sealWord j.region ds)
      else programSeal fuel (voidWord s j.region p) j
    | _, _ => commitFails s j 0x0E

/-- The seal of the commit is begun over the whole written run, or begun again after a void. -/
def sealRun (s : State) (j : OtpJob) : State := programSeal (regionSize j.region).1 s j

/-- The commit goes on with the logical words `ds`: words of zeros count as written (R475), then the seal and the
locks follow. -/
def commitNext (s : State) (j : OtpJob) : List Nat → State
  | [] => if j.sealDue then sealRun s { j with run := writtenLen s.otp j.region } else commitDone s j
  | d :: ds =>
    if d = 0 then commitNext s { j with logical := j.logical + 1, found := j.found + 1, words := ds } ds
    else
      match (chain s.otp j.region)[j.logical]? with
      | some p => programWord s { j with words := d :: ds } p d
      | none => commitFails s j 0x07

/-- The pending voids of region `r` are performed (R492). -/
def pendingVoids (s : State) (r : Nat) : State :=
  let ps := s.otp.pendingVoids.filter fun p => decide (regionOf p = some r)
  let s1 := State.each ps (fun s p => voidWord s r p) s
  s1.set OTP_STATUS.PENDING (s1.get OTP_STATUS.PENDING - ps.length)

/-- An accepted OTP_COMMIT of a region begins (R495, R496). -/
def startCommit (s : State) (k : Nat) (a : CommitArgs) : State :=
  let s1 := pendingVoids s a.region
  let s2 := if lastDiffers s.otp a then
      match (writtenRun s1.otp a.region).getLast? with
      | some p => voidWord s1 a.region p
      | none => s1
    else s1
  let w := writtenLen s2.otp a.region
  let start := max a.first w
  let j : OtpJob :=
    { slot := k, region := a.region, logical := start, words := a.data.drop (start - a.first), lockW := a.lockW,
      lockR := a.lockR, sealDue := (a.lockW || a.lockR) && decide (0 < a.count), phys := 0, target := 0,
      found := min a.data.length (w - a.first) }
  commitNext s2 j j.words

/-- `OTP_COMMIT` in slot `k` (R495 to R497). -/
def execOtpCommit (k : BitVec 8) (s : State) : Host.Outcome State Fault Refusal :=
  let n := k.toNat
  let a := commitArgs s n
  let code := commitReason s a
  .next (if !executing s n || decide (slotOp s n ≠ 0x51) || s.otp.job.isSome then s
    else if code ≠ 0 then otpRefuse s n code
    else if a.region = 0x1F then
      commitDone s
        { slot := n, region := a.region, logical := 0, words := [], lockW := a.lockW, lockR := a.lockR,
          sealDue := false, phys := 0, target := 0 }
    else startCommit s n a)

/-- The word `p` is written with `fuses`: `weak` names those that strict margin reads 0, none where OTP_CFG.VERIFY
made the read-back strict (R491). -/
def blowWord (s : State) (p fuses weak : Nat) : State :=
  let o := s.otp
  let w := if s.on OTP_CFG.VERIFY then 0 else weak &&& fuses
  s.setOtp { o with fuses := NMap.put 0 o.fuses p (fusesOf o p ||| fuses), weak := NMap.put 0 o.weak p w }

/-- The word `p` of region `r` has failed its retries: which of `fuses` it has is open, and it is voided (R491).
(DESIGN CHOICE, log entry 62) -/
def failWord (s : State) (r p fuses : Nat) : State :=
  let (i, s1) := s.fresh
  let o := s1.otp
  voidWord (s1.setOtp { o with fuses := NMap.put 0 o.fuses p (fusesOf o p ||| (fuses &&& Config.partialBlow i)) }) r p

/-- The word of the commit under way is written, or fails. -/
def wordWritten (s : State) (j : OtpJob) (weak : Nat) : State := blowWord s j.phys j.target weak
def wordFailed (s : State) (j : OtpJob) : State := failWord s j.region j.phys j.target

/-- The word under programming is done, and the commit goes on, unless a CANCEL has reached it: then it completes
CANCELLED, with the seal if that was the word but with no lock blown (R440). (DEDUCED, log entry 122) -/
def commitGoesOn (s : State) (j : OtpJob) (go : State) : State :=
  if j.cancelled then commitEnds s j { status := 2, r0 := j.wrote } else go

/-- The word of the commit under way is written (`ok`), or fails (R491). -/
def commitWordDone (s : State) (j : OtpJob) (ok : Bool) (weak : Nat) : State :=
  if j.locking then s
  else if ok then
    let s1 := wordWritten s j weak
    if j.sealing then commitGoesOn s1 j (commitDone (commitSlot s1 j.slot) j)
    else
      let j1 := { j with wrote := j.wrote + 1, logical := j.logical + 1, words := j.words.drop 1 }
      commitGoesOn s1 j1 (commitNext s1 j1 j1.words)
  else
    let s1 := wordFailed s j
    commitGoesOn s1 j (if j.sealing then sealRun s1 j else commitNext s1 j j.words)

/-! ### OTP_READ -/

/-- The code with which an OTP_READ is refused; 0 for none. (DEDUCED, log entry 67) -/
def readReason (s : State) (r first count : Nat) : Nat :=
  firstCode
    [(0x01, decide (24 ≤ r)),
     (0x04, readLocked s.otp r || decide (r = 2) || (decide (r = 9) && s.on ID_LOCK.FWPATCH)),
     (0x07, decide (usableCapacity s.otp r < first + count)), (0x0E, unusable s 28)]

/-- The words that an OTP_READ returns; an uncorrectable one is free. -/
def readWords (s : State) (ps : List Nat) : List Nat :=
  ps.map fun p => (wordData s.otp p).getD (Config.unreadableWord (s.free + p) % 2 ^ 128)

/-- `OTP_READ` in slot `k` (R497). -/
def execOtpRead (k : BitVec 8) (s : State) : Host.Outcome State Fault Refusal :=
  let n := k.toNat
  let r := slotArg s n 0 % 32
  let first := slotArg s n 1
  let count := slotArg s n 2
  let code := readReason s r first count
  let ps := ((chain s.otp r).drop first).take count
  .next (if !executing s n || decide (slotOp s n ≠ 0x50) then s
    else if code ≠ 0 then otpRefuse s n code
    else
      let s1 := writeData { s with free := s.free + 1536 } (slotArg s n 3) ((readWords s ps).flatMap (leBytes 16))
      endCommand (commitSlot s1 n) n { status := 0, r0 := count, r1 := (ps.filter (isWeak s.otp)).length })

/-! ### The raw path (R498, R501) -/

/-- A command of the OTP group is INFLIGHT. -/
def otpBusy (s : State) : Bool :=
  (List.range 256).any fun k =>
    decide ((s.slot k).st = .inflight) && (decide (slotOp s k = 0x50) || decide (slotOp s k = 0x51))

/-- The raw path exists, is not refused, and runs no operation (R16, R498). -/
def rawRuns (s : State) : Bool :=
  vsysRuns s && s.on FLT_TEST.ACTIVE && s.otp.raw.isEmpty && !otpBusy s && !unusable s 28

/-- The code with which a raw operation on region `r` is refused (R486, R490); 0 for none. -/
def rawReason (s : State) (r : Nat) : Nat := firstCode [(0x03, writeLocked s.otp r), (progReason s, decide (progReason s ≠ 0))]

/-- A raw operation begins: its program operations are `ops` (R498). -/
def rawBegin (s : State) (ops : List ProgOp) : State :=
  { s with otp := { s.otp with raw := ops }, free := s.free + 1 }

/-- The raw path's operation `op r` on the physical word `p` of region `r` begins, or is refused. -/
def rawWord (s : State) (p : Nat) (op : Nat → List ProgOp) : State :=
  match regionOf p with
  | none => s
  | some r =>
    let code := rawReason s r
    if !rawRuns s || heldRegion s r then s
    else if code ≠ 0 then s.set OTP_STATUS.REASON code
    else rawBegin s (op r)

/-- The fuses that the OTP_RAW registers ask for. -/
def rawFuses (s : State) : Nat :=
  ((List.range 4).map fun j => s.get (OTP_RAW_DATA.DATA j) * 2 ^ (32 * j)).foldl (· + ·) 0 * 2 ^ 17 + s.get OTP_RAW_CHK.CHK

/-- `RAW_PROGRAM_WORD` (R498): a word already written is not programmed (R491). -/
def execRawProgramWord (s : State) : Host.Outcome State Fault Refusal :=
  let p := s.get OTP_RAW_ADDR.PHYS
  .next (rawWord s p fun r => if blank s.otp p then [.word r p (rawFuses s)] else [])

/-- `RAW_VOID_WORD` (R498). -/
def execRawVoidWord (s : State) : Host.Outcome State Fault Refusal :=
  let p := s.get OTP_RAW_ADDR.PHYS
  .next (rawWord s p fun r => [.void r p])

/-- `RAW_BLOW_LOCK` (R498): one fuse of a lock. -/
def execRawBlowLock (s : State) : Host.Outcome State Fault Refusal :=
  let code := progReason s
  .next (if !rawRuns s then s
    else if code ≠ 0 then s.set OTP_STATUS.REASON code
    else match Config.lockOfIndex (s.get OTP_RAW_ADDR.PHYS) with
      | some (l, f) => rawBegin s [.locks [(l, f.val)]]
      | none => s)

/-- The words of a number of 32 bytes, most significant byte first. -/
def keyWords (d : Nat) : List Nat := inputWords (beBytes 32 d) 2

/-- The program operations of a KEYGEN that has drawn `d`: the two words of KEYPRIV, its seal, and its locks
(R501). -/
def keygenOps (d : Nat) : List ProgOp :=
  (keyWords d).zipIdx.map (fun x => .chain 2 x.2 (codeword x.1)) ++
    [.seal 2 (codeword (sealWord 2 (keyWords d))), .locks (lockFuses 2 ++ lockFuses 26)]

/-- `KEYGEN` (R501): a scalar is drawn and written to a blank KEYPRIV (R491), which is sealed and locked.
(DESIGN CHOICE, log entry 63) (DEDUCED, log entry 68) -/
def execKeygen (s : State) : Host.Outcome State Fault Refusal :=
  let (i, s1) := s.fresh
  let d := Config.entropy i % (p256N - 1) + 1
  let code := rawReason s 2
  .next (if !rawRuns s || heldRegion s 2 then s
    else if code ≠ 0 then s.set OTP_STATUS.REASON code
    else if ¬ (regionWords 2).all (blank s.otp) then s
    else rawBegin (s1.setOtp { s1.otp with keygen := some d }) (keygenOps d))

/-- The raw operation ends; that of a KEYGEN shows the public key (R501). -/
def rawEnds (s : State) : State :=
  let s1 := match s.otp.keygen with
    | some d => showPub s (publicKey d)
    | none => s
  refreshOtp (s1.setOtp { s1.otp with raw := [], keygen := none })

/-- The raw operation stops with `code` before its end (R490, R491). -/
def rawStops (s : State) (code : Nat) : State :=
  refreshOtp ((s.setOtp { s.otp with raw := [], keygen := none }).set OTP_STATUS.REASON code)

/-- The raw operation goes on with `ops`, under the conditions of R490, or ends. -/
def rawNext (s : State) (ops : List ProgOp) : State :=
  let code := progReason s
  if ops.isEmpty then rawEnds s
  else if code = 0 then rawBegin s ops
  else rawStops s code


/-- Where the data of a failed raw word go (R491): the next physical word of the region; none where spares have run
out. The other operations find their place by themselves. -/
def rawAgain (o : Otp) : ProgOp → Option ProgOp
  | .word r p m => ((liveWords o r).find? fun q => decide (p < q) && blank o q).map fun q => .word r q m
  | op => if (opWord o op).any (blank o) then some op else none

/-- The region of a program operation on a word. -/
def opRegion : ProgOp → Nat
  | .word r _ _ => r
  | .chain r _ _ => r
  | .seal r _ => r
  | .void r _ => r
  | .locks _ => 0

/-- A sticky lock was set while the operation `op` of the raw path was under way: no fuse of the region is programmed
any more, so that the operation is cut after some pulse and ends (R488). (DESIGN CHOICE, log entry 137) -/
def rawCut (s : State) (op : ProgOp) : State :=
  let o := cutOp s.otp (Config.partialBlow s.free) (Config.partialBlow (s.free + 1)) op
  refreshOtp (({ s with free := s.free + 2 } : State).setOtp { o with raw := [], keygen := none })

/-- The operation works on a word of a region that a sticky lock holds (R488). -/
def opHeld (s : State) : ProgOp → Bool
  | .locks _ => false
  | op => heldRegion s (opRegion op)

/-- A program operation of the raw path is done, or fails (R491, R498), or has been cut (R488). -/
def rawWordDone (s : State) (op : ProgOp) (rest : List ProgOp) (ok : Bool) (weak : Nat) : State :=
  if opHeld s op then rawCut s op
  else
  match op, opWord s.otp op with
  | .locks fs, _ => rawNext (s.setOtp (blowFuses s.otp fs)) rest
  | .void r p, _ => rawNext (voidWord s r p) rest
  | _, none => rawStops s 0x07
  | _, some p =>
    if ok then rawNext (blowWord s p (opFuses op) weak) rest
    else
      let s1 := failWord s (opRegion op) p (opFuses op)
      match rawAgain s1.otp op with
      | some again => rawNext s1 (again :: rest)
      | none => rawStops s1 0x07

/-- `OTP_WORD_PROGRAM_DONE` (R491, R498): the program operation under way, of an OTP_COMMIT or of the raw path, is
done, or fails. -/
def execOtpWordProgramDone (ok : Bool) (weak : BitVec 148) (s : State) : Host.Outcome State Fault Refusal :=
  .next (match s.otp.job, s.otp.raw with
  | some j, _ => commitWordDone s j ok weak.toNat
  | none, op :: rest => rawWordDone s op rest ok weak.toNat
  | none, [] => s)

end Sys2Proof.Machine
end

