-- ==== Sys2Proof/Machine/Hci.lean ====
section
/-! DEFINITION. The host command interface (R423 to R447): slots, queues and lanes, the start and the completion of
a command, moderation, and the interface's enable and drain. -/

namespace Sys2Proof.Machine

/-- `s` with the interface's state `h`. -/
def State.setHci (s : State) (h : Hci) : State := { s with hci := h }

/-- Event `k` of Table 15.13. HCI_EVT.EVT holds bits [5:1]. -/
def hciEv (k : Nat) (cls : Cls) (detail : Nat := 0) : Ev :=
  { evt := HCI_EVT.EVT, bit := k - 1, src := if k ≤ 3 then 0x0F1 else 0x0EE + k, line := 35, cls, detail, first := 1 }

/-- The interface is enabled and does not drain. VSYS feeds it and queue memory (R24), and lane 0 is K0, so a command
has an effect only where both run (R304). -/
def hciRuns (s : State) : Bool := s.on HCI_CTRL.EN && decide (s.get HCI_STATUS.STATE = 1)

/-- The slots in state `st`, in ascending order. -/
def slotsIn (s : State) (st : SlotState) : List Nat := (List.range 256).filter fun k => (s.slot k).st = st

/-- How many of the 256 slots are in state `st`. -/
def slotCount (s : State) (st : SlotState) : Nat := (slotsIn s st).length

/-- The slots on queue `q`, oldest first. -/
def State.queue (s : State) (q : Nat) : List Nat := NMap.get [] s.hci.queues q
def State.setQueue (s : State) (q : Nat) (l : List Nat) : State :=
  s.setHci { s.hci with queues := NMap.put [] s.hci.queues q l }

/-! ### Moderation (R444, R445) -/

/-- The unsignalled entries between head and tail. -/
def unsignalled (h : Hci) : Nat := (h.entries.filter fun e => !e.signalled).length

/-- HCI_EVT.SIGNAL (R445). -/
def showSignal (s : State) : State :=
  s.set HCI_EVT.SIGNAL (if s.hci.entries.any fun e => e.signalled then 1 else 0)

/-- Every unsignalled entry is signalled, and the timer stops. -/
def signalAll (s : State) : State :=
  showSignal (s.setHci { s.hci with entries := s.hci.entries.map fun e => { e with signalled := true }, timer := none })

/-- Moderation counts the entry of slot `k`. -/
def countEntry (s : State) (k : Nat) (urgent : Bool) : State :=
  let h := s.hci
  let timer := if unsignalled h = 0 then some (deadlineAt s.now (s.get HCI_MOD.TIME)) else h.timer
  let s1 := s.setHci { h with entries := h.entries ++ [{ slot := k, urgent }], timer }
  if urgent || decide (s.get HCI_MOD.COUNT ≤ unsignalled s1.hci) then signalAll s1 else s1

/-- `MODERATION_TIMER` (R444). -/
def execModerationTimer (s : State) : Host.Outcome State Fault Refusal :=
  .next (match s.hci.timer with
  | some t => signalAll (s.expire t)
  | none => s)

/-! ### Completions (R430, R431) -/

/-- URGENT and FENCE of the descriptor in slot `k`. -/
def slotUrgent (s : State) (k : Nat) : Bool := decide (bitOf (slotCtl s k) 23 = 1)
def slotFence (s : State) (k : Nat) : Bool := decide (bitOf (slotCtl s k) 22 = 1)

/-- The four words of a completion written at tail count `n` (Table 15.7). -/
def completionWords (s : State) (k n : Nat) (late : Bool) (c : Completion) : List Nat :=
  [(1 - bitOf n 8) * 2 ^ 31 + flagAt (slotUrgent s k) 30 + flagAt late 29 + c.space % 32 * 2 ^ 24
      + c.reason % 256 * 2 ^ 16 + c.status % 256 * 2 ^ 8 + k % 256,
   slotTag s k, c.r0 % 2 ^ 32, c.r1 % 2 ^ 32]

/-- The counts of a completion. -/
def countCompletion (s : State) (late : Bool) (c : Completion) : State :=
  let s1 := s.addWrap HCI_CNT0.COMPLETED 1
  let s2 := if c.status = 2 then s1.addWrap HCI_CNT0.CANCELLED 1 else s1
  if late then s2.addSat HCI_CNT1.LATE 1 else s2

/-- The completion `c` of slot `k` is written; the tail advances, the slot becomes UNREAD and moderation counts the
entry (R431). -/
def writeCompletion (s : State) (k : Nat) (c : Completion) : State :=
  let n := s.get HCI_CQ_TAIL.TAIL
  let late := (s.slot k).late
  let s1 := s.setBytes (0x012000 + 16 * (n % 256)) (wordsBytes (completionWords s k n late c))
  let s2 := (s1.setSlot k { s.slot k with st := .unread, outcome := none }).set HCI_CQ_TAIL.TAIL (n + 1)
  countEntry (countCompletion s2 late c) k (slotUrgent s k)

/-- `COMMAND_COMPLETE` (R431) of the command in slot `k`; an OTP_COMMIT that blows its locks ends first (R487). -/
def execCommandComplete (k : BitVec 8) (s : State) : Host.Outcome State Fault Refusal :=
  let n := k.toNat
  let s1 := endLocking s n
  .next (if !vsysRuns s then s
    else match (s1.slot n).st, (s1.slot n).outcome with
      | .inflight, some c => writeCompletion s1 n c
      | _, _ => s)

/-! ### Doorbells and the head (R425, R432) -/

/-- `HCI_DOORBELL` (R425): a write of HCI_DB. (DEDUCED, log entry 60) -/
def execHciDoorbell (queue : BitVec 2) (slot : BitVec 8) (s : State) : Host.Outcome State Fault Refusal :=
  let k := slot.toNat
  let q := queue.toNat
  let s1 := (s.set HCI_DB.QUEUE q).set HCI_DB.SLOT k
  .next (if !vsysRuns s then s
    else if !hciRuns s then s1
    else if (s.slot k).st = .free then (s1.setQueue q (s1.queue q ++ [k])).setSlot k { st := .queued, queue := q }
    else notice (s1.addSat HCI_CNT1.BADDB 1) (hciEv 1 .notice))

/-- The head passes the `d` oldest entries, which frees their slots. -/
def passEntries (s : State) (d : Nat) : State :=
  let s1 := State.each (s.hci.entries.take d) (fun s e => s.setSlot e.slot {}) s
  let h := s1.hci
  let rest := h.entries.drop d
  showSignal (s1.setHci { h with entries := rest, timer := if rest.any fun e => !e.signalled then h.timer else none })

/-- `HCI_CQ_HEAD_WRITE` (R432). -/
def execHciCqHeadWrite (head : BitVec 9) (s : State) : Host.Outcome State Fault Refusal :=
  let d := (head.toNat + 512 - s.get HCI_CQ_HEAD.HEAD) % 512
  .next (if !vsysRuns s then s
    else if d ≤ s.hci.entries.length then passEntries (s.set HCI_CQ_HEAD.HEAD head.toNat) d
    else notice (s.addSat HCI_CNT1.BADHEAD 1) (hciEv 2 .notice))

/-! ### The start of a command (R426 to R434) -/

/-- A command's level, whether only K0 may run it, its exclusive group (0 for none) and its bound in µs, without and
with a usable crypto engine (Table 15.8). -/
structure CmdRow where
  level : Nat
  k0 : Bool
  group : Nat
  slow : Nat
  bound : Nat
  deriving DecidableEq, Repr

/-- The row of opcode `op`. -/
def cmdRow (op : Nat) : Option CmdRow :=
  match op with
  | 0x01 | 0x02 | 0x03 | 0x04 => some ⟨0, false, 0, 50, 50⟩
  | 0x10 => some ⟨2, true, 1, 400000, 15000⟩
  | 0x20 => some ⟨1, false, 0, 20, 20⟩
  | 0x21 => some ⟨1, false, 0, 50, 50⟩
  | 0x30 => some ⟨0, true, 2, 250000, 5000⟩
  | 0x31 => some ⟨0, false, 0, 2000, 2000⟩
  | 0x40 => some ⟨0, false, 3, 2000, 2000⟩
  | 0x41 => some ⟨0, true, 3, 2000, 2000⟩
  | 0x50 => some ⟨0, true, 4, 5000, 5000⟩
  | 0x51 => some ⟨0, true, 4, 200000, 200000⟩
  | _ => none

/-- The bits that Table 15.9 assigns in ARG0 to ARG5. -/
def argBits (op : Nat) : List Nat :=
  let all := 2 ^ 32 - 1
  match op with
  | 0x01 | 0x10 | 0x40 => [all, 0, 0, 0, 0, 0]
  | 0x04 => [0xFF, all, 0, 0, 0, 0]
  | 0x20 => [0x7F, 0, 0, 0, 0, 0]
  | 0x21 => [1, 0, 0, 0, 0, 0]
  | 0x30 => [all, all, 3, 0, 0, 0]
  | 0x31 | 0x41 => [all, all, 0, 0, 0, 0]
  | 0x50 => [0x1F, all, all, all, 0, 0]
  | 0x51 => [0x31F, all, all, all, 0, 0]
  | _ => [0, 0, 0, 0, 0, 0]

/-- ARG_RSVD. -/
def argReserved (s : State) (k : Nat) : Bool :=
  decide (slotCtl s k % 2 ^ 22 ≠ 0) ||
    (argBits (slotOp s k)).zipIdx.any fun x => decide (slotArg s k x.2 &&& x.1 ≠ slotArg s k x.2)

/-- ARG_RANGE. -/
def argRange (s : State) (k : Nat) : Bool :=
  match slotOp s k with
  | 0x20 => decide (0x3F < slotArg s k 0) || decide (slotArg s k 0 = 0x1D)
  | 0x50 => outside 1 128 (slotArg s k 2)
  | 0x51 => decide (128 < slotArg s k 2)
  | _ => false

/-- The buffers of a command in the data area, as (offset, length). -/
def buffers (s : State) (k : Nat) : List (Nat × Nat) :=
  match slotOp s k with
  | 0x30 => [(slotArg s k 0, 32), (slotArg s k 1, 192)]
  | 0x31 => [(slotArg s k 0, slotArg s k 1)]
  | 0x40 | 0x41 => [(slotArg s k 0, 1044)]
  | 0x50 | 0x51 => [(slotArg s k 3, 16 * slotArg s k 2)]
  | _ => []

/-- BUF_RANGE. -/
def badBuffer (b : Nat × Nat) : Bool := decide (b.1 % 16 ≠ 0) || decide (4096 < b.1 + b.2)

/-- The input that a command reads when it becomes INFLIGHT (R434). -/
def commandInput (s : State) (k : Nat) : List Byte :=
  match slotOp s k, buffers s k with
  | 0x30, b :: _ | 0x41, b :: _ | 0x51, b :: _ => s.bytes (0x013000 + b.1) b.2
  | _, _ => []

/-- PHASE (R433): before the end of phase 5 no command is accepted; from then, in phase 7 and in HALTED every one is,
and from the start of the power-down sequence only NOP, GET_INFO and CANCEL. -/
def phaseRefuses (s : State) (op : Nat) : Bool :=
  let p := phaseNow s
  decide (p < 6) ||
    !(decide (p = 6) || decide (p = 7) || decide (p = 10)) && !(decide (op = 1) || decide (op = 2) || decide (op = 4))

/-- A command of the exclusive group of slot `k`'s command executes already (R427), or a raw operation runs (R498). -/
def groupBusy (s : State) (k : Nat) : Bool :=
  let g (j : Nat) : Nat := ((cmdRow (slotOp s j)).map CmdRow.group).getD 0
  decide (g k ≠ 0) && ((slotsIn s .inflight).any fun j => decide (j ≠ k) && executing s j && decide (g j = g k)) ||
    (decide (g k = 4) && !s.otp.raw.isEmpty)

/-- The certificate is longer than the buffer of GET_CERT. -/
def certTooLong (s : State) (k : Nat) : Bool :=
  decide (slotOp s k = 0x31) && decide (slotArg s k 1 < s.get ID_CERTLEN.LEN)

/-- The code with which the command in slot `k` is refused (Table 15.10); 0 for none. -/
def commandReason (s : State) (k : Nat) : Nat :=
  let op := slotOp s k
  match cmdRow op with
  | none => 1
  | some r =>
    firstCode
      [(0x02, argReserved s k), (0x03, argRange s k), (0x04, (buffers s k).any badBuffer), (0x05, certTooLong s k),
       (0x06, decide (s.get SYS_SERVICE.LEVEL < r.level)), (0x07, phaseRefuses s op), (0x08, groupBusy s k),
       (0x09, decide (op = 0x30) && !keyReady s)]

/-- The commands that K0 takes between the units of a long command (R428), and the commands that have such units:
OTP words, hash blocks or signature steps. -/
def shortOp (op : Nat) : Bool := decide (op = 1) || decide (op = 2) || decide (op = 4)
def longOp (op : Nat) : Bool := decide (op ∈ [0x10, 0x30, 0x50, 0x51])

/-- Lane `l` may take a command with opcode `op` (R426, R428). -/
def laneTakes (s : State) (l op : Nat) : Bool :=
  let mine := (slotsIn s .inflight).filter fun j => (s.slot j).lane = l
  if l = 0 then
    mine.isEmpty || (!s.on HCI_STATUS.K1LANE && shortOp op && mine.all fun j => longOp (slotOp s j))
  else s.on HCI_STATUS.K1LANE && mine.isEmpty && !((cmdRow op).map CmdRow.k0).getD false

/-- The head of queue `q` may start on lane `l`: with FENCE, once every earlier command of the queue has
completed. -/
def queueReady (s : State) (l q : Nat) : Bool :=
  match s.queue q with
  | [] => false
  | k :: _ =>
    laneTakes s l (slotOp s k) &&
      (!slotFence s k || (slotsIn s .inflight).all fun j => decide ((s.slot j).queue ≠ q))

/-- The queue that lane `l` takes from (R426). -/
def nextQueue (s : State) (l : Nat) : Option Nat :=
  let ready := (List.range 4).filter (queueReady s l)
  if s.on HCI_CFG.ARB then firstAfter s.hci.lastQueue ready else ready.head?

/-- The command at the head of queue `q` becomes INFLIGHT on lane `l`, and ends at once if it is refused; with an
IMG_LOAD or an OTP_COMMIT the operation that FLT_OPMARK names begins, at byte 0 or at the first logical word (R394).
(DEDUCED, log entry 70) -/
def startCommand (s : State) (l q : Nat) : State :=
  match s.queue q with
  | [] => s
  | k :: rest =>
    let s1 := s.setQueue q rest
    let s2 := s1.setHci { s1.hci with lastQueue := some q }
    let s3 := s2.setSlot k
      { st := .inflight, queue := q, lane := l, since := s.now, input := commandInput s k }
    let code := commandReason s k
    if code ≠ 0 then refuseCommand s3 k 0 code (if code = 5 then s.get ID_CERTLEN.LEN else 0)
    else if slotOp s k = 0x10 then opMark s3 5 0
    else if slotOp s k = 0x51 then opMark s3 1 (slotArg s k 1)
    else s3

/-- `COMMAND_START` (R426): lane 0 is K0 and lane 1 is K1. -/
def execCommandStart (lane : Fin 2) (s : State) : Host.Outcome State Fault Refusal :=
  .next (if !hciRuns s || !vsysRuns s then s
    else match nextQueue s lane with
      | some q => startCommand s lane q
      | none => s)

/-- The bound of the command in slot `k`, in µs (Table 15.8). -/
def boundOf (s : State) (k : Nat) : Nat :=
  match cmdRow (slotOp s k) with
  | none => 50
  | some r => if unusable s 29 then r.slow else r.bound

/-- `CMD_DEADLINE` (R435): the bound of the command in slot `k` expires. -/
def execCmdDeadline (k : BitVec 8) (s : State) : Host.Outcome State Fault Refusal :=
  let n := k.toNat
  let x := s.slot n
  .next (if vsysRuns s ∧ x.st = .inflight ∧ ¬ x.late then
    let s1 := s.expire (deadlineAt x.since (boundOf s n))
    raise (s1.setSlot n { x with late := true }) (hciEv 4 .fault (n + slotOp s n * 256))
  else s)

/-! ### Cancellation, enable and drain (R440 to R442) -/

/-- The output buffer of a command in the data area, as (offset, length). -/
def outBuffer (s : State) (k : Nat) : Option (Nat × Nat) :=
  match slotOp s k with
  | 0x30 => some (slotArg s k 1, 192)
  | 0x31 => some (slotArg s k 0, slotArg s k 1)
  | 0x40 => some (slotArg s k 0, 1044)
  | 0x50 => some (slotArg s k 3, 16 * slotArg s k 2)
  | _ => none

/-- The output buffer of the cancelled command in slot `k` is undefined (R436). (DESIGN CHOICE, log entry 114) -/
def spoilOutput (s : State) (k : Nat) : State :=
  match outBuffer s k with
  | some b =>
    if badBuffer b then s
    else writeData { s with free := s.free + 1 } b.1 ((List.range b.2).map (Config.cancelledByte s.free))
  | none => s

/-- NOP and GET_INFO, whose commit point is their completion (Table 15.8), have ended and wait for it. -/
def awaitsCommit (s : State) (k : Nat) : Bool :=
  (decide (slotOp s k = 1) || decide (slotOp s k = 2)) && (s.slot k).outcome.any fun c => decide (c.status = 0)

/-- The command in slot `k` is INFLIGHT before its commit point (R436, R440). -/
def beforeCommit (s : State) (k : Nat) : Bool :=
  decide ((s.slot k).st = .inflight) && !(s.slot k).committed && (executing s k || awaitsCommit s k)

/-- The command in slot `k` completes CANCELLED. -/
def stopCommand (s : State) (k : Nat) : State :=
  endCommand ((spoilOutput s k).setSlot k { s.slot k with outcome := none }) k { status := 2 }

/-- The command in slot `k`, before its commit point, stops at the end of its current unit; an OTP_COMMIT first
finishes its word. -/
def cancelInflight (s : State) (k : Nat) : State :=
  match s.otp.job with
  | some j => if j.slot = k then s.setOtp { s.otp with job := some { j with cancelled := true } } else stopCommand s k
  | none => stopCommand s k

/-- The QUEUED slot `k` leaves its queue and completes CANCELLED. -/
def cancelQueued (s : State) (k : Nat) : State :=
  let q := (s.slot k).queue
  let s1 := spoilOutput s k
  writeCompletion (s1.setQueue q ((s1.queue q).filter (· ≠ k))) k { status := 2 }

/-- The command in slot `k` is cancelled where R440 allows it: RESULT0 of the CANCEL, and the state after it. -/
def cancelSlot (s : State) (k tag : Nat) : Nat × State :=
  let x := s.slot k
  if x.st = .free ∨ slotTag s k ≠ tag then (2, s)
  else
    match x.st with
    | .queued => (0, cancelQueued s k)
    | .inflight => if beforeCommit s k then (0, cancelInflight s k) else (1, s)
    | _ => (1, s)

/-- The interface is enabled, or its check refuses where a self-test has marked it (`bad`) (R441). -/
def enableHci (s : State) (bad : Bool) : State :=
  let s1 :=
    if bad then s.set HCI_STATUS.REASON 0x10
    else
      ((s.set HCI_CTRL.EN 1).set HCI_STATUS.STATE 1).set HCI_STATUS.K1LANE (if unusable s 25 then 0 else 1)
  notice s1 (hciEv 5 .notice)

/-- `HCI_ENABLE` (R441): a write of 1 to EN. -/
def execHciEnable (s : State) : Host.Outcome State Fault Refusal :=
  .next (if s.on HCI_CTRL.EN || !vsysRuns s then s else enableHci s (unusable s 26))

/-- The drain begins: every QUEUED command, and every one before its commit point, is cancelled (R441). -/
def hciDrain (s : State) : State :=
  if !hciRuns s then s
  else
    let s1 := s.set HCI_STATUS.STATE 2
    let s2 := State.each ((List.range 4).flatMap s.queue) cancelQueued s1
    State.each ((slotsIn s2 .inflight).filter (beforeCommit s2)) cancelInflight s2

/-- `HCI_DISABLE` (R441): a write of 0 to EN. -/
def execHciDisable (s : State) : Host.Outcome State Fault Refusal := .next (if vsysRuns s then hciDrain s else s)

/-- Every command has ended, so the drain can end. -/
def hciIdle (s : State) : Bool := (slotsIn s .inflight).all fun k => !executing s k

/-- The drain ends: what has ended completes, and the interface stops. -/
def hciDrained (s : State) : State :=
  if s.get HCI_STATUS.STATE = 2 ∧ hciIdle s then
    let s1 := State.each (slotsIn s .inflight) (fun s k => writeCompletion s k ((s.slot k).outcome.getD { status := 2 })) s
    notice ((s1.set HCI_CTRL.EN 0).set HCI_STATUS.STATE 0) (hciEv 5 .notice)
  else s

/-- The interface is restored when the shutdown self-test ends in HALTED (R442): the check looks at that self-test's
verdict, which is stored. -/
def hciRestore (s : State) : State :=
  let words := (s.sys.stored.map fun x => x.verdict.words).getD []
  enableHci (hciClear s) (decide (bitOf (words.getD 0 0) 26 = 1))

end Sys2Proof.Machine
end

