-- ==== Sys2Proof/Machine/Access.lean ====
section
/-! DEFINITION. Reads by a host (R14, R419, R457, R507 to R509): what each register word shows, the words that only
show other state, the latches that a read sets, and the SRAM windows. -/

namespace Sys2Proof.Machine

/-- A number whose field `i`, of `w` bits, is `f i`, for the first `n` fields. -/
def pack (w n : Nat) (f : Nat → Nat) : Nat := ((List.range n).map fun i => f i % 2 ^ w * 2 ^ (w * i)).foldl (· + ·) 0

/-- How many of the phases are in state `st`. -/
def phaseCount (s : State) (st : Nat) : Nat := ((List.range 20).filter fun k => s.get (PH_STATUS.STATE k) = st).length

/-- The code of a task's state (Table 7.7): a task in an urgent RDADC shows WAIT (R227). -/
def taskCode (x : Task) : Nat :=
  match x.st with
  | .idle => 0
  | .ready => 1
  | .run => match x.wait with
    | some (.urgent ..) => 3
    | _ => 2
  | .wait => 3
  | .claimwait => 4
  | .revoked => 5
  | .faulted => 6
  | .frozen => 7

/-- The code of a claim's state (Table 8.3). -/
def claimCode (x : Claim) : Nat :=
  match x.st with
  | .free => 0
  | .pending => if x.fit then 2 else 1
  | .granted => 3
  | .revoked => if x.fit then 2 else 4
  | .absent => 5

/-- The code of a slot's state (Table 15.5). -/
def slotCode (x : Slot) : Nat :=
  match x.st with
  | .free => 0
  | .queued => 1
  | .inflight => 2
  | .unread => 3

/-- An urgent conversion is under way (R337). -/
def inConversion (s : State) : Nat := if s.adc.urgent.isSome then 1 else 0

/-- NRG_SELINFO (Table 8.15). -/
def selInfo (s : State) : Nat :=
  let x := s.claim (s.get NRG_SEL.INDEX)
  let owner := if x.st = .free ∨ x.st = .absent then 0 else x.eng % 4 * 2 ^ 28 + x.task % 16 * 2 ^ 24 + x.cls % 8 * 2 ^ 20
  owner + flagAt x.oneOff 16 + claimCode x

/-- HCI_MODSTAT (Table 15.20). -/
def modStat (s : State) : Nat :=
  flagAt s.hci.timer.isSome 31 + unsignalled s.hci * 2 ^ 16 + (s.hci.entries.filter fun e => e.urgent).length

/-- OTP_RINFO and OTP_RLOCK of the region in OTP_RSEL, once phase 4 has read the regions (Tables 17.12, 17.13); VOIDS
stays at 63 beyond it. (DEDUCED, log entry 122) -/
def regionInfo (s : State) : Nat :=
  let r := s.get OTP_RSEL.REGION
  if !s.otp.read || decide (24 ≤ r) then 0
  else
    writtenLen s.otp r * 2 ^ 22 + committedLen s.otp r * 2 ^ 12 + satAt 6 (voidCount s.otp r) * 2 ^ 6 + sparesLeft s.otp r
def regionLocks (s : State) : Nat :=
  let r := s.get OTP_RSEL.REGION
  if !s.otp.read || decide (24 ≤ r) then 0
  else NMap.get 0 s.otp.locks (24 + r) % 8 * 8 + NMap.get 0 s.otp.locks r % 8

/-- The state of the 32 sources of bitmap word `q`, as a mask of those that `p` picks (Table 14.13). -/
def sourceMap (s : State) (q : Nat) (p : Nat → Bool) : Nat :=
  pack 1 32 fun k => if p (s.get (INTC_SRC.STATE (32 * q + k + 1))) then 1 else 0

/-- The words that hold no field of their own: what the word at `a` shows. -/
def derivedWord (s : State) (a : Nat) : Option Nat :=
  if a = 0x0010 then some (s.now % 2 ^ 32)
  else if a = 0x0A00 then some (pack 3 10 fun k => s.get (PH_STATUS.OWNER k))
  else if a = 0x0A04 then some (pack 3 10 fun k => s.get (PH_STATUS.OWNER (10 + k)))
  else if a = 0x0A08 then
    some (phaseCount s 1 * 2 ^ 24 + (phaseCount s 2 + phaseCount s 3) * 2 ^ 16 + phaseCount s 0 * 2 ^ 8 + phaseCount s 4)
  else if a = 0x0A0C then some (pack 1 20 fun k => if s.get (PH_STATUS.STATE k) = 4 then 1 else 0)
  else if 0x1400 ≤ a ∧ a < 0x1800 ∧ (a % 0x100 = 0x10 ∨ a % 0x100 = 0x14) then
    some (pack 4 8 fun k => taskCode (s.task ((a - 0x1400) / 0x100) (8 * ((a % 0x100 - 0x10) / 4) + k)))
  else if 0x1854 ≤ a ∧ a < 0x1874 then some (pack 4 8 fun k => claimCode (s.claim (8 * ((a - 0x1854) / 4) + k)))
  else if a = 0x1880 then some (selInfo s)
  else if a = 0x1884 then some (s.claim (s.get NRG_SEL.INDEX)).amount
  else if 0x2500 ≤ a ∧ a < 0x2520 then some (sourceMap s ((a - 0x2500) / 4) fun st => st = 1 || st = 3)
  else if 0x2520 ≤ a ∧ a < 0x2540 then some (sourceMap s ((a - 0x2520) / 4) fun st => 2 ≤ st)
  else if 0x2540 ≤ a ∧ a < 0x2560 then
    some (pack 1 32 fun k => s.get (INTC_SRC.MASK (32 * ((a - 0x2540) / 4) + k + 1)))
  else if a = 0x281C then some (modStat s)
  else if a = 0x2820 then some (slotCount s .free * 2 ^ 16 + slotCount s .queued)
  else if a = 0x2828 then some ((s.queue 1).length * 2 ^ 16 + (s.queue 0).length)
  else if a = 0x282C then some ((s.queue 3).length * 2 ^ 16 + (s.queue 2).length)
  else if 0x2840 ≤ a ∧ a < 0x2880 then some (pack 2 16 fun k => slotCode (s.slot (16 * ((a - 0x2840) / 4) + k)))
  else if a = 0x2A20 then some (regionInfo s)
  else if a = 0x2A24 then some (regionLocks s)
  else none

/-- The fields of the word at `a` that show other state, with what they show. (DESIGN CHOICE, log entry 98) -/
def liveFields (s : State) (a : Nat) : List (Field × Nat) :=
  let page := a / 0x100
  if a = 0x0000 then [(SYS_CTRL.KEY, 0), (SYS_CTRL.OP, s.sys.op)]
  else if a = 0x002C then [(SYS_BRST.KEY, 0)]
  else if a = 0x0104 then
    [(PP_STATUS.PEND, if staged s = s.path.act then 0 else 1), (PP_STATUS.BANK_AVAIL, if bankAvail s then 1 else 0)]
  else if a = 0x0120 then [(PP_SNOW.ENTER, if s.path.entering then 1 else 0)]
  else if a = 0x0204 then [(CHG_STATUS.SUSP, chgSusp s)]
  else if 4 ≤ page ∧ page ≤ 9 then
    [(LP_STATUS.NACT (page - 4), nact s (page - 4)), (LP_VREF.ACTUAL (page - 4), dacCode s (page - 4))]
  else if page = 0x0D then
    let p := a % 0x100 / 0x40
    let v := s.port p
    [(VCL_STATUS.QDEPTH p, v.queue.length), (VCL_STATUS.INFLIGHT p, if v.flight.isSome then 1 else 0),
     (VCL_STATUS.CURTAG p, (v.flight.map VclFlight.tag).getD 0)]
  else if page = 0x0E then
    let n := a % 0x100 / 0x20
    [(BK_STATUS.LIMSRC n, if bkCap (rungNow s) < s.get (BK_CFG.ILIM n) then 1 else 0)]
  else if page = 0x18 then [(NRG_GRANTED.VAL, granted s), (NRG_EARMARK.VAL, earmark s), (NRG_DEBIT.VAL, debit s)]
  else if a = 0x1938 then [(MNG_CMD.GO, if s.ring.cmdPoll then 1 else 0)]
  else if a = 0x1A24 then
    [(ADC_BURST.GO, match s.adc.burst with
      | some b => if b.injection.isNone then 1 else 0
      | none => 0)]
  else if a = 0x1A1C then [(ADC_URGREQ.REQ, s.adc.asked), (ADC_URGREQ.SERVED, s.adc.served)]
  else if a = 0x294C then [(TWC_XFER.GO, if s.twc.cur = some .host || s.twc.waiting then 1 else 0)]
  else if a = 0x1E5C then
    let x := (openRecord s).map Prod.snd
    [(FLT_STATE.OLINE, (x.map EventRec.line).getD 0), (FLT_STATE.OCLASS, (x.map fun e => clsNum e.cls).getD 0),
     (FLT_STATE.OPEN, if x.isSome then 1 else 0), (FLT_STATE.ALIVE_RUN, if s.fox.alive = .run then 1 else 0),
     (FLT_STATE.ALIVE_LVL, if aliveLevel s then 1 else 0)]
  else if 0x1EAC ≤ a ∧ a < 0x1EBC then [(FLT_TKEY.KEY ((a - 0x1EAC) / 4), 0)]
  else if page = 0x20 ∧ 0x40 ≤ a % 0x100 then
    let t := (a - 0x2040) / 0x10
    [(INTC_T_STAT.NACT t, (sourceIds.filter (activeWith s t)).length),
     (INTC_T_STAT.LINE t, if targetLine s t then 1 else 0), (INTC_T_STAT.TOP t, (topSource s t).getD 0)]
  else if a = 0x2A04 then
    [(OTP_STATUS.RAW_BUSY, if s.otp.raw.isEmpty then 0 else 1), (OTP_STATUS.PROGOK, if 7 ≤ phaseNow s then (if tempOk s && vsysOk s then 1 else 0) else s.get OTP_STATUS.PROGOK)]
  else if a = 0x2A28 then [(OTP_RAW_CTRL.GO, if s.otp.raw.isEmpty then 0 else 1)]
  else if (a = 0x0088 ∨ a = 0x008C ∨ a = 0x0090 ∨ (0x2D08 ≤ a ∧ a < 0x2D48)) ∧ ¬ identShown s then
    (fieldsAt a).map fun f => (f, 0)
  else if page = 0x2C ∧ 0x20 ≤ a % 0x100 then
    let i := (a % 0x100 - 0x20) / 8
    if wearOn s i then [] else [(WEAR_EOL.BASIS i, 0), (WEAR_EOL.DAYS i, 0xFFFF)]
  else []

/-- What field `f` shows; `live` are the fields of its word that show other state. -/
def shownField (s : State) (live : List (Field × Nat)) (f : Field) : Nat :=
  match live.find? fun x => x.1 = f with
  | some x => x.2 % 2 ^ f.width
  | none => s.get f

/-- The raw path's registers read 0 while factory test mode is inactive (R498). -/
def rawHidden (s : State) (a : Nat) : Bool := decide (0x2A28 ≤ a) && decide (a ≤ 0x2A40) && !s.on FLT_TEST.ACTIVE

/-- The word at address `a` as a read shows it; a reserved address reads 0 (R18, R507). -/
def shownWord (s : State) (a : Nat) : Nat :=
  match derivedWord s a with
  | some v => v
  | none =>
    if rawHidden s a then 0
    else
      let live := liveFields s a
      ((fieldsAt a).map fun f => shownField s live f * 2 ^ f.lsb).foldl (· + ·) 0

/-! ### Read latches -/

/-- A read of SYS_TIME_LO latches bits [63:32] (R32). -/
def latchTime (s : State) : State := s.set SYS_TIME_HI.TIME (s.now / 2 ^ 32)

/-- A read of ID_SERIAL_LO latches ID_SERIAL_HI (R506). -/
def latchSerial (s : State) : State := s.set ID_SERIAL_HI.SERIAL (serialNow s / 2 ^ 32)

/-- A read of ADC_URGREQ latches ADC_DROP (R337). -/
def latchDrop (s : State) : State :=
  (s.set ADC_DROP.DROPPED s.adc.dropped).set ADC_DROP.INCONV (inConversion s)

/-- A read of FLT_HWR latches FLT_HOVR and FLT_HSTAT (R388). -/
def latchHistory (s : State) : State :=
  let unread := (s.fox.hist.filter fun r => newerThanMark s r.seq).length
  ((s.set FLT_HOVR.COUNT s.fox.histOver).set FLT_HSTAT.UNREAD unread).set FLT_HSTAT.HELD s.fox.hist.length

/-- A read of FLT_LWR latches FLT_LOVR and FLT_LSTAT (R388). -/
def latchLog (s : State) : State := (s.set FLT_LOVR.COUNT s.fox.logOver).set FLT_LSTAT.HELD s.fox.logHeld

/-- The eight words of the record that FLT_RSEL selects; zeros where none is held at that age (Table 13.13). -/
def selectedRecord (s : State) : List Nat :=
  let age := s.get FLT_RSEL.AGE
  let zeros := List.replicate 8 0
  if s.on FLT_RSEL.LOG then
    if age < s.fox.logHeld then
      let at_ := logAddr ((s.get FLT_LWR.COUNT + 2 ^ 32 - 1 - age) % 2 ^ 32)
      (List.range 8).map fun i => s.word (at_ + 4 * i)
    else zeros
  else ((s.fox.hist[age]?).map recWords).getD zeros

/-- A read of FLT_REC0 latches FLT_REC0 to FLT_REC7 (R388). -/
def latchRecord (s : State) : State :=
  State.each (selectedRecord s).zipIdx (fun s x => s.set (FLT_REC.WORD x.2) x.1) s

/-- A read of HCI_CREDIT0 latches HCI_CREDIT1 (R424). -/
def latchCredit (s : State) : State :=
  (s.set HCI_CREDIT1.INFLIGHT (slotCount s .inflight)).set HCI_CREDIT1.UNREAD (slotCount s .unread)

/-- What a read of the word at `a` does before its value is taken (Table 18.5, R409). -/
def readEffect (s : State) (a : Nat) : State :=
  if a = 0x0010 then latchTime s
  else if a = 0x0088 then latchSerial s
  else if a = 0x1A1C then latchDrop s
  else if a = 0x1E60 then latchHistory s
  else if a = 0x1E6C then latchLog s
  else if a = 0x1E84 then latchRecord s
  else if a = 0x2820 then latchCredit s
  else if a = 0x20A4 then claimBy s 6
  else if a = 0x20B4 then claimBy s 7
  else s

/-- The pages of the S0 units (R458). -/
def s0Page (page : Nat) : Bool := [0x00, 0x1E, 0x29, 0x2B, 0x2D].contains page

/-- A host reads the word at `a`: its value, and the state after the read. -/
def hostRead (s : State) (a : Nat) : Nat × State :=
  let s1 := readEffect s a
  (shownWord s1 a, s1)

/-- Address `a` lies in an SRAM window (Table 18.6). -/
def inWindow (a : Nat) : Bool :=
  (decide (0x010000 ≤ a) && decide (a < 0x014000)) || (decide (0x020000 ≤ a) && decide (a < 0x028000)) ||
    (decide (0x030000 ≤ a) && decide (a < 0x040000)) || (decide (0x040000 ≤ a) && decide (a < 0x04A000)) ||
    (decide (0x050000 ≤ a) && decide (a < 0x058000))

/-- The byte at window address `a`; 0 outside the windows. -/
def windowByte (s : State) (a : Nat) : Byte := if inWindow a then s.byte a else 0#8

/-! ### The reads of the table -/

/-- `SYS_TIME_LO_READ` (R32). -/
def execSysTimeLoRead (s : State) : Host.Outcome State Fault Refusal := .next (if k0Runs s then latchTime s else s)
/-- `ID_SERIAL_LO_READ` (R506). -/
def execIdSerialLoRead (s : State) : Host.Outcome State Fault Refusal := .next (if k0Runs s then latchSerial s else s)
/-- `ADC_URGREQ_READ` (R337), of a unit that VSYS feeds (R24). -/
def execAdcUrgreqRead (s : State) : Host.Outcome State Fault Refusal := .next (if vsysRuns s then latchDrop s else s)
/-- `FLT_HWR_READ` (R388). -/
def execFltHwrRead (s : State) : Host.Outcome State Fault Refusal := .next (if k0Runs s then latchHistory s else s)
/-- `FLT_LWR_READ` (R388). -/
def execFltLwrRead (s : State) : Host.Outcome State Fault Refusal := .next (if k0Runs s then latchLog s else s)
/-- `FLT_REC0_READ` (R388). -/
def execFltRec0Read (s : State) : Host.Outcome State Fault Refusal := .next (if k0Runs s then latchRecord s else s)
/-- `HCI_CREDIT0_READ` (R424), of a unit that VSYS feeds (R24). -/
def execHciCredit0Read (s : State) : Host.Outcome State Fault Refusal := .next (if vsysRuns s then latchCredit s else s)

end Sys2Proof.Machine
end

