-- ==== Sys2Proof/Machine/Arith.lean ====
section
/-! DEFINITION. Moves, arithmetic and logic (R207, R229). -/

namespace Sys2Proof.Machine

/-- An instruction whose effect is on its own task alone. -/
def onTask (i : Issue) (w : Nat) (s : State) (f : Task → Task) : Host.Outcome State Fault Refusal :=
  issue i w s fun s t x => s.setTask i.eng t (f x)

/-- `MOV_REG` (R229). -/
def execMovReg (i : Issue) (wd ws : Fin 16) (s : State) : Host.Outcome State Fault Refusal :=
  onTask i (movRegWord wd ws) s fun x => x.result wd (x.reg ws)

/-- `MOV_IMM` (R229): the immediate is sign-extended. -/
def execMovImm (i : Issue) (wd : Fin 16) (imm : BitVec 22) (s : State) : Host.Outcome State Fault Refusal :=
  onTask i (movImmWord wd imm) s fun x => x.result wd (signExt 22 imm.toNat)

/-- `MOV_CONST` (R202, R207): word k of the constant table, which is read as `read` says. -/
def execMovConst (i : Issue) (wd : Fin 16) (k : BitVec 13) (read : Fetch) (s : State) :
    Host.Outcome State Fault Refusal :=
  issue i (movConstWord wd k) s fun s t x =>
    let s1 := fetched s read
    if read = .triple then memErr s1 i.eng t else s1.setTask i.eng t (x.result wd (constWord s k.toNat))

/-- `ADD` (R229). -/
def execAdd (i : Issue) (wd ws : Fin 16) (src : AluSrc) (s : State) : Host.Outcome State Fault Refusal :=
  onTask i (aluWord 0x1B wd ws src) s fun x =>
    let a := x.reg ws
    let b := arithOperand x src
    { x.result wd (a + b) with c := addCarry a b }

/-- `SUB` (R229). -/
def execSub (i : Issue) (wd ws : Fin 16) (src : AluSrc) (s : State) : Host.Outcome State Fault Refusal :=
  onTask i (aluWord 0x1C wd ws src) s fun x =>
    let a := x.reg ws
    let b := arithOperand x src
    { x.result wd (subWord a b) with c := subBorrow a b }

/-- `AND` (R229). -/
def execAnd (i : Issue) (wd ws : Fin 16) (src : AluSrc) (s : State) : Host.Outcome State Fault Refusal :=
  onTask i (aluWord 0x1D wd ws src) s fun x => x.result wd (x.reg ws &&& logicOperand x src)

/-- `OR` (R229). -/
def execOr (i : Issue) (wd ws : Fin 16) (src : AluSrc) (s : State) : Host.Outcome State Fault Refusal :=
  onTask i (aluWord 0x1E wd ws src) s fun x => x.result wd (x.reg ws ||| logicOperand x src)

/-- `CMP` (R229): a SUB that writes no register. -/
def execCmp (i : Issue) (ws : Fin 16) (src : AluSrc) (s : State) : Host.Outcome State Fault Refusal :=
  onTask i (cmpWord ws src) s fun x =>
    let a := x.reg ws
    let b := arithOperand x src
    { x.setZN (subWord a b) with c := subBorrow a b }

/-- `SHR` (R229). -/
def execShr (i : Issue) (wd ws : Fin 16) (src : ShrSrc) (s : State) : Host.Outcome State Fault Refusal :=
  onTask i (shrWord wd ws src) s fun x =>
    let a := x.reg ws
    let n := shiftCount x src
    { x.result wd (a / 2 ^ n) with c := shiftCarry x.c a n }

end Sys2Proof.Machine
end

