-- ==== Sys2Proof/Machine/Claims.lean ====
section
/-! DEFINITION. The ledger instructions CLAIM, RELEASE and RECLAIM, and CLAIM's deadline (R220 to R225,
R263, R267). -/

namespace Sys2Proof.Machine

/-- Engine `e` may use descriptor `c` (Table 7.13); an absent descriptor names no engine. -/
def claimAllowed (s : State) (e c : Nat) : Bool :=
  decide ((s.claim c).st ≠ .absent) && decide (bitOf (s.claim c).engines e = 1)

/-- Task `t` of engine `e` owns claim `c`, in state `st`. -/
def owns (s : State) (e t c : Nat) (st : ClaimState) : Bool :=
  let x := s.claim c
  decide (x.st = st) && decide (x.eng = e) && decide (x.task = t) && !x.rom

/-- A submitted claim is granted in its own handshake (R263, R264). -/
def grantsNow (s : State) (c : Nat) : Bool :=
  let x := s.claim c
  if x.oneOff then oneOffFits s x.amount else steadyFits s x (earmark s)

/-- CLAIM of a free claim (R220): it is submitted, and granted in that handshake or pending. -/
def claimFree (s : State) (e t c : Nat) (x : Task) (deadline : Option Nat) : State :=
  let s1 := submitClaim s c e t x.cls
  if grantsNow s1 c then grant (s1.setTask e t { x with z := true }) c
  else
    leaveRun (s1.addWrap NRG_CNT1.DEFERS 1) e t
      { x with z := false, st := .claimwait, wait := some (.claim c deadline) }

/-- CLAIM by a task that holds a revoked claim, where it is not granted at once (R224): the pending claim is
withdrawn, the CLAIM ends with Z = 0 and T = 1, and the task enters REVOKED. (DEDUCED, log entry 55) -/
def claimRevoked (s : State) (e t : Nat) (x : Task) : State :=
  leaveRun (s.addWrap NRG_CNT1.DEFERS 1) e t { x with z := false, t := true }

/-- `CLAIM` (R220), after the check of the engine mask; `x` is the issuing task with D and T clear.
(DEDUCED, log entry 45) -/
def claimBody (s : State) (e t c : Nat) (x : Task) (deadline : Option Nat) : State :=
  if t = 15 then (s.addWrap NRG_CNT1.DEFERS 1).setTask e t { x with z := false }
  else if owns s e t c .granted then s.setTask e t { x with z := true }
  else if owns s e t c .revoked then claimRevoked s e t x
  else if (s.claim c).st ≠ .free then
    (s.addWrap NRG_CNT1.DEFERS 1).setTask e t { x with z := false, t := true }
  else
    let s1 := submitClaim s c e t x.cls
    if hasRevoked s e t && !grantsNow s1 c then claimRevoked (dropClaim s1 c) e t x
    else claimFree s e t c x deadline

/-- `CLAIM` (R220). -/
def execClaim (i : Issue) (id : Fin 64) (deadline : BitVec 16) (s : State) : Host.Outcome State Fault Refusal :=
  issue i (claimWord id deadline) s fun s t x =>
    if claimAllowed s i.eng id then claimBody s i.eng t id x.startWait (deadlineOf s deadline)
    else takeExc (s.setTask i.eng t x.startWait) i.eng t 5

/-- `CLAIM_DEADLINE` (R221): the pending claim is withdrawn, and the task takes the exception. -/
def execClaimDeadline (e : Fin 4) (t : Fin 16) (s : State) : Host.Outcome State Fault Refusal :=
  let x := s.task e t
  match x.st, x.wait with
  | .claimwait, some (.claim c (some d)) =>
    let s1 := dropClaim (s.expire d) c
    .next (deadlineExc
      (s1.setTask e t { x with st := .ready, wait := none, z := false, d := true, t := true }) e t 3)
  | _, _ => .next s

/-- `RELEASE` (R222, R269): the task's granted claim is released, its revoked claim withdrawn. A claim that
is consumed, or held by another task, stays as it is. -/
def execRelease (i : Issue) (id : Fin 64) (s : State) : Host.Outcome State Fault Refusal :=
  issue i (releaseWord id) s fun s t x =>
    let e := i.eng.val
    if claimAllowed s e id then
      let s1 :=
        if owns s e t id .granted then releaseClaim s id
        else if owns s e t id .revoked then dropClaim s id
        else s
      s1.setTask e t { x with z := true }
    else takeExc s e t 5

/-- RECLAIM of a granted claim to `v` (R223, R267): whether it is granted, and the books after it. The
capacity is evaluated at each RECLAIM (R273). -/
def reclaimTo (s : State) (c v : Nat) : Bool × State :=
  let y := s.claim c
  if v < y.amount then (true, evalCapacity (formFit (s.setClaim c { y with amount := v })) c)
  else if v - y.amount ≤ steadyRoom s y.cls y.revokedAt (earmark s) then
    (true, evalCapacity (s.setClaim c { y with amount := v }) c)
  else (false, evalCapacity s c)

/-- `RECLAIM` (R223). -/
def execReclaim (i : Issue) (id : Fin 64) (ws : Fin 16) (s : State) : Host.Outcome State Fault Refusal :=
  issue i (reclaimWord id ws) s fun s t x =>
    let e := i.eng.val
    if claimAllowed s e id then
      if owns s e t id .granted then
        let (ok, s1) := reclaimTo s id (x.reg ws)
        s1.setTask e t { s1.task e t with z := ok }
      else s.setTask e t { x with z := false }
    else takeExc s e t 5

end Sys2Proof.Machine
end

