-- ==== Sys2Proof/Machine/Loops.lean ====
section
/-! DEFINITION. A running loop: its start, the compensator, the phases' pulses and their plausibility
checks, overshoot truncation, and the estimates of current and input power (R92 to R127). -/

namespace Sys2Proof.Machine

/-- Loop `n` switches: RAMP or REGULATE. -/
def loopSwitches (s : State) (n : Nat) : Bool :=
  decide (s.get (LP_STATUS.STATE n) = 3) || decide (s.get (LP_STATUS.STATE n) = 4)

/-- Pulses of loop `n` can be in flight: it switches, or it drains and its present cycle ends (R109). -/
def loopPulses (s : State) (n : Nat) : Bool := loopSwitches s n || decide (s.get (LP_STATUS.STATE n) = 5)

/-- `LOOP_SWITCHING_START` (R108): SRDY has passed since the verdict, so the first phase may turn on, the reference begins
to move and RAMP is entered. The outlier checks are suspended for the first 8 periods (R119). -/
def execLoopSwitchingStart (n : Fin 6) (s : State) : Host.Outcome State Fault Refusal :=
  .next (if s.get (LP_STATUS.STATE n) = 2 then
    let s1 := s.expire (deadlineAt (s.loop n).refAt (s.get (LP_CFG.SRDY n)))
    (s1.setLoop n { s1.loop n with refHeld := false, refAt := s1.now, quiet := 9 }).set (LP_STATUS.STATE n) 3
  else s)

/-- The device time at which loop `n`'s reference reaches its target. -/
def arrivalTime (s : State) (n : Nat) : Nat :=
  let l := s.loop n
  let goal := s.get (LP_VREF.TARGET n) * 500
  l.refAt + ceilDiv ((goal - l.refFrom) + (l.refFrom - goal)) l.refRate

/-- `LOOP_RAMP_END` (R108): the reference has reached VBOOT, and REGULATE is entered. -/
def execLoopRampEnd (n : Fin 6) (s : State) : Host.Outcome State Fault Refusal :=
  .next (if s.get (LP_STATUS.STATE n) = 3 then
    let s1 := s.expire (arrivalTime s n)
    let l := s1.loop n
    let s2 := s1.setLoop n
      { l with refFrom := s1.get (LP_VREF.TARGET n) * 500, refAt := s1.now, dacFrom := s1.get (LP_VREF.TARGET n) * 4 }
    let s3 := s2.set (LP_STATUS.STATE n) 4
    supEnterAll (notice s3 (railEv (.lp n) 0 .notice)) (.lp n)
  else s)

/-! ### The compensator -/

/-- The error converter's output (Table 3.2): a saturating 10-bit signed number. -/
def sat10 (x : Int) : Int := max (-512) (min 511 x)

/-- The output of the reference DAC of loop `n`, in µV (Table 3.2). -/
def dacNow (s : State) (n : Nat) : Nat := dacCode s n * 125

/-- The error converter's output at `vsns` µV at the sense pins (R92): (VREF − VSNS / DIV) / 0.25 mV. -/
def errorCode (s : State) (n : Nat) (vsns : Int) : Int :=
  let d : Int := divider s n * 250
  let x : Int := (dacNow s n * divider s n : Nat) - vsns
  sat10 (if x % d ≠ 0 ∧ Config.errorRoundUp s.free then x / d + 1 else x / d)

/-- df0 of R92: numerator and exponent over powers of 256. -/
def derivative (kf : Nat) (l : LoopSt) (de : Int) : Int × Nat :=
  if kf = 0 then (de, 0)
  else (l.dfNum * (256 - kf : Nat) + de * (kf : Int) * (256 ^ l.dfExp : Nat), l.dfExp + 1)

/-- `num / 256 ^ exp` on the accumulator's grid of 1/4096, where it does not fall on it by a free choice. -/
def onGrid (num : Int) (exp free : Nat) : Int :=
  let d : Int := (256 ^ exp : Nat)
  if num % d = 0 then num / d else if Config.accRoundUp free then num / d + 1 else num / d

/-- round(acc) of R92; a tie goes by a free choice. -/
def roundAcc (acc free : Nat) : Nat :=
  if acc % 4096 = 2048 then (if Config.icTieUp free then acc / 4096 + 1 else acc / 4096)
  else (acc + 2048) / 4096

/-- One run of the compensator of loop `n` with the error converter's output `e0` (R92).
(DESIGN CHOICE, log entry 14) -/
def compensate (s : State) (n : Nat) (e0 : Int) : State :=
  let l := s.loop n
  let de := e0 - l.e1
  let df := derivative (s.get (LP_COMP1.KF n)) l de
  let d := max l.dfExp df.2
  let step := df.1 * (256 ^ (d - df.2) : Nat) - l.dfNum * (256 ^ (d - l.dfExp) : Nat)
  let kd : Int := (s.get (LP_COMP1.KD n) : Int) * step
  let sum := (l.acc : Int) + (s.get (LP_COMP0.KP n) : Int) * de + (s.get (LP_COMP0.KI n) : Int) * e0 +
    onGrid kd d s.free
  let acc := (max 0 (min ((s.get (LP_ILIM.PHLIM n) * 4096 : Nat) : Int) sum)).toNat
  let s1 := s.setLoop n
    { l with e1 := e0, dfNum := df.1, dfExp := df.2, acc, ic := roundAcc acc (s.free + 1), icPrev := l.ic }
  { s1 with free := s.free + 2 }

/-- An injection raises Ic of loop `n` in the period that begins (R354): it has begun, or its burst has run for
20.48 µs. -/
def injects (s : State) (n : Nat) : Bool :=
  match s.adc.burst with
  | some b =>
    decide (b.injection = some n) &&
      (decide (0 < (s.loop n).inj) || (!b.injected && decide (b.start + 2048 ≤ s.now)))
  | none => false

/-- The total current of loop `n` as its phases' last i_on and i_off give it (R354). (DESIGN CHOICE, log entry 132) -/
def totalCurrent (s : State) (n : Nat) : Nat := (s.loop n).slots.foldl (fun t k => t + (s.phase k).sense) 0

/-- A period of loop `n` with total current `t` ends at device time `now`: a raised one is part of the injection that
the burst measures (R354). -/
def Burst.note (n t now : Nat) (b : Burst) : Burst :=
  if decide (b.injection = some n) && b.raised then
    { b with raised := false, during := t :: b.during, stepEnd := now,
             firstEnd := if b.during.isEmpty then now else b.firstEnd }
  else b

/-- What the period that ends leaves to the measurement of R354: its total current, and the end of a raised
period of the injection. -/
def notePeriod (s : State) (n : Nat) : State :=
  let t := totalCurrent s n
  let l := s.loop n
  let s1 := s.setLoop n { l with totals := (t :: l.totals).take 8 }
  s1.setAdc { s1.adc with burst := s1.adc.burst.map (Burst.note n t s.now) }

/-- The injection's burst in a period that is raised (R354): the first of them is its step. -/
def Burst.raise (b : Burst) (now : Nat) (totals : List Nat) : Burst :=
  if b.injected then { b with raised := true }
  else { b with injected := true, raised := true, stepAt := now, before := totals }

/-- The compensator runs with its accumulator held, and Ic is raised by INJ_I above what the accumulator gives,
as far as PHLIM allows (R92, R113, R354). (DESIGN CHOICE, log entry 19) -/
def inject (s : State) (n : Nat) (e0 : Int) : State :=
  let acc := (s.loop n).acc
  let left := if (s.loop n).inj = 0 then s.get WEAR_INJP.PERIODS else (s.loop n).inj
  let s1 := compensate s n e0
  let ic := min (s.get (LP_ILIM.PHLIM n)) (roundAcc acc s1.free + s.get WEAR_CFG.INJ_I)
  let s2 := s1.setLoop n { s1.loop n with acc, ic, inj := left - 1 }
  { s2 with free := s1.free + 1,
            adc := { s2.adc with burst := s2.adc.burst.map fun b => b.raise s.now (s.loop n).totals } }

/-- The compensator's run of a period. -/
def compensatePeriod (s : State) (n : Nat) (e0 : Int) : State :=
  let s1 := notePeriod s n
  if injects s1 n then inject s1 n e0 else compensate s1 n e0

/-- The period that ends is counted for the current limit (R114). -/
def countIlim (s : State) (n : Nat) : State :=
  let l := s.loop n
  let at' := decide (l.ic = s.get (LP_ILIM.PHLIM n))
  let l' := { l with ilimAt := if at' then min 8 (l.ilimAt + 1) else 0,
                     ilimBelow := if at' then 0 else min 8 (l.ilimBelow + 1) }
  let s1 := s.setLoop n l'
  if s.on (LP_STATUS.ILIM_ACT n) then
    (if l'.ilimBelow = 8 then s1.set (LP_STATUS.ILIM_ACT n) 0 else s1)
  else if l'.ilimAt = 8 then
    loopAlert (raise (s1.set (LP_STATUS.ILIM_ACT n) 1) (railEv (.lp ⟨n % 6, Nat.mod_lt _ (by decide)⟩) 5 .warning)) n 3
  else s1

/-- The slots are recomputed where N has changed (R106): the ACTIVE phases take them in ascending index order
(R105). The periods of R119 are counted, and the period takes the outlier threshold. (DEDUCED, log entry 18) -/
def formSlots (s : State) (n : Nat) : State :=
  let l := { s.loop n with periodAt := s.now, outlier := s.get PH_CFG.OUTLIER }
  s.setLoop n (if l.slotsDirty then { l with slotsDirty := false, slots := phasesIn s n 2, quiet := 8 }
    else { l with quiet := l.quiet - 1 })

/-- A transition in flight toward loop `n` arrives (R145): the reference equals the target and the error lies
in the port's band. -/
def ackReached (s : State) (n : Nat) (e0 : Int) : State :=
  if refArrived s n then
    State.each (portsOf s n)
      (fun s p => if e0.natAbs ≤ s.get (VCL_CFG.BAND p) then endFlight s p 2 else s) s
  else s

/-- Every ACTIVE phase of loop `n` may turn on again in the new period. -/
def newPeriod (s : State) (n : Nat) : State :=
  State.each (phasesIn s n 2) (fun s k => s.setPhase k { s.phase k with turned := false }) s

/-- `LOOP_PERIOD_START` (R92): the error converter samples `vsns` µV at the sense pins. -/
def execLoopPeriodStart (n : Fin 6) (vsns : Int) (s : State) : Host.Outcome State Fault Refusal :=
  .next (if loopSwitches s n then
    let e0 := errorCode s n vsns
    let s1 : State := { s with free := s.free + 1 }
    newPeriod (formSlots (compensatePeriod (ackReached (countIlim s1 n) n e0) n e0) n) n
  else s)

/-- `COMP_DEADLINE` (R93): Ic keeps its previous value for the period, of which a loop that drains ends the present one
(R35). (DEDUCED, log entry 127) -/
def execCompDeadline (n : Fin 6) (s : State) : Host.Outcome State Fault Refusal :=
  .next (if loopPulses s n then
    let l := s.loop n
    raise ((s.setLoop n { l with ic := l.icPrev }).addSat (LP_STATUS.DLCNT n) 1) (railEv (.lp n) 7 .fault)
  else s)

/-! ### Pulses -/

/-- The loop that holds phase `k` ACTIVE and switches. -/
def pulseOwner (s : State) (k : Nat) : Option Nat :=
  let n := s.get (PH_STATUS.OWNER k)
  if s.get (PH_STATUS.STATE k) = 2 ∧ n < 6 ∧ loopSwitches s n then some n else none

/-- The slot of phase `k` in the present period of loop `n` (R105); none where it has no slot. -/
def slotOf (s : State) (n k : Nat) : Option Nat := (s.loop n).slots.idxOf? k

/-- Phase `k` of loop `n` has its turn in slot `j`: it has not turned on in the period, and neither has the phase of
a later slot (R105, R106). -/
def slotTurn (s : State) (n k j : Nat) : Bool :=
  !(s.phase k).turned && ((s.loop n).slots.drop (j + 1)).all fun i => !(s.phase i).turned

/-- `num / d` to the nearest unit, a half upward. -/
def nearest (num d : Nat) : Nat := (2 * num + d) / (2 * d)

/-- The instant of slot `j` of loop `n` in the present period, in units of 156.25 ps (R105): j × period / N, at the
nearest edge of the delay line, less than 0.1 ns from it (Tables 3.2 and 3.3). (DEDUCED, log entry 128) -/
def slotAt (s : State) (n j : Nat) : Nat :=
  let l := s.loop n
  l.periodAt * 64 + nearest (j * 6400000) (s.get (LP_PWM.FSW n) * l.slots.length)

/-- TOFFMIN in units of 156.25 ps, within Table 3.3. (DESIGN CHOICE, log entry 15) -/
def toffMin : Nat := 244 + Config.toffMin % 25

/-- The instant at which phase `k` turns on in slot `j` of loop `n`, in units of 156.25 ps: that of the slot, but no
earlier than TOFFMIN after its last pulse (R94, R106). (DEDUCED, log entry 128) -/
def turnOnAt (s : State) (n k j : Nat) : Nat := max (slotAt s n j) ((s.phase k).offAt + toffMin)

/-- `PHASE_TURN_ON` (R94, R105): the phase, whose last pulse has ended, turns on at the instant of its slot, once in a
period (R106), unless truncation acts. -/
def execPhaseTurnOn (k : Fin 20) (s : State) : Host.Outcome State Fault Refusal :=
  match pulseOwner s k with
  | some n =>
    match slotOf s n k with
    | some j =>
      .next (if (s.loop n).trunc = .none ∧ slotTurn s n k j ∧ ¬ (s.phase k).pulse then
        let t := turnOnAt s n k j
        let s1 := s.expire (t / 64)
        s1.setPhase k { s1.phase k with pwm := .high, turned := true, pulse := true, onAt := max t (s1.now * 64) }
      else s)
    | none => .next s
  | none => .next s

/-! ### Normalised current and the peak-current comparator -/

/-- The normalised current of phase `k` at `v` µV of its sense voltage (R90), in mA × GAIN.
(DEDUCED, log entry 104) -/
def senseCurrent (s : State) (k : Nat) (v : Int) : Int :=
  v * 1000 + s.getSigned (PH_CS.OFS k) * (s.get (PH_CS.GAIN k) : Int)

/-- The code of the sense monitor of phase `k` of loop `n` at `v` µV (R118): 10 bits over 1.5 × PHLIM, so that one
code stands for 3 × PHLIM / 2048 units of 25 mA. (DESIGN CHOICE, log entry 16) -/
def senseCode (s : State) (n k : Nat) (v : Int) (free : Nat) : Nat :=
  let i := senseCurrent s k v
  let d := 75 * s.get (LP_ILIM.PHLIM n) * s.get (PH_CS.GAIN k)
  if i < 0 then Config.negativeSense free % 1024
  else
    let x := i.toNat * 2048
    min 1023 (if x % d ≠ 0 ∧ Config.senseRoundUp free then x / d + 1 else x / d)

/-- A code of the sense monitor of loop `n` in units of 25 mA / 2048. -/
def senseUnits (s : State) (n code : Nat) : Nat := code * 3 * s.get (LP_ILIM.PHLIM n)

/-- The comparator's threshold of a phase of loop `n` after `ton` units of 156.25 ps (R172), in 10 µA: Ic less the
ramp, which advances by SE × 10 ns at each TREF period since the turn-on and holds the threshold at 0. -/
def tripLevel (s : State) (n ton : Nat) : Nat := (s.loop n).ic * 2500 - s.get (LP_SLOPE.SE n) * (ton / 64)

/-- The comparator of phase `k` of loop `n` can have tripped with the current of `v` µV (R172, R173): it has reached
the threshold, within 1 % of it and 0.4 % of 1.5 × PHLIM. -/
def canTrip (s : State) (n k : Nat) (v : Int) (ton : Nat) : Bool :=
  let level : Int := 99 * tripLevel s n ton - 1500 * s.get (LP_ILIM.PHLIM n)
  decide (level * (s.get (PH_CS.GAIN k) : Int) ≤ senseCurrent s k v * 10000)

/-- TONMIN in units of 156.25 ps, within Table 3.3. (DESIGN CHOICE, log entry 15) -/
def tonMin : Nat := 180 + Config.tonMin % 25

/-- The gain code of the sequence entry that produces channel `c`. -/
def gainOf (s : State) (c : Nat) : Nat :=
  match ((List.range 4).flatMap fun sl => (List.range 16).map fun e => (sl, e)).find?
      fun x => s.on (ADC_SL_CTRL.EN x.1) && decide (x.2 < s.get (ADC_SL_CTRL.LEN x.1)) &&
        decide (s.get (ADC_SEQ.CH x.1 x.2) = c) with
  | some x => s.get (ADC_SEQ.GAIN x.1 x.2)
  | none => 0

/-- The latest housekeeping reading of channel `c` in µV (Table 11.1). -/
def readingUv (s : State) (c : Nat) : Nat :=
  let v := hkVal s c
  if c ≤ 0x0B ∨ (0x17 ≤ c ∧ c ≤ 0x19) then v * 500
  else if c ≤ 0x13 then v * 1000
  else if c ≤ 0x16 then v * 2000
  else if 0x30 ≤ c ∧ c ≤ 0x3F then v * 50 / 2 ^ gainOf s c
  else Config.vinOther v

/-- VIN of loop `n` in µV (R118). -/
def loopVin (s : State) (n : Nat) : Nat := readingUv s (s.get (LP_PLANT.VIN_CH n))

/-- The output of loop `n` at the sense pins, ACTUAL × DIV, in µV. -/
def actualOut (s : State) (n : Nat) : Nat := dacNow s n * divider s n

/-- Twice the median of the siblings' on-times. (DESIGN CHOICE, log entry 17) -/
def twiceMedian (s : State) (n k : Nat) : Nat :=
  let l := sortBy (fun a b => decide (a ≤ b)) (((phasesIn s n 2).filter (· ≠ k)).map fun j => s.get (PH_MEAS.TON j))
  let m := l.length
  l.getD ((m - 1) / 2) 0 + l.getD (m / 2) 0

/-- The on-time `ton` of a pulse of loop `n` has not passed the DMAX clamp, which acts at most 10 ns late
(R94, Table 3.3). -/
def withinDmax (s : State) (n ton : Nat) : Bool :=
  let fsw := s.get (LP_PWM.FSW n)
  decide (ton * fsw ≤ (s.get (LP_PWM.DMAX n) * 1000 + fsw) * 64)

/-- The longest time from a comparator's trip to PWM low, 18 ns, in units of 156.25 ps (Table 3.3). -/
def tripDelay : Nat := 115

/-- What ended the pulse of phase `k` of loop `n` after `ton` can have ended it (R94, Table 3.3): the comparator's trip
after TONMIN, or before TONMIN's end and so at TONMIN, where a comparator that is stuck high ends it at any current
(R197), the DMAX clamp, or truncation; and the clamp had not ended it before. (DEDUCED, log entry 128) -/
def canEnd (s : State) (n k : Nat) (vOff : Int) (ton : Nat) (ended : PulseEnd) : Bool :=
  withinDmax s n ton && (match ended with
    | .trip => decide (tonMin ≤ ton) && canTrip s n k vOff ton
    | .tonMin => decide (tonMin ≤ ton) && decide (ton ≤ tonMin + tripDelay)
    | .dmax => decide (s.get (LP_PWM.DMAX n) * 64000 ≤ (ton + 2) * s.get (LP_PWM.FSW n))
    | .truncation => decide ((s.loop n).trunc ≠ .none))

/-- The causes of Table 3.8 that fail for phase `k` of loop `n`, bit c − 1 for cause c, with the monitor's codes at
turn-on and turn-off. -/
def failedChecks (s : State) (n k cOn cOff ton : Nat) (ended : PulseEnd) : Nat :=
  let fsw := s.get (LP_PWM.FSW n)
  let dmax := s.get (LP_PWM.DMAX n)
  let rise := ((senseUnits s n cOff : Int) - (senseUnits s n cOn : Int)) * (s.get (LP_PLANT.LPH n) * 640000 : Nat)
  let slope := ((loopVin s n : Int) - (actualOut s n : Int)) * (ton : Int) * 2048
  let outliers := decide (2 ≤ nact s n) && decide ((s.loop n).quiet = 0)
  let m2 := twiceMedian s n k
  let dist := (2 * ton - m2) + (m2 - 2 * ton)
  flagAt (decide (2560 * s.get (LP_ILIM.PHLIM n) < senseUnits s n cOn)) 0 +
    flagAt (decide (640 ≤ ton) && decide (rise < slope)) 1 +
    flagAt (outliers && decide (ended = .dmax) && decide (m2 * fsw < 96000 * dmax)) 2 +
    flagAt (outliers && decide (ended = .tonMin) && decide (4 * tonMin < m2)) 3 +
    flagAt (outliers && decide (3 ≤ nact s n) && decide ((s.loop n).outlier * m2 < dist * 100)) 4

/-- The lowest-numbered cause of a mask. -/
def lowestCause (m : Nat) : Nat := firstCode ((List.range 5).map fun c => (c + 1, decide (bitOf m c = 1)))

/-- Loop `n` as a rail. -/
def lpRail (n : Nat) : Rail := .lp ⟨n % 6, Nat.mod_lt _ (by decide)⟩

/-- N of loop `n` has fallen below NMIN, from `before` (R122). -/
def checkNmin (s : State) (n before : Nat) : State :=
  let nmin := s.get (LP_CFG.NMIN n)
  if nact s n < nmin ∧ nmin ≤ before then
    loopAlert (raise (s.set (LP_STATUS.DEGRADED n) 1) (railEv (lpRail n) 3 .fault)) n 2
  else s

/-- The last ACTIVE phase has been dropped (R123): the loop drains. -/
def checkNoPhase (s : State) (n : Nat) : State :=
  if nact s n = 0 then
    raise ((railOff s (lpRail n)).set (LP_STATUS.REASON n) 0x13) (railEv (lpRail n) 4 .fault)
  else s

/-- Phase `k` of loop `n` is dropped for the failed checks `m` (R120 to R123). -/
def dropPhase (s : State) (n k m : Nat) : State :=
  let before := nact s n
  let s1 := ((s.set (PH_STATUS.STATE k) 3).set (PH_STATUS.CAUSE k) (lowestCause m)).set (PH_STATUS.CAUSES k) m
  let s2 := (s1.setPhase k {}).setLoop n { s1.loop n with slotsDirty := true }
  checkNoPhase (checkNmin (dirtyLimits (raise s2 (railEv (lpRail n) 2 .warning))) n before) n

/-- The drop of phase `k` waits (R123): the pulse of an ACTIVE phase of lower index that could reach its own drop in
the same period has not ended. -/
def dropWaits (s : State) (n k : Nat) : Bool :=
  (phasesIn s n 2).any fun j => decide (j < k) && (s.phase j).pulse && decide (s.get (PH_STATUS.FAILCNT j) = 2)

/-- The drops of loop `n` that are due and wait for none of lower index are carried out, in ascending index order
(R123). (DEDUCED, log entry 106) -/
def dropDuePhases (s : State) (n : Nat) : State :=
  State.each (List.range 20)
    (fun s k =>
      let m := (s.phase k).dropDue
      if m ≠ 0 ∧ s.get (PH_STATUS.OWNER k) = n ∧ s.get (PH_STATUS.STATE k) = 2 ∧ ¬ dropWaits s n k then dropPhase s n k m
      else s) s

/-- The drops of loop `n` that are due when its drain ends: no pulse is left that they could wait for (R120, R123). -/
def dropsAtEnd (s : State) (n : Nat) : State :=
  State.each (List.range 20)
    (fun s k =>
      let m := (s.phase k).dropDue
      if m ≠ 0 ∧ s.get (PH_STATUS.OWNER k) = n ∧ s.get (PH_STATUS.STATE k) = 2 then dropPhase s n k m else s) s

/-- The period's checks of phase `k` are counted (R120). -/
def countFailures (s : State) (n k m : Nat) : State :=
  if (s.loop n).trunc ≠ .none then s
  else if m = 0 then s.set (PH_STATUS.FAILCNT k) 0
  else
    let c := s.get (PH_STATUS.FAILCNT k) + 1
    let s1 := s.set (PH_STATUS.FAILCNT k) (min 3 c)
    if 3 ≤ c then s1.setPhase k { s1.phase k with dropDue := m } else s1

/-- The level a phase takes at the end of its pulse: low, or high impedance above BRAKE (R115) and until the
reference exceeds a pre-bias start value (R97). -/
def offLevel (s : State) (n : Nat) : Pwm :=
  if (s.loop n).trunc = .brake ∨ prebiased s n then .hiZ else .low

/-- `x` with `i / d` added, as a fraction. -/
def addFraction (x : Nat × Nat) (i d : Nat) : Nat × Nat :=
  if x.2 = d then (x.1 + i, d) else (x.1 * d + i * x.2, x.2 * d)

/-- The pulse's share of the charges of R125: `i` is i_on + i_off in units of 12.5 mA / 2048, and a period lasts
1 ms / FSW. -/
def addCharge (s : State) (n i ton : Nat) : State :=
  let l := s.loop n
  s.setLoop n { l with q := l.q + i * ton, s := addFraction l.s i (s.get (LP_PWM.FSW n)) }

/-- The loop whose pulse on phase `k` ends. -/
def pulseEnds (s : State) (k : Nat) : Option Nat :=
  let n := s.get (PH_STATUS.OWNER k)
  if s.get (PH_STATUS.STATE k) = 2 ∧ n < 6 ∧ loopPulses s n ∧ (s.phase k).pulse then some n else none

/-- The loop in whose off-time phase `k` is: PWM is low. -/
def offTimeOf (s : State) (k : Nat) : Option Nat :=
  let n := s.get (PH_STATUS.OWNER k)
  if s.get (PH_STATUS.STATE k) = 2 ∧ n < 6 ∧ loopPulses s n ∧ (s.phase k).pwm = .low then some n else none

/-- `PHASE_TURN_OFF` (R94, R118, R120, R125); a loop that drains ends its present cycle so (R109). -/
def execPhaseTurnOff (k : Fin 20) (vOn vOff : Int) (ton : Nat) (ended : PulseEnd) (s : State) :
    Host.Outcome State Fault Refusal :=
  match pulseEnds s k with
  | some n =>
    .next (if canEnd s n k vOff ton ended then
      let cOn := senseCode s n k vOn s.free
      let cOff := senseCode s n k vOff (s.free + 1)
      let m := failedChecks s n k cOn cOff ton ended
      let p := s.phase k
      let both := senseUnits s n cOn + senseUnits s n cOff
      let s1 := s.setPhase k
        { p with pwm := offLevel s n, pulse := false, offAt := p.onAt + ton, sense := both }
      let s2 := addCharge { s1 with free := s.free + 2 } n both ton
      let s3 := (s2.set (PH_MEAS.IPK k) (satAt 12 (senseUnits s n cOff / 2048))).set (PH_MEAS.TON k) (satAt 16 ton)
      dropDuePhases (countFailures s3 n k m) n
    else s)
  | none => .next s

/-- `NEGATIVE_CURRENT_LIMIT` (R96): the current falls below −NEGLIM, so PWM is at high impedance until the next
turn-on. -/
def execNegativeCurrentLimit (k : Fin 20) (v : Int) (s : State) : Host.Outcome State Fault Refusal :=
  match offTimeOf s k with
  | some n =>
    let p := s.phase k
    let limit : Int := s.get (LP_ILIM.NEGLIM n) * 25 * s.get (PH_CS.GAIN k)
    .next (if senseCurrent s k v < -limit then s.setPhase k { p with pwm := .hiZ } else s)
  | none => .next s

/-! ### Overshoot truncation -/

/-- `vsns` µV at the sense pins, over DIV, is above VREF + `mv` mV of loop `n` (R115). -/
def aboveRef (s : State) (n : Nat) (vsns : Int) (mv : Nat) : Bool :=
  decide (((dacNow s n + mv * 1000) * divider s n : Nat) < vsns)

/-- `OST_START` (R115): above VREF + THR; above VREF + BRAKE the brake acts, and it acts until the release.
(DEDUCED, log entry 21) -/
def execOstStart (n : Fin 6) (vsns : Int) (s : State) : Host.Outcome State Fault Refusal :=
  .next (if s.on (LP_CTRL.OST_EN n) && loopPulses s n && aboveRef s n vsns (s.get (LP_OST.THR n)) then
    let l := s.loop n
    let brake := s.get (LP_OST.BRAKE n)
    let deep := (decide (brake ≠ 0) && aboveRef s n vsns brake) || decide (l.trunc = .brake)
    let l' := { l with trunc := if deep then .brake else .hold,
                       truncAt := if l.trunc = .none then some s.now else l.truncAt }
    let s1 := (s.setLoop n l').set (LP_STATUS.OST_ACT n) 1
    State.each (phasesIn s1 n 2)
      (fun s k =>
        let p := s.phase k
        s.setPhase k { p with pwm := if deep then .hiZ else if p.pwm = .high then .low else p.pwm })
      (if injecting s = some n.val then abortInjection s1 n 3 else s1)
  else s)

/-- `OST_RELEASE` (R115): below VREF + REL each phase resumes at its next turn-on; the outlier checks stay suspended
for 8 periods (R119). -/
def execOstRelease (n : Fin 6) (vsns : Int) (s : State) : Host.Outcome State Fault Refusal :=
  .next (if (s.loop n).trunc = .none ∨ ((dacNow s n + s.get (LP_OST.REL n) * 1000) * divider s n : Nat) ≤ vsns then s
    else (s.setLoop n { s.loop n with trunc := .none, truncAt := none, quiet := 9 }).set (LP_STATUS.OST_ACT n) 0)

/-- `OST_TIMEOUT` (R117): truncation has lasted longer than TMAX, and goes on. -/
def execOstTimeout (n : Fin 6) (s : State) : Host.Outcome State Fault Refusal :=
  .next (match (s.loop n).truncAt with
    | some t =>
      let s1 := s.expire (deadlineAt t (s.get (LP_OST.TMAX n)))
      let s2 := s1.setLoop n { s1.loop n with truncAt := none }
      loopAlert (raise s2 (railEv (.lp n) 6 .fault)) n 1
    | none => s)

/-! ### Estimates -/


/-- `LOOP_ESTIMATE_WINDOW` (R125): the 1 ms window ends. -/
def execLoopEstimateWindow (n : Fin 6) (s : State) : Host.Outcome State Fault Refusal :=
  let s0 := s.expire (nextBoundary s.now 100000 none)
  let l := s0.loop n
  let s1 := s0.set (LP_IOUT.IOUT n) (satAt 32 (l.s.1 * 5 / (l.s.2 * 8192)))
  let s2 := s1.set (LP_PIN.PIN n) (satAt 32 (l.q * loopVin s0 n / (5120000000000 * 2048)))
  .next (if vsysRuns s then
    s2.setLoop n { l with q := 0, s := (0, 1), iouts := (s1.get (LP_IOUT.IOUT n) :: l.iouts).take 10 }
  else s)

end Sys2Proof.Machine
end

