-- ==== Sys2Proof/Machine/Records.lean ====
section
/-! DEFINITION. Foxglove's commands: the close of a record, the keeper heartbeat, the clearing of FLT_STATUS and
ALIVE, the read mark, factory test mode and fault injection (R380, R384, R388 to R398). -/

namespace Sys2Proof.Machine

/-- Every action of `react` is complete (Table 13.2): SEQ-ABORT once no engine drains, the others at once. In the
power-down sequence SEQ-ABORT is not carried out (R379). -/
def actionsComplete (s : State) (react : Nat) : Bool :=
  bitOf react 5 = 0 || inPowerdown s || (List.range 4).all fun e => decide (s.get (CAM_STATUS.STATE e) ≠ 4)

/-- The record `x` of the history entry `h`, opened at `t0`, closes (R384). -/
def closeRecord (s : State) (h : HistRec) (x : EventRec) (t0 : Nat) : State :=
  let y := { x with incomplete := false, dur := (s.now - t0) / 100 }
  let s1 := histUpdate s { h with body := .event y, closed := some s.now }
  let s2 := { s1 with fox := { s1.fox with openRec := none } }
  if bitOf x.react 2 = 1 then foxEvt s2 0 else s2

/-- `RECORD_CLOSE` (R384): at the later of the merge time's end and the completion of every action. -/
def execRecordClose (s : State) : Host.Outcome State Fault Refusal :=
  .next (match s.fox.openRec, openRecord s with
  | some (t0, merge), some (h, x) =>
    if actionsComplete s x.react then closeRecord (s.expire (deadlineAt t0 merge)) h x t0 else s
  | _, _ => s)

/-- KEEPER_HANG (R390). -/
def keeperEv : Ev := { evt := SYS_EVT.EVT, bit := 0, src := 0, line := 33, cls := .critical }

/-- `KEEPER_HANG` (R390): its reaction always includes STOP-ALIVE. (DEDUCED, log entry 82) -/
def execKeeperHang (s : State) : Host.Outcome State Fault Refusal :=
  .next (if k0Runs s then foxEvent 4 s keeperEv 8 false else s)

/-- `FLT_STATUS_CLEAR` (R380, R392): a write of 1 clears the bit of a line that is not latched; when the last
STOP-ALIVE bit clears, the time to the next edge of ALIVE runs. -/
def execFltStatusClear (q : Fin 2) (bits : Word) (s : State) : Host.Outcome State Fault Refusal :=
  let cleared := bits.toNat &&& (2 ^ 32 - 1 - s.get (FLT_LATCH.LINES q))
  let s1 := s.clearBits (FLT_STATUS.LINES q) cleared
  let s2 := { s1 with fox := { s1.fox with stopLines := s1.fox.stopLines &&& statusLines s1 } }
  .next (if !k0Runs s then s
    else if s2.fox.alive = .held && !aliveStopped s2 then
    { s2 with fox := { s2.fox with alive := .resuming, aliveEdge := s2.now } }
  else s2)

/-- `ALIVE_RESUME` (R392): 0.50 ms after the last STOP-ALIVE bit cleared, ALIVE makes its next edge. -/
def execAliveResume (s : State) : Host.Outcome State Fault Refusal :=
  .next (if s.fox.alive = .resuming then
    let s1 := s.expire (s.fox.aliveEdge + 50000)
    foxEvt { s1 with fox := { s1.fox with alive := .run, aliveEdge := s1.now, aliveLvl := !s1.fox.aliveLvl } } 3
  else s)

/-- `FLT_MARKREAD` (R388): the read mark moves to the newest history record. -/
def execFltMarkread (s : State) : Host.Outcome State Fault Refusal :=
  .next (match k0Runs s, s.fox.hist with
  | false, _ => s
  | true, [] => s
  | true, r :: _ => { s with fox := { s.fox with readMark := some r.seq } })

/-- Test entry is possible (R396, Table 17.10): TEST_EN is high, TEST_DIS is unblown, there is no lockout, and
region TESTKEY is used and enables it. -/
def testPossible (s : State) : Bool :=
  k0Runs s && s.supply.vio && s.supply.testEn && !s.on FLT_TEST.LOCKOUT && !lockBlown s.otp testDisLock && regionUsed s 8 &&
    Config.testEntryEnabled (regionContent s.otp 8)

/-- TEST_ENTRY of line 45 (R396). -/
def testEv : Ev := { evt := SYS_EVT.EVT, bit := 0, src := 0, line := 45, cls := .warning }

/-- `TEST_ENTRY` (R396): the key is compared with the key digest of region TESTKEY. -/
def execTestEntry (s : State) : Host.Outcome State Fault Refusal :=
  let key := (List.range 4).map fun k => s.get (FLT_TKEY.KEY k)
  let tries := satAt 2 (s.get FLT_TEST.TRIES + 1)
  .next (if !testPossible s then s
  else if Config.testKeyMatches (regionContent s.otp 8) key then
    raiseBare (foxEvt (s.set FLT_TEST.ACTIVE 1) 4) testEv
  else
    let s1 := s.set FLT_TEST.TRIES tries
    if tries = 3 then foxEvt (s1.set FLT_TEST.LOCKOUT 1) 4 else s1)

/-- The class with number `c` (Table 13.3). -/
def clsOf (c : Nat) : Cls :=
  match c with
  | 0 => .notice
  | 1 => .warning
  | 2 => .fault
  | _ => .critical

/-- `FAULT_INJECTION` (R398): in factory test mode, an event as if the line's block had raised it. -/
def execFaultInjection (line : BitVec 6) (cls : BitVec 2) (s : State) : Host.Outcome State Fault Refusal :=
  .next (if k0Runs s && s.on FLT_TEST.ACTIVE then
    foxEvent 4 ((s.set FLT_INJ.LINE line.toNat).set FLT_INJ.CLASS cls.toNat)
      { evt := SYS_EVT.EVT, bit := 0, src := 0, line := line.toNat, cls := clsOf cls.toNat } 0 true
  else s)

end Sys2Proof.Machine
end

