-- ==== Sys2Proof/Machine/Supervision.lean ====
section
/-! DEFINITION. The window channels' commands: samples and the majority filters, the settle window, tracking,
enabling and disabling, and the self-checks (R175 to R197). -/

namespace Sys2Proof.Machine

/-- The hysteresis h of a HYST code (Table 6.2), in 0.25 % units. -/
def hystUnits (code : Nat) : Nat :=
  match code with
  | 0 => 0 | 1 => 1 | 2 => 2 | 3 => 4 | 4 => 6 | 5 => 8 | 6 => 12 | _ => 16

/-- The full scale of a source, in µV (Table 6.1); none for a reserved code. -/
def fullScale (s : State) (src : Nat) : Option Nat :=
  if src < 6 then some (2200000 * divider s src)
  else if (railOf src).isSome then some (if 0x18 ≤ src then 18000000 else 6000000)
  else if 0x20 ≤ src ∧ src ≤ 0x22 then some 66000000
  else if src = 0x23 then some 6000000
  else if src = 0x24 ∨ src = 0x26 then some 2200000
  else if src = 0x25 then some 1500000
  else if 0x30 ≤ src ∧ src ≤ 0x3F then some 2500000
  else none

/-- The setting that a tracking channel of rail `r` follows, in µV (R176). -/
def trackedUv (s : State) (r : Rail) : Nat :=
  match r with
  | .lp n => dacCode s n * 125 * divider s n
  | _ => settingNow s r

/-- The highest setting that the output can take, in µV (R176). -/
def highestUv (s : State) : Rail → Nat
  | .lp n => s.get (LP_VCFG.VMAX n) * 500 * divider s n
  | .bk n => s.get (BK_VOUT.VMAX n) * 5000
  | .ldo _ => 5300000
  | .sw _ => 0

/-- The bound output of channel `n`, where it is one that TRACK permits. -/
def trackRail (s : State) (n : Nat) : Option Rail :=
  match boundRail s n with
  | some (.sw _) => none
  | r => r

/-- VN of channel `n`, in µV (R176). -/
def nominalUv (s : State) (n : Nat) : Nat :=
  if s.on (SUP_CFG.TRACK n) then (s.supCh n).vn else s.get (SUP_NOM.VNOM n) * 1000

/-- Where `uv` lies against a high level `l` of a channel with nominal `vn` and hysteresis `h` (R177, R178). -/
def lieHigh (vn h l uv : Nat) : Lie :=
  if l = 0 then .inside
  else if vn * (400 + l) < uv * 400 then .beyond
  else if uv * 400 + vn * h < vn * (400 + l) then .inside
  else .between

/-- Where `uv` lies against a low level `l`. -/
def lieLow (vn h l uv : Nat) : Lie :=
  if l = 0 then .inside
  else if uv * 400 + vn * l < vn * 400 then .beyond
  else if vn * (400 + h) < uv * 400 + vn * l then .inside
  else .between

/-- `uv` as far as the full scale of channel `n`'s source reaches, so that a threshold above it cannot assert
(Table 6.1, R176). -/
def withinScale (s : State) (n uv : Nat) : Nat := min uv ((fullScale s (s.get (SUP_CFG.SRC n))).getD 0)

/-- A sample of the input at `input` µV against the levels of channel `n`. -/
def takeSample (s : State) (n input : Nat) : Samp :=
  let uv := withinScale s n input
  let vn := nominalUv s n
  let h := hystUnits (s.get (SUP_CFG.HYST n))
  { fhi := lieHigh vn h (s.get (SUP_LVL.FHI n)) uv, whi := lieHigh vn h (s.get (SUP_LVL.WHI n)) uv,
    wlo := lieLow vn h (s.get (SUP_LVL.WLO n)) uv, flo := lieLow vn h (s.get (SUP_LVL.FLO n)) uv }

/-- The N-of-M filter (R180): the filtered condition after the samples `lies`, of which earlier ones count as
inside, where it was `was`. -/
def filtered (n m : Nat) (lies : List Lie) (was : Bool) : Bool :=
  let beyond := (lies.filter (· = .beyond)).length
  let inside := (lies.filter (· = .inside)).length + (m - lies.length)
  if n ≤ beyond then true else if n ≤ inside then false else was

/-- The channels of the KT1240 window that TWT_KTMAP maps to window channel `n`, as a mask (R470). -/
def ktChannels (s : State) (n : Nat) : Nat :=
  ((List.range 12).filter fun c => s.on (TWT_KTMAP.V c) && decide (s.get (TWT_KTMAP.SUP c) = n)).foldl setBitNat 0

/-- A filtered condition of channel `n` asserts, so the KT1240 window's flags of its channels are set (R470).
(DEDUCED, log entry 87) -/
def ktFlag (s : State) (n : Nat) (cls : Cls) : State :=
  let m := ktChannels s n
  { s with
    twt := if cls = .fault then { s.twt with fault := s.twt.fault ||| m } else { s.twt with warn := s.twt.warn ||| m } }

/-- A filtered condition of a channel after a sample: where it shows, what it was and is, its event, and whether it is
a low one. -/
structure LevelCond where
  field : Field
  was : Bool
  now : Bool
  k : Nat
  cls : Cls
  low : Bool

/-- A filtered condition of channel `n` is shown. -/
def showCondition (n : Nat) (s : State) (c : LevelCond) : State :=
  let s1 := s.set c.field (if c.now then 1 else 0)
  if c.now && !c.was then ktFlag s1 n c.cls else s1

/-- A condition of channel `n` that asserts raises its event (R187): a low one where it was armed at the sample, as
`armed` says (R185), whatever the reaction to another condition of the sample does to the output; the conditions of a
channel whose check failed raise none (R194). -/
def raiseCondition (n : Nat) (armed : Bool) (s : State) (c : LevelCond) : State :=
  if c.now && !c.was && (!c.low || armed) && !s.on (SUP_STAT.CHKF n) then
    supRaise s n c.k c.cls
  else s

/-- The conditions of channel `n` with the sample `x`. -/
def conditionsAt (s : State) (n : Nat) (x : Samp) : List LevelCond :=
  let m := s.get (SUP_CFG.M n)
  let l := (x :: (s.supCh n).samples).take m
  let cond (f : Field) (p : Samp → Lie) (k : Nat) (cls : Cls) (low : Bool) : LevelCond :=
    { field := f, was := s.on f, now := filtered (s.get (SUP_CFG.N n)) m (l.map p) (s.on f), k, cls, low }
  [cond (SUP_STAT.FHI n) Samp.fhi 0 .fault false, cond (SUP_STAT.WHI n) Samp.whi 1 .warning false,
   cond (SUP_STAT.WLO n) Samp.wlo 2 .warning true, cond (SUP_STAT.FLO n) Samp.flo 3 .fault true]

/-- The filters of channel `n` after a sample: the conditions are shown and PG follows them before their events act
(R184). (DEDUCED, log entry 83) -/
def applySample (s : State) (n : Nat) (x : Samp) : State :=
  let m := s.get (SUP_CFG.M n)
  let c := s.supCh n
  let s1 := s.setSup n { c with samples := (x :: c.samples).take m, taken := min m (c.taken + 1) }
  let s2 := if !isBound s n && decide (m ≤ c.taken + 1) then s1.set (SUP_STAT.ARMED n) 1 else s1
  let cs := conditionsAt s n x
  State.each cs (raiseCondition n (s2.on (SUP_STAT.ARMED n))) (refreshPg (State.each cs (showCondition n) s2) n)

/-- Channel `n` runs: it is enabled and not draining, and the array has VSYS (R191). -/
def supRuns (s : State) (n : Nat) : Bool := vsysRuns s && s.on (SUP_CFG.EN n) && !(s.supCh n).draining

/-- `SUP_SAMPLE` (R180). -/
def execSupSample (n : Fin 64) (uv : Nat) (s : State) : Host.Outcome State Fault Refusal :=
  .next (if supRuns s n then applySample s n (takeSample s n uv) else s)

/-- `SUP_SETTLE_END` (R183): PG has been 1 for the settle window. -/
def execSupSettleEnd (n : Fin 64) (s : State) : Host.Outcome State Fault Refusal :=
  .next (match (s.supCh n).pgSince with
    | some t =>
      if s.on (SUP_STAT.PG n) && !s.on (SUP_STAT.PGS n) then
        pgsReached (s.expire (deadlineAt t (settleUs s n))) n
      else s
    | none => s)

/-- `SUP_TRACK_REFRESH` (R176). -/
def execSupTrackRefresh (n : Fin 64) (s : State) : Host.Outcome State Fault Refusal :=
  .next (if supRuns s n && s.on (SUP_CFG.TRACK n) then
    match trackRail s n with
    | some r => s.setSup n { s.supCh n with vn := trackedUv s r }
    | none => s
  else s)

/-! ### Enabling and disabling -/

/-- The code with which the enable of channel `n` is refused (Table 6.5); 0 for none. -/
def supReason (s : State) (n : Nat) : Nat :=
  let src := s.get (SUP_CFG.SRC n)
  let fs := (fullScale s src).getD 0
  let fhi := s.get (SUP_LVL.FHI n)
  let whi := s.get (SUP_LVL.WHI n)
  let wlo := s.get (SUP_LVL.WLO n)
  let flo := s.get (SUP_LVL.FLO n)
  let h := hystUnits (s.get (SUP_CFG.HYST n))
  let track := s.on (SUP_CFG.TRACK n)
  let top := match trackRail s n with
    | some r => if track then highestUv s r else s.get (SUP_NOM.VNOM n) * 1000
    | none => s.get (SUP_NOM.VNOM n) * 1000
  let lv := [fhi, whi, wlo, flo].filter (· ≠ 0)
  let fn := s.get (SUP_CFG.N n)
  let fm := s.get (SUP_CFG.M n)
  firstCode
    [(0x01, (fullScale s src).isNone), (0x02, track && (trackRail s n).isNone),
     (0x03, (!track && decide (s.get (SUP_NOM.VNOM n) = 0)) || decide (fs * 400 < top * (400 + fhi))),
     (0x04, lv.isEmpty || (decide (whi ≠ 0) && decide (fhi ≠ 0) && decide (fhi ≤ whi)) ||
        (decide (wlo ≠ 0) && decide (flo ≠ 0) && decide (flo ≤ wlo))),
     (0x05, lv.any fun l => decide (l ≤ h)),
     (0x06, decide (fn = 0) || decide (fm < fn) || decide (2 * fn ≤ fm)),
     (0x07, decide (11 ≤ s.get (SUP_CFG.TICK n))), (0x08, unusable s (96 + n))]

/-- The status bits of channel `n` at 0, but for CHKF, which only an enable clears (R194). -/
def clearSupStat (s : State) (n : Nat) : State :=
  State.each [SUP_STAT.PG n, SUP_STAT.PGS n, SUP_STAT.ARMED n, SUP_STAT.FHI n, SUP_STAT.WHI n,
    SUP_STAT.WLO n, SUP_STAT.FLO n] (fun s f => s.set f 0) s

/-- Channel `n` is enabled with its filters cleared (R181, R184, R194); where its output has stayed in REGULATE, the
low levels arm at the next PGS. (DESIGN CHOICE, log entry 142) -/
def supStart (s : State) (n : Nat) : State :=
  let vn := match trackRail s n with
    | some r => trackedUv s r
    | none => 0
  let s1 := ((clearSupStat s n).set (SUP_STAT.CHKF n) 0).setSup n { vn, settled := isBound s n && (s.supCh n).settled }
  let s2 := if isBound s n then s1 else s1.set (SUP_CHAT.COUNT n) 0
  refreshPg (s2.set (SUP_CFG.EN n) 1) n

/-- `SUP_ENABLE` (R188): a write of 1 to EN; an enabled channel ignores it, and without VSYS the array does not run
(R191). -/
def execSupEnable (n : Fin 64) (s : State) : Host.Outcome State Fault Refusal :=
  .next (if s.on (SUP_CFG.EN n) || !servesAt s 2 then s
    else
      let code := supReason s n
      if code = 0 then supStart s n else (s.set SUP_STATUS.REASON code).set SUP_STATUS.RCH n)

/-- An output whose EN reads 1 names channel `n` as its supervision channel (R190). -/
def namedByEnabled (s : State) (n : Nat) : Bool :=
  allRails.any fun r => s.on (railEn r) && decide (s.get (railSup r) = n)

/-- `SUP_DISABLE` (R190): the filters are cleared, PG and PGS read 0, and DETACHED is raised where an enabled
output names the channel. EN reads 1 until the drain ends (R38). -/
def execSupDisable (n : Fin 64) (s : State) : Host.Outcome State Fault Refusal :=
  .next (if supRuns s n then
    let s1 := (clearSupStat s n).setSup n { draining := true, settled := (s.supCh n).settled }
    if namedByEnabled s n then raise s1 (supEv s n 6 .warning) else s1
  else s)

/-- The drain of channel `n` ends. -/
def supDrained (s : State) (n : Nat) : State :=
  if (s.supCh n).draining then (s.setSup n { s.supCh n with draining := false }).set (SUP_CFG.EN n) 0 else s

/-! ### Self-checks -/

/-- The first enabled channel at or after `k`, wrapping. -/
def nextEnabled (s : State) (k : Nat) : Option Nat :=
  ((List.range 64).map fun i => (k + i) % 64).find? fun n => supRuns s n

/-- CMP_CHECK of phase `k` (R197): it has no interrupt source, and its detail names the phase. -/
def cmpCheckEv (k : Nat) : Ev :=
  { evt := SUP_CMPCHK.FAIL, bit := k, src := 0, line := 44, cls := .fault, detail := k }

/-- A peak-current comparator check of phase `k` fails (R197). -/
def cmpFails (s : State) (k : Nat) : State :=
  (raiseBare s { cmpCheckEv k with bit := 0 }).setBit SUP_CMPCHK.FAIL k

/-- The check of channel `n` has failed or passed (R194): PG and PGS fall before SUP_CHECK acts.
(DESIGN CHOICE, log entry 141) -/
def supChecked (s : State) (n : Nat) (pass : Bool) : State :=
  let s0 := s.set SUP_CHK.NEXT ((nextEnabled s ((n + 1) % 64)).getD n)
  if pass then s0
  else
    supRaise (refreshPg ((s0.set (SUP_STAT.CHKF n) 1).addSat SUP_CHK.FAILS 1) n) n 5 .fault

/-- `SUP_SELF_CHECK` (R192, R196): the next enabled channel is checked while SUP_CHK.EN is 1, and the
comparators of the FREE phases are checked. -/
def execSupSelfCheck (pass : Bool) (freeFail : BitVec 20) (s : State) : Host.Outcome State Fault Refusal :=
  let s1 :=
    if s.on SUP_CHK.EN then
      match nextEnabled s (s.get SUP_CHK.NEXT) with
      | some n => supChecked s n pass
      | none => s
    else s
  .next (State.each ((List.range 20).filter fun k =>
      vsysRuns s && decide (s.get (PH_STATUS.STATE k) = 0) && freeFail.getLsbD k) cmpFails s1)

/-- `CMP_SELF_CHECK` (R195): in an off-time of an ACTIVE phase. -/
def execCmpSelfCheck (k : Fin 20) (pass : Bool) (s : State) : Host.Outcome State Fault Refusal :=
  .next (if vsysRuns s && decide (s.get (PH_STATUS.STATE k) = 2) && decide ((s.phase k).pwm ≠ .high) && !pass then
    cmpFails s k
  else s)

end Sys2Proof.Machine
end

