-- ==== Sys2Proof/Machine/Twc.lean ====
section
/-! DEFINITION. The two-wire controller port (R465 to R469): its enable and drain, host transfers, arbitration, the
recovery of its bus, and poll passes. -/

namespace Sys2Proof.Machine

/-- Event `k` of Table 16.7 for the controller port. -/
def twcEv (k : Nat) (cls : Cls) : Ev :=
  { evt := TWC_EVT.EVT, bit := k, src := if k < 2 then 0x0F6 else 0x0F7, line := 37, cls }

/-- The code with which the port's enable is refused (Table 16.4); 0 for none. -/
def twcReason (s : State) : Nat :=
  let low := s.get TWC_TIMING.LOW
  let thd := s.get TWC_TIMING.THD
  firstCode
    [(0x01, decide (low < 50) || decide (s.get TWC_TIMING.HIGH < 26) || decide (thd < 3) || decide (low < thd + 10)),
     (0x02, markedUnit s 9)]

/-- The port is enabled, or its check refuses (R466). -/
def enableTwc (s : State) : State :=
  let code := twcReason s
  let s1 :=
    if code = 0 then
      let s1 := State.each (List.range 8) (fun s k => s.set (TWC_PSTAT.STATUS k) 0xF) (s.setTwc { busy := s.twc.busy })
      (s1.set TWC_CTRL.EN 1).set TWC_STATUS.STATE 1
    else s.set TWC_STATUS.REASON code
  notice s1 (twcEv 1 .notice)

/-- `TWC_ENABLE` (R466). -/
def execTwcEnable (s : State) : Host.Outcome State Fault Refusal :=
  .next (if s.on TWC_CTRL.EN || !servesFrom s 1 then s else enableTwc s)

/-- `TWC_DISABLE` (R466): the port drains. -/
def execTwcDisable (s : State) : Host.Outcome State Fault Refusal :=
  .next (if s.on TWC_CTRL.EN then s.set TWC_STATUS.STATE 5 else s)

/-- Byte `i` of the transfer buffer holds `b`. -/
def putData (s : State) (i : Nat) (b : Byte) : State :=
  let f := TWC_DATA.DATA (i / 4)
  let sh := 8 * (i % 4)
  s.set f (s.get f - bitsOf (s.get f) sh 8 * 2 ^ sh + b.toNat * 2 ^ sh)

/-- The read bytes enter the transfer buffer from byte 0. -/
def putRead (s : State) (bs : List Byte) : State := State.each bs.zipIdx (fun s x => putData s x.2 x.1) s

/-- The result of the host's transfer is written and raised (R467). -/
def hostResult (s : State) (status wdone rdone : Nat) : State :=
  let s1 := ((s.set TWC_RES.STATUS status).set TWC_RES.WDONE wdone).set TWC_RES.RDONE rdone
  let s2 := notice s1 (twcEv 0 .notice)
  if status = 0 ∨ status = 6 then s2 else raise s2 (twcEv 2 .warning)

/-- The transfer under way ends with `status`; the bytes `data` were read, of which no more than were asked for
count. -/
def endTransfer (s : State) (status wdone : Nat) (data : List Byte) : State :=
  let s1 := s.setTwc { s.twc with cur := none, tries := 0 }
  match s.twc.cur with
  | some .host =>
    let bs := data.take s.twc.len.2
    hostResult (putRead s1 bs) status (min wdone s.twc.len.1) bs.length
  | some (.poll k) =>
    let s2 := s1.set (TWC_PSTAT.STATUS k) status
    if status = 0 then s2.set (TWC_PRES.DATA k) (leNat (data.take s.twc.pollLen))
    else if status = 6 then s2
    else raise s2 (twcEv 4 .warning)
  | none => s

/-- `n` bytes as read from the bus: a byte that no device drives reads 0xFF. -/
def readBytes (n : Nat) (data : List Byte) : List Byte := (List.range n).map fun i => data.getD i 0xFF#8

/-- The status of a transfer that ends so, and the missing acknowledgements that it counts. -/
def xferStatus : XferEnd → Nat
  | .ok => 0
  | .nackAddr => 1
  | .nackData => 2

/-- A transfer that ends so enters TWC_CNT.NACK (R467). -/
def countNack (s : State) (e : XferEnd) : State := if e = .ok then s else s.addSat TWC_CNT.NACK 1

/-- A transfer is on the bus, whose lines the port reads while VIO is supplied (R514). -/
def transferring (s : State) : Bool :=
  s.supply.vio && decide (s.get TWC_STATUS.STATE = 3) && s.twc.cur.isSome

/-- `TWC_TRANSFER` (R467): GO starts the host's transfer, which waits for the end of a poll entry.
(DEDUCED, log entry 115) -/
def execTwcTransfer (s : State) : Host.Outcome State Fault Refusal :=
  .next (if !twcRuns s || s.twc.waiting || decide (s.twc.cur = some .host) then s
    else if s.get TWC_XFER.WLEN = 0 ∧ s.get TWC_XFER.RLEN = 0 then hostResult (s.set TWC_RES.TRIES 0) 7 0 0
    else twcNext (s.setTwc { s.twc with waiting := true, addr := s.get TWC_XFER.ADDR,
                                        len := (s.get TWC_XFER.WLEN, s.get TWC_XFER.RLEN) }))

/-- `TWC_TRANSFER_END` (R467). -/
def execTwcTransferEnd (e : XferEnd) (wdone : BitVec 6) (data : List Byte) (s : State) :
    Host.Outcome State Fault Refusal :=
  .next (if transferring s && decide (s.twc.cur = some .host) then
    let bs := readBytes s.twc.len.2 data
    twcNext (match e with
      | .ok => endTransfer s 0 s.twc.len.1 bs
      | _ => endTransfer (countNack s e) (xferStatus e) wdone.toNat [])
  else s)

/-- The bytes that the host's transfer has read before an arbitration loss are in the transfer buffer (R468). -/
def partRead (s : State) (data : List Byte) : State :=
  if s.twc.cur = some .host then putRead s (data.take s.twc.len.2) else s

/-- `TWC_ARB_LOST` (R468): the transfer starts again when the bus is free, or ends after RETRY retries. -/
def execTwcArbLost (wdone : BitVec 6) (data : List Byte) (s : State) : Host.Outcome State Fault Refusal :=
  .next (if transferring s then
    let s1 := (s.addWrap TWC_CNT.ARBLOST 1).addSat TWC_RES.TRIES 1
    let s2 := s1.setTwc { s1.twc with tries := s.twc.tries + 1, busy := true }
    if s.get TWC_CTRL.RETRY < s2.twc.tries then twcNext (endTransfer s2 3 wdone.toNat data)
    else (partRead s2 data).set TWC_STATUS.STATE 2
  else s)

/-- The bytes of a transfer that starts again from step 1 (R468). -/
def resend (s : State) : State :=
  match s.twc.cur with
  | some .host => s.setTwc { s.twc with sent := xferBytes s.twc.addr (dataBytes s s.twc.len.1) s.twc.len.2 }
  | _ => s

/-- `TWC_BUS_FREE` (R465): the bus, on which the port itself transfers nothing, is busy from another controller's START;
or it is free, and a transfer that waits for it starts from step 1. (DESIGN CHOICE, log entry 148) -/
def execTwcBusFree (e : BusEdge) (s : State) : Host.Outcome State Fault Refusal :=
  let s1 := s.setTwc { s.twc with busy := false }
  .next (if !s.supply.vio || !s.on TWC_CTRL.EN then s
    else match e with
      | .started => if transferring s then s else s.setTwc { s.twc with busy := true }
      | .freed => if s.get TWC_STATUS.STATE = 2 then (resend s1).set TWC_STATUS.STATE 3 else s1)

/-- The recovery of a stuck bus ends, with the bus still `busy` or free: the transfer that waits to start goes on, or
the port is idle. -/
def recoveryEnds (s : State) (busy : Bool) : State :=
  let s1 := s.setTwc { s.twc with busy }
  twcNext (s1.set TWC_STATUS.STATE (if s.twc.cur.isSome then 3 else 1))

/-- `TWC_BUS_RECOVER` (R465): the port finds its bus stuck and clocks it; the recovered bus is counted; on one still
stuck after the ninth pulse, the transfer that waits to start ends. -/
def execTwcBusRecover (r : Recovery) (s : State) : Host.Outcome State Fault Refusal :=
  .next (if !twcRuns s || !s.supply.vio then s
    else match r with
      | .begins => s.set TWC_STATUS.STATE 4
      | .released =>
        if s.get TWC_STATUS.STATE = 4 then recoveryEnds (s.addSat TWC_CNT.RECOVER 1) false else s
      | .stuck =>
        if s.get TWC_STATUS.STATE = 4 then recoveryEnds (endTransfer (raise s (twcEv 3 .fault)) 4 0 []) true else s)

/-- `TWC_SCL_TIMEOUT` (R465): a line that reads low for want of VIO counts too (R514). The bus is not free after it. -/
def execTwcSclTimeout (wdone : BitVec 6) (data : List Byte) (s : State) : Host.Outcome State Fault Refusal :=
  .next (if decide (s.get TWC_STATUS.STATE = 3) && s.twc.cur.isSome then
    let s1 := endTransfer s 5 wdone.toNat data
    twcNext (s1.setTwc { s1.twc with busy := true })
  else s)

/-- `TWC_POLL_ENTRY_END` (R469). -/
def execTwcPollEntryEnd (e : XferEnd) (data : List Byte) (s : State) : Host.Outcome State Fault Refusal :=
  .next (match transferring s, s.twc.cur with
  | true, some (.poll _) =>
    twcNext (match e with
      | .ok => endTransfer s 0 1 (readBytes s.twc.pollLen data)
      | _ => endTransfer (countNack s e) (xferStatus e) 0 [])
  | _, _ => s)

/-- The drain ends (R466): the transfer under way and a GO that waits end CANCELLED, and the port stops. -/
def twcDrained (s : State) (wdone : Nat) (data : List Byte) : State :=
  if s.on TWC_CTRL.EN && decide (s.get TWC_STATUS.STATE = 5) then
    let s1 := endTransfer s 6 wdone data
    let s2 := if s.twc.waiting then hostResult s1 6 0 0 else s1
    notice (((s2.setTwc { busy := s.twc.busy }).set TWC_CTRL.EN 0).set TWC_STATUS.STATE 0) (twcEv 1 .notice)
  else s

end Sys2Proof.Machine
end

