-- ==== Sys2Proof/Machine/Vcl.lean ====
section
/-! DEFINITION. The Voltage Command Link ports: transactions, acceptance and refusal, acknowledgements, and the
port's enable and drain (R129 to R156). -/

namespace Sys2Proof.Machine

/-- One step of the CRC of R136. -/
def crc4Step (crc bit : Nat) : Nat :=
  let fb := (crc / 8 + bit) % 2
  let c := crc * 2 % 16
  if fb = 1 then c ^^^ 3 else c

/-- The CRC of R136 over bits 31 to 4 of a frame, most significant bit first. -/
def crc4 (frame : Nat) : Nat := (List.range 28).foldl (fun c i => crc4Step c (bitOf frame (31 - i))) 0xF

/-- A frame with its CRC in bits [3:0]. -/
def withCrc (frame : Nat) : Nat := frame / 16 * 16 + crc4 frame

/-- The levels in which a 32-bit frame goes over a wire, bit 31 first (R132). -/
def wireBits (frame : Nat) : List Bool := (List.range 32).map fun k => decide (bitOf frame (31 - k) = 1)

/-- The frame that 32 levels spell, most significant bit first (R132). -/
def frameOfBits (bits : List Bool) : Nat := bits.foldl (fun f b => f * 2 + (if b then 1 else 0)) 0

/-- The command frame in the levels of VDAT at successive rising edges of VCLK, of which `highs` were high before
them (R132): the first low level after two or more high ones is the start bit, and the frame's 32 bits follow it;
none where the levels hold no whole frame. -/
def sampledFrame : Nat → List Bool → Option Nat
  | _, [] => none
  | highs, true :: rest => sampledFrame (highs + 1) rest
  | highs, false :: rest =>
    if highs < 2 then sampledFrame highs rest
    else if rest.length < 32 then none
    else some (frameOfBits (rest.take 32))

/-- VALT of port `p` is high between transactions (R135): its acknowledgement queue is empty and its alert latch is
zero; without VIO_VCL the ball is high impedance (R514). -/
def valtHigh (s : State) (p : Nat) : Option Bool :=
  if s.supply.vioVcl then some ((s.port p).queue.isEmpty && decide (s.get (VCL_ALERT.LATCH p) = 0)) else none

/-- A response frame (Table 4.5). -/
def responseFrame (code tag data : Nat) : Nat :=
  withCrc (code % 16 * 2 ^ 28 + tag % 4 * 2 ^ 26 + data % 2 ^ 22 * 16)

/-- The response's code and its DATA field, bits [25:4]. -/
structure Response where
  code : Nat
  data : Nat

/-- Frame bits [25:18] of a REFUSED response hold the reason code. -/
def refused (code : Nat) : Response := { code := 5, data := code * 2 ^ 14 }

/-- The acknowledgement frame of a port now (R141, R150, R151), with a free VID where none is queued.
(DESIGN CHOICE, log entry 47) -/
def ackFrame (s : State) (p : Nat) : Nat :=
  let v := s.port p
  let alerts := s.get (VCL_ALERT.LATCH p)
  match v.queue with
  | [] => withCrc (Config.vclNoneVid s.free % 2 ^ 12 * 2 ^ 14 + alerts * 2 ^ 8)
  | a :: rest =>
    withCrc (a.code * 2 ^ 28 + a.tag % 4 * 2 ^ 26 + a.vid % 2 ^ 12 * 2 ^ 14 + alerts * 2 ^ 8 +
      rest.length % 16 * 2 ^ 4)

/-- RACK = 1 in a frame with a valid CRC releases the acknowledgement shown last and clears the alert flags
it carried (R150, R151). -/
def releaseAck (s : State) (p : Nat) (rack : Bool) : State :=
  let v := s.port p
  match rack, v.shown with
  | true, some x =>
    (s.setPort p { v with queue := if x.ack then v.queue.drop 1 else v.queue, shown := none }).clearBits
      (VCL_ALERT.LATCH p) x.alerts
  | _, _ => s

/-- The transaction's frames are on the wire: the response, and the acknowledgement frame with the head of the
queue. -/
def endTransaction (s : State) (p tag : Nat) (r : Response) : State :=
  let v := s.port p
  { s.setPort p { v with resp := responseFrame r.code tag r.data, ack := ackFrame s p,
                         shown := some { ack := !v.queue.isEmpty, alerts := s.get (VCL_ALERT.LATCH p) } } with
    free := s.free + 1 }

/-- A command is refused (R143). -/
def refuseFrame (s : State) (p code : Nat) : State :=
  let s1 := (s.addWrap (VCL_CNT0.REFUSED p) 1).set (VCL_STATUS.LASTREF p) code
  notice s1 (vclEv p 0 .notice)

/-- The ports answer: VSYS feeds them (R24), and VIO_VCL their balls, which without it read low (R514). -/
def portAnswers (s : State) : Bool := vsysRuns s && s.supply.vioVcl

/-- A transaction with a valid command frame: `body` answers the state after the command and its
response. An acknowledgement that the frame releases leaves the queue before the command is checked.
(DEDUCED, log entry 133) -/
def transact (p : Nat) (rack : Bool) (tag : Nat) (s : State) (body : State → State × Response) :
    Host.Outcome State Fault Refusal :=
  let (s1, r) := body (releaseAck s p rack)
  .next (if portAnswers s then endTransaction s1 p tag r else s)

/-- A command that the port refuses with `code` unless it is 0; `body` is its effect. -/
def unlessRefused (s : State) (p code : Nat) (body : State → State × Response) : State × Response :=
  if code = 0 then body s else (refuseFrame s p code, refused code)

/-- The bound loop of port `p`. -/
def boundLoop (s : State) (p : Nat) : Nat := s.get (VCL_CFG.LOOP p)

/-- The code with which a SETV or PSTATE frame is refused (Table 4.7), in the order of the table; a port whose EN
reads 0 refuses every command with PORT_OFF (R153). (DEDUCED, log entry 46) -/
def targetCode (s : State) (p vid slew : Nat) (argBad unset : Bool) : Nat :=
  let n := boundLoop s p
  let st := s.get (LP_STATUS.STATE n)
  let v := s.port p
  if !s.on (VCL_CTRL.EN p) then 0x12
  else firstCode
    [(0x11, argBad), (0x13, decide (slew ≠ 0) && outside 5 400 slew), (0x14, unset),
     (0x15, decide (s.get (LP_VCFG.VMAX n) < vid)),
     (0x16, decide (st = 0) || decide (st = 1) || decide (st = 5)), (0x17, decide (st = 2) || decide (st = 3)),
     (0x18, s.on (VCL_CTRL.HOLD p)),
     (0x19, decide (8 ≤ v.queue.length + (if v.flight.isSome then 1 else 0)))]

/-- The arrival deadline of a transition to `vid` at `slew` (R149), in µs from the acceptance. -/
def arrivalUs (s : State) (p vid slew : Nat) : Nat :=
  let r := refNow s (boundLoop s p)
  let d := (vid * 500 - r) + (r - vid * 500)
  ceilDiv d (slew * 100) + s.get (VCL_CFG.TSET p)

/-- An accepted SETV or PSTATE (R144 to R146, R149). -/
def acceptTarget (s : State) (p tag vid slew : Nat) : State × Response :=
  let superseded := (s.port p).flight.isSome
  let dl := deadlineAt s.now (arrivalUs s p vid slew)
  let s1 := dirtyRail (setTarget s (boundLoop s p) vid slew) (.lp ⟨boundLoop s p % 6, Nat.mod_lt _ (by decide)⟩)
  let s2 := s1.setPort p { s1.port p with flight := some { tag, deadline := dl } }
  (s2.addWrap (VCL_CNT0.ACCEPTED p) 1,
    { code := 1, data := vid * 2 ^ 10 + slew * 2 + flagAt superseded 0 })

/-- A SETV or PSTATE frame that sets a target (R139, R143, R144). -/
def newTarget (s : State) (p tag vid slew : Nat) (argBad unset : Bool) : State × Response :=
  let code := targetCode s p vid slew argBad unset
  if code = 0x19 then (raise (refuseFrame s p code) (vclEv p 5 .warning), refused code)
  else
    unlessRefused s p code fun s =>
      acceptTarget s p tag vid (if slew = 0 then s.get (VCL_STATUS.DSLEW p) else slew)

/-- `VCL_SETV` (R144). -/
def execVclSetv (p : Fin 2) (rack : Bool) (tag : BitVec 2) (vid : BitVec 12) (slew : BitVec 9) (s : State) :
    Host.Outcome State Fault Refusal :=
  transact p rack tag.toNat s fun s => newTarget s p tag.toNat vid.toNat slew.toNat false false

/-- `VCL_SETSLEW` (R140): a slew of 0 is refused. (DEDUCED, log entry 133) -/
def execVclSetslew (p : Fin 2) (rack : Bool) (tag : BitVec 2) (slew : BitVec 9) (unused : BitVec 12) (s : State) :
    Host.Outcome State Fault Refusal :=
  transact p rack tag.toNat s fun s =>
    unlessRefused s p
      (if s.on (VCL_CTRL.EN p) then firstCode [(0x11, decide (unused ≠ 0)), (0x13, outside 5 400 slew.toNat)]
       else 0x12)
      fun s => (s.set (VCL_STATUS.DSLEW p) slew.toNat, { code := 1, data := slew.toNat * 2 })

/-- `VCL_PSTATE` (R139). -/
def execVclPstate (p : Fin 2) (rack : Bool) (tag : BitVec 2) (q : Fin 4) (unused : BitVec 19) (s : State) :
    Host.Outcome State Fault Refusal :=
  transact p rack tag.toNat s fun s =>
    newTarget s p tag.toNat (s.get (VCL_PST.VID p q)) (s.get (VCL_PST.SLEW p q)) (decide (unused ≠ 0))
      (!s.on (VCL_PST.VALID p q))

/-- The code with which a GETV or GETI frame is refused (Table 4.7, R153). -/
def getCode (s : State) (p : Nat) (unused : BitVec 21) : Nat :=
  if s.on (VCL_CTRL.EN p) then (if unused = 0 then 0 else 0x11) else 0x12

/-- `vsns` µV at the sense pins of loop `n` lies within the settle band of port `p` around the target (R141). -/
def inSettleBand (s : State) (p n : Nat) (vsns : Int) : Bool :=
  decide (((s.get (LP_VREF.TARGET n) * 500 * divider s n : Nat) - vsns).natAbs ≤
    s.get (VCL_CFG.BAND p) * 250 * divider s n)

/-- DATA of a GETV at `vsns` µV at the sense pins (R141); with the loop OFF every field reads 0 (R142), and with no
transition in flight the tag in flight is 0. (DESIGN CHOICE, log entry 124) -/
def getvData (s : State) (p : Nat) (vsns : Int) : Nat :=
  let n := boundLoop s p
  if s.get (LP_STATUS.STATE n) = 0 then 0
  else
    let f := (s.port p).flight
    dacCode s n / 4 * 2 ^ 10 + flagAt f.isSome 9 + flagAt (inSettleBand s p n vsns) 8 +
      (match f with | some x => x.tag % 4 | none => 0) * 2 ^ 6

/-- DATA of a GETI (R141, R142); the units of 25 mA are rounded down. (DESIGN CHOICE, log entry 124) -/
def getiData (s : State) (p : Nat) : Nat :=
  let n := boundLoop s p
  if s.get (LP_STATUS.STATE n) = 0 then 0
  else satAt 16 (s.get (LP_IOUT.IOUT n) * 2 / 5) * 2 ^ 6 + nact s n * 2 + s.get (LP_STATUS.ILIM_ACT n)

/-- `VCL_GETV` (R142). -/
def execVclGetv (p : Fin 2) (rack : Bool) (tag : BitVec 2) (unused : BitVec 21) (vsns : Int) (s : State) :
    Host.Outcome State Fault Refusal :=
  transact p rack tag.toNat s fun s =>
    unlessRefused s p (getCode s p unused) fun s => (s, { code := 7, data := getvData s p vsns })

/-- `VCL_GETI` (R142). -/
def execVclGeti (p : Fin 2) (rack : Bool) (tag : BitVec 2) (unused : BitVec 21) (s : State) :
    Host.Outcome State Fault Refusal :=
  transact p rack tag.toNat s fun s =>
    unlessRefused s p (getCode s p unused) fun s => (s, { code := 7, data := getiData s p })

/-- `VCL_BAD_CMD` (R138); a port whose EN reads 0 refuses every command with PORT_OFF (R153). -/
def execVclBadCmd (p : Fin 2) (rack : Bool) (tag : BitVec 2) (s : State) : Host.Outcome State Fault Refusal :=
  transact p rack tag.toNat s fun s =>
    let code := if s.on (VCL_CTRL.EN p) then 0x10 else 0x12
    (refuseFrame s p code, refused code)

/-- `VCL_CRC_ERROR` (R137): nothing is executed and RACK is ignored; the response's DATA is 0.
(DESIGN CHOICE, log entry 124) -/
def execVclCrcError (p : Fin 2) (s : State) : Host.Outcome State Fault Refusal :=
  transact p false 0 s fun s =>
    (notice (s.addWrap (VCL_CNT3.CRCERR p) 1) (vclEv p 1 .notice), { code := 6, data := 0 })

/-- `VCL_STALL` (R134): the transaction is abandoned. After rising edge 33 its command stands, and its
acknowledgement frame counts as not delivered. -/
def execVclStall (p : Fin 2) (late : Bool) (s : State) : Host.Outcome State Fault Refusal :=
  let s1 := if late then s.setPort p { s.port p with shown := none } else s
  .next (if portAnswers s then notice (s1.addWrap (VCL_CNT3.FRAMERR p) 1) (vclEv p 2 .notice) else s)

/-- `VCL_DEADLINE` (R149): the transition stays in flight. -/
def execVclDeadline (p : Fin 2) (s : State) : Host.Outcome State Fault Refusal :=
  let v := s.port p
  match v.flight with
  | some f =>
    .next (if f.missed then s
      else
        let s1 := (s.expire f.deadline).setPort p { v with flight := some { f with missed := true } }
        raise (s1.addWrap (VCL_CNT2.DEADLINE p) 1) (vclEv p 4 .fault))
  | none => .next s

/-! ### The port -/

/-- The code with which the enable of port `p` is refused (Table 4.7); 0 for none. -/
def portReason (s : State) (p : Nat) : Nat :=
  firstCode
    [(0x01, decide (5 < boundLoop s p)),
     (0x02, s.on (VCL_CTRL.EN (1 - p)) && decide (boundLoop s (1 - p) = boundLoop s p)),
     (0x03, decide (s.get (VCL_CFG.BAND p) = 0) || decide (s.get (VCL_CFG.TSET p) = 0)),
     (0x04, markedUnit s (23 + p))]

/-- `VCL_PORT_ENABLE` (R130): a write of 1 to EN; an enabled or draining port ignores it, and an accepted enable keeps
REASON. (DESIGN CHOICE, log entry 124) -/
def execVclPortEnable (p : Fin 2) (s : State) : Host.Outcome State Fault Refusal :=
  .next (if s.on (VCL_CTRL.EN p) || !servesFrom s 3 then s
    else
      let code := portReason s p
      if code = 0 then
        let first := !(s.port p).enabled
        let s1 := (s.set (VCL_STATUS.DSLEW p) (s.get (LP_SLEW.SLEW (boundLoop s p)))).setPort p
          { s.port p with enabled := true }
        let s2 := if first then vclAlert s1 p 5 else s1
        notice (s2.set (VCL_CTRL.EN p) 1) (vclEv p 6 .notice)
      else notice (s.set (VCL_STATUS.REASON p) code) (vclEv p 6 .notice))

/-- `VCL_PORT_DISABLE` (R153): the port drains. -/
def execVclPortDisable (p : Fin 2) (s : State) : Host.Outcome State Fault Refusal :=
  .next (if s.on (VCL_CTRL.EN p) then s.setPort p { s.port p with draining := true } else s)

/-- The drain of port `p` ends: a transition in flight is acknowledged ABORTED (R153). -/
def portDrained (s : State) (p : Nat) : State :=
  if (s.port p).draining then
    let s1 := endFlight s p 4
    notice ((s1.setPort p { s1.port p with draining := false }).set (VCL_CTRL.EN p) 0) (vclEv p 6 .notice)
  else s

/-- `VCL_HOLD` (R154): a write of HOLD; a change latches the alert flag (R151). -/
def execVclHold (p : Fin 2) (hold : Bool) (s : State) : Host.Outcome State Fault Refusal :=
  .next (if s.on (VCL_CTRL.HOLD p) = hold || !vsysRuns s then s
    else vclAlert (s.set (VCL_CTRL.HOLD p) (if hold then 1 else 0)) p 0)

/-- The command that the 32-bit command frame `f` on port `p` is (Tables 4.3 and 4.4); `vsns` is what a GETV measures,
in µV. A frame whose CRC fails, or whose CMD is reserved, is the command that answers it so (R137, R138). -/
def vclCommand (p : Fin 2) (f : Nat) (vsns : Int) : Instr :=
  let rack := decide (bitOf f 27 = 1)
  let tag := BitVec.ofNat 2 (f / 2 ^ 25)
  let slew := BitVec.ofNat 9 (f / 2 ^ 4)
  let arg := BitVec.ofNat 21 (f / 2 ^ 4)
  if withCrc f ≠ f then .vclCrcError p
  else
    match bitsOf f 28 4 with
    | 0x1 => .vclSetv p rack tag (BitVec.ofNat 12 (f / 2 ^ 13)) slew
    | 0x2 => .vclSetslew p rack tag slew (BitVec.ofNat 12 (f / 2 ^ 13))
    | 0x3 => .vclPstate p rack tag (Fin.ofNat 4 (f / 2 ^ 4)) (BitVec.ofNat 19 (f / 2 ^ 6))
    | 0x4 => .vclGetv p rack tag arg vsns
    | 0x5 => .vclGeti p rack tag arg
    | _ => .vclBadCmd p rack tag

end Sys2Proof.Machine
end

