-- ==== Sys2Proof/Machine/Halt.lean ====
section
/-! DEFINITION. The units above S0 stop for the self-test: no ball that switches external power or a shared line is
active (R317), and in HALTED only S0 service remains (R9, R311). -/

namespace Sys2Proof.Machine

/-- The charger stops. -/
def stopCharger (s : State) : State :=
  if s.on CHG_CTRL.EN then chgDrained (s.setChg { s.charger with draining := true }) else s

/-- The node leaves the ring: its hold is released and its bypass closed. -/
def stopRing (s : State) : State := if s.on MNG_CTRL.EN then ringDrained (leaveRing s) else s

/-- Window channel `n` stops; CHKF stays until its next enable (R194). -/
def stopChannel (s : State) (n : Nat) : State :=
  if s.on (SUP_CFG.EN n) then
    State.each [SUP_CFG.EN n, SUP_STAT.PG n, SUP_STAT.PGS n, SUP_STAT.ARMED n, SUP_STAT.FHI n, SUP_STAT.WHI n,
      SUP_STAT.WLO n, SUP_STAT.FLO n] (fun s f => s.set f 0) (s.setSup n {})
  else s

/-- ADC slice `k` stops. -/
def stopSlice (s : State) (k : Nat) : State :=
  if s.on (ADC_SL_CTRL.EN k) then sliceDrained (s.setAdc { s.adc with slDrain := setBitNat s.adc.slDrain k }) k else s

/-- The burst under way ends (R338, R343), and with it the injection that it serves (R354). -/
def stopAnyBurst (s : State) : State :=
  match s.adc.burst with
  | none => s
  | some b =>
    match b.injection with
    | none => stopBurst s
    | some n => dropInjection s n

/-- The urgent conversion under way is cut short, and its request is dropped (R336, R337). -/
def cutUrgent (s : State) : State :=
  if s.adc.urgent.isSome then urgentDropped (s.setAdc { s.adc with urgent := none }) else s

/-- The ADC stops: no round, sequence, burst, capture or urgent conversion runs, and a fill ends (R343). -/
def stopAdc (s : State) : State :=
  let s1 := (endFill (stopAnyBurst (cutUrgent (State.each (List.range 4) stopSlice s)))).set ADC_CAP.EN 0
  s1.setAdc { s1.adc with doneAt := none, round := false, running := 0, injWait := none }

/-- The two-wire controller port stops. -/
def stopTwc (s : State) : State :=
  if s.on TWC_CTRL.EN then twcDrained (s.set TWC_STATUS.STATE 5) 0 [] else s

/-- VCL port `p` stops. -/
def stopPort (s : State) (p : Nat) : State :=
  if s.on (VCL_CTRL.EN p) then portDrained (s.setPort p { s.port p with draining := true }) p else s

/-- The units above S0 stop, VDRV among them. (DEDUCED, log entry 95) -/
def stopUnits (s : State) : State :=
  let s1 := vdrvSwitch (stopCharger s) false
  let s2 := State.each (List.range 64) stopChannel (stopRing s1)
  State.each (List.range 2) stopPort (stopTwc (stopAdc s2))

end Sys2Proof.Machine
end

