-- ==== Sys2Proof/Machine/Shutdown.lean ====
section
/-! DEFINITION. The shutdown commands, the steps of the power-down sequence, the end of the shutdown self-test, and
Crocus standby (R307, R311 to R315, R320). -/

namespace Sys2Proof.Machine

/-- K0 takes a command of SYS_CTRL that a start-up or RUN must accept: no sequence runs and the device is not
HALTED. (DEDUCED, log entry 35) -/
def shutdownAccepted (s : State) : Bool := k0Runs s && s.sys.started && decide (phaseNow s ≤ 7)

/-- `SYS_SHUTDOWN` (R311): trigger 3. -/
def execSysShutdown (s : State) : Host.Outcome State Fault Refusal :=
  .next (if shutdownAccepted s then pdStart s 3 else s)

/-- `SYS_ORDERLY` (R311): trigger 4. -/
def execSysOrderly (s : State) : Host.Outcome State Fault Refusal :=
  .next (if shutdownAccepted s then pdStart s 4 else s)

/-- The device is HALTED (Table 10.9). -/
def isHalted (s : State) : Bool := k0Runs s && decide (phaseNow s = 10)

/-- `SYS_RESTART` (R322, R370): start-up runs again from HALTED, unless the thermal-shutdown latch is set.
(DEDUCED, log entry 34) -/
def execSysRestart (s : State) : Host.Outcome State Fault Refusal :=
  .next (if isHalted s && !s.on THM_TSD.LATCH then
    let s1 := beginStartup { s with otp := otpThroughRestart s, free := s.free + 2 }
    s1.setSys { s1.sys with op := 4 }
  else s)

/-- `SYS_STANDBY` (R320): from HALTED both pairs open and only the island runs. -/
def execSysStandby (s : State) : Host.Outcome State Fault Refusal :=
  .next (if isHalted s then (pathOff s .standby).set SYS_STATUS.PHASE 11 else s)

/-- The two-wire port reaches the S0 pages only (R458). -/
def narrowPort (s : State) : State := { s with twt := { s.twt with narrow := true } }

/-- What wakes the island from Crocus standby (R320): one of the two addresses of R452, a press of SNOW_BTN, or the
wake timer, where WAKET is not 0. -/
def wakes (s : State) : WakeCause → Bool
  | .address a =>
    decide (a.toNat = s.get TWT_STATUS.ADDR) || (s.on TWT_CFG.KT_EN && decide (a.toNat = s.get TWT_STATUS.KTADDR))
  | .button held => wakePress s held
  | .timer => decide (s.get SYS_STBY.WAKET ≠ 0)

/-- The ticks of 8 kHz that standby lasted (R320): WAKET s where the timer wakes, and no more than that otherwise
while it runs. -/
def standbyTicks (s : State) (cause : WakeCause) (ticks : Nat) : Nat :=
  let timer := s.get SYS_STBY.WAKET * 8000
  if cause = .timer then timer else if timer = 0 then ticks else min ticks timer

/-- `STANDBY_WAKE` (R320): the island advances the device time by the ticks of 8 kHz that it counted (R32), and
start-up runs from phase 0. -/
def execStandbyWake (cause : WakeCause) (ticks : Nat) (s : State) : Host.Outcome State Fault Refusal :=
  .next (if s.path.off = .standby ∧ wakes s cause then
    let s1 := ({ s with now := s.now + standbyTicks s cause ticks * 12500 } : State).set SYS_RSTCAUSE.STBY_WAKE 1
    narrowPort (startIfReleased (s1.setSys { s1.sys with bankWake := true }))
  else s)

/-! ### The sequence -/

/-- `s` at step `n` of R312. (DEDUCED, log entry 36) -/
def pdStep (s : State) (x : Pd) (n : Nat) : State := opMark (s.setSys { s.sys with pd := some { x with step := n } }) 2 n

/-- `PD_ENGINES_DRAINED` (R312): step 1 ends. -/
def execPdEnginesDrained (s : State) : Host.Outcome State Fault Refusal :=
  .next (match s.sys.pd with
  | some x => if x.step = 1 ∧ enginesOff s then pdStep s x 2 else s
  | none => s)

/-- `PD_TMAX` (R312): TMAX expires in step 1; every engine that still runs drains. -/
def execPdTmax (s : State) : Host.Outcome State Fault Refusal :=
  .next (match s.sys.pd with
  | some x =>
    if x.step = 1 then
      let s1 := (s.expire (deadlineAt x.start (s.get SYS_PDCFG.TMAX * 1000))).set SYS_PDSTAT.TMAXHIT 1
      pdStep (enginesDrain (raise s1 (sysEv 2 .warning))) x 2
    else s
  | none => s)

/-- The start of the drain with which output `r` left REGULATE (R312). -/
def drainStart (s : State) (r : Rail) : Nat := (s.out (railCode r)).drainAt.getD s.now

/-- The outputs that have left REGULATE and are among those of the mask `above`, which are not below 100 mV at
DISTMO (R312), in the order of their drains. -/
def slowOutputs (s : State) (above : Nat) : List Rail :=
  sortBy (fun a b => decide (drainStart s a ≤ drainStart s b))
    (allRails.filter fun r =>
      isOutput r && decide (bitOf above (railCode r) = 1) && (s.out (railCode r)).drainAt.isSome)

/-- Output `r` is not below 100 mV at DISTMO after its drain began, so it fails (R314). -/
def distmoFails (s : State) (r : Rail) : State :=
  railFails (s.expire (deadlineAt (drainStart s r) (s.get SYS_PDCFG.DISTMO * 1000))) r

/-- Every discharge ends, but for that of R167 (R314). -/
def endDischarges (s : State) : State :=
  State.each (allRails.filter isOutput)
    (fun s r =>
      let o := s.out (railCode r)
      let s1 := s.setOut (railCode r) { o with disch := s.vdrv.resetDischarge, forced := false }
      if s.get (railState r) = 5 then s1.set (railState r) 0 else s1) s

/-- The shutdown self-test begins (R312, R314, R317, R391): step 4. Completions not read by then are lost (R441). -/
def beginSelfTest (s : State) (x : Pd) : State :=
  aliveLow (opMark (toPhase (pdStep (stopUnits (endDischarges (hciClear s))) x 4) 9) 3 0)

/-- Step 2 is done: every engine has drained and every rail is off (R312). -/
def railsAreOff (s : State) : Bool := enginesOff s && (enabledRails s).isEmpty

/-- `PD_DISCHARGE_WAIT_END` (R312, R314): step 3 ends, with the outputs of `above` not below 100 mV at DISTMO. The
command interface drains first (R441). -/
def execPdDischargeWaitEnd (above : Word) (s : State) : Host.Outcome State Fault Refusal :=
  .next (match s.sys.pd with
  | some x =>
    if (x.step = 2 ∨ x.step = 3) ∧ railsAreOff s then
      let s1 := hciDrained (hciDrain s)
      if s1.get HCI_STATUS.STATE = 2 then s1
      else beginSelfTest (State.each (slowOutputs s1 above.toNat) distmoFails (pdStep s1 x 3)) x
    else s
  | none => s)

/-! ### Verdicts -/

/-- The bits of a verdict word that name units (Table 10.3). -/
def unitMask (w : Nat) : Nat := [0x3FFFFFFF, 0x3FFFFF3F, 0xFFFFF, 0xFFFFFFFF, 0xFFFFFFFF].getD w 0

/-- The unit of Table 10.3 that follows unit `u`; the last one after itself. -/
def unitAfter (u : Nat) : Nat :=
  ((List.range 160).find? fun v => decide (u < v) && decide (bitOf (unitMask (v / 32)) (v % 32) = 1)).getD u

/-- The signature that the ROM holds for a unit and a test (R316). -/
def expectedSig (t : BistTest) : Nat := Config.bistSignature t.unit.toNat t.kind.toNat % 2 ^ 32

/-- The test is one of Table 10.6 on a unit of Table 10.3, and its signature is not the expected one (R316). -/
def testFails (t : BistTest) : Bool :=
  decide (bitOf (unitMask (t.unit.toNat / 32)) (t.unit.toNat % 32) = 1) && !outside 1 6 t.kind.toNat &&
    decide (t.sig.toNat ≠ expectedSig t)

/-- Each test runs once: the first signature that is listed for a unit and a test counts. -/
def onceEach : List BistTest → List BistTest
  | [] => []
  | t :: ts => t :: (onceEach ts).filter fun u => decide (u.unit ≠ t.unit) || decide (u.kind ≠ t.kind)

/-- The failed tests, by unit and then by kind (R318). Every test of Table 10.6 runs on every unit of Table 10.3; one
that `ts` does not list has obtained the expected signature. (DESIGN CHOICE, log entry 120) -/
def failedTests (ts : List BistTest) : List BistTest :=
  sortBy (fun a b => decide (a.unit.toNat * 16 + a.kind.toNat ≤ b.unit.toNat * 16 + b.kind.toNat))
    ((onceEach ts).filter testFails)

/-- Verdict word `w`: a set bit for each of its units that failed a test (R316, Table 10.3). -/
def verdictWordOf (fs : List BistTest) (w : Nat) : Nat :=
  (fs.filter fun t => decide (t.unit.toNat / 32 = w)).foldl (fun x t => setBitNat x (t.unit.toNat % 32)) 0

/-- The diagnosis of R318: the first failing unit and test, the number of failing tests, and the first failure's
obtained and expected signatures. -/
def diagnosis (fs : List BistTest) : List Nat :=
  match fs with
  | [] => [0, 0, 0]
  | t :: _ => [t.unit.toNat * 2 ^ 16 + t.kind.toNat * 2 ^ 8 + satAt 8 fs.length, t.sig.toNat, expectedSig t]

/-- A self-test's outcome: verdict words and diagnosis (R316, R318). -/
def verdictOf (ts : List BistTest) : Verdict :=
  { words := (List.range 5).map (verdictWordOf (failedTests ts)), diag := diagnosis (failedTests ts) }

/-- The verdict is stored with its CRC-16 and marked valid, and the sequence is over (R307, R312).
(DESIGN CHOICE, log entry 96) -/
def storeVerdict (s : State) (x : Pd) (v : Verdict) : State :=
  let s1 := setStored (s.setSys { s.sys with pd := none }) (some { verdict := v, crc := Config.verdictCrc v % 2 ^ 16 })
  let s2 := (s1.set SYS_PDSTAT.DUR (satAt 16 ((s.now - x.start) / 100000))).set SYS_PDSTAT.DONE 1
  opEnd (opEnd (s2.set NRG_STATUS.PDOWN 0) 3) 2

/-- HALTED (Table 10.4): S0 service only, ALIVE toggles again, and the command interface is restored (R10, R391,
R442). -/
def enterHalted (s : State) : State :=
  let s1 := (toPhase s 10).set SYS_SERVICE.LEVEL 0
  hciRestore (aliveRun (s1.setSys { s1.sys with op := 0 }))

/-- What Table 10.4 gives after the self-test. -/
def afterSelfTest (s : State) (trig : Nat) : State :=
  if s.path.restart then
    beginStartup (aliveRun { s with path := { s.path with restart := false }, otp := otpThroughRestart s, free := s.free + 2 })
  else if ppState s = 4 then snowdrop s
  else if trig = 3 then enterHalted s
  else beginStartup (setStored ((systemReset s true).set SYS_RSTCAUSE.ORDERLY 1) s.sys.stored)

/-- `SHUTDOWN_BIST_DONE` (R307, Table 10.4). -/
def execShutdownBistDone (tests : List BistTest) (s : State) : Host.Outcome State Fault Refusal :=
  .next (match s.sys.pd with
  | some x =>
    if x.step = 4 ∧ phaseNow s = 9 then afterSelfTest (storeVerdict s x (verdictOf tests)) x.trig else s
  | none => s)

end Sys2Proof.Machine
end

