-- ==== Sys2Proof/Machine/Drain.lean ====
section
/-! DEFINITION. The end of a block's drain (R37, R38) and the BLOCK reset (R43). -/

namespace Sys2Proof.Machine

/-- The drain of rail `r` ends; a claim of the ROM firmware whose last rail it was becomes FREE (R531). -/
def railDrained (s : State) (r : Rail) : State :=
  if s.on (railEn r) && draining s r then
    romFree (match r with
      | .lp n => loopDrained (dropsAtEnd s n) n
      | _ => outputDrained s r)
  else s

/-- `BLOCK_DRAIN_END` (R37, Table 1.6): a block whose drain has begun stops, and its enable reads 0. -/
def execBlockDrainEnd (u : DrainUnit) (s : State) : Host.Outcome State Fault Refusal :=
  .next (match u with
  | .rail r => railDrained s r
  | .engine e => if s.on (CAM_CTRL.EN e) && decide (s.get (CAM_STATUS.STATE e) = 4) then engineDrained s e else s
  | .vclPort p => portDrained s p
  | .adcSlice k => sliceDrained s k
  | .charger => chgDrained s
  | .hci => hciDrained s
  | .twc wdone data => twcDrained s wdone.toNat data
  | .ring => ringDrained s
  | .sup n => supDrained s n)

/-! ### BLOCK reset -/

/-- `n` word addresses from `a`. -/
def wordsFrom (a n : Nat) : List Nat := (List.range n).map fun i => a + 4 * i

/-- The enable of a unit of Table 1.11; none where the code names no unit. -/
def unitEnable (u : Nat) : Option Field :=
  if u = 0x01 then some CHG_CTRL.EN
  else if 0x04 ≤ u ∧ u ≤ 0x09 then some (LP_CTRL.EN (u - 4))
  else if u = 0x10 ∨ u = 0x11 then some (VCL_CTRL.EN (u - 0x10))
  else if 0x20 ≤ u ∧ u ≤ 0x25 then some (BK_CTRL.EN (u - 0x20))
  else if 0x28 ≤ u ∧ u ≤ 0x2F then some (LDO_CTRL.EN (u - 0x28))
  else if 0x30 ≤ u ∧ u ≤ 0x37 then some (SW_CTRL.EN (u - 0x30))
  else if 0x38 ≤ u ∧ u ≤ 0x3B then some (CAM_CTRL.EN (u - 0x38))
  else if 0x3C ≤ u ∧ u ≤ 0x3F then some (ADC_SL_CTRL.EN (u - 0x3C))
  else if u = 0x48 then some MNG_CTRL.EN
  else if u = 0x49 then some TWC_CTRL.EN
  else if 0x80 ≤ u ∧ u ≤ 0xBF then some (SUP_CFG.EN (u - 0x80))
  else none

/-- The words of a unit of Table 1.11, but for the window channels, which share words. -/
def unitWords (u : Nat) : List Nat :=
  if u = 0x01 then wordsFrom 0x0200 64
  else if u ≤ 0x09 then wordsFrom (0x0400 + (u - 4) * 0x100) 17
  else if u ≤ 0x11 then wordsFrom (0x0D00 + (u - 0x10) * 0x40) 16
  else if u ≤ 0x25 then wordsFrom (0x0E00 + (u - 0x20) * 0x20) 8
  else if u ≤ 0x2F then wordsFrom (0x0F00 + (u - 0x28) * 0x10) 4
  else if u ≤ 0x37 then wordsFrom (0x0F80 + (u - 0x30) * 0x10) 4
  else if u ≤ 0x3B then wordsFrom (0x1400 + (u - 0x38) * 0x100) 9
  else if u ≤ 0x3F then
    let k := u - 0x3C
    [(ADC_SL_CTRL.EN k).addr, (ADC_SL_RAW.RAW k).addr] ++ wordsFrom (ADC_SEQ.CH k 0).addr 16
  else if u = 0x48 then wordsFrom 0x1900 64
  else wordsFrom 0x2940 33

/-- The fields of window channel `n`: its words and its bytes of SUP_STATq, SUP_CHATq and SUP_EVTq. -/
def supFields (n : Nat) : List Field :=
  fieldsAt (SUP_CFG.EN n).addr ++ fieldsAt (SUP_LVL.FHI n).addr ++ fieldsAt (SUP_NOM.VNOM n).addr ++
  [SUP_STAT.PG n, SUP_STAT.PGS n, SUP_STAT.ARMED n, SUP_STAT.FHI n, SUP_STAT.WHI n, SUP_STAT.WLO n, SUP_STAT.FLO n,
   SUP_STAT.CHKF n, SUP_CHAT.COUNT n, SUP_EVT.EVT n]

/-- The fields that a BLOCK reset of unit `u` leaves: the SHORTL latch, and those that report the unit's present
state (R43). -/
def keptFields (u : Nat) : List Field :=
  if u = 0x01 then [CHG_STATUS.STATE]
  else if u ≤ 0x1F then []
  else if u ≤ 0x25 then
    let n := u - 0x20
    [BK_STATUS.SHORTL n, BK_STATUS.STATE n, BK_STATUS.VIN_OK n]
  else if u ≤ 0x2F then [LDO_STATUS.SHORTL (u - 0x28), LDO_STATUS.STATE (u - 0x28)]
  else if u ≤ 0x37 then [SW_STATUS.SHORTL (u - 0x30), SW_STATUS.STATE (u - 0x30)]
  else if u ≤ 0x3B then [CAM_STATUS.STATE (u - 0x38)]
  else if u = 0x48 then [MNG_STATUS.LINE]
  else []

/-- The fields that a BLOCK reset of unit `u` returns to their reset values. -/
def resetFields (u : Nat) : List Field :=
  let fs := if 0x80 ≤ u then supFields (u - 0x80) else (unitWords u).flatMap fieldsAt
  fs.filter fun f => !f.por && !(keptFields u).contains f

/-- The state of unit `u` beside its registers after its BLOCK reset. (DEDUCED, log entry 43) -/
def resetUnitState (s : State) (u : Nat) : State :=
  if u = 0x01 then
    let c := s.charger
    s.setChg { timeoutL := c.timeoutL, shortL := c.shortL, vdrvLost := c.vdrvLost }
  else if u ≤ 0x09 then s.setLoop (u - 4) {}
  else if u ≤ 0x11 then s.setPort (u - 0x10) {}
  else if u ≤ 0x37 then s
  else if u ≤ 0x3B then s.setEngine (u - 0x38) { s.engine (u - 0x38) with raiseQ := [], lastRun := [] }
  else if u ≤ 0x3F then s
  else if u = 0x48 then { s with ring := {} }
  else if u = 0x49 then s.setTwc {}
  else s.setSup (u - 0x80) {}

/-- The BLOCK reset of unit `u` and its RESULT (R43). -/
def blockReset (s : State) (u : Nat) : State :=
  match unitEnable u with
  | none => s.set SYS_BRST.RESULT 3
  | some en =>
    if s.on en then s.set SYS_BRST.RESULT 2
    else (resetUnitState (State.each (resetFields u) State.resetField s) u).set SYS_BRST.RESULT 1

/-- `BLOCK_RESET` (R43): the keyed write of SYS_BRST with GO and UNIT. -/
def execBlockReset (unit : BitVec 8) (s : State) : Host.Outcome State Fault Refusal :=
  .next (if k0Runs s then blockReset (s.set SYS_BRST.UNIT unit.toNat) unit.toNat else s)

end Sys2Proof.Machine
end

