-- ==== Sys2Proof/Machine/Image.lean ====
section
/-! DEFINITION. Program images (R206, R245 to R250): their layout, the checks of Table 7.14, the load and the
handover. An image is a list of bytes. -/

namespace Sys2Proof.Machine

/-! ### The layout -/

/-- The `n`-byte little-endian number at offset `o` of an image; bytes beyond its end read 0. -/
def imgNat (img : List Byte) (o n : Nat) : Nat := leNat ((img.drop o).take n)

/-- Every byte of `[o, o + n)` is 0. -/
def imgZero (img : List Byte) (o n : Nat) : Bool := ((img.drop o).take n).all fun b => decide (b = 0)

/-- The header fields of Table 7.11. -/
structure ImgHead where
  handover : Bool
  signed : Bool
  len : Nat
  romMin : Nat
  claims : Nat
  code : Nat
  consts : Nat
  rails : Nat
  sups : Nat
  id : Nat
  ver : Nat
  key : Nat
  deriving DecidableEq, Repr

/-- The header of an image. -/
def imgHead (img : List Byte) : ImgHead :=
  let flags := imgNat img 6 2
  { handover := bitOf flags 0 = 1, signed := bitOf flags 1 = 1, len := imgNat img 8 4, romMin := imgNat img 0xC 1,
    claims := imgNat img 0xD 1, code := imgNat img 0xE 2, consts := imgNat img 0x10 2, rails := imgNat img 0x14 4,
    sups := imgNat img 0x18 8, id := imgNat img 0x20 4, ver := imgNat img 0x24 4, key := imgNat img 0x28 4 }

/-- The offset of engine `e`'s entry, of claim descriptor `c` and of the code. -/
def imgEngineAt (e : Nat) : Nat := 0x40 + 32 * e
def imgClaimAt (c : Nat) : Nat := 0xC0 + 16 * c
def imgCodeAt (h : ImgHead) : Nat := 0xC0 + 16 * h.claims

/-- Engine `e`'s entry (Table 7.12). -/
def imgEngine (img : List Byte) (e : Nat) : EngineTab :=
  let o := imgEngineAt e
  let t0 := imgNat img (o + 2) 1
  { entry := imgNat img o 2, prio := t0 % 8, cls := t0 / 16 % 8, ringOwn := bitOf (imgNat img (o + 3) 1) 0 = 1,
    vDeadline := imgNat img (o + 4) 2, vClaim := imgNat img (o + 6) 2, vIllegal := imgNat img (o + 8) 2,
    vStack := imgNat img (o + 10) 2, vAbort := imgNat img (o + 12) 2, pdEntry := imgNat img (o + 14) 2,
    runMax := imgNat img (o + 16) 2 }

/-- The reserved bits and bytes of engine `e`'s entry are 0. -/
def imgEngineClean (img : List Byte) (e : Nat) : Bool :=
  let o := imgEngineAt e
  let t0 := imgNat img (o + 2) 1
  decide (t0 &&& 0x88 = 0) && decide (imgNat img (o + 3) 1 < 2) && imgZero img (o + 18) 14

/-- KIND, ENGINES, AMOUNT and RAILS of claim descriptor `c` (Table 7.13). -/
structure ImgClaim where
  kind : Nat
  engines : Nat
  amount : Nat
  rails : Nat
  clean : Bool
  deriving DecidableEq, Repr

/-- Claim descriptor `c`. -/
def imgClaim (img : List Byte) (c : Nat) : ImgClaim :=
  let o := imgClaimAt c
  { kind := imgNat img o 1, engines := imgNat img (o + 1) 1, amount := imgNat img (o + 4) 4,
    rails := imgNat img (o + 8) 4, clean := imgZero img (o + 2) 2 && imgZero img (o + 12) 4 }

/-- The descriptors of the claim table. -/
def imgClaims (img : List Byte) (h : ImgHead) : List ImgClaim := (List.range h.claims).map (imgClaim img)

/-- The instruction words. -/
def imgCode (img : List Byte) (h : ImgHead) : List Nat :=
  (List.range h.code).map fun i => imgNat img (imgCodeAt h + 4 * i) 4

/-! ### Instruction words (Table 7.3) -/

/-- The bits that Table 7.3 assigns in [25:0] of instruction `w`; none for a reserved opcode. -/
def assignedBits (w : Nat) : Option Nat :=
  let field (lo n : Nat) : Nat := (2 ^ n - 1) * 2 ^ lo
  let i := bitOf w 17
  match w / 2 ^ 26 with
  | 0x01 => some (field 18 8 + field 0 4)
  | 0x02 => some (field 18 8)
  | 0x03 => some (if i = 0 then field 18 8 + field 13 4 + field 0 4 else field 17 9 + field 5 12 + field 0 4)
  | 0x04 => some (field 18 8 + field 8 9 + field 0 4)
  | 0x05 => some (field 18 8 + field 13 4 + field 0 4)
  | 0x08 => some (field 20 6 + field 0 16)
  | 0x09 => some (field 16 8 + field 0 16)
  | 0x0A => some (field 17 9 + field 16 1 + field 0 16)
  | 0x0C => some (field 20 6 + field 0 16)
  | 0x0D => some (field 20 6)
  | 0x0E => some (field 20 6 + field 16 4)
  | 0x10 => some (field 18 8 + field 17 1)
  | 0x11 => some (field 18 8 + field 0 16)
  | 0x14 => some (field 22 4 + field 15 7 + field 14 1)
  | 0x15 => some (field 22 4 + field 16 6)
  | 0x18 => some (field 22 4 + field 18 4)
  | 0x19 => some (field 0 26)
  | 0x1A => some (field 22 4 + field 0 13)
  | 0x1B | 0x1C | 0x1D | 0x1E => some (if i = 0 then field 13 13 else field 0 26)
  | 0x1F => some (if i = 0 then field 13 9 else field 0 22)
  | 0x20 => some (if i = 0 then field 13 13 else field 17 9 + field 0 5)
  | 0x24 => some (field 0 13)
  | 0x25 => some (field 22 4 + field 0 13)
  | 0x26 => some (field 0 13)
  | 0x27 | 0x29 => some 0
  | 0x28 => some (field 16 10 + field 0 13)
  | 0x2C | 0x2E => some (field 0 8)
  | 0x2D => some (field 18 4 + field 0 8)
  | _ => none

/-! ### The words of a program (R206, R207) -/

/-- The condition of code `c` (Table 7.4). -/
def condOf (c : Nat) : Option Cond :=
  [Cond.eq, .ne, .lo, .hs, .mi, .pl, .ds, .dc, .ts, .tc, .ra][c]?

/-- The instruction that word `w` of Table 7.3 is, issued at `i`; none where the opcode, a rail or a condition is
reserved or a bit that Table 7.3 does not assign is 1. `read` is what a MOV Wd, =k finds in the constant's word. -/
def camastCommand (i : Issue) (w : Nat) (read : Fetch := .clean) : Option Instr :=
  let reg (lo : Nat) : Fin 16 := Fin.ofNat 16 (w / 2 ^ lo)
  let bits (lo n : Nat) : BitVec n := BitVec.ofNat n (w / 2 ^ lo)
  let rail := railOf (bitsOf w 18 8)
  let six : Fin 64 := Fin.ofNat 64 (w / 2 ^ 20)
  let imm := decide (bitOf w 17 = 1)
  let alu : AluSrc := if imm then .imm (bits 0 17) else .reg (reg 13)
  if ¬ (assignedBits w).any (fun m => decide (w % 2 ^ 26 &&& m = w % 2 ^ 26)) then none
  else
    match w / 2 ^ 26 with
    | 0x01 => rail.map fun r => .railon i r (reg 0)
    | 0x02 => rail.map fun r => .railoff i r
    | 0x03 => rail.map fun r => .setv i r (if imm then .imm (bits 5 12) else .reg (reg 13)) (reg 0)
    | 0x04 => rail.map fun r => .setslew i r (bits 8 9) (reg 0)
    | 0x05 => rail.map fun r => .phases i r (reg 13) (reg 0)
    | 0x08 => some (.waitpg i six (bits 0 16))
    | 0x09 => some (.waitt i (bits 0 16) (bits 16 8))
    | 0x0A => some (.waitev i (bits 17 9) (decide (bitOf w 16 = 1)) (bits 0 16))
    | 0x0C => some (.claim i six (bits 0 16))
    | 0x0D => some (.release i six)
    | 0x0E => some (.reclaim i six (reg 16))
    | 0x10 => some (if imm then .stepAbort i (bits 18 8) else .step i (bits 18 8))
    | 0x11 => some (.waitstep i (bits 18 8) (bits 0 16))
    | 0x14 => some (if bitOf w 14 = 1 then .rdadcUrgent i (reg 22) (bits 15 7) else .rdadc i (reg 22) (bits 15 7))
    | 0x15 => some (.rdsup i (reg 22) (Fin.ofNat 64 (w / 2 ^ 16)))
    | 0x18 => some (.movReg i (reg 22) (reg 18))
    | 0x19 => some (.movImm i (reg 22) (bits 0 22))
    | 0x1A => some (.movConst i (reg 22) (bits 0 13) read)
    | 0x1B => some (.add i (reg 22) (reg 18) alu)
    | 0x1C => some (.sub i (reg 22) (reg 18) alu)
    | 0x1D => some (.and i (reg 22) (reg 18) alu)
    | 0x1E => some (.or i (reg 22) (reg 18) alu)
    | 0x1F => some (.cmp i (reg 18) alu)
    | 0x20 => some (.shr i (reg 22) (reg 18) (if imm then .imm (bits 0 5) else .reg (reg 13)))
    | 0x24 => some (.jmp i (bits 0 13))
    | 0x25 => (condOf (bitsOf w 22 4)).map fun c => .bcc i c (bits 0 13)
    | 0x26 => some (.call i (bits 0 13))
    | 0x27 => some (.ret i)
    | 0x28 => some (.task i (reg 22) (bits 19 3) (bits 16 3) (bits 0 13))
    | 0x29 => some (.yield i)
    | 0x2C => some (.raise i (bits 0 8))
    | 0x2D => some (.log i (bits 0 8) (reg 18))
    | 0x2E => some (.snap i (bits 0 8))
    | _ => none

/-- A Camast instruction's issue and its word of Table 7.3; none for the other commands. -/
def camastWord : Instr → Option (Issue × Nat)
  | .railon i rail wd => some (i, railonWord rail wd)
  | .railoff i rail => some (i, railoffWord rail)
  | .setv i rail src wd => some (i, setvWord rail src wd)
  | .setslew i rail slew wd => some (i, setslewWord rail slew wd)
  | .phases i rail ws wd => some (i, phasesWord rail ws wd)
  | .waitpg i ch dl => some (i, waitpgWord ch dl)
  | .waitt i duration slack => some (i, waittWord duration slack)
  | .waitev i src l dl => some (i, waitevWord src l dl)
  | .claim i id dl => some (i, claimWord id dl)
  | .release i id => some (i, releaseWord id)
  | .reclaim i id ws => some (i, reclaimWord id ws)
  | .step i n => some (i, stepWord n false)
  | .stepAbort i n => some (i, stepWord n true)
  | .waitstep i n dl => some (i, waitstepWord n dl)
  | .rdadc i wd ch => some (i, rdadcWord wd ch false)
  | .rdadcUrgent i wd ch => some (i, rdadcWord wd ch true)
  | .rdsup i wd ch => some (i, rdsupWord wd ch)
  | .movReg i wd ws => some (i, movRegWord wd ws)
  | .movImm i wd imm => some (i, movImmWord wd imm)
  | .movConst i wd k _ => some (i, movConstWord wd k)
  | .add i wd ws src => some (i, aluWord 0x1B wd ws src)
  | .sub i wd ws src => some (i, aluWord 0x1C wd ws src)
  | .and i wd ws src => some (i, aluWord 0x1D wd ws src)
  | .or i wd ws src => some (i, aluWord 0x1E wd ws src)
  | .cmp i ws src => some (i, cmpWord ws src)
  | .shr i wd ws src => some (i, shrWord wd ws src)
  | .jmp i target => some (i, jmpWord target)
  | .bcc i cond target => some (i, bccWord cond target)
  | .call i target => some (i, callWord target)
  | .ret i => some (i, retWord)
  | .task i t prio cls entry => some (i, taskWord t prio cls entry)
  | .yield i => some (i, yieldWord)
  | .raise i code => some (i, raiseWord code)
  | .log i code ws => some (i, logWord code ws)
  | .snap i code => some (i, snapWord code)
  | _ => none

/-- What a MOV Wd, =k has found in the constant's word. -/
def constRead : Instr → Fetch
  | .movConst _ _ _ read => read
  | _ => .clean

/-- The instruction at address `a` of program memory, with what its fetch found (R202). -/
def fetchedCommand (s : State) (i : Issue) (a : Nat) : Option Instr := camastCommand i (s.word (progAddr a))

/-- The rail that a power instruction names. -/
def wordRail (w : Nat) : Option Nat :=
  let op := w / 2 ^ 26
  if 1 ≤ op ∧ op ≤ 5 then some (bitsOf w 18 8) else none

/-- The channel that WAITPG or RDSUP names. -/
def wordSup (w : Nat) : Option Nat :=
  match w / 2 ^ 26 with
  | 0x08 => some (bitsOf w 20 6)
  | 0x15 => some (bitsOf w 16 6)
  | _ => none

/-- The claim that CLAIM, RELEASE or RECLAIM names. -/
def wordClaim (w : Nat) : Option Nat :=
  match w / 2 ^ 26 with
  | 0x0C | 0x0D | 0x0E => some (bitsOf w 20 6)
  | _ => none

/-- The operands of word `w` break a rule that Table 7.14 lists under ILLEGAL_INSN. -/
def badOperand (h : ImgHead) (w : Nat) : Bool :=
  let zero := decide (w % 2 ^ 14 = 0)
  let target := decide (h.code ≤ w % 2 ^ 13)
  match w / 2 ^ 26 with
  | 0x01 | 0x02 | 0x03 | 0x04 | 0x05 => (railOf (bitsOf w 18 8)).isNone
  | 0x08 | 0x11 => zero
  | 0x09 => zero || decide (bitsOf w 16 8 = 0)
  | 0x0A =>
    (zero && decide (w % 2 ^ 16 ≠ 0)) || decide (bitsOf w 17 9 = 0) || decide (0x100 < bitsOf w 17 9)
  | 0x0C => zero && decide (w % 2 ^ 16 ≠ 0)
  | 0x1A => decide (h.consts ≤ w % 2 ^ 13)
  | 0x24 | 0x26 => target
  | 0x25 => target || decide (0xA < bitsOf w 22 4)
  | 0x28 => target || decide (bitsOf w 22 4 = 15)
  | _ => false

/-- Word `w` is one that the loader refuses (R206, Table 7.14). -/
def illegalWord (h : ImgHead) (w : Nat) : Bool :=
  match assignedBits w with
  | none => true
  | some m => decide (w % 2 ^ 26 &&& m ≠ w % 2 ^ 26) || badOperand h w

/-! ### The checks (Table 7.14) -/

/-- BAD_MAGIC. -/
def badMagic (img : List Byte) : Bool :=
  decide (imgNat img 0 4 ≠ 0x43414D53) || decide (imgNat img 4 2 ≠ 1) || decide (4 ≤ imgNat img 6 2) ||
    !imgZero img 0x12 2 || !imgZero img 0x2C 20

/-- BAD_LENGTH: `given` is the length that the source gives. -/
def badLength (h : ImgHead) (given : Nat) : Bool :=
  decide (h.len ≠ given) || decide (64 < h.claims) || outside 1 8192 h.code || decide (8192 < h.code + h.consts) ||
    decide (h.len ≠ 0xC0 + 16 * h.claims + 4 * h.code + 4 * h.consts + (if h.signed then 64 else 0))

/-- The public key in image-key slot `i` (R503). -/
def imageKey (s : State) (i : Nat) : Nat × Nat :=
  let bs := regionBytes s.otp (4 + i)
  (beNat (bs.take 32), beNat ((bs.drop 32).take 32))

/-- SIG_BAD (R246, R503). -/
def badSignature (s : State) (img : List Byte) (h : ImgHead) : Bool :=
  h.signed &&
    (decide (4 ≤ h.key) || !imageKeyUsable s h.key ||
      !ecdsaVerify (imageKey s h.key) (beNat ((img.drop (h.len - 64)).take 32)) (beNat ((img.drop (h.len - 32)).take 32))
        (img.take (h.len - 64)))

/-- The addresses of an engine-table entry lie below CODE_LEN, or are 0xFFFF. -/
def badEngine (img : List Byte) (h : ImgHead) (e : Nat) : Bool :=
  let v := imgEngine img e
  !imgEngineClean img e ||
    [v.entry, v.vDeadline, v.vClaim, v.vIllegal, v.vStack, v.vAbort, v.pdEntry].any fun a =>
      decide (a ≠ noEntry) && decide (h.code ≤ a)

/-- USED_MASK. -/
def badMask (h : ImgHead) (ws : List Nat) : Bool :=
  ws.any fun w =>
    ((wordRail w).any fun c => decide (bitOf h.rails c = 0)) || ((wordSup w).any fun c => decide (bitOf h.sups c = 0))

/-- A descriptor that Table 7.14 refuses by itself; `used` are the engines with an entry. -/
def badClaim (used : Nat → Bool) (d : ImgClaim) : Bool :=
  decide (1 < d.kind) || !d.clean || (decide (d.kind = 1) && decide (d.rails ≠ 0)) ||
    (List.range 8).any fun e => decide (bitOf d.engines e = 1) && !used e

/-- CLAIM_TABLE. -/
def badClaims (img : List Byte) (h : ImgHead) (ws : List Nat) : Bool :=
  let ds := imgClaims img h
  let used (e : Nat) : Bool := decide (e < 4) && decide ((imgEngine img e).entry ≠ noEntry)
  let steady := ds.filter fun d => d.kind = 0
  let covered (c : Nat) : Bool := decide (2 ≤ (steady.filter fun d => bitOf d.rails c = 1).length)
  ds.any (badClaim used) || (List.range 32).any covered ||
    ws.any fun w => (wordClaim w).any fun c => decide (h.claims ≤ c)

/-- The verdict unit of rail `r` (Table 10.3). -/
def railUnit : Rail → Nat
  | .lp n => 56 + n.val
  | .bk n => 32 + n.val
  | .ldo n => 40 + n.val
  | .sw n => 48 + n.val

/-- The phases in the mask of rail `r`. -/
def railPhases (s : State) : Rail → Nat
  | .lp n => s.get (LP_PHMASK.MASK n)
  | _ => 0

/-- RAIL_UNCONF for rail `r`. -/
def railUnconf (s : State) (r : Rail) : Bool :=
  decide (s.get (railSup r) = 0x7F) ||
    (match r with | .lp n => decide (s.get (LP_PHMASK.MASK n) = 0) | _ => false)

/-- RAIL_UNUSABLE for rail `r`. -/
def railUnusable (s : State) (r : Rail) : Bool :=
  unusable s (railUnit r) || (List.range 20).any fun k => decide (bitOf (railPhases s r) k = 1) && unusable s (64 + k)

/-- RING_UNUSABLE. -/
def badRing (s : State) (img : List Byte) (ws : List Nat) : Bool :=
  let owners := ((List.range 4).filter fun e => (imgEngine img e).ringOwn).length
  let uses := decide (0 < owners) || ws.any fun w => decide (w / 2 ^ 26 = 0x10) || decide (w / 2 ^ 26 = 0x11)
  (uses && (unusable s 16 || unusable s 17)) || decide (1 < owners)

/-- HANDOVER_MISMATCH (R250). -/
def badHandover (s : State) (img : List Byte) (h : ImgHead) : Bool :=
  h.handover && tableIds.any fun c =>
    let x := s.claim c
    let d := imgClaim img c
    x.isGranted && (decide (h.claims ≤ c) || decide (d.kind ≠ 0) || decide (d.rails ≠ x.rails) || decide (d.amount < x.amount))

/-- The code with which the load of `img` is refused, `given` being the length that its source gives; 0 for
none. -/
def imageReason (s : State) (img : List Byte) (given : Nat) : Nat :=
  let h := imgHead img
  let ws := imgCode img h
  let rails := railsOfMask h.rails
  firstCode
    [(0x01, badMagic img), (0x02, badLength h given), (0x03, decide (s.get ID_ROM.EDITION < h.romMin)),
     (0x04, lockBlown s.otp authreqLock && !h.signed), (0x05, badSignature s img h),
     (0x06, ws.any (illegalWord h) || (List.range 4).any (badEngine img h)), (0x07, badMask h ws),
     (0x08, badClaims img h ws), (0x09, rails.any (railUnconf s)), (0x0A, rails.any (railUnusable s)),
     (0x0B, (List.range 64).any fun c => decide (bitOf h.sups c = 1) && !s.on (SUP_CFG.EN c)),
     (0x0C, badRing s img ws), (0x0D, !h.handover && !enginesOff s), (0x0E, badHandover s img h)]

/-! ### The load -/

/-- The claim at index `c` after the load (R249, R250): a granted steady claim keeps its present amount and passes to
task 0 of the lowest-numbered engine that its descriptor allows; any other becomes what the descriptor says.
(DEDUCED, log entry 59) -/
def loadedClaim (img : List Byte) (h : ImgHead) (s : State) (c : Nat) : Claim :=
  if h.claims ≤ c then {}
  else
    let d := imgClaim img c
    let x := s.claim c
    let y : Claim :=
      { st := .free, oneOff := decide (d.kind = 1), engines := d.engines, descAmount := d.amount, rails := d.rails,
        amount := d.amount, revokedAt := 0 }
    if x.isGranted then
      let e := ((List.range 4).find? fun e => bitOf d.engines e = 1).getD x.eng
      { y with st := .granted, amount := x.amount, eng := e, task := 0, cls := x.cls,
               submitSeq := x.submitSeq, grantSeq := x.grantSeq, revokedAt := x.revokedAt, rom := x.rom }
    else y

/-- An entry beside the claim table that holds no claim. -/
def spareEntry (s : State) : Option Nat :=
  (claimIds.drop 64).find? fun c => (s.claim c).st = .absent || (s.claim c).st = .free

/-- Claim `c` of the ROM firmware leaves the claim table and stays in the ledger's books (R531). -/
def keepRomClaim (s : State) (c : Nat) : State :=
  match spareEntry s with
  | some k => (s.setClaim k (s.claim c)).setClaim c {}
  | none => releaseClaim s c

/-- Without a handover no engine holds a claim; those that the ROM firmware still holds stay GRANTED in the books until
their last rail is off (R531). (DEDUCED, log entry 59) -/
def keepRomClaims (s : State) : State :=
  State.each (tableIds.filter fun c => (s.claim c).rom) keepRomClaim s

/-- The claim table enters the ledger. -/
def loadClaims (img : List Byte) (h : ImgHead) (s : State) : State :=
  let s1 := if h.handover then s else keepRomClaims s
  let s2 := State.each tableIds (fun s' c => s'.setClaim c (loadedClaim img h s1 c)) s1
  let held := State.each (tableIds.filter fun c => !(s2.claim c).isGranted) clearLimited s2
  formFit held

/-- The task of engine `e` whose instruction waits for a verdict, a drain or an urgent conversion. -/
def underWay (s : State) (e : Nat) : Option Nat :=
  match (s.engine e).cur with
  | some t => if (s.task e t).wait.isSome then some t else none
  | none => none

/-- The engine table enters the engines, and an enabled engine starts task 0 at its new ENTRY (R250); an instruction
under way completes first, in a task that no other joins. -/
def handEngine (img : List Byte) (s : State) (e : Nat) : State :=
  let s1 := s.setEngine e { s.engine e with tab := imgEngine img e }
  if !engineRuns s e then s1
  else
    match underWay s e with
    | none => takeOver s1 e
    | some t =>
      ((wipeTasks s1 e).setTask e t (s1.task e t)).setEngine e { s1.engine e with handing := true }

/-- The image's identity is shown (R249); `source` is 1 for the boot image and 2 for the host's. -/
def showImage (img : List Byte) (h : ImgHead) (source : Nat) (s : State) : State :=
  let d := sha256 img
  let words := (List.range 8).map fun i => leNat ((d.drop (4 * i)).take 4)
  let s1 := State.each words.zipIdx (fun s x => s.set (CAM_IMG_DIGEST.DIGEST x.2) x.1) s
  let s2 := ((s1.set CAM_IMG_ID.ID h.id).set CAM_IMG_VER.VER h.ver).set CAM_IMG_STATUS.CODE_LEN h.code
  let s3 := (s2.set CAM_IMG_STATUS.HANDOVER (if h.handover then 1 else 0)).set CAM_IMG_STATUS.SOURCE source
  (s3.set CAM_IMG_STATUS.SIGNED (if h.signed then 1 else 0)).set CAM_IMG_STATUS.LOADED 1

/-- An accepted image is written to program memory and its tables to the ledger and the engines (R249, R250). -/
def acceptImage (img : List Byte) (source : Nat) (s : State) : State :=
  let h := imgHead img
  let s1 := s.setBytes 0x050000 ((img.drop (imgCodeAt h)).take (4 * (h.code + h.consts)))
  State.each (List.range 4) (handEngine img) (loadClaims img h (showImage img h source s1))

/-- The load of `img` from `source` (R248): accepted, or refused with its code in CAM_IMG_STATUS.REASON. -/
def loadImage (img : List Byte) (given source : Nat) (s : State) : Nat × State :=
  let code := imageReason s img given
  if code = 0 then (0, acceptImage img source s) else (code, s.set CAM_IMG_STATUS.REASON code)

/-- The boot image in OTP, as long as its header says (R247). -/
def bootImage (s : State) : List Byte :=
  let bs := regionBytes s.otp 12
  bs.take (imgNat bs 8 4)

/-- The boot image of OTP is loaded (R247), and whether it was accepted. -/
def loadBootImage (s : State) : Bool × State :=
  if !regionUsed s 12 then (false, s)
  else
    let (code, s1) := loadImage (bootImage s) (bootImage s).length 1 s
    (decide (code = 0), s1)

/-- EN of each engine whose ENTRY the boot image gives is set (R247). -/
def enableEngines (s : State) : State :=
  State.each (List.range 4)
    (fun s e => if (s.engine e).tab.entry = noEntry || s.on (CAM_CTRL.EN e) then s else enableEngine s e) s

end Sys2Proof.Machine
end

