-- ==== Sys2Proof/Machine/HostCommands.lean ====
section
/-! DEFINITION. The commands of Table 15.8 but OTP's: what each does to the command slot that executes it
(R434 to R440). -/

namespace Sys2Proof.Machine

/-- The command in slot `k`, if it executes with opcode `op`, has not passed its commit point and its meaning is
`body`. -/
def onCommand (k : BitVec 8) (op : Nat) (s : State) (body : Nat → State) : Host.Outcome State Fault Refusal :=
  let n := k.toNat
  .next (if executing s n && decide (slotOp s n = op) && !(s.slot n).committed then body n else s)

/-- The command ends OK with its two results, past its commit point. -/
def endOk (s : State) (n : Nat) (r0 : Nat := 0) (r1 : Nat := 0) : State :=
  endCommand (commitSlot s n) n { status := 0, r0, r1 }

/-- `NOP` (R434): its commit point is its completion. -/
def execNop (k : BitVec 8) (s : State) : Host.Outcome State Fault Refusal :=
  onCommand k 0x01 s fun n => endCommand s n { status := 0, r0 := slotArg s n 0 }

/-- `GET_INFO` (R434, Table 15.9): its commit point is its completion. -/
def execGetInfo (k : BitVec 8) (s : State) : Host.Outcome State Fault Refusal :=
  onCommand k 0x02 s fun n =>
    let r0 := s.get ID_ROM.EDITION + s.get SYS_SERVICE.LEVEL * 2 ^ 8 + phaseNow s * 2 ^ 16 + s.get HCI_STATUS.K1LANE * 2 ^ 24
    endCommand s n { status := 0, r0, r1 := s.regWord 0x000C }

/-- `DOORBELL` (R434): INTC_DBELL.RING is set (R413). -/
def execDoorbell (k : BitVec 8) (s : State) : Host.Outcome State Fault Refusal :=
  onCommand k 0x03 s fun n => endOk (s.set INTC_DBELL.RING 1) n

/-- `CANCEL` (R440). -/
def execCancel (k : BitVec 8) (s : State) : Host.Outcome State Fault Refusal :=
  onCommand k 0x04 s fun n =>
    let (result, s1) := cancelSlot s (slotArg s n 0 % 256) (slotArg s n 1)
    endOk s1 n result

/-- `IMG_LOAD` (R248, R436): the staged image, from the host; one that is INFLIGHT when the power-down sequence starts
goes on. (DESIGN CHOICE, log entry 147) -/
def execImgLoad (k : BitVec 8) (s : State) : Host.Outcome State Fault Refusal :=
  onCommand k 0x10 s fun n =>
    let len := slotArg s n 0
    let (code, s1) := loadImage (s.bytes 0x040000 (min len 40960)) len 2 s
    if code = 0 then endOk s1 n (s1.get CAM_IMG_STATUS.CODE_LEN) (s1.get CAM_IMG_ID.ID)
    else refuseCommand s1 n 1 code

/-- `ADC_CONVERT` (R335, R436): an urgent request; dropped, it completes DROPPED. -/
def execAdcConvert (k : BitVec 8) (s : State) : Host.Outcome State Fault Refusal :=
  onCommand k 0x20 s fun n =>
    let (taken, s1) := urgentRequest s (.host n) (slotArg s n 0)
    if taken then commitSlot s1 n else endCommand (commitSlot s1 n) n { status := 3 }

/-- The SNAPSHOT command in slot `n` ends with ADC_SNAP.SEQ and STATE (Table 15.9). -/
def endSnapshot (s : State) (n : Nat) : State := endOk s n (s.get ADC_SNAP.SEQ) (s.get ADC_SNAP.STATE)

/-- `SNAPSHOT_CMD_TRIGGER` (R341): SNAPSHOT with ARG0[0] = 0. -/
def execSnapshotCmdTrigger (k : BitVec 8) (s : State) : Host.Outcome State Fault Refusal :=
  onCommand k 0x21 s fun n => if slotArg s n 0 = 0 then endSnapshot (snapRequest s 3 0) n else s

/-- `SNAPSHOT_CMD_RELEASE` (R342): SNAPSHOT with ARG0[0] = 1. -/
def execSnapshotCmdRelease (k : BitVec 8) (s : State) : Host.Outcome State Fault Refusal :=
  onCommand k 0x21 s fun n => if slotArg s n 0 = 1 then endSnapshot (snapRelease s) n else s

/-! ### Attestation (R437, R438) -/

/-- The snapshot digest and the image digest, where they are asked for and valid. -/
def snapIncluded (s : State) (flags : Nat) : Bool := decide (bitOf flags 0 = 1) && s.on ADC_SNAP.DIGV
def imageIncluded (s : State) (flags : Nat) : Bool := decide (bitOf flags 1 = 1) && s.on CAM_IMG_STATUS.LOADED

/-- The 32 bytes of a digest in eight words, or zeros. -/
def digestBytes (s : State) (included : Bool) (word : Nat → Field) : List Byte :=
  (List.range 8).flatMap fun i => leBytes 4 (if included then s.get (word i) else 0)

/-- The attestation block (Table 15.11). -/
def attestBlock (s : State) (nonce : List Byte) (flags : Nat) : List Byte :=
  let snap := snapIncluded s flags
  let image := imageIncluded s flags
  leBytes 4 0x5441565A ++ leBytes 2 1 ++ leBytes 1 (s.get ID_ROM.EDITION) ++ leBytes 1 (s.get SYS_SERVICE.LEVEL)
    ++ leBytes 8 s.now ++ leBytes 8 (serialNow s) ++ leBytes 4 (s.get FLT_HWR.COUNT) ++ leBytes 1 (s.get ADC_SNAP.SEQ)
    ++ leBytes 1 (flagAt snap 0 + flagAt image 1 + flagAt (s.on FLT_TEST.ACTIVE) 2) ++ leBytes 2 0 ++ nonce.take 32
    ++ digestBytes s snap ADC_SNAPDIG.DIGEST ++ digestBytes s image CAM_IMG_DIGEST.DIGEST

/-- The number with which the next signature is made: from 1 to the group's order − 1. -/
def signNonce (s : State) : Nat := 1 + Config.entropy s.free % (p256N - 1)

/-- `ATTEST` (R437): the block and its signature are written to the output buffer. -/
def execAttest (k : BitVec 8) (s : State) : Host.Outcome State Fault Refusal :=
  onCommand k 0x30 s fun n =>
    let block := attestBlock s (s.slot n).input (slotArg s n 2)
    let sig := ecdsaSign (s.otp.scalar.getD 0) (signNonce s) block
    let s1 := { s with free := s.free + 1 }
    let s2 := writeData s1 (slotArg s n 1) (block ++ beBytes 32 sig.1 ++ beBytes 32 sig.2)
    endOk s2 n 192 (s.now % 2 ^ 32)

/-- `GET_CERT` (R502): the certificate is written to the output buffer. -/
def execGetCert (k : BitVec 8) (s : State) : Host.Outcome State Fault Refusal :=
  onCommand k 0x31 s fun n =>
    let bs := if regionUsed s 3 then certBytes s else []
    endOk (writeData s (slotArg s n 0) bs) n (s.get ID_CERTLEN.LEN)

/-! ### Wear state (R349, R439) -/

/-- What an export carries of the present state (R349, R359). -/
def wearImage (s : State) : WearImage :=
  { wear := s.wear, day := s.get WEAR_STATUS.DAY, failed := (s.get WEAR_STATUS.INJCAUSE, s.get WEAR_STATUS.INJLOOP),
    vals := (List.range 15).map fun i => s.get (WEAR_VAL.VAL i),
    eols := (List.range 15).map fun i =>
      (s.get (WEAR_EOL.DAYS i), s.get (WEAR_EOL.NPTS i), s.get (WEAR_EOL.LIMQ i), s.get (WEAR_EOL.BASIS i)) }

/-- The 1024 bytes of the wear state `x` in an export. (DESIGN CHOICE, log entry 71) -/
def imageBytes (x : WearImage) : List Byte :=
  match Config.wearFormat.bind fun f => f.bytes x with
  | some bs => bs
  | none => (List.range 1024).map (Config.wearBytes x)

/-- The wear state that 1024 bytes of an export stand for. (DESIGN CHOICE, log entry 71) -/
def imageOf (bs : List Byte) : WearImage := (Config.wearFormat.bind fun f => f.image bs).getD (Config.wearImage bs)

/-- The first 0x410 bytes of an export. -/
def exportBody (s : State) : List Byte :=
  leBytes 4 0x52414557 ++ leBytes 2 1 ++ leBytes 2 0 ++ leBytes 8 (serialNow s) ++ imageBytes (wearImage s)

/-- `WEAR_EXPORT` (R439). -/
def execWearExport (k : BitVec 8) (s : State) : Host.Outcome State Fault Refusal :=
  onCommand k 0x40 s fun n =>
    let body := exportBody s
    endOk (writeData s (slotArg s n 0) (body ++ leBytes 4 (crc32 body))) n 1044 (s.get WEAR_STATUS.DAY)

/-- The code with which the import of `bs` is refused (R349, R439); 0 for none. -/
def importReason (s : State) (bs : List Byte) : Nat :=
  firstCode
    [(1, decide (leNat ((bs.drop 0x410).take 4) ≠ crc32 (bs.take 0x410))),
     (2, decide (leNat ((bs.drop 8).take 8) ≠ serialNow s)), (3, !s.on WEAR_STATUS.BLANK),
     (4, decide (leNat ((bs.drop 4).take 2) ≠ 1))]

/-- The wear state of an accepted import: the days since the export are added to DAY. -/
def importWear (s : State) (bs : List Byte) (days : Nat) : State :=
  let x := imageOf ((bs.drop 0x10).take 1024)
  let s1 := s.setWear { x.wear with dayAt := s.wear.dayAt, ageAt := s.wear.ageAt, restAt := s.wear.restAt }
  let s2 := State.each x.vals.zipIdx (fun s v => s.set (WEAR_VAL.VAL v.2) v.1) s1
  let s3 := State.each x.eols.zipIdx
    (fun s e => (((s.set (WEAR_EOL.DAYS e.2) e.1.1).set (WEAR_EOL.NPTS e.2) e.1.2.1).set
      (WEAR_EOL.LIMQ e.2) e.1.2.2.1).set (WEAR_EOL.BASIS e.2) e.1.2.2.2) s2
  let s4 := (s3.set WEAR_STATUS.INJCAUSE x.failed.1).set WEAR_STATUS.INJLOOP x.failed.2
  ((s4.set WEAR_STATUS.DAY (x.day + days)).set WEAR_STATUS.RESTORED 1).set WEAR_STATUS.BLANK 0

/-- `WEAR_IMPORT` (R349, R439). -/
def execWearImport (k : BitVec 8) (s : State) : Host.Outcome State Fault Refusal :=
  onCommand k 0x41 s fun n =>
    let bs := (s.slot n).input
    let code := importReason s bs
    if code = 0 then endOk (wearNotice (importWear s bs (slotArg s n 1)) 11) n
    else refuseCommand (wearNotice (s.set WEAR_STATUS.RESTORE code) 11) n 4 code

end Sys2Proof.Machine
end

