-- ==== Sys2Proof/Machine/HostWrite.lean ====
section
/-! DEFINITION. A host's write to a register word (R14 to R18, R507 to R510): what its fields store by their access
codes, the values that a field ignores, and the actions that the word starts. -/

namespace Sys2Proof.Machine

/-- The byte lanes of a write as a mask of 32 bits. -/
def laneMask (lanes : BitVec 4) : Nat :=
  ((List.range 4).map fun i => if lanes.getLsbD i then 0xFF * 2 ^ (8 * i) else 0).foldl (· + ·) 0

/-- The part of a word `x` that lies in field `f`. -/
def fieldPart (f : Field) (x : Nat) : Nat := x / 2 ^ f.lsb % 2 ^ f.width

/-- `f` after a write of `v` in the bits of `m`, both at the field's own scale. -/
def merged (f : Field) (old v m : Nat) : Nat := (old &&& (2 ^ f.width - 1 - m)) ||| (v &&& m)

/-- The enable that guards the RWE fields of the word at `a` reads 1 (R14). A phase's current-sense word is guarded
by the loop that owns the phase. -/
def enableReads1 (s : State) (a : Nat) : Bool :=
  let page := a / 0x100
  let o := a % 0x100
  if page = 0x02 then s.on CHG_CTRL.EN
  else if 0x04 ≤ page ∧ page ≤ 0x09 then s.on (LP_CTRL.EN (page - 0x04))
  else if page = 0x0B ∨ page = 0x0C then
    let k := (page - 0x0B) * 10 + o / 0x10
    let owned := decide (s.get (PH_STATUS.OWNER k) < 6) && s.on (LP_CTRL.EN (s.get (PH_STATUS.OWNER k)))
    owned || (s.phase k).reservedBy.any fun n => s.on (LP_CTRL.EN n)
  else if page = 0x0D then s.on (VCL_CTRL.EN (o / 0x40))
  else if page = 0x0E then s.on (BK_CTRL.EN (o / 0x20))
  else if page = 0x0F then if o < 0x80 then s.on (LDO_CTRL.EN (o / 0x10)) else s.on (SW_CTRL.EN ((o - 0x80) / 0x10))
  else if 0x10 ≤ page ∧ page ≤ 0x13 then s.on (SUP_CFG.EN ((page - 0x10) * 16 + o / 0xC))
  else if 0x14 ≤ page ∧ page ≤ 0x17 then s.on (CAM_CTRL.EN (page - 0x14))
  else if page = 0x19 then s.on MNG_CTRL.EN
  else if a = 0x1A28 then s.on ADC_CAP.EN
  else if page = 0x1A then s.on (ADC_SL_CTRL.EN ((o - 0x08) / 4))
  else if page = 0x1B then s.on (ADC_SL_CTRL.EN (o / 0x40))
  else if page = 0x29 then s.on TWC_CTRL.EN
  else false

/-- The fields that take only the values between two bounds; a write of any other value is ignored.
(DESIGN CHOICE, log entry 44) -/
def bounds (f : Field) : Option (Nat × Nat) :=
  if f = PP_BTN.SNOW_BTN then some (1, 30)
  else if f = PP_BTN.LONG then some (4, 30)
  else if f = CHG_I.ICHG then some (0, 0x9C4)
  else if f = CHG_TIMER.TSAFE then some (1, 0xFFFF)
  else if f = NRG_CFG.OFFHOLD then some (1, 0xFFFF)
  else if f = SYS_PDCFG.DISTMO then some (1, 120)
  else if f = SYS_PDCFG.TMAX then some (100, 4800)
  else if f = ADC_URG.TS then some (0, 6)
  else if f = WEAR_INJP.PERIODS then some (1, 8)
  else if f = FLT_CFG.MERGE then some (1, 0xFFFF)
  else if f = HCI_MOD.TIME then some (1, 0xFFFF)
  else if f = HCI_MOD.COUNT then some (1, 64)
  else if f = TWT_CFG.PECLEN then some (1, 32)
  else if f = TWC_XFER.WLEN ∨ f = TWC_XFER.RLEN then some (0, 32)
  else if (List.range 6).any fun n => decide (f = LP_SLEW.SLEW n) then some (5, 400)
  else if (List.range 6).any fun n => decide (f = LP_CFG.SRDY n) then some (1, 255)
  else if (List.range 4).any fun e => decide (f = CAM_CFG.RUNMAX e) then some (1, 0xFFFF)
  else if f = PH_CFG.OUTLIER then some (10, 50)
  else none

/-- Field `f` takes the value `x`. (DESIGN CHOICE, log entry 44) -/
def takes (f : Field) (x : Nat) : Bool :=
  match bounds f with
  | some (lo, hi) => decide (lo ≤ x) && decide (x ≤ hi)
  | none => true

/-- The value that is stored where `x` is written: the class reactions keep the bits that R378 fixes. -/
def forced (f : Field) (x : Nat) : Nat :=
  if f = FLT_CREACT.CRIT ∨ f = FLT_CREACT.FAULT then x ||| 3 else if f = FLT_CREACT.WARN then x ||| 1 else x

/-- The fields whose writes are commands with a row of their own, so that a plain write leaves them. -/
def commandFields : List Field :=
  [CHG_CTRL.EN, CHG_CTRL.SUSPEND, NRG_CTRL.FREEZE, MNG_CTRL.EN, ADC_CAP.EN, HCI_CTRL.EN, HCI_CQ_HEAD.HEAD, TWC_CTRL.EN,
   FLT_STATUS.LINES 0, FLT_STATUS.LINES 1] ++
  ((List.range 2).flatMap fun p => [VCL_CTRL.EN p, VCL_CTRL.HOLD p]) ++ (List.range 64).map SUP_CFG.EN ++
  (List.range 4).flatMap fun k => [CAM_CTRL.EN k, ADC_SL_CTRL.EN k]

/-- The fields that keep nothing of a write: the keys of a single write, the words that only K0 or K1 writes (R407),
and the raw path outside factory test mode (R498). (DEDUCED, log entry 89) -/
def keepsNothing (s : State) (f : Field) : Bool :=
  decide (f = SYS_CTRL.KEY) || decide (f = SYS_BRST.KEY) || (decide (0x2040 ≤ f.addr) && decide (f.addr < 0x2060)) ||
    decide (f = INTC_T_COMPLETE.ID 6) || decide (f = INTC_T_COMPLETE.ID 7) || rawHidden s f.addr ||
    (decide (f.addr = 0x1EBC) && !s.on FLT_TEST.ACTIVE)

/-- The bits of field `f` that a write of 1 does not clear: a phase's bit while the phase is DROPPED (Table 3.4). -/
def heldBits (s : State) (f : Field) : Nat :=
  if f = PH_FAULTED.MASK then ((List.range 20).filter fun k => s.get (PH_STATUS.STATE k) = 3).foldl setBitNat 0 else 0

/-- Field `f` after a write of `v` in the bits of `m` (Table 0.6). -/
def storeField (v m : Nat) (s : State) (f : Field) : State :=
  let x := fieldPart f v
  let k := fieldPart f m
  let stored := forced f (merged f (s.get f) x k)
  if k = 0 ∨ f ∈ commandFields ∨ keepsNothing s f then s
  else match f.acc with
    | .ro => s
    | .sc => s
    | .rw => if takes f stored then s.set f stored else s
    | .rwe => if takes f stored ∧ ¬ enableReads1 s f.addr then s.set f stored else s
    | .rwl => if takes f stored ∧ ¬ s.on FLT_CTRL.LOCK then s.set f stored else s
    | .w1c => s.clearBits f (x &&& k &&& (2 ^ f.width - 1 - heldBits s f))
    | .w1s => s.set f (s.get f ||| (x &&& k))

/-- The fields of the word are written; none of them is an enable that guards another. -/
def storeFields (s : State) (a v m : Nat) : State := State.each (fieldsAt a) (storeField v m) s

/-- A write of 1 reaches bit `i`. -/
def ones (v m i : Nat) : Bool := decide (bitOf v i = 1) && decide (bitOf m i = 1)

/-- A write of 0 reaches bit `i`. -/
def zeros (v m i : Nat) : Bool := decide (bitOf v i = 0) && decide (bitOf m i = 1)

/-- The fields `fs` are 0. -/
def clearAll (s : State) (fs : List Field) : State := State.each fs (fun s f => s.set f 0) s

/-- The fields that a CLRCNT or CLRDL bit without a row of its own clears: the word's address, the bit, and they. -/
def counterClears : List (Nat × Nat × List Field) :=
  ((List.range 6).map fun n => ((LP_CTRL.CLRDL n).addr, 7, [LP_STATUS.DLCNT n])) ++
  ((List.range 2).map fun p => ((VCL_CTRL.CLRCNT p).addr, 2,
    [VCL_CNT0.REFUSED p, VCL_CNT1.REACHED p, VCL_CNT1.SUPERSEDED p, VCL_CNT2.ABORTED p,
     VCL_CNT2.DEADLINE p, VCL_CNT3.CRCERR p, VCL_CNT3.FRAMERR p])) ++
  ((List.range 4).map fun e => ((CAM_CTRL.CLRCNT e).addr, 1, [CAM_CNT.DLMISS e, CAM_CNT.EXCCNT e])) ++
  [(0x1800, 1, [NRG_CNT0.GRANTS, NRG_CNT0.REVOKES, NRG_CNT1.DEFERS, NRG_CNT1.OVERS]),
   (0x1900, 1, [MNG_CNT.ADV, MNG_CNT.ABORTS, MNG_CNT.CRCERR]),
   (0x2000, 0, [INTC_CNT.BADCOMP, INTC_CNT.CLAIMS, INTC_T_STAT.SPUR 0, INTC_T_STAT.SPUR 1, INTC_T_STAT.SPUR 6,
     INTC_T_STAT.SPUR 7]),
   (0x2800, 1, [HCI_CNT0.COMPLETED, HCI_CNT0.CANCELLED, HCI_CNT1.BADDB, HCI_CNT1.BADHEAD, HCI_CNT1.SPIERR,
     HCI_CNT1.LATE]),
   (0x2940, 1, [TWC_CNT.ARBLOST, TWC_CNT.RECOVER, TWC_CNT.NACK, TWT_CNT.PECERR, TWT_CNT.STUCK, TWT_CNT.NACKED,
     TWT_CNT.KTWR])]

/-- CLRCNT of VCL port `p` leaves in ACCEPTED the transition in flight, as the books of R148 ask at all times.
(DEDUCED, log entry 107) -/
def clearAccepted (a v m : Nat) (s : State) (p : Nat) : State :=
  if (VCL_CTRL.CLRCNT p).addr = a ∧ ones v m 2 then
    s.set (VCL_CNT0.ACCEPTED p) (if (s.port p).flight.isSome then 1 else 0)
  else s

/-- The counters that a write of the word at `a` clears. -/
def clearCounters (s : State) (a v m : Nat) : State :=
  State.each [0, 1] (clearAccepted a v m)
    (State.each counterClears (fun s c => if c.1 = a ∧ ones v m c.2.1 then clearAll s c.2.2 else s) s)

/-- A write of INTC_MASKq sets the MASK bits of 32 sources (Table 14.13). -/
def writeMasks (s : State) (a v m : Nat) : State :=
  if 0x2540 ≤ a ∧ a < 0x2560 then
    State.each (List.range 32)
      (fun s k => if bitOf m k = 1 then s.set (INTC_SRC.MASK (8 * (a - 0x2540) + k + 1)) (bitOf v k) else s) s
  else s

/-- BANK_EN acts at once, except in BANK and SHUTDOWN, where it waits for AUX (Table 2.13). -/
def followBankEn (s : State) : State :=
  if onBank s then s else s.setPath { s.path with bankEn := s.on PP_CTRL.BANK_EN }

/-- The window's flags of channels that are not mapped are 0 (R470). -/
def ktUnmapped (s : State) : State :=
  let mapped := ((List.range 12).filter fun k => s.on (TWT_KTMAP.V k)).foldl setBitNat 0
  { s with twt := { s.twt with fault := s.twt.fault &&& mapped, warn := s.twt.warn &&& mapped } }

/-- What follows from the stored values at once. -/
def afterStore (s : State) (a : Nat) : State :=
  if a = 0x0100 then followBankEn s
  else if 0x2040 ≤ a ∧ a < 0x2560 then noteLines s
  else if 0x2910 ≤ a ∧ a < 0x2928 then ktUnmapped s
  else if a = 0x2C00 then dropDisabledWait s
  else s

/-- A window channel that the write of the word at `a` binds to another source has had no PGS of its output yet
(R184). -/
def rebind (old : State) (a : Nat) (s : State) : State :=
  State.each ((List.range 64).filter fun n =>
      decide ((SUP_CFG.SRC n).addr = a) && decide (old.get (SUP_CFG.SRC n) ≠ s.get (SUP_CFG.SRC n)))
    (fun s n => s.setSup n { s.supCh n with settled := false }) s

/-- A write of `v` in the bits of `m` to the word at `a`, but for the commands that it starts. -/
def plainWrite (s : State) (a v m : Nat) : State :=
  rebind s a (afterStore (writeMasks (clearCounters (storeFields s a v m) a v m) a v m) a)

/-- A register word is served: those of the S0 units and the power path's PP_SNOW while K0 runs, every other while the
internal VSYS rails are up (R24, R304). -/
def wordServed (s : State) (a : Nat) : Bool :=
  k0Runs s && (s.supply.rails || s0Page (a / 0x100) || decide (a = 0x0120))

/-- Capture is turned off, and the fill under way ends. (DEDUCED, log entry 75) -/
def captureOff (s : State) : Host.Outcome State Fault Refusal := .next (endFill (s.set ADC_CAP.EN 0))

/-- `REGISTER_WRITE` (R14, R17): no row of its own turns capture off. (DEDUCED, log entry 48) -/
def execRegisterWrite (addr : BitVec 24) (value : Word) (lanes : BitVec 4) (s : State) :
    Host.Outcome State Fault Refusal :=
  let a := addr.toNat
  let v := value.toNat
  let m := laneMask lanes
  .next (if wordServed s a && decide (a % 4 = 0) then
    let s1 := plainWrite s a v m
    if a = 0x1A28 ∧ zeros v m 31 then endFill (s1.set ADC_CAP.EN 0) else s1
  else s)

/-! ### Commands that a write starts -/

/-- The state that a meaning answers. -/
def stateOf (o : Host.Outcome State Fault Refusal) (s : State) : State :=
  match o with
  | .next t => t
  | _ => s

/-- `f` where `c` holds. -/
def act (c : Bool) (f : State → Host.Outcome State Fault Refusal) (s : State) : State :=
  if c then stateOf (f s) s else s

/-- A write of a bit whose two values start two commands. -/
def actBit (v m i : Nat) (one zero : State → Host.Outcome State Fault Refusal) (s : State) : State :=
  act (zeros v m i) zero (act (ones v m i) one s)

/-- The commands of SYS_CTRL and SYS_BRST (Tables 10.8 and 10.16). -/
def sysActions (s : State) (a v m : Nat) : State :=
  let x := v &&& m
  if a = 0x0000 ∧ x / 0x10000 = 0x5359 then
    match x % 8 with
    | 1 => act true execSysShutdown s
    | 2 => act true execSysOrderly s
    | 3 => act true execSysImmediate s
    | 4 => act true execSysRestart s
    | 5 => act true execSysStandby s
    | _ => s
  else if a = 0x002C ∧ x / 0x10000 = 0x4252 ∧ m % 256 = 255 then
    act (ones v m 15) (execBlockReset (BitVec.ofNat 8 v)) s
  else s

/-- The commands of the power path and the charger. -/
def powerActions (s : State) (a v m : Nat) : State :=
  if a = 0x0100 then act (ones v m 6) execPpClrflt (act (ones v m 7) execPpApply s)
  else if a = 0x0120 then act (ones v m 16 && decide ((v &&& m) % 0x10000 = 0x534E)) execSnowdropEnter s
  else if a = 0x0200 then
    actBit v m 0 execChgEnable execChgDisable
      (act (ones v m 1) execChgClrflt (actBit v m 3 (execChgHostSuspend true) (execChgHostSuspend false) s))
  else s

/-- The commands of the ports, the integrated outputs and the window channels. -/
def outputActions (s : State) (a v m : Nat) : State :=
  let s1 := State.each (List.finRange 2)
    (fun s p =>
      if a = (VCL_CTRL.EN p).addr then
        actBit v m 0 (execVclPortEnable p) (execVclPortDisable p) (actBit v m 1 (execVclHold p true) (execVclHold p false) s)
      else s) s
  let s2 := State.each (allRails.filter isOutput)
    (fun s r =>
      let bit := match r with
        | .bk _ => 7
        | _ => 1
      if a = (railEn r).addr then act (ones v m bit) (execOutputClrflt r) s else s) s1
  State.each (List.finRange 64)
    (fun s n => if a = (SUP_CFG.EN n).addr then actBit v m 0 (execSupEnable n) (execSupDisable n) s else s) s2

/-- The commands of the engines, the ledger and the ring. -/
def plantActions (s : State) (a v m : Nat) : State :=
  let s1 := State.each (List.finRange 4)
    (fun s e =>
      if a = (CAM_CTRL.EN e).addr then actBit v m 0 (execCamEnable e) (execCamDisable e) s
      else if a = (CAM_RAISE.POP e).addr then act (ones v m 31) (execRaisePop e) s
      else s) s
  if a = 0x1800 then actBit v m 0 (execNrgFreeze true) (execNrgFreeze false) s1
  else if a = 0x1900 then actBit v m 0 execRingEnable execRingLeave s1
  else if a = 0x1938 ∧ ones v m 31 then
    let arg := BitVec.ofNat 8 (s1.get MNG_CMD.ARG)
    match s1.get MNG_CMD.OP with
    | 1 => act true (execMngCmdAbort arg) s1
    | 2 => act true (execMngCmdIsolate arg) s1
    | 3 => act true execMngCmdPoll s1
    | _ => s1
  else s1

/-- The commands of the ADC. -/
def adcActions (s : State) (a v m : Nat) : State :=
  let s1 := State.each (List.finRange 4)
    (fun s k => if a = (ADC_SL_CTRL.EN k).addr then actBit v m 0 (execAdcSliceEnable k) (execAdcSliceDisable k) s else s) s
  if a = 0x1A00 then
    act (ones v m 1) execAdcCtrlSnap (act (ones v m 2) execSnapshotRelease (act (ones v m 0) execAdcClrcnt s1))
  else if a = 0x1A24 then act (ones v m 31) execAdcBurstGo s1
  else if a = 0x1A28 then actBit v m 31 execCaptureEnable captureOff s1
  else if a = 0x1A7C then act (ones v m 1) execMismClr s1
  else s1

/-- The commands of Foxglove. -/
def faultActions (s : State) (a v m : Nat) : State :=
  if a = 0x1E00 then act (ones v m 2) execFltMarkread s
  else if a = 0x1E4C then act true (execFltStatusClear 0 (BitVec.ofNat 32 (v &&& m))) s
  else if a = 0x1E50 then act true (execFltStatusClear 1 (BitVec.ofNat 32 (v &&& m))) s
  else if a = 0x1EA8 then act (ones v m 4) execTestEntry s
  else if a = 0x1EBC then
    act (ones v m 31)
      (execFaultInjection (BitVec.ofNat 6 (s.get FLT_INJ.LINE)) (BitVec.ofNat 2 (s.get FLT_INJ.CLASS))) s
  else s

/-- The ID that a write of INTC_Tt_COMPLETE names: bits in a lane not received keep their values (R456). -/
def writtenId (s : State) (t v m : Nat) : Nat := merged (INTC_T_COMPLETE.ID t) (s.get (INTC_T_COMPLETE.ID t)) v (m % 512)

/-- The commands of the interrupt controller, the command interface, the two-wire controller port and OTP. One write
of INTC_DBELL clears first and sets after (R413). -/
def hostActions (s : State) (a v m : Nat) : State :=
  let low := decide (m % 0x10000 ≠ 0)
  if a = 0x2008 then act (ones v m 1) execIntcDbellSet (act (ones v m 2) execIntcDbellClr s)
  else if a = 0x20A8 then act low (execIntcComplete 6 (BitVec.ofNat 9 (writtenId s 6 v m))) s
  else if a = 0x20B8 then act low (execIntcComplete 7 (BitVec.ofNat 9 (writtenId s 7 v m))) s
  else if a = 0x2800 then actBit v m 0 execHciEnable execHciDisable s
  else if a = 0x280C then
    act low (execHciDoorbell (BitVec.ofNat 2 (s.get HCI_DB.QUEUE)) (BitVec.ofNat 8 (s.get HCI_DB.SLOT))) s
  else if a = 0x2810 then
    act low (execHciCqHeadWrite (BitVec.ofNat 9 (merged HCI_CQ_HEAD.HEAD (s.get HCI_CQ_HEAD.HEAD) v (m % 512)))) s
  else if a = 0x2940 then actBit v m 0 execTwcEnable execTwcDisable s
  else if a = 0x294C then act (ones v m 31) execTwcTransfer s
  else if a = 0x2A28 ∧ ones v m 31 then
    match s.get OTP_RAW_CTRL.OP with
    | 1 => act true execRawProgramWord s
    | 2 => act true execRawVoidWord s
    | 3 => act true execRawBlowLock s
    | 4 => act true execKeygen s
    | _ => s
  else s

/-- The host writes `v` in the bits of `m` to the word at `a`. -/
def hostWrite (s : State) (a v m : Nat) : State :=
  let s1 := plainWrite s a v m
  let s2 := powerActions s1 a v m
  let s3 := plantActions (outputActions s2 a v m) a v m
  sysActions (hostActions (faultActions (adcActions s3 a v m) a v m) a v m) a v m

/-! ### The SRAM windows -/

/-- An IMG_LOAD is QUEUED or INFLIGHT, so the staging buffer takes no writes (Table 15.4). -/
def imageBusy (s : State) : Bool :=
  (List.range 256).any fun k =>
    (decide ((s.slot k).st = .queued) || decide ((s.slot k).st = .inflight)) && decide (slotOp s k = 0x10)

/-- The host can write the byte at window address `a` (Table 18.6): a slot's descriptor while the slot is FREE, the
data area, and the staging buffer unless an IMG_LOAD is waiting or under way. -/
def windowWritable (s : State) (a : Nat) : Bool :=
  s.supply.rails &&
    ((decide (0x010000 ≤ a) && decide (a < 0x012000) && decide ((s.slot ((a - 0x010000) / 32)).st = .free)) ||
     (decide (0x013000 ≤ a) && decide (a < 0x014000)) ||
     (decide (0x040000 ≤ a) && decide (a < 0x04A000) && !imageBusy s))

/-- A host's write of one byte in a window; elsewhere it is ignored. -/
def writeByte (s : State) (a : Nat) (b : Byte) : State := if windowWritable s a then s.setByte a b else s

end Sys2Proof.Machine
end

