-- ==== Sys2Proof/Machine/Power.lean ====
section
/-! DEFINITION. The power instructions (R208 to R213). -/

namespace Sys2Proof.Machine

/-- The granted or revoked steady claim of task `t` of engine `e` that covers rail `r`, in state `st`. -/
def covering (s : State) (e t : Nat) (r : Rail) (st : ClaimState) : Bool :=
  (claimsIn s e t st).any fun c =>
    let x := s.claim c
    !x.oneOff && decide (bitOf x.rails (railCode r) = 1)


/-- The power instruction of task `t` of engine `e` ends with `code` in Wd (R208). -/
def endPower (s : State) (e t : Nat) (wd code : Nat) : State := s.setTask e t (powerResult (s.task e t) wd code)

/-- `RAILON` (R209) of task `t` of engine `e`, whose present entry is `x`. (DEDUCED, log entry 56) -/
def railonBody (r : Rail) (wd e : Nat) (s : State) (t : Nat) (x : Task) : State :=
  if t = 15 then s.setTask e t (powerResult x wd 0x87)
  else if covering s e t r .revoked then s.setTask e t (powerResult x wd 0x86)
  else if ¬ covering s e t r .granted then takeExc s e t 4
  else if draining s r then s.setTask e t { x with wait := some (.drain r wd) }
  else if s.on (railEn r) then s.setTask e t (powerResult x wd 0)
  else (startCheck s r).setTask e t { x with wait := some (.verdict r wd) }

/-- `RAILON` (R209). -/
def execRailon (i : Issue) (rail : Rail) (wd : Fin 16) (s : State) : Host.Outcome State Fault Refusal :=
  issue i (railonWord rail wd) s (railonBody rail wd i.eng)

/-- The rail of a RAILON that task `t` of engine `e` has under way is still covered by a granted claim: its own, or
after a handover the claim that passed on (R250). -/
def stillCovered (s : State) (e t : Nat) (r : Rail) : Bool :=
  covering s e t r .granted ||
    ((s.engine e).handing && claimIds.any fun c =>
      (s.claim c).isGranted && decide (bitOf (s.claim c).rails (railCode r) = 1))

/-- `RAILON_VERDICT` (R209): the verdict of the enable check on `rail`, reported to the RAILON that waits. A
rail whose drain began before the verdict ends its RAILON with DONE, or with REVOKED where its claim was revoked
(R224). (DESIGN CHOICE, log entry 145) -/
def execRailonVerdict (rail : Rail) (vin start : Nat) (s : State) : Host.Outcome State Fault Refusal :=
  if checkWaits s rail then .next s
  else if s.get (railState rail) = stCheck ∧ s.on (railEn rail) then
    let code := railReasonCode s vin rail
    .next (completeRailon (if code = 0 then acceptRail s rail start else refuseRail s rail code) rail code)
  else .next (endRailons s rail fun s e t => if stillCovered s e t rail then 0 else 0x86)

/-- `RAILON_AFTER_DRAIN` (R209): the drain has ended, so the RAILON of engine `e` sets EN and waits for the
verdict. A claim revoked meanwhile ends it with REVOKED (R224). -/
def execRailonAfterDrain (e : Fin 4) (s : State) : Host.Outcome State Fault Refusal :=
  match (s.engine e).cur with
  | none => .next s
  | some t =>
    let x := s.task e t
    match x.wait with
    | some (.drain r wd) =>
      if draining s r then .next s
      else
        let y := { x with wait := none }
        .next (if ¬ stillCovered s e t r then finishHandover (s.setTask e t (powerResult y wd 0x86)) e
          else if s.on (railEn r) then finishHandover (s.setTask e t (powerResult y wd 0)) e
          else (startCheck s r).setTask e t { y with wait := some (.verdict r wd) })
    | _ => .next s

/-- `RAILOFF` (R210): the rail's EN is cleared, and Z reads 1 for DONE (R208). (DEDUCED, log entry 58) -/
def execRailoff (i : Issue) (rail : Rail) (s : State) : Host.Outcome State Fault Refusal :=
  issue i (railoffWord rail) s fun s t x => (railOff s rail).setTask i.eng t { x with z := true }

/-- A setting of SETV lies outside the range of Table 5.1. -/
def setvOutside (v slew : Nat) : Rail → Bool
  | .bk _ => outside 120 1100 v || (decide (slew ≠ 0) && outside 5 400 slew)
  | .ldo _ => outside 120 1060 v || (decide (slew ≠ 0) && outside 5 400 slew)
  | _ => decide (slew ≠ 0) && outside 5 400 slew

/-- STATE refuses a SETV with RAIL_STARTING (Table 7.5). -/
def setvStarting (s : State) (r : Rail) : Bool :=
  let st := s.get (railState r)
  match r with
  | .lp _ => decide (st = 1) || decide (st = 2) || decide (st = 3)
  | .bk _ => decide (st = 1) || decide (st = 2)
  | .ldo _ => decide (st = 1)
  | .sw _ => false

/-- A SETV is above VMAX (Table 7.5). -/
def setvAbove (s : State) (v : Nat) : Rail → Bool
  | .lp n => decide (s.get (LP_VCFG.VMAX n) < v)
  | .bk n => decide (s.get (BK_VOUT.VMAX n) < v)
  | _ => false

/-- The result code of a SETV (Table 7.5), the lowest that applies. (DESIGN CHOICE, log entry 144) -/
def setvCode (s : State) (r : Rail) (v slew : Nat) : Nat :=
  match r with
  | .sw _ => 0x81
  | _ => firstCode [(0x82, setvAbove s v r), (0x83, setvOutside v slew r), (0x84, setvStarting s r)]

/-- A committed SETV (R110, R112, R160, R211). -/
def commitSetv (s : State) (r : Rail) (v slew : Nat) : State :=
  let st := s.get (railState r)
  match r with
  | .lp n =>
    dirtyRail (if st = 4 then setTarget s n v (if slew = 0 then s.get (LP_SLEW.SLEW n) else slew)
      else s.set (LP_VCFG.VBOOT n) v) r
  | .bk n =>
    dirtyRail (if st = 3 then setVset s r (BK_VOUT.VSET n) v (if slew = 0 then s.get (BK_CFG.SS n) else slew)
      else s.set (BK_VOUT.VSET n) v) r
  | .ldo n =>
    dirtyRail (if st = 2 ∨ st = 3 then setVset s r (LDO_CFG.VSET n) v 10 else s.set (LDO_CFG.VSET n) v) r
  | .sw _ => s

/-- `SETV` (R211): it ends at acceptance (R212). -/
def execSetv (i : Issue) (rail : Rail) (src : SetvSrc) (wd : Fin 16) (s : State) :
    Host.Outcome State Fault Refusal :=
  issue i (setvWord rail src wd) s fun s t x =>
    let (v, slew) := setvOperand x src
    let code := setvCode s rail v slew
    let s1 := if code = 0 then commitSetv s rail v slew else s
    s1.setTask i.eng t (powerResult x wd code)

/-- `SETSLEW` (R213). -/
def execSetslew (i : Issue) (rail : Rail) (slew : BitVec 9) (wd : Fin 16) (s : State) :
    Host.Outcome State Fault Refusal :=
  issue i (setslewWord rail slew wd) s fun s t x =>
    match rail with
    | .lp n =>
      if outside 5 400 slew.toNat then s.setTask i.eng t (powerResult x wd 0x83)
      else (s.set (LP_SLEW.SLEW n) slew.toNat).setTask i.eng t (powerResult x wd 0)
    | _ => s.setTask i.eng t (powerResult x wd 0x81)

/-- `PHASES` (R213). -/
def execPhases (i : Issue) (rail : Rail) (ws wd : Fin 16) (s : State) : Host.Outcome State Fault Refusal :=
  issue i (phasesWord rail ws wd) s fun s t x =>
    match rail with
    | .lp n =>
      if s.on (LP_CTRL.EN n) then s.setTask i.eng t (powerResult x wd 0x85)
      else (s.set (LP_PHMASK.MASK n) (x.reg ws)).setTask i.eng t (powerResult x wd 0)
    | _ => s.setTask i.eng t (powerResult x wd 0x81)

end Sys2Proof.Machine
end

