-- ==== Sys2Proof/Machine/Spi.lean ====
section
/-! DEFINITION. The SPI command interface (R418 to R422): the status byte, register words and window bytes, the CRC
of a word, and errors. -/

namespace Sys2Proof.Machine

/-- The interface answers: the VSYS rails and VIO are up, no reset holds, and the unit is usable (R8, R514).
(DEDUCED, log entry 103) -/
def spiRuns (s : State) : Bool := vsysRuns s && s.supply.vio && !unusable s 26

/-- An URGENT entry lies between head and tail, so HWAKE is asserted (R446). -/
def hwake (s : State) : Bool := s.hci.entries.any (·.urgent)

/-- The level of the HWAKE ball, at the polarity of HCI_CFG.HWAKE_POL (R446). -/
def hwakeBall (s : State) : Option Bool := vioBall s (hwake s == s.on HCI_CFG.HWAKE_POL)

/-- The status byte (Table 15.2). -/
def spiStatus (s : State) : Byte :=
  BitVec.ofNat 8 (5 * 2 ^ 5 + flagAt (hwake s) 4 + flagAt (targetLine s 6) 3 + flagAt (targetLine s 7) 2 +
    flagAt s.hci.spiErr 1 + flagAt (decide (phaseNow s = 7)) 0)

/-- The CRC byte of the word at `a` with data bytes `w` (R420). -/
def wordCrc (a : Nat) (w : List Byte) : Byte := BitVec.ofNat 8 (crc8 (beBytes 3 a ++ w))

/-- Address `a` is a register's. -/
def isRegister (a : Nat) : Bool := decide (a < 0x010000)

/-- The bytes `w` from `a` are written in a window, each where the window takes it (R419). -/
def writeWindow (s : State) (a : Nat) (w : List Byte) : State :=
  State.each w.zipIdx (fun s x => writeByte s (a + x.2) x.1) s

/-- A word arrives at `a` (R419). -/
def spiPut (s : State) (a : Nat) (w : List Byte) : State :=
  if isRegister a then hostWrite s a (leNat w) 0xFFFFFFFF else writeWindow s a w

/-- The data of a WRITE from address `a`, and whether a CRC failed; the first argument bounds its words. A register
word that is not whole is not written. (DEDUCED, log entry 85) -/
def spiWriteWords : Nat → State → Nat → List Byte → State × Bool
  | 0, s, _, _ => (s, false)
  | fuel + 1, s, a, bs =>
    let crc := s.on HCI_CFG.SPICRC
    let n := if crc then 5 else 4
    if bs.length < n then (if crc || isRegister a then s else writeWindow s a bs, false)
    else
      let w := bs.take 4
      if crc && decide (bs[4]? ≠ some (wordCrc a w)) then (s, true)
      else spiWriteWords fuel (spiPut s a w) ((a + 4) % 2 ^ 24) (bs.drop n)

/-- A transaction ends in an error, or not (R421). -/
def spiEnd (s : State) (out : List Byte) (err : Bool) : State :=
  let s1 := s.setHci { s.hci with spiErr := err, spiOut := out }
  if err then notice (s1.addSat HCI_CNT1.SPIERR 1) (hciEv 3 .notice) else s1

/-- The register access at `a` is misaligned (R419). -/
def misaligned (a : Nat) : Bool := isRegister a && decide (a % 4 ≠ 0)

/-- What the device sends ahead of data: the status byte and the three bytes of the address. -/
def spiHead (s : State) : List Byte := spiStatus s :: List.replicate 3 0#8

/-- `SPI_WRITE` (R419): a transaction with data bytes `data`, whose opcode says WRITE; one with another opcode is
ignored as an error (R421). -/
def execSpiWrite (op : BitVec 8) (addr : BitVec 24) (data : List Byte) (s : State) :
    Host.Outcome State Fault Refusal :=
  let a := addr.toNat
  .next (if !spiRuns s then s
    else if op ≠ 0x02#8 ∨ misaligned a then spiEnd s (spiHead s) true
    else
      let (s1, err) := spiWriteWords (data.length + 1) s a data
      spiEnd s1 (spiHead s) err)

/-- The four bytes at `a`, read in one handshake. -/
def spiGet (s : State) (a : Nat) : List Byte × State :=
  if isRegister a then ((leBytes 4 (hostRead s a).1), (hostRead s a).2)
  else ((List.range 4).map fun i => windowByte s (a + i), s)

/-- The `n` bytes of a READ from address `a`; the first argument bounds its words. -/
def spiReadWords : Nat → State → Nat → Nat → List Byte × State
  | 0, s, _, _ => ([], s)
  | fuel + 1, s, a, n =>
    if n = 0 then ([], s)
    else
      let (w, s1) := spiGet s a
      let bs := if s.on HCI_CFG.SPICRC then w ++ [wordCrc a w] else w
      let (rest, s2) := spiReadWords fuel s1 ((a + 4) % 2 ^ 24) (n - bs.length)
      (bs.take n ++ rest, s2)

/-- `SPI_READ` (R418, R419): a transaction whose opcode says READ, of `n` bytes; one with another opcode is ignored as
an error (R421). -/
def execSpiRead (op : BitVec 8) (addr : BitVec 24) (n : Nat) (s : State) : Host.Outcome State Fault Refusal :=
  let a := addr.toNat
  .next (if !spiRuns s then s
    else if op ≠ 0x03#8 ∨ misaligned a then spiEnd s (spiHead s) true
    else
      let (bs, s1) := spiReadWords n s a n
      spiEnd s1 (spiHead s ++ 0#8 :: bs) false)

end Sys2Proof.Machine
end

