-- ==== Sys2Proof/Machine/Startup.lean ====
section
/-! DEFINITION. The start-up phases (R303 to R310, R395, R500, R530). -/

namespace Sys2Proof.Machine

/-- Start-up is in phase `n`. -/
def inPhase (s : State) (n : Nat) : Bool := k0Runs s && s.sys.started && decide (phaseNow s = n)

/-- VSYS is raised from VAUX, which has qualified; the source that carries VSYS changes (Table 2.10).
(DEDUCED, log entry 139) -/
def closeAux (s : State) : State := enterAux (s.setPath { s.path with qualified := true })

/-- Phase 1 begins, in which VSYS rises through 6.0 V and the internal VSYS rails come up (R24); a bank wake has
served, and the discharge that a reset began connects (R167). -/
def toSupply (s : State) : State :=
  let s1 := if !s.supply.rails && s.vdrv.resetDischarge then { s with outs := dischargeAll true } else s
  let s2 : State := { s1 with supply := { s1.supply with rails := true } }
  toPhase (s2.setSys { s2.sys with bankWake := false }) 1

/-- `PHASE_WAIT_END` (R303, R530): phase 0 ends where the pair is still closed, where VAUX has qualified, or at a
bank wake with the bank available at `bkb` mV. (DEDUCED, log entry 33) -/
def execPhaseWaitEnd (bkb : Nat) (s : State) : Host.Outcome State Fault Refusal :=
  .next (if !inPhase s 0 then s
    else if ppState s ≠ 0 then toSupply s
    else match s.path.rangeSince with
      | some _ => toSupply (closeAux s)
      | none =>
        let s1 := s.setPath { s.path with bkb }
        if s.sys.bankWake && bankAvail s1 then toSupply (enterBank s1 bkb 0) else s1)

/-- `PHASE_SUPPLY_END` (R303): the internal supplies and TREF are up; the VIO and VIO_VCL balls, which a board may feed
from VSYS, are supplied or not (R514). (DESIGN CHOICE, log entry 126) -/
def execPhaseSupplyEnd (vio vioVcl : Bool) (s : State) : Host.Outcome State Fault Refusal :=
  .next (if inPhase s 1 then toPhase (seeBalls s vio vioVcl s.supply.testEn) 2 else s)

/-- ALIVE first toggles (R391). -/
def aliveFirst (s : State) : State := if s.fox.alive = .low then aliveRun s else s

/-- The verdict that phase 5 will apply is `v`, from source `n` of Table 10.2. -/
def useVerdict (s : State) (v : Verdict) (n : Nat) : State := s.setSys { s.sys with verdict := some v, source := n }

/-- The verdict that counts as stored: it is marked valid and its CRC matches (R307). -/
def validVerdict (s : State) : Option Verdict :=
  match s.sys.stored with
  | some x => if x.crc = Config.verdictCrc x.verdict % 2 ^ 16 then some x.verdict else none
  | none => none

/-- Phase 3 begins: no ball that switches external power or a shared line is active (R317). -/
def toSelfTest (s : State) : State := toPhase (stopUnits s) 3

/-- `PHASE_ROM_END` (R304, R307): a ROM error halts K0; a stored verdict passes phase 3 over, unless FULLNEXT is 1. -/
def execPhaseRomEnd (crcOk : Bool) (s : State) : Host.Outcome State Fault Refusal :=
  .next (if !inPhase s 2 then s
    else if !crcOk then s.setSys { s.sys with k0Halt := true }
    else match validVerdict s with
      | some v => if s.on BIST_CTRL.FULLNEXT then toSelfTest s else toPhase (aliveFirst (useVerdict s v 1)) 4
      | none => toSelfTest s)

/-- The verdict words, reserved bits at 0 (Table 10.3), are in BIST_VERD0–4. -/
def showVerdict (s : State) (words : List Nat) : State :=
  State.each (List.range 5) (fun s w => s.set (BIST_VERD.VERD w) (words.getD w 0 &&& unitMask w)) s

/-- `PHASE_BIST_END` (R308). -/
def execPhaseBistEnd (tests : List BistTest) (s : State) : Host.Outcome State Fault Refusal :=
  .next (if inPhase s 3 then
    let v := verdictOf tests
    let s1 := (showVerdict (useVerdict s v 2) v.words).set BIST_CTRL.FULLNEXT 0
    toPhase (aliveFirst (notice s1 (sysEv 3 .notice))) 4
  else s)

/-! ### Phase 4 -/

/-- The word at `a` holds an enable that R309 carries out in phase 6: of the charger, a window channel, an ADC
slice, the ring or an engine. (DEDUCED, log entry 41) -/
def deferredEnable (a : Nat) : Bool :=
  decide (a = 0x0200) || decide (a = 0x1900) ||
    (List.range 4).any (fun k => decide (a = (ADC_SL_CTRL.EN k).addr) || decide (a = (CAM_CTRL.EN k).addr)) ||
    (List.range 64).any fun n => decide (a = (SUP_CFG.EN n).addr)

/-- One entry of the board configuration (R500). -/
def applyEntry (s : State) (e : Nat × Nat) : State :=
  if 0x2E00 ≤ e.1 ∨ e.1 / 0x100 = 0x28 then s.addSat OTP_STATUS.CFGSKIP 1
  else if deferredEnable e.1 then s.setSys { s.sys with deferred := s.sys.deferred ++ [e] }
  else hostWrite s e.1 e.2 0xFFFFFFFF

/-- The board configuration is written, and AUTOLOCK sets LOCK (R377, R500). -/
def applyConfig (s : State) : State :=
  let s1 := State.each (configEntries s) applyEntry (s.setSys { s.sys with deferred := [] })
  if s1.on FLT_CFG.AUTOLOCK then s1.set FLT_CTRL.LOCK 1 else s1

/-- K0 and K1 claim no interrupt (R414, R448). (DEDUCED, log entry 40) -/
def maskKeepers (s : State) : State := (s.set (INTC_T_CFG.THR 0) 0xF).set (INTC_T_CFG.THR 1) 0xF

/-- `PHASE_OTP_END` (R306): the shadow load. `progOk` says that K0's own conversions, for which it needs a usable
slice, allow program operations (R490). -/
def execPhaseOtpEnd (progOk : Bool) (s : State) : Host.Outcome State Fault Refusal :=
  .next (if inPhase s 4 then
    let ok := progOk && k0Converts s
    let s0 := (maskKeepers s).set OTP_STATUS.PROGOK (if ok then 1 else 0)
    let s1 := applyConfig (bootOtp s0 (decide (bitOf (verdictWord s 0) 28 = 1)) ok)
    if phaseNow s1 = 4 then toPhase s1 5 else s1
  else s)

/-! ### Phase 5 -/

/-- The marked units among `us`. -/
def marked (s : State) (us : List Nat) : List Nat := us.filter (unusable s)

/-- `n` units from `u`. -/
def unitsFrom (u n : Nat) : List Nat := (List.range n).map (u + ·)

/-- The marked units of a class that needs one usable unit: all, or none that stops a level (R7). -/
def allMarked (s : State) (us : List Nat) : List Nat := if us.all (unusable s) then us else []

/-- The units whose verdicts stop level `l` (Table 10.3, R4, R22). -/
def stopping (s : State) (l : Nat) : List Nat :=
  match l with
  | 0 => marked s (unitsFrom 0 4)
  | 1 => marked s (unitsFrom 4 6)
  | 2 =>
    marked s [10, 11] ++ allMarked s (unitsFrom 12 4) ++
      allMarked s (unitsFrom 32 6 ++ unitsFrom 40 8 ++ unitsFrom 48 8) ++ allMarked s (unitsFrom 96 64)
  | _ =>
    marked s [16, 17, 22] ++ allMarked s (unitsFrom 18 4) ++ allMarked s (unitsFrom 56 6) ++ allMarked s (unitsFrom 64 20)

/-- The level that the verdicts allow (R5, R310). (DEDUCED, log entry 39) -/
def levelOf (s : State) : Nat :=
  if !(stopping s 0).isEmpty || !(stopping s 1).isEmpty then 0
  else if !(stopping s 2).isEmpty then 1
  else if !(stopping s 3).isEmpty then 2
  else 3

/-- The lowest of `us`; 0xFF where there is none. (DEDUCED, log entry 42) -/
def lowestUnit (us : List Nat) : Nat := us.foldl min 0xFF

/-- The lowest-numbered unit that stopped the next level (R310). -/
def blockerOf (s : State) : Nat :=
  let l := levelOf s
  if l = 3 then 0xFF
  else if l = 0 ∧ !(stopping s 0).isEmpty then lowestUnit (stopping s 0)
  else lowestUnit (stopping s (l + 1))

/-- Every unit of Table 10.3. -/
def allUnits : List Nat := List.range 160

/-- The verdict's words and diagnosis enter the registers; a marked VDRV marks the charger (R168, R318). -/
def applyVerdict (s : State) : State :=
  let d := (s.sys.verdict.map Verdict.diag).getD []
  let w0 := verdictWord s 0
  let words := (if bitOf w0 7 = 1 then w0 ||| 2 ^ 6 else w0) :: (List.range 4).map fun w => verdictWord s (w + 1)
  let s1 := showVerdict s words
  let s2 := (s1.set BIST_STATUS.NUNUS (satAt 8 (marked s1 allUnits).length)).set BIST_STATUS.SOURCE s.sys.source
  let d0 := d.getD 0 0
  let s3 := ((s2.set BIST_DIAG0.UNIT (d0 / 2 ^ 16)).set BIST_DIAG0.KIND (d0 / 2 ^ 8)).set BIST_DIAG0.NFAIL d0
  (s3.set BIST_DIAG1.SIG (d.getD 1 0)).set BIST_DIAG2.SIG (d.getD 2 0)

/-- Marked phases are UNUSABLE, and phases that were are FREE where the verdict no longer marks them (Table 3.4). -/
def applyPhases (s : State) : State :=
  State.each (List.range 20)
    (fun s k =>
      if unusable s (64 + k) then s.set (PH_STATUS.STATE k) 4
      else if s.get (PH_STATUS.STATE k) = 4 then s.set (PH_STATUS.STATE k) 0
      else s) s

/-- The slices that the ADC uses, and its base slice (R331); the round runs from level S1. -/
def applySlices (s : State) : State :=
  let usable := (List.range 4).filter fun k => !unusable s (18 + k)
  let s1 := (s.set ADC_STATUS.USABLE (usable.foldl setBitNat 0)).set ADC_STATUS.BASE (usable.head?.getD 0)
  if s.get SYS_SERVICE.LEVEL = 0 then s1 else { s1 with adc := { s1.adc with doneAt := some s1.now } }

/-- The level is selected and reported (R5, R310, R321); with the thermal-shutdown latch set it is S0 (R370).
(DEDUCED, log entry 32) -/
def applyLevel (s : State) : State :=
  let l := if s.on THM_TSD.LATCH then 0 else levelOf s
  let s0fail := !(stopping s 0).isEmpty
  let s1 := ((s.set SYS_SERVICE.LEVEL l).set SYS_SERVICE.BLOCKER (blockerOf s)).set SYS_SERVICE.S0FAIL (if s0fail then 1 else 0)
  let s2 := if (marked s allUnits).isEmpty then s1 else raise s1 (sysEv 4 .warning)
  let s3 := if l < 3 then raise s2 (sysEv 5 .warning) else s2
  if s0fail then raise s3 (sysEv 6 .critical) else s3

/-- The reset record is written, and FLT_OPMARK clears (R395). -/
def resetRecord (s : State) : State :=
  let s1 := histWrite s
    (.reset (3 * 2 ^ 30 + s.regWord 0x000C % 256) s.now (s.regWord 0x1EA4) (s.regWord 0x001C)
      (s.get SYS_SERVICE.LEVEL * 2 ^ 24))
  opShow (s1.setSys { s1.sys with ops := [] })

/-- A start-up that finds the thermal-shutdown latch stops in HALTED, with TSD raised again (R370, R380). -/
def stopAtLatch (s : State) : State :=
  raise (toPhase (s.setSys { s.sys with op := 0 }) 10)
    { evt := THM_EVT.EVT, bit := 5, src := 0x0D5, line := 3, cls := .critical }

/-- `PHASE_LEVEL_END` (R307, R309, R310, R395). -/
def execPhaseLevelEnd (s : State) : Host.Outcome State Fault Refusal :=
  .next (if inPhase s 5 then
    let s1 := setStored s none
    let s2 := resetRecord (applyLevel (applyPhases (applyVerdict s1)))
    let s3 := enableHci (applySlices s2) (unusable s2 26)
    let s4 : State := { s3 with twt := { s3.twt with narrow := false } }
    if s4.on THM_TSD.LATCH then stopAtLatch s4 else toPhase s4 6
  else s)

/-! ### Phase 6 -/

/-- The recorded enables of the words that `p` picks are carried out. -/
def bringUp (s : State) (p : Nat → Bool) : State :=
  State.each (s.sys.deferred.filter fun e => p e.1) (fun s e => hostWrite s e.1 e.2 0xFFFFFFFF) s

/-- The page of an address lies in `lo`–`hi`. -/
def onPages (lo hi a : Nat) : Bool := decide (lo ≤ a / 0x100) && decide (a / 0x100 ≤ hi)

/-- The load of the boot image begins (R309, R394). -/
def beginBootImage (s : State) : State := if regionUsed s 12 then opMark s 5 0 else s

/-- The boot image is loaded (R247, R309), whether it was accepted is noted, and the load ends, unless an IMG_LOAD
executes (R394). -/
def bringUpImage (s : State) : State :=
  let (loaded, s1) := loadBootImage s
  endMark (s1.setSys { s1.sys with booted := loaded }) 0x10

/-- The ring starts (R309): an enabled node is inserted before the engines start. -/
def bringUpRing (s : State) : State := insertNode (bringUp s (onPages 0x19 0x19))

/-- The engines (R247, R309). -/
def bringUpEngines (s : State) : State :=
  let s1 := bringUp s (onPages 0x14 0x17)
  if s1.sys.booted then enableEngines s1 else s1

/-- The steps of phase 6 in the order of R309, each with the lowest service level that has it. -/
def bringUpSteps : List (Nat × (State → State)) :=
  [(1, ppCommit), (1, fun s => vdrvSwitch s true), (1, fun s => bringUp s (onPages 0x02 0x02)),
   (2, fun s => bringUp s (onPages 0x10 0x13)), (2, beginBootImage), (2, bringUpImage),
   (3, fun s => bringUp s (onPages 0x1A 0x1A)), (3, bringUpRing), (2, bringUpEngines)]

/-- The next step of phase 6, unless the phase has ended (R309, R311). -/
def bringUpNext (s : State) : State :=
  if phaseNow s ≠ 6 then s
  else
    let s1 := s.setSys { s.sys with brought := s.sys.brought + 1 }
    match bringUpSteps[s.sys.brought]? with
    | some (l, f) => if l ≤ s.get SYS_SERVICE.LEVEL then f s1 else s1
    | none => s

/-- The units of the selected level that have not been started are started in the order of R309. -/
def bringUpAll (s : State) : State := State.each (List.range bringUpSteps.length) (fun s _ => bringUpNext s) s

/-- `PHASE_BRINGUP_END` (R303): the steps of phase 6 that are left are done, RUN is entered, and SYS_READY raised. -/
def execPhaseBringupEnd (s : State) : Host.Outcome State Fault Refusal :=
  .next (if inPhase s 6 then
    let s1 := bringUpAll s
    if phaseNow s1 = 6 then notice (toPhase (s1.setSys { s1.sys with op := 0 }) 7) (sysEv 0 .notice) else s1
  else s)

/-- The slot whose IMG_LOAD executes. -/
def loadingSlot (s : State) : Option Nat :=
  (slotsIn s .inflight).find? fun k => executing s k && decide (slotOp s k = 0x10)

/-- The ROM firmware reaches its next unit (R312, R394): step 3 of the power-down sequence once every rail is off,
the next unit of the shutdown self-test, or the next 64 bytes of the image that it loads.
(DESIGN CHOICE, log entry 119) -/
def romUnit (s : State) : State :=
  let s1 := match s.sys.pd with
    | some x => if x.step = 2 && railsAreOff s then pdStep s x 3 else s
    | none => s
  let s2 := if inPhase s 9 && opRuns s1 3 then opMark s1 3 (unitAfter (opUnit s1 3)) else s1
  match loadingSlot s with
  | some k => if opRuns s2 5 then opMark s2 5 (min (opUnit s2 5 + 64) (slotArg s k 0)) else s2
  | none => s2

/-- The load of the boot image has a further unit of 64 bytes before it ends (R394). -/
def bootUnitLeft (s : State) : Bool :=
  bootLoads s && opRuns s 5 && decide (opUnit s 5 + 64 < (bootImage s).length)

/-- What happens while no command waits: one TREF period passes where TREF runs, and the ROM firmware does its next
step of phase 6 (R309) or reaches its next unit. (DESIGN CHOICE, log entry 2) -/
def tick (s : State) : State :=
  if !trefRuns s then s
  else
    let s1 : State := { s with now := s.now + 1 }
    if inPhase s 6 then (if bootUnitLeft s1 then opMark s1 5 (opUnit s1 5 + 64) else bringUpNext s1) else romUnit s1

end Sys2Proof.Machine
end

