-- ==== Sys2Proof/Machine/TwoWire.lean ====
section
/-! DEFINITION. The two-wire target port and its KT1240 window (R452 to R464, R470, R471). -/

namespace Sys2Proof.Machine

/-- An event of the target port (Table 16.7). -/
def twtEv (k : Nat) (cls : Cls) : Ev :=
  { evt := TWT_EVT.EVT, bit := k, src := if k = 2 then 0x0F5 else 0x0F4, line := 36, cls }

/-- `s` with the target port's state `x`. -/
def State.setTwt (s : State) (x : Twt) : State := { s with twt := x }

/-- PAGE (R455). -/
def twtPage (s : State) : Nat := s.get TWT_STATUS.PAGE

/-- The pointer after an advance (R454). -/
def nextPtr (p : Nat) : Nat := if 0xFE ≤ p then 0 else p + 1

/-- The page is reached: after a wake from Crocus standby only the S0 pages are (R458), and so while the internal
VSYS rails are down (R24). -/
def pageReached (s : State) : Bool := (!s.twt.narrow && s.supply.rails) || s0Page (twtPage s)

/-- The address byte of a transfer to address `a`: a write, or a read. -/
def addressByte (a : Nat) (read : Bool) : Byte := BitVec.ofNat 8 (2 * a + if read then 1 else 0)

/-- The PEC of a transaction's bytes (R461). -/
def pecOf (bs : List Byte) : Byte := BitVec.ofNat 8 (crc8 bs)

/-- The port acknowledges the 7-bit address `a`: its main address, and the window's while KT_EN is 1; no other, the
general call included (R452). -/
def twtAcks (s : State) (a : Nat) : Bool :=
  k0Runs s && (decide (a = s.get TWT_STATUS.ADDR) || s.on TWT_CFG.KT_EN && decide (a = s.get TWT_STATUS.KTADDR))

/-! ### Writes to the main address -/

/-- The bytes received for one word, each with its pointer, are written together; the lanes not received keep their
values (R456). -/
def flushWord (s : State) (buf : List (Nat × Byte)) : State :=
  match buf with
  | [] => s
  | (p, _) :: _ =>
    let base := twtPage s * 0x100 + p / 4 * 4
    if !pageReached s then s
    else if 0x0100 ≤ twtPage s then
      State.each buf (fun s x => writeByte s (base / 0x100 * 0x100 + x.1) x.2) s
    else
      hostWrite s base ((buf.map fun x => x.2.toNat * 256 ^ (x.1 % 4)).foldl (· + ·) 0)
        ((buf.map fun x => 0xFF * 256 ^ (x.1 % 4)).foldl (· + ·) 0)

/-- The bytes `new` of a word follow its bytes `old`; of two for one lane the later counts. -/
def lanesAfter (old new : List (Nat × Byte)) : List (Nat × Byte) :=
  old.filter (fun x => new.all fun y => decide (y.1 ≠ x.1)) ++ new

/-- The bytes written together: a register word (R456), or in the SRAM windows a memory word of 16 bytes (R419). -/
def wordBytes (s : State) : Nat := if 0x0100 ≤ twtPage s then 16 else 4

/-- Data bytes arrive from pointer `p`, with the bytes of an unfinished word in `buf` and those of the page's last
word, which no byte at offset 0xFF finishes, in `last` (R453, R454, R456). The transfer ends after them (`ends`), and
the unfinished words are written, or it is abandoned, and they are discarded. (DEDUCED, log entry 86) -/
def twtPut (ends : Bool) : State → Nat → List (Nat × Byte) → List (Nat × Byte) → List Byte → State
  | s, _, last, buf, [] => if ends then flushWord (flushWord s last) buf else s
  | s, p, last, buf, b :: bs =>
    let s1 := s.setTwt { s.twt with ptr := nextPtr p }
    let buf1 := buf ++ [(p, b)]
    if p % wordBytes s = wordBytes s - 1 then twtPut ends (flushWord s1 buf1) (nextPtr p) last [] bs
    else if p = 0xFE then twtPut ends s1 (nextPtr p) (lanesAfter last buf1) [] bs
    else twtPut ends s1 (nextPtr p) last buf1 bs

/-- The bytes written at pointer 0xFF: the low byte of PAGE, which clears its high byte, and then that (R455). -/
def putPage (s : State) : List Byte → State
  | [] => s
  | [lo] => s.set TWT_STATUS.PAGE lo.toNat
  | lo :: hi :: _ => s.set TWT_STATUS.PAGE (lo.toNat + 256 * hi.toNat)

/-- The pointer byte `p` and the data after it are applied (R453, R455). -/
def twtApply (ends : Bool) (s : State) (p : Nat) (bs : List Byte) : State :=
  let s1 := s.setTwt { s.twt with ptr := p }
  if p = 0xFF then putPage s1 bs else twtPut ends s1 p [] [] bs

/-- A byte is not acknowledged. -/
def twtNack (s : State) : State := s.addSat TWT_CNT.NACKED 1

/-- What a transfer of `n` bytes leaves in the books, of which at most `m` are acknowledged. -/
def twtCount (s : State) (n m : Nat) (lead : List Byte) : State :=
  let s1 := s.setTwt { s.twt with acked := min n m, lead }
  if m < n then twtNack s1 else s1

/-- PEC_ERR (R461). -/
def pecError (s : State) : State := notice (s.addSat TWT_CNT.PECERR 1) (twtEv 0 .notice)

/-- A write transfer with PEC to address `a`: the held bytes are applied by `app` if their last one is the PEC (R461).
A single byte that ends in a repeated START is a pointer set, which `app` takes at once. -/
def pecWrite (s : State) (a : Nat) (data : List Byte) (restart : Bool) (app : State → List Byte → State) : State :=
  let held := data.take 34
  if data.length = 1 ∧ restart then app (twtCount s 1 34 (addressByte a false :: data)) data
  else
    let s1 := twtCount s data.length 34 []
    if held.isEmpty then s1
    else if held.getLast? = some (pecOf (addressByte a false :: held.dropLast)) then app s1 held.dropLast
    else pecError s1

/-- The pointer byte and data of a transfer that ends, or is abandoned, are applied to the main address. -/
def mainPut (ends : Bool) (s : State) : List Byte → State
  | [] => s
  | p :: bs => twtApply ends s p.toNat bs

/-- The pointer byte and data of a whole transfer are applied to the main address. -/
def mainApply (s : State) (bs : List Byte) : State := mainPut true s bs

/-- The port acknowledges its addresses: the S0 units run and no reset holds. -/
def twtRuns (s : State) : Bool := k0Runs s

/-- The bytes `data` of a write transfer enter the books, of which all but those after PAGE's second are
acknowledged (R455). -/
def mainCount (s : State) (data : List Byte) : State :=
  twtCount s data.length (if data.head? = some 0xFF#8 then 3 else data.length) []

/-- `TWT_WRITE` (R453 to R456, R461): a write transfer to the main address; `restart` says that a repeated START ends
it. -/
def execTwtWrite (data : List Byte) (restart : Bool) (s : State) : Host.Outcome State Fault Refusal :=
  .next (if !twtRuns s then s
    else if s.on TWT_CFG.PEC then pecWrite s (s.get TWT_STATUS.ADDR) data restart mainApply
    else mainApply (mainCount s data) data)

/-! ### Reads from the main address -/

/-- The word at `a` as the port latches it (R457, R458). -/
def latchWord (s : State) (a : Nat) : Nat × State := if pageReached s then hostRead s a else (0, s)

/-- `n` bytes from pointer `p`, with the word latched last and its address (R457). -/
def twtGet : Nat → State → Nat → Option (Nat × Nat) → List Byte × State
  | 0, s, p, _ => ([], s.setTwt { s.twt with ptr := p })
  | n + 1, s, p, latch =>
    let a := twtPage s * 0x100 + p
    if 0x0100 ≤ twtPage s then
      let b := if pageReached s then windowByte s a else 0#8
      let (bs, s1) := twtGet n s (nextPtr p) none
      (b :: bs, s1)
    else
      let w := a / 4 * 4
      let (v, s1) := match latch with
        | some (w', v) => if w' = w then (v, s) else latchWord s w
        | none => latchWord s w
      let (bs, s2) := twtGet n s1 (nextPtr p) (some (w, v))
      (BitVec.ofNat 8 (v / 256 ^ (a % 4)) :: bs, s2)

/-- `n` bytes at pointer 0xFF: PAGE and then zeros (R455). -/
def pageBytes (s : State) (n : Nat) : List Byte := (leBytes 2 (twtPage s) ++ List.replicate n 0#8).take n

/-- `n` data bytes from the pointer. -/
def twtData (s : State) (n : Nat) : List Byte × State :=
  if s.twt.ptr = 0xFF then (pageBytes s n, s) else twtGet n s s.twt.ptr none

/-- The bytes of a read transfer end, and with it the transaction. -/
def twtSent (s : State) (bs : List Byte) : State :=
  (s.setTwt { s.twt with out := bs, lead := [] }).set TWT_STATUS.BUSY 0

/-- A read transfer of `n` bytes from address `a`, whose data bytes `data` sends while TWT_STATUS.BUSY reads 1. With
PEC, PECLEN data bytes are followed by the PEC and then by 0xFF (R461). -/
def sendRead (s : State) (a n : Nat) (data : State → Nat → List Byte × State) : State :=
  let s0 := s.set TWT_STATUS.BUSY 1
  if s.on TWT_CFG.PEC then
    let len := s.get TWT_CFG.PECLEN
    let (bs, s1) := data s0 (min n len)
    let pec := pecOf (s.twt.lead ++ addressByte a true :: bs)
    twtSent s1 (bs ++ (if n ≤ len then [] else pec :: List.replicate (n - len - 1) 0xFF#8))
  else
    let (bs, s1) := data s0 n
    twtSent s1 bs

/-- `TWT_READ` (R453 to R461): a read transfer of `n` bytes from the main address. -/
def execTwtRead (n : Nat) (s : State) : Host.Outcome State Fault Refusal :=
  .next (if !twtRuns s then s else sendRead s (s.get TWT_STATUS.ADDR) n twtData)

/-! ### The KT1240 window -/

/-- Channel `c` is mapped (R470). -/
def ktMapped (s : State) (c : Nat) : Bool := s.on (TWT_KTMAP.V c)

/-- The voltage of channel `c` in 10 mV units, saturating; 0 where it is unmapped (Table 16.6). -/
def ktVoltage (s : State) (c : Nat) : Nat :=
  if ktMapped s c then min 0x3FF (readingUv s (s.get (TWT_KTMAP.ADC c)) / 10000) else 0

/-- The output bound to the channel that `c` is mapped to is enabled. -/
def ktEnabled (s : State) (c : Nat) : Bool :=
  ktMapped s c && ((boundRail s (s.get (TWT_KTMAP.SUP c))).map fun r => s.on (railEn r)).getD false

/-- The STATUS register (Table 16.6). -/
def ktStatus (s : State) : Nat :=
  flagAt ((List.range 12).all fun c => !ktMapped s c || s.on (SUP_STAT.PG (s.get (TWT_KTMAP.SUP c)))) 0 +
    flagAt (decide (s.twt.fault ≠ 0)) 1 + flagAt (decide (ppState s = 2) || decide (ppState s = 4)) 2 +
    flagAt (decide (s.twt.warn ≠ 0)) 3 + flagAt (decide (s.fox.alive = .run)) 7

/-- The window register at offset `o` (Table 16.6). -/
def ktByte (s : State) (o : Nat) : Nat :=
  if o = 0x00 then 0x12
  else if o = 0x01 then 0x40
  else if o = 0x02 then ktStatus s
  else if o = 0x03 then s.twt.fault % 256
  else if o = 0x04 then s.twt.fault / 256
  else if o = 0x05 then s.twt.warn % 256
  else if o = 0x06 then s.twt.warn / 256
  else if 0x08 ≤ o ∧ o < 0x20 then
    let k := (o - 8) / 2
    if o % 2 = 0 then ktVoltage s k / 256 else if ktMapped s k then NMap.get 0 s.twt.chLow k else 0
  else if o = 0x20 then pack 1 8 fun c => if ktEnabled s c then 1 else 0
  else 0

/-- The window's pointer after an advance (R470). -/
def nextKt (p : Nat) : Nat := if p = 0x3F then 0 else (p + 1) % 256


/-- The bits of `m` that a write of `b` at `shift` clears. -/
def ktClear (m shift : Nat) (b : Byte) : Nat := m - (m &&& b.toNat * 2 ^ shift)

/-- A byte is written at offset `p`: a flag register clears, and any other is read-only (R471). -/
def ktPut (s : State) (p : Nat) (b : Byte) : State :=
  let x := s.twt
  if p = 0x03 then s.setTwt { x with fault := ktClear x.fault 0 b }
  else if p = 0x04 then s.setTwt { x with fault := ktClear x.fault 8 b }
  else if p = 0x05 then s.setTwt { x with warn := ktClear x.warn 0 b }
  else if p = 0x06 then s.setTwt { x with warn := ktClear x.warn 8 b }
  else notice (s.addSat TWT_CNT.KTWR 1) (twtEv 2 .notice)

/-- A data byte arrives in the window. -/
def ktStep (s : State) (b : Byte) : State :=
  let s1 := ktPut s s.twt.ktPtr b
  s1.setTwt { s1.twt with ktPtr := nextKt s1.twt.ktPtr }

/-- The pointer byte and data are applied to the window. -/
def ktApply (s : State) : List Byte → State
  | [] => s
  | p :: bs => State.each bs ktStep (s.setTwt { s.twt with ktPtr := p.toNat })

/-- `KT_WINDOW_WRITE` (R470, R471). -/
def execKtWindowWrite (data : List Byte) (restart : Bool) (s : State) : Host.Outcome State Fault Refusal :=
  .next (if !twtRuns s || !s.on TWT_CFG.KT_EN then s
    else if s.on TWT_CFG.PEC then pecWrite s (s.get TWT_STATUS.KTADDR) data restart ktApply
    else ktApply (twtCount s data.length data.length []) data)

/-- Offset `o` is a CHk_H's. -/
def isChH (o : Nat) : Bool := decide (0x08 ≤ o) && decide (o < 0x20) && decide (o % 2 = 0)

/-- `n` bytes from the window's pointer; each read of a CHk_H latches its own CHk_L with it (R470). -/
def ktData (s : State) : Nat → List Byte × State
  | 0 => ([], s)
  | n + 1 =>
    let (bs, s1) := ktData s n
    let p := s1.twt.ktPtr
    let k := (p - 8) / 2
    let low := s1.twt.chLow
    let chLow := if isChH p then NMap.put 0 low k (ktVoltage s1 k % 256) else low
    (bs ++ [BitVec.ofNat 8 (ktByte s1 p)], s1.setTwt { s1.twt with chLow, ktPtr := nextKt p })

/-- `KT_CH_H_READ` (R470): a read transfer of `n` bytes from the window's pointer, which latches each CHk_L whose
CHk_H it reads. (DESIGN CHOICE, log entry 123) -/
def execKtChHRead (n : Nat) (s : State) : Host.Outcome State Fault Refusal :=
  .next (if twtRuns s && s.on TWT_CFG.KT_EN then sendRead s (s.get TWT_STATUS.KTADDR) n ktData else s)

/-- What an abandoned transfer has done (R456, R461): the whole words of a write without PEC, or the bytes sent. -/
def abandoned (s : State) : Abandoned → State
  | .idle => s
  | .write data => if s.on TWT_CFG.PEC then twtCount s data.length 34 [] else mainPut false (mainCount s data) data
  | .read n => sendRead s (s.get TWT_STATUS.ADDR) n twtData
  | .ktWrite data =>
    if !s.on TWT_CFG.KT_EN then s
    else if s.on TWT_CFG.PEC then twtCount s data.length 34 []
    else ktApply (twtCount s data.length data.length []) data
  | .ktRead n => if s.on TWT_CFG.KT_EN then sendRead s (s.get TWT_STATUS.KTADDR) n ktData else s

/-- `TWT_STUCK` (R464): the port abandons its transfer. -/
def execTwtStuck (t : Abandoned) (s : State) : Host.Outcome State Fault Refusal :=
  .next (if twtRuns s then
    let s1 := abandoned s t
    raise ((s1.setTwt { s1.twt with lead := [] }).addSat TWT_CNT.STUCK 1) (twtEv 1 .warning)
  else s)

end Sys2Proof.Machine
end

