-- ==== Sys2Proof/Machine/Dispatch.lean ====
section
/-! DEFINITION. The dispatcher: one arm for each command, each a call of that command's meaning. -/

namespace Sys2Proof.Machine

def exec (i : Instr) (s : State) : Host.Outcome State Fault Refusal :=
  match i with
  | .registerWrite addr value lanes => Sys2Proof.Machine.execRegisterWrite addr value lanes s
  | .blockReset unit => Sys2Proof.Machine.execBlockReset unit s
  | .blockDrainEnd u => Sys2Proof.Machine.execBlockDrainEnd u s
  | .por => Sys2Proof.Machine.execPor s
  | .nresetAssert => Sys2Proof.Machine.execNresetAssert s
  | .nresetRelease vio vioVcl testEn => Sys2Proof.Machine.execNresetRelease vio vioVcl testEn s
  | .xrefLock => Sys2Proof.Machine.execXrefLock s
  | .xrefLoss => Sys2Proof.Machine.execXrefLoss s
  | .ledgerUpdate => Sys2Proof.Machine.execLedgerUpdate s
  | .ledgerDeadline => Sys2Proof.Machine.execLedgerDeadline s
  | .debitExpiry => Sys2Proof.Machine.execDebitExpiry s
  | .nrgFreeze freeze => Sys2Proof.Machine.execNrgFreeze freeze s
  | .vauxLoss cause bkb vsys => Sys2Proof.Machine.execVauxLoss cause bkb vsys s
  | .vsysUv vsys => Sys2Proof.Machine.execVsysUv vsys s
  | .vauxQualified => Sys2Proof.Machine.execVauxQualified s
  | .returnOverlapEnd => Sys2Proof.Machine.execReturnOverlapEnd s
  | .pairReverseBlock pair => Sys2Proof.Machine.execPairReverseBlock pair s
  | .pairForwardOn pair => Sys2Proof.Machine.execPairForwardOn pair s
  | .bankPairFullEnhance => Sys2Proof.Machine.execBankPairFullEnhance s
  | .ilimAct => Sys2Proof.Machine.execIlimAct s
  | .ilimEnd => Sys2Proof.Machine.execIlimEnd s
  | .ilimSoa bkb vsys => Sys2Proof.Machine.execIlimSoa bkb vsys s
  | .ppApply => Sys2Proof.Machine.execPpApply s
  | .ppClrflt => Sys2Proof.Machine.execPpClrflt s
  | .bkbOc => Sys2Proof.Machine.execBkbOc s
  | .bankLow bkb => Sys2Proof.Machine.execBankLow bkb s
  | .bankCutoff bkb => Sys2Proof.Machine.execBankCutoff bkb s
  | .btnPress => Sys2Proof.Machine.execBtnPress s
  | .btnRelease held => Sys2Proof.Machine.execBtnRelease held s
  | .btnLongWarn held => Sys2Proof.Machine.execBtnLongWarn held s
  | .longPress held => Sys2Proof.Machine.execLongPress held s
  | .longPressOpenEnd => Sys2Proof.Machine.execLongPressOpenEnd s
  | .snowdropWake press => Sys2Proof.Machine.execSnowdropWake press s
  | .snowdropEnter => Sys2Proof.Machine.execSnowdropEnter s
  | .shutdownTimeout => Sys2Proof.Machine.execShutdownTimeout s
  | .chgEnable => Sys2Proof.Machine.execChgEnable s
  | .chgDisable => Sys2Proof.Machine.execChgDisable s
  | .probeStart => Sys2Proof.Machine.execProbeStart s
  | .probeEnd start drop => Sys2Proof.Machine.execProbeEnd start drop s
  | .prechargeExit bkb => Sys2Proof.Machine.execPrechargeExit bkb s
  | .bankShortDetect bkb => Sys2Proof.Machine.execBankShortDetect bkb s
  | .chgCvEntry bkb => Sys2Proof.Machine.execChgCvEntry bkb s
  | .chgTermination current => Sys2Proof.Machine.execChgTermination current s
  | .topoffEnd => Sys2Proof.Machine.execTopoffEnd s
  | .rechargeStart bkb => Sys2Proof.Machine.execRechargeStart bkb s
  | .bankRemoval bkb rise current => Sys2Proof.Machine.execBankRemoval bkb rise current s
  | .safetyTimerTick actual cv => Sys2Proof.Machine.execSafetyTimerTick actual cv s
  | .chgTimeout => Sys2Proof.Machine.execChgTimeout s
  | .chgHostSuspend on => Sys2Proof.Machine.execChgHostSuspend on s
  | .chgClrflt => Sys2Proof.Machine.execChgClrflt s
  | .chgTargetRecompute iVaux iChgIn vsys vBank cv => Sys2Proof.Machine.execChgTargetRecompute iVaux iChgIn vsys vBank cv s
  | .chgOv bkb => Sys2Proof.Machine.execChgOv bkb s
  | .chgDeadline => Sys2Proof.Machine.execChgDeadline s
  | .railonVerdict rail vin start => Sys2Proof.Machine.execRailonVerdict rail vin start s
  | .loopSwitchingStart n => Sys2Proof.Machine.execLoopSwitchingStart n s
  | .loopRampEnd n => Sys2Proof.Machine.execLoopRampEnd n s
  | .loopPeriodStart n vsns => Sys2Proof.Machine.execLoopPeriodStart n vsns s
  | .compDeadline n => Sys2Proof.Machine.execCompDeadline n s
  | .phaseTurnOn k => Sys2Proof.Machine.execPhaseTurnOn k s
  | .phaseTurnOff k vOn vOff ton ended => Sys2Proof.Machine.execPhaseTurnOff k vOn vOff ton ended s
  | .negativeCurrentLimit k v => Sys2Proof.Machine.execNegativeCurrentLimit k v s
  | .ostStart n vsns => Sys2Proof.Machine.execOstStart n vsns s
  | .ostRelease n vsns => Sys2Proof.Machine.execOstRelease n vsns s
  | .ostTimeout n => Sys2Proof.Machine.execOstTimeout n s
  | .loopEstimateWindow n => Sys2Proof.Machine.execLoopEstimateWindow n s
  | .vclSetv p rack tag vid slew => Sys2Proof.Machine.execVclSetv p rack tag vid slew s
  | .vclSetslew p rack tag slew unused => Sys2Proof.Machine.execVclSetslew p rack tag slew unused s
  | .vclPstate p rack tag q unused => Sys2Proof.Machine.execVclPstate p rack tag q unused s
  | .vclGetv p rack tag unused vsns => Sys2Proof.Machine.execVclGetv p rack tag unused vsns s
  | .vclGeti p rack tag unused => Sys2Proof.Machine.execVclGeti p rack tag unused s
  | .vclBadCmd p rack tag => Sys2Proof.Machine.execVclBadCmd p rack tag s
  | .vclCrcError p => Sys2Proof.Machine.execVclCrcError p s
  | .vclStall p late => Sys2Proof.Machine.execVclStall p late s
  | .vclDeadline p => Sys2Proof.Machine.execVclDeadline p s
  | .vclPortEnable p => Sys2Proof.Machine.execVclPortEnable p s
  | .vclPortDisable p => Sys2Proof.Machine.execVclPortDisable p s
  | .vclHold p hold => Sys2Proof.Machine.execVclHold p hold s
  | .outputStartEnd rail => Sys2Proof.Machine.execOutputStartEnd rail s
  | .bkIlim n => Sys2Proof.Machine.execBkIlim n s
  | .ldoSwIlim rail => Sys2Proof.Machine.execLdoSwIlim rail s
  | .outputShort rail => Sys2Proof.Machine.execOutputShort rail s
  | .outputClrflt rail => Sys2Proof.Machine.execOutputClrflt rail s
  | .bkVinUv n => Sys2Proof.Machine.execBkVinUv n s
  | .bkVinRestore n start => Sys2Proof.Machine.execBkVinRestore n start s
  | .dischargeEnd rail => Sys2Proof.Machine.execDischargeEnd rail s
  | .resetDischargeEnd measured => Sys2Proof.Machine.execResetDischargeEnd measured s
  | .vdrvUv => Sys2Proof.Machine.execVdrvUv s
  | .vdrvHiccup => Sys2Proof.Machine.execVdrvHiccup s
  | .vdrvRestart => Sys2Proof.Machine.execVdrvRestart s
  | .supSample n uv => Sys2Proof.Machine.execSupSample n uv s
  | .supSettleEnd n => Sys2Proof.Machine.execSupSettleEnd n s
  | .supTrackRefresh n => Sys2Proof.Machine.execSupTrackRefresh n s
  | .supEnable n => Sys2Proof.Machine.execSupEnable n s
  | .supDisable n => Sys2Proof.Machine.execSupDisable n s
  | .supSelfCheck pass freeFail => Sys2Proof.Machine.execSupSelfCheck pass freeFail s
  | .cmpSelfCheck k pass => Sys2Proof.Machine.execCmpSelfCheck k pass s
  | .railon iss rail wd => Sys2Proof.Machine.execRailon iss rail wd s
  | .railonAfterDrain e => Sys2Proof.Machine.execRailonAfterDrain e s
  | .railoff iss rail => Sys2Proof.Machine.execRailoff iss rail s
  | .setv iss rail src wd => Sys2Proof.Machine.execSetv iss rail src wd s
  | .setslew iss rail slew wd => Sys2Proof.Machine.execSetslew iss rail slew wd s
  | .phases iss rail ws wd => Sys2Proof.Machine.execPhases iss rail ws wd s
  | .waitpg iss ch deadline => Sys2Proof.Machine.execWaitpg iss ch deadline s
  | .waitt iss duration slack => Sys2Proof.Machine.execWaitt iss duration slack s
  | .waittReady e t => Sys2Proof.Machine.execWaittReady e t s
  | .waitev iss src l deadline => Sys2Proof.Machine.execWaitev iss src l deadline s
  | .waitstep iss n deadline => Sys2Proof.Machine.execWaitstep iss n deadline s
  | .waitDeadline e t => Sys2Proof.Machine.execWaitDeadline e t s
  | .claim iss id deadline => Sys2Proof.Machine.execClaim iss id deadline s
  | .claimDeadline e t => Sys2Proof.Machine.execClaimDeadline e t s
  | .release iss id => Sys2Proof.Machine.execRelease iss id s
  | .reclaim iss id ws => Sys2Proof.Machine.execReclaim iss id ws s
  | .step iss n => Sys2Proof.Machine.execStep iss n s
  | .stepAbort iss n => Sys2Proof.Machine.execStepAbort iss n s
  | .rdadc iss wd ch => Sys2Proof.Machine.execRdadc iss wd ch s
  | .rdadcUrgent iss wd ch => Sys2Proof.Machine.execRdadcUrgent iss wd ch s
  | .rdsup iss wd ch => Sys2Proof.Machine.execRdsup iss wd ch s
  | .movReg iss wd ws => Sys2Proof.Machine.execMovReg iss wd ws s
  | .movImm iss wd imm => Sys2Proof.Machine.execMovImm iss wd imm s
  | .movConst iss wd k read => Sys2Proof.Machine.execMovConst iss wd k read s
  | .add iss wd ws src => Sys2Proof.Machine.execAdd iss wd ws src s
  | .sub iss wd ws src => Sys2Proof.Machine.execSub iss wd ws src s
  | .and iss wd ws src => Sys2Proof.Machine.execAnd iss wd ws src s
  | .or iss wd ws src => Sys2Proof.Machine.execOr iss wd ws src s
  | .cmp iss ws src => Sys2Proof.Machine.execCmp iss ws src s
  | .shr iss wd ws src => Sys2Proof.Machine.execShr iss wd ws src s
  | .jmp iss target => Sys2Proof.Machine.execJmp iss target s
  | .bcc iss cond target => Sys2Proof.Machine.execBcc iss cond target s
  | .call iss target => Sys2Proof.Machine.execCall iss target s
  | .ret iss => Sys2Proof.Machine.execRet iss s
  | .task iss t prio cls entry => Sys2Proof.Machine.execTask iss t prio cls entry s
  | .yield iss => Sys2Proof.Machine.execYield iss s
  | .engineIdleWake e => Sys2Proof.Machine.execEngineIdleWake e s
  | .runDeadline e => Sys2Proof.Machine.execRunDeadline e s
  | .raise iss code => Sys2Proof.Machine.execRaise iss code s
  | .log iss code ws => Sys2Proof.Machine.execLog iss code ws s
  | .snap iss code => Sys2Proof.Machine.execSnap iss code s
  | .raisePop e => Sys2Proof.Machine.execRaisePop e s
  | .camEnable e => Sys2Proof.Machine.execCamEnable e s
  | .camDisable e => Sys2Proof.Machine.execCamDisable e s
  | .romRailOffStep => Sys2Proof.Machine.execRomRailOffStep s
  | .ringEnable => Sys2Proof.Machine.execRingEnable s
  | .ringInsert => Sys2Proof.Machine.execRingInsert s
  | .ringMasterStart afterLoss => Sys2Proof.Machine.execRingMasterStart afterLoss s
  | .ringLeave => Sys2Proof.Machine.execRingLeave s
  | .mstepAdvance => Sys2Proof.Machine.execMstepAdvance s
  | .holdRetake => Sys2Proof.Machine.execHoldRetake s
  | .ringCycle => Sys2Proof.Machine.execRingCycle s
  | .ringStateFrame f => Sys2Proof.Machine.execRingStateFrame f s
  | .ringEnumFrame offered taken clr => Sys2Proof.Machine.execRingEnumFrame offered taken clr s
  | .ringEnumReturn offered taken clr => Sys2Proof.Machine.execRingEnumReturn offered taken clr s
  | .abortHoldWaitEnd => Sys2Proof.Machine.execAbortHoldWaitEnd s
  | .ringAbortFrame target node seq => Sys2Proof.Machine.execRingAbortFrame target node seq s
  | .ringPollFrame holders group bits => Sys2Proof.Machine.execRingPollFrame holders group bits s
  | .ringPollReturn holders group bits => Sys2Proof.Machine.execRingPollReturn holders group bits s
  | .ringNodeLostFrame addr => Sys2Proof.Machine.execRingNodeLostFrame addr s
  | .ringIsolateFrame addr => Sys2Proof.Machine.execRingIsolateFrame addr s
  | .ringFrameCrcError body => Sys2Proof.Machine.execRingFrameCrcError body s
  | .ringFrameResend => Sys2Proof.Machine.execRingFrameResend s
  | .ringSilent => Sys2Proof.Machine.execRingSilent s
  | .ringOpen => Sys2Proof.Machine.execRingOpen s
  | .mstepDeadline line => Sys2Proof.Machine.execMstepDeadline line s
  | .mstepStuck line => Sys2Proof.Machine.execMstepStuck line s
  | .mngCmdAbort arg => Sys2Proof.Machine.execMngCmdAbort arg s
  | .mngCmdIsolate arg => Sys2Proof.Machine.execMngCmdIsolate arg s
  | .mngCmdPoll => Sys2Proof.Machine.execMngCmdPoll s
  | .phaseWaitEnd bkb => Sys2Proof.Machine.execPhaseWaitEnd bkb s
  | .phaseSupplyEnd vio vioVcl => Sys2Proof.Machine.execPhaseSupplyEnd vio vioVcl s
  | .phaseRomEnd crcOk => Sys2Proof.Machine.execPhaseRomEnd crcOk s
  | .phaseBistEnd tests => Sys2Proof.Machine.execPhaseBistEnd tests s
  | .phaseOtpEnd progOk => Sys2Proof.Machine.execPhaseOtpEnd progOk s
  | .phaseLevelEnd => Sys2Proof.Machine.execPhaseLevelEnd s
  | .phaseBringupEnd => Sys2Proof.Machine.execPhaseBringupEnd s
  | .sysShutdown => Sys2Proof.Machine.execSysShutdown s
  | .sysOrderly => Sys2Proof.Machine.execSysOrderly s
  | .sysImmediate => Sys2Proof.Machine.execSysImmediate s
  | .sysRestart => Sys2Proof.Machine.execSysRestart s
  | .sysStandby => Sys2Proof.Machine.execSysStandby s
  | .standbyWake cause ticks => Sys2Proof.Machine.execStandbyWake cause ticks s
  | .pdTmax => Sys2Proof.Machine.execPdTmax s
  | .pdEnginesDrained => Sys2Proof.Machine.execPdEnginesDrained s
  | .pdDischargeWaitEnd above => Sys2Proof.Machine.execPdDischargeWaitEnd above s
  | .shutdownBistDone tests => Sys2Proof.Machine.execShutdownBistDone tests s
  | .adcSliceEnable k => Sys2Proof.Machine.execAdcSliceEnable k s
  | .adcSliceDisable k => Sys2Proof.Machine.execAdcSliceDisable k s
  | .adcEntryDone e => Sys2Proof.Machine.execAdcEntryDone e s
  | .adcSeqPeriod k => Sys2Proof.Machine.execAdcSeqPeriod k s
  | .hkRoundStart iVaux iBank iChgIn => Sys2Proof.Machine.execHkRoundStart iVaux iBank iChgIn s
  | .hkRoundComplete iVaux iBank iChgIn => Sys2Proof.Machine.execHkRoundComplete iVaux iBank iChgIn s
  | .hkDeadline => Sys2Proof.Machine.execHkDeadline s
  | .urgentConversionDone reading => Sys2Proof.Machine.execUrgentConversionDone reading s
  | .adcBurstGo => Sys2Proof.Machine.execAdcBurstGo s
  | .burstEnd converged limit => Sys2Proof.Machine.execBurstEnd converged limit s
  | .captureEnable => Sys2Proof.Machine.execCaptureEnable s
  | .adcCtrlSnap => Sys2Proof.Machine.execAdcCtrlSnap s
  | .snapshotFreeze samples => Sys2Proof.Machine.execSnapshotFreeze samples s
  | .snapshotDigestDone => Sys2Proof.Machine.execSnapshotDigestDone s
  | .snapshotRelease => Sys2Proof.Machine.execSnapshotRelease s
  | .adcClrcnt => Sys2Proof.Machine.execAdcClrcnt s
  | .mismClr => Sys2Proof.Machine.execMismClr s
  | .wearDay => Sys2Proof.Machine.execWearDay s
  | .injectionDue => Sys2Proof.Machine.execInjectionDue s
  | .injectionStart => Sys2Proof.Machine.execInjectionStart s
  | .injectionDone codes converged limit => Sys2Proof.Machine.execInjectionDone codes converged limit s
  | .injAbort => Sys2Proof.Machine.execInjAbort s
  | .bankRest bkb => Sys2Proof.Machine.execBankRest bkb s
  | .ageingCount stressed unstressed => Sys2Proof.Machine.execAgeingCount stressed unstressed s
  | .thermalShutdown n => Sys2Proof.Machine.execThermalShutdown n s
  | .recordClose => Sys2Proof.Machine.execRecordClose s
  | .keeperHang => Sys2Proof.Machine.execKeeperHang s
  | .fltStatusClear q bits => Sys2Proof.Machine.execFltStatusClear q bits s
  | .aliveResume => Sys2Proof.Machine.execAliveResume s
  | .fltMarkread => Sys2Proof.Machine.execFltMarkread s
  | .testEntry => Sys2Proof.Machine.execTestEntry s
  | .faultInjection line cls => Sys2Proof.Machine.execFaultInjection line cls s
  | .sysTimeLoRead => Sys2Proof.Machine.execSysTimeLoRead s
  | .idSerialLoRead => Sys2Proof.Machine.execIdSerialLoRead s
  | .adcUrgreqRead => Sys2Proof.Machine.execAdcUrgreqRead s
  | .fltHwrRead => Sys2Proof.Machine.execFltHwrRead s
  | .fltLwrRead => Sys2Proof.Machine.execFltLwrRead s
  | .fltRec0Read => Sys2Proof.Machine.execFltRec0Read s
  | .hciCredit0Read => Sys2Proof.Machine.execHciCredit0Read s
  | .ktChHRead n => Sys2Proof.Machine.execKtChHRead n s
  | .intcRequestChange src => Sys2Proof.Machine.execIntcRequestChange src s
  | .intcClaim t => Sys2Proof.Machine.execIntcClaim t s
  | .intcComplete t id => Sys2Proof.Machine.execIntcComplete t id s
  | .intcDbellSet => Sys2Proof.Machine.execIntcDbellSet s
  | .intcDbellClr => Sys2Proof.Machine.execIntcDbellClr s
  | .spiWrite op addr data => Sys2Proof.Machine.execSpiWrite op addr data s
  | .spiRead op addr n => Sys2Proof.Machine.execSpiRead op addr n s
  | .hciDoorbell queue slot => Sys2Proof.Machine.execHciDoorbell queue slot s
  | .hciCqHeadWrite head => Sys2Proof.Machine.execHciCqHeadWrite head s
  | .commandStart lane => Sys2Proof.Machine.execCommandStart lane s
  | .commandComplete k => Sys2Proof.Machine.execCommandComplete k s
  | .moderationTimer => Sys2Proof.Machine.execModerationTimer s
  | .cmdDeadline k => Sys2Proof.Machine.execCmdDeadline k s
  | .hciEnable => Sys2Proof.Machine.execHciEnable s
  | .hciDisable => Sys2Proof.Machine.execHciDisable s
  | .nop k => Sys2Proof.Machine.execNop k s
  | .getInfo k => Sys2Proof.Machine.execGetInfo k s
  | .doorbell k => Sys2Proof.Machine.execDoorbell k s
  | .cancel k => Sys2Proof.Machine.execCancel k s
  | .imgLoad k => Sys2Proof.Machine.execImgLoad k s
  | .adcConvert k => Sys2Proof.Machine.execAdcConvert k s
  | .snapshotCmdTrigger k => Sys2Proof.Machine.execSnapshotCmdTrigger k s
  | .snapshotCmdRelease k => Sys2Proof.Machine.execSnapshotCmdRelease k s
  | .attest k => Sys2Proof.Machine.execAttest k s
  | .getCert k => Sys2Proof.Machine.execGetCert k s
  | .wearExport k => Sys2Proof.Machine.execWearExport k s
  | .wearImport k => Sys2Proof.Machine.execWearImport k s
  | .otpRead k => Sys2Proof.Machine.execOtpRead k s
  | .otpCommit k => Sys2Proof.Machine.execOtpCommit k s
  | .otpWordProgramDone ok weak => Sys2Proof.Machine.execOtpWordProgramDone ok weak s
  | .rawProgramWord => Sys2Proof.Machine.execRawProgramWord s
  | .rawVoidWord => Sys2Proof.Machine.execRawVoidWord s
  | .rawBlowLock => Sys2Proof.Machine.execRawBlowLock s
  | .keygen => Sys2Proof.Machine.execKeygen s
  | .twtWrite data restart => Sys2Proof.Machine.execTwtWrite data restart s
  | .twtRead n => Sys2Proof.Machine.execTwtRead n s
  | .twtStuck t => Sys2Proof.Machine.execTwtStuck t s
  | .ktWindowWrite data restart => Sys2Proof.Machine.execKtWindowWrite data restart s
  | .twcEnable => Sys2Proof.Machine.execTwcEnable s
  | .twcDisable => Sys2Proof.Machine.execTwcDisable s
  | .twcTransfer => Sys2Proof.Machine.execTwcTransfer s
  | .twcTransferEnd e wdone data => Sys2Proof.Machine.execTwcTransferEnd e wdone data s
  | .twcArbLost wdone data => Sys2Proof.Machine.execTwcArbLost wdone data s
  | .twcBusFree e => Sys2Proof.Machine.execTwcBusFree e s
  | .twcBusRecover r => Sys2Proof.Machine.execTwcBusRecover r s
  | .twcSclTimeout wdone data => Sys2Proof.Machine.execTwcSclTimeout wdone data s
  | .twcPollEntryEnd e data => Sys2Proof.Machine.execTwcPollEntryEnd e data s
  | .porRelease straps vaux vio vioVcl testEn => Sys2Proof.Machine.execPorRelease straps vaux vio vioVcl testEn s
  | .vauxRise => Sys2Proof.Machine.execVauxRise s
  | .vdrvPowerGood good => Sys2Proof.Machine.execVdrvPowerGood good s
  | .vdrvIlim active => Sys2Proof.Machine.execVdrvIlim active s
  | .aon18Ilim active => Sys2Proof.Machine.execAon18Ilim active s
  | .bkIlimEnd n => Sys2Proof.Machine.execBkIlimEnd n s
  | .ldoSwIlimEnd rail => Sys2Proof.Machine.execLdoSwIlimEnd rail s

end Sys2Proof.Machine
end

