-- ==== Sys2Proof/Safety.lean ====
section
/-! DEFINITION. What a safe run of the block is, and the words in which statements say what a command leaves alone:
the canonical form of the sparse data, a step that ends in a next state, and the fields and bytes that two states
share. -/

namespace Sys2Proof.Machine

/-- The canonical form of memory: addresses strictly rising, and no entry equal to 0, as which an unlisted address
reads. -/
def Memory.wf (m : List Host.Cell) : Bool := NMap.wf 0#8 m

/-- The registers are listed in rising order and memory has its canonical form. -/
def State.canonical (s : State) : Bool := NMap.sorted s.regs && Memory.wf s.mem

/-- The history queue and log memory hold no more records than they have places: 32 and 1024 (R387). -/
def Fox.bounded (f : Fox) : Bool := decide (f.hist.length ≤ 32) && decide (f.logHeld ≤ 1024)

/-- The books of the command slots (R39, R423, R425): a slot is QUEUED exactly where the list of its queue, one of the
four, holds it, and UNREAD exactly where an entry between head and tail holds it; no list holds a slot twice. -/
def Hci.booked (h : Hci) : Prop :=
  (∀ q, 4 ≤ q → NMap.get [] h.queues q = []) ∧ (∀ q, (NMap.get [] h.queues q).Nodup) ∧
    (∀ q k, k ∈ NMap.get [] h.queues q ↔ (NMap.get {} h.slots k).st = .queued ∧ (NMap.get {} h.slots k).queue = q) ∧
    (h.entries.map Entry.slot).Nodup ∧ ∀ k, k ∈ h.entries.map Entry.slot ↔ (NMap.get {} h.slots k).st = .unread

/-- The books of the urgent conversions (R39, R337): modulo 65 536, the requests are those served, those dropped and the
one under conversion. -/
def Adc.booked (a : Adc) : Prop :=
  a.asked % 65536 = (a.served + a.dropped + if a.urgent.isSome then 1 else 0) % 65536

/-- The step from `s` ends in a next state: it neither faults nor is refused. -/
def SafeStep (s : State) : Prop := ∃ t, step s = .next t

/-- Every register field reads in `t` as in `s`, but for the fields `fs`. -/
def SameFields (fs : List Field) (s t : State) : Prop := ∀ g : Field, g.key ∉ fs.map Field.key → t.get g = s.get g

/-- Every byte of the SRAM windows reads in `t` as in `s`. -/
def SameMemory (s t : State) : Prop := ∀ a, t.byte a = s.byte a

/-- Every byte of the SRAM windows outside log memory (0x020000 to 0x027FFF) reads in `t` as in `s`. -/
def SameOutsideLog (s t : State) : Prop := ∀ a, a < 0x020000 ∨ 0x028000 ≤ a → t.byte a = s.byte a

/-- Nothing but the registers differs between `s` and `t`. -/
def OnlyRegs (s t : State) : Prop := t = { s with regs := t.regs }

/-- Nothing but the registers and the tasks differs between `s` and `t`. -/
def OnlyRegsTasks (s t : State) : Prop := t = { s with regs := t.regs, tasks := t.tasks }

/-- The fields that a NOTICE with event field `evt` can change. -/
def noticeFields (evt : Field) : List Field := [evt, FLT_NCNT.COUNT, FLT_LWR.COUNT, FLT_EVT.EVT]

/-! ### An instruction that is executed -/

/-- Engine `i.eng` executes the instruction with word `w` for task `t`, whose entry is `x`: the task runs, the word is
read without a triple error, its address lies in the code, and program memory holds `w` there. -/
abbrev Runs (i : Issue) (w : Nat) (s : State) (t : Nat) (x : Task) : Prop :=
  running s i.eng = some (t, x) ∧ i.fetch ≠ .triple ∧ x.pc < s.get CAM_IMG_STATUS.CODE_LEN ∧
    s.word (progAddr x.pc) = w

/-- The task with its pc at the next instruction's address. -/
def Task.advanced (x : Task) : Task := { x with ipc := x.pc, pc := x.pc + 1 }

/-- The task `z` after an instruction of `x` that writes the 32-bit value `v` modulo 2^32 to register `wd`: Z tells
whether it is zero and N is its bit 31, the pc is the next instruction's address, and C apart nothing else of the task
differs. -/
def Wrote (x z : Task) (wd v : Nat) : Prop :=
  z.reg wd = v % 2 ^ 32 ∧ (∀ k, k ≠ wd → z.reg k = x.reg k) ∧ z.z = decide (v % 2 ^ 32 = 0) ∧
    z.n = decide (2 ^ 31 ≤ v % 2 ^ 32) ∧
    z = { x with w := z.w, z := z.z, n := z.n, c := z.c, pc := x.pc + 1, ipc := x.pc }

/-- The state in which an instruction of task `t`, whose entry is `x`, has its effect: a corrected read is counted,
and the task's pc is the next instruction's address. -/
def issued (i : Issue) (s : State) (t : Nat) (x : Task) : State := (fetched s i.fetch).setTask i.eng t x.advanced

/-- The instructions that act on their own task's registers, flags and program counter alone, whatever the operands:
moves, arithmetic and logic, jumps, and the readings of RDADC with U = 0 and RDSUP. A MOV of a constant whose read
fails halts its engine and is none of them (R202). -/
def registerOnly : Instr → Bool
  | .movReg .. | .movImm .. | .movConst _ _ _ .clean | .movConst _ _ _ .corrected | .add .. | .sub .. | .and ..
  | .or .. | .cmp .. | .shr .. | .jmp .. | .bcc .. | .rdadc .. | .rdsup .. => true
  | _ => false

end Sys2Proof.Machine
end

