-- ==== Sys2Proof/Certificates/Slice0/Obligations.lean ====
section
/-! DEFINITION. The statements for the provers: each formalises a rule of the spec, or what its sections say together,
and its docstring names them. -/

set_option linter.unusedVariables false

open Sys2Proof Sys2Proof.Machine

/-- A step carries out the command at the front of the queue, and an empty queue is one tick of TREF. For every
command and state, the step of the state with the command in front of its queue is the command's effect on the state
with the rest of the queue. With no command waiting, nothing changes where TREF does not run; where it runs, the
device time advances by one TREF period of 10 ns (R32), in start-up phase 6 the ROM firmware reads the next 64 bytes
of the boot image while it loads it, and otherwise takes its next step of R309, and outside that phase the ROM
firmware reaches its next unit: nothing else changes where no power-down sequence, self-test or image load runs. The
queue, and that an empty one is one tick, are the model's choices, and so is that a device time without bound stands
for its 64 bits (log entries 1, 2, 90, 97 and 119). -/
def Obligations.StepTakesFront : Prop :=
  (∀ (c : Instr) (s : State), step { s with pending := c :: s.pending } = exec c s) ∧
  (∀ (s : State), s.pending = [] → trefRuns s = false → step s = .next s) ∧
  (∀ (s : State), s.pending = [] → trefRuns s = true → s.get SYS_STATUS.PHASE ≠ 6 →
      step s = .next (romUnit { s with now := s.now + 1 })) ∧
  (∀ (s : State), s.pending = [] → trefRuns s = true → s.get SYS_STATUS.PHASE ≠ 6 →
      s.get SYS_STATUS.PHASE ≠ 9 → s.sys.pd = none → loadingSlot s = none →
      step s = .next { s with now := s.now + 1 }) ∧
  (∀ (s : State), s.pending = [] → trefRuns s = true → s.get SYS_STATUS.PHASE = 6 →
      step s = .next (if bootUnitLeft { s with now := s.now + 1 } then opMark { s with now := s.now + 1 } 5
        (opUnit s 5 + 64)
        else bringUpNext { s with now := s.now + 1 }))

/-- At reset every field reads its reset value, and the state is canonical. In the state at reset every register field
reads the value that its register table gives for reset, every byte of the SRAM windows reads 0 (the spec gives memory
no reset value: the model's choice, log entry 3), no fuse and no lock is blown (a device not yet programmed: PRESUMED,
log entry 69), the device time is 0 and no command waits. The registers and memory are in their canonical forms, the
model's own (log entry 3), and Foxglove's records lie within their places, so the invariants of CanonicalStep hold at
the start. Further choices of the model: State.reset is the state while POR holds (log entry 4). -/
def Obligations.ResetValues : Prop :=
  (∀ (f : Field) (a p : Nat),
      State.reset.get f = f.reset ∧ State.reset.byte a = 0#8 ∧ NMap.get 0 State.reset.otp.fuses p = 0 ∧
        NMap.get 0 State.reset.otp.locks p = 0 ∧ State.reset.now = 0 ∧ State.reset.pending = []) ∧
  (State.reset.canonical = true ∧ State.reset.fox.bounded = true)

/-- Every step keeps the canonical forms, every blown fuse and Foxglove's bounds. From every state, reached or not, a
step that ends in a next state leaves the registers listed in rising order and memory in its canonical form if they
were so before, and leaves every fuse of an OTP word and of the lock array that was blown blown: a fuse reads 0 until
it is blown and 1 afterwards (R474), through every command, every reset and POR. The history queue keeps at most 32
records and log memory at most 1024 (R387). The canonical forms are the model's own (log entry 3), and that an
operation cut short keeps what it blew is R494. -/
def Obligations.CanonicalStep : Prop :=
  ∀ (s t : State), step s = .next t → (s.canonical = true → t.canonical = true) ∧
      (∀ p i, (NMap.get 0 s.otp.fuses p).testBit i = true → (NMap.get 0 t.otp.fuses p).testBit i = true) ∧
      (∀ l i, (NMap.get 0 s.otp.locks l).testBit i = true → (NMap.get 0 t.otp.locks l).testBit i = true) ∧
      (s.fox.bounded = true → t.fox.bounded = true)

/-- Every command ends in a next state and leaves the queue. No command faults or is refused, in any state: each
answers a next state, whose queue is the one it was given. A command that does not act in the present state leaves the
block as it is, or reports the refusal that its rule names. Further choices of the model: commands wait in a queue
(log entry 1), an event that cannot happen in the present state changes nothing (log entry 6). -/
def Obligations.NoCommandStops : Prop :=
  ∀ (c : Instr) (s : State), ∃ t, exec c s = .next t ∧ t.pending = s.pending

/-- Only POR sets the device time back. No command but POR lowers the device time, so neither a SYSTEM reset, a BLOCK
reset, a power loss nor a long press resets it (R32); POR sets it to 0. An expiry at a time ahead moves the device
time there where TREF runs, and no time passes where it does not. That the time never falls rests on its count without
bound, which stands for the 64 bits of R32 (log entry 90). Further choices of the model: an expiry moves the device
time to it (log entry 7). -/
def Obligations.TimeNeverFalls : Prop :=
  (∀ (c : Instr) (s t : State), c ≠ .por → exec c s = .next t → s.now ≤ t.now) ∧
  (∀ (s : State) (n : Nat),
      (trefRuns s = true → (s.expire n).now = max s.now n) ∧ (trefRuns s = false → s.expire n = s) ∧
        ∀ f : Field, (s.expire n).get f = s.get f) ∧
  (∀ (s : State), ∃ t, exec .por s = .next t ∧ t.now = 0)

/-- Every step keeps the books of the command slots, and the other quantities of Table 1.7 move as R39 allows. R39's
books as the commands move them. Slots: a step keeps that a slot is QUEUED exactly where the list of its queue, one of
the four, holds it, and UNREAD exactly where one entry between head and tail is its own, and that no list and no two
entries hold a slot twice; they hold at reset, and FREE, QUEUED, INFLIGHT and UNREAD sum to 256 (R424). Phases: an
accepted enable check makes the phases of the loop's mask that are FREE or RESERVING ACTIVE for it, a phase that
returns is FREE, and no other phase changes; the counts of the codes of Table 3.4, reserved ones among them, sum to
20. The ledger: after an update, unless the power-down sequence defers it (R271), the granted sum is within the budget
or only claims of class 0, which are never revoked, are granted. Sources: a source that is ACTIVE_PENDING takes no
second pending request, no claim takes it, and its completion by the owner leaves the one that pends. MSTEP: a node
that holds the line counts no edge and has no second hold to take. Foxglove: a record written to the history queue,
within its bound, makes the records held plus those overwritten one more and counts it in FLT_HWR and FLT_LWR; one
written to log memory does the same there, where a record that log memory does not take counts as overwritten (log
entry 81). Urgent conversions have UrgentRequestBooks. Further choices of the model: commands wait in a queue (log
entry 1), an expiry moves the device time to it (log entry 7), a request reaches the controller with its row (log
entry 9). -/
def Obligations.ConservedQuantities : Prop :=
  (∀ (s t : State), step s = .next t → s.hci.booked → t.hci.booked) ∧
  (State.reset.hci.booked) ∧
  (∀ (s : State), slotCount s .free + slotCount s .queued + slotCount s .inflight + slotCount s .unread = 256) ∧
  (∀ (s : State), phaseCount s 0 + phaseCount s 1 + phaseCount s 2 + phaseCount s 3 + phaseCount s 4 +
        ((List.range 20).filter fun k => 4 < s.get (PH_STATUS.STATE k)).length = 20) ∧
  (∀ (s : State) (n k : Nat), k < 20 →
      (assignPhases s n).get (PH_STATUS.STATE k) = (if k ∈ maskPhases s n ∧
        s.get (PH_STATUS.STATE k) ≤ 1 then 2 else s.get (PH_STATUS.STATE k)) ∧
        (freePhase s k).get (PH_STATUS.STATE k) = 0 ∧
        ∀ j, j < 20 → j ≠ k → (freePhase s k).get (PH_STATUS.STATE j) = s.get (PH_STATUS.STATE j)) ∧
  (∀ (s : State), timeRuns s = true → ∃ t, exec .ledgerUpdate s = .next t ∧ (t.get NRG_STATUS.PDOWN ≠ 1 →
          granted t ≤ t.get NRG_BUDGET.VAL ∨ ∀ c ∈ claimIds, (t.claim c).isGranted = true → (t.claim c).cls = 0)) ∧
  (∀ (s : State) (src : BitVec 9), 1 ≤ src.toNat ∧ src.toNat ≤ 256 → s.get (INTC_SRC.STATE src.toNat) = 3 →
      (∃ t, exec (.intcRequestChange src) s = .next t ∧ t.get (INTC_SRC.STATE src.toNat) = 3) ∧
        (∀ k : Fin 8, ∃ t, exec (.intcClaim k) s = .next t ∧ t.get (INTC_SRC.STATE src.toNat) = 3) ∧
        ∀ k : Fin 8, vsysRuns s = true → k.val ∈ claimTargets → activeWith s k.val src.toNat = true →
          ∃ t, exec (.intcComplete k src) s = .next t ∧ t.get (INTC_SRC.STATE src.toNat) = 1 ∧
            t.get (INTC_SRC.LATCHED src.toNat) = 1) ∧
  (∀ (s : State), s.ring.retakeAt = none ∨ s.get MNG_STATUS.HOLD ≠ 1 →
      (∃ t, exec .mstepAdvance s = .next t ∧ (t.ring.retakeAt = none ∨ t.get MNG_STATUS.HOLD ≠ 1) ∧
          (s.get MNG_STATUS.HOLD = 1 → t.get MNG_CNT.ADV = s.get MNG_CNT.ADV ∧ ringState t = ringState s)) ∧
        ∃ t, exec .holdRetake s = .next t ∧ (t.ring.retakeAt = none ∨ t.get MNG_STATUS.HOLD ≠ 1)) ∧
  (∀ (s : State) (body : RecBody), s.fox.bounded = true →
      let t := histWrite s body;
      t.fox.hist.length + t.fox.histOver = s.fox.hist.length + s.fox.histOver + 1 ∧
        t.get FLT_HWR.COUNT = (s.get FLT_HWR.COUNT + 1) % 2 ^ 32 ∧
        t.get FLT_LWR.COUNT = (s.get FLT_LWR.COUNT + 1) % 2 ^ 32 ∧
        t.fox.logHeld + t.fox.logOver = s.fox.logHeld + s.fox.logOver + 1) ∧
  (∀ (s : State) (ws : Nat → List Nat),
      let t := logWrite s ws;
      t.fox.logHeld + t.fox.logOver = s.fox.logHeld + s.fox.logOver + 1 ∧
        t.get FLT_LWR.COUNT = (s.get FLT_LWR.COUNT + 1) % 2 ^ 32)

/-- POR clears everything except OTP. From every state POR answers a next state in which every register field reads
its reset value (but for OTP_CFG, whose reset values are locks of OTP), memory is empty, every part of the state
beside the registers is as at reset, and the device time is 0. OTP holds what it held where no program operation is
under way; one that is under way is cut after some of its pulses, which the rule leaves open (R494: the model's
choice, log entry 62): a void or a lock then reads as its fuses do, and a word is left torn. Nothing of a command in
progress stays. Levels of pins and the queue stay, and no value is fixed for the free-value counter, which only moves
on. Further choices of the model: memory that nothing has written reads 0 (log entry 3), State.reset is the state
while POR holds (log entry 4). -/
def Obligations.PorClears : Prop :=
  (∀ (s : State), ∃ t, exec .por s = .next t ∧ t.pending = s.pending ∧
        (∀ f : Field, f.key ∉ [OTP_CFG.VERIFY.key, OTP_CFG.REBURN.key] → t.get f = f.reset) ∧
        t = { State.reset with
              pending := s.pending, free := t.free, regs := t.regs,
              otp := { fuses := t.otp.fuses, weak := t.otp.weak, locks := t.otp.locks, torn := t.otp.torn },
              supply := { nreset := s.supply.nreset, testEn := s.supply.testEn, vio := s.supply.vio, vioVcl := s.supply.vioVcl } }) ∧
  (∀ (s : State), opUnderWay s.otp = none →
      ∃ t, exec .por s = .next t ∧ t.otp.fuses = s.otp.fuses ∧ t.otp.weak = s.otp.weak ∧ t.otp.locks = s.otp.locks ∧
        t.otp.torn = s.otp.torn) ∧
  (∀ (s : State) (op : ProgOp), opUnderWay s.otp = some op → ∃ t, exec .por s = .next t ∧
        (let u := cutOp s.otp (Config.partialBlow s.free) (Config.partialBlow (s.free + 1)) op;
          t.otp.fuses = u.fuses ∧ t.otp.weak = u.weak ∧ t.otp.locks = u.locks ∧ t.otp.torn = u.torn))

/-- nRESET, IMMEDIATE and a long press are SYSTEM resets. nRESET falling outside Snowdrop and standby and SYS_CTRL.OP
IMMEDIATE are SYSTEM resets that keep the pair that carries VSYS (R530), and each shows its cause; IMMEDIATE begins
start-up at once. In Snowdrop and standby nRESET shows its cause only, before the release of POR its fall only sets
the level, and while it is low a fall changes nothing. A press held for PP_BTN.LONG seconds that LONG_EN honours
resets as R41 says; a shorter one, or one that LONG_EN does not honour, changes nothing. IMMEDIATE changes nothing
while K0 does not run; that it resets at once whatever else OP started is the model's reading (log entry 35). A ball
that reads low has VIO (R514), so the fall also shows that VIO is there, which is the model's choice (log entry 126).
That nRESET shows its cause only in Snowdrop and standby, and only its level before POR is released, is the model's
choice (log entry 30), and what a long press returns is read as log entry 31 says. What these resets leave is
SystemResetLeaves. -/
def Obligations.SystemResets : Prop :=
  (∀ (s : State), s.supply.released = true → s.supply.nreset = false → islandOnly s = false →
      exec .nresetAssert s = .next
        ((systemReset { s with supply := { s.supply with nreset := true, vio := true } } true).set SYS_RSTCAUSE.NRESET
          1)) ∧
  (∀ (s : State), s.supply.released = true → s.supply.nreset = false → islandOnly s = true →
      exec .nresetAssert s = .next
        (({ s with supply := { s.supply with nreset := true, vio := true } } : State).set SYS_RSTCAUSE.NRESET 1)) ∧
  (∀ (s : State), s.supply.nreset = true → exec .nresetAssert s = .next s) ∧
  (∀ (s : State), s.supply.released = false → s.supply.nreset = false →
      exec .nresetAssert s = .next { s with supply := { s.supply with nreset := true, vio := true } }) ∧
  (∀ (s : State), k0Runs s = true →
      exec .sysImmediate s = .next (beginStartup ((systemReset s true).set SYS_RSTCAUSE.CMD 1))) ∧
  (∀ (s : State), k0Runs s = false → exec .sysImmediate s = .next s) ∧
  (∀ (held : Nat) (s : State), s.supply.released = true → s.get PP_BTN.LONG_EN = 1 →
      s.path.pressAt.isSome = true → s.get PP_BTN.LONG * 1000 ≤ held →
      exec (.longPress held) s = .next (longReset s)) ∧
  (∀ (held : Nat) (s : State),
      s.supply.released = false ∨ s.get PP_BTN.LONG_EN ≠ 1 ∨ s.path.pressAt = none ∨ held < s.get PP_BTN.LONG * 1000 →
      exec (.longPress held) s = .next s)

/-- What a SYSTEM reset returns and what it keeps. Every field that is not marked (POR), shows no wear value and is
not named here reads its reset value after a SYSTEM reset, and every field marked (POR) but the named ones reads as
before; the device time, the history queue, the wear state and, where the reset keeps the pair, the FET pairs and what
the power path does stay (Table 1.8, R42, R530), but SHUTDOWN becomes BANK. Queue memory and program memory read 0 and
the other memories keep their bytes, no verdict stays stored (R307), and the outputs' discharges connect where VSYS is
present (R167). A long press returns every field but the named ones, empties the history queue and the memories, opens
both pairs and keeps the device time, FLT_TEST.TRIES and LOCKOUT (R41, R80). That SHUTDOWN becomes BANK is the model's
reading (log entry 29), and so is that a long press empties the history queue and the wear state (log entry 31); what
a reset leaves of an OTP operation under way is PorClears. Further choices of the model: memory that nothing has
written reads 0 (log entry 3), State.reset is the state while POR holds (log entry 4). -/
def Obligations.SystemResetLeaves : Prop :=
  (∀ (s : State) (keepPair : Bool) (f : Field),
      f.key ∉ [PP_STATUS.VAUX_OK.key, PP_STATUS.STATE.key, OTP_CFG.VERIFY.key, OTP_CFG.REBURN.key,
        BIST_STATUS.STORED.key] →
      (systemReset s keepPair).get f = if porKey f.key || wearKey f.key then s.get f else f.reset) ∧
  (∀ (s : State), (systemReset s true).now = s.now ∧ (systemReset s true).fox.hist = s.fox.hist ∧
        (systemReset s true).wear = s.wear ∧ (systemReset s true).path.pairA = s.path.pairA ∧
        (systemReset s true).path.pairB = s.path.pairB ∧ (systemReset s true).sys.started = false ∧
        (systemReset s true).sys.stored = none ∧ (systemReset s true).get BIST_STATUS.STORED = 0 ∧
        (systemReset s true).path.off = s.path.off ∧
        (systemReset s true).get PP_STATUS.STATE =
          (if s.get PP_STATUS.STATE = 4 then 2 else s.get PP_STATUS.STATE % 16) ∧
        (systemReset s true).get PP_STATUS.VAUX_OK = s.get PP_STATUS.VAUX_OK % 2 ∧
        (∀ k, (systemReset s k).outs = dischargeAll s.supply.rails ∧ (systemReset s k).vdrv.resetDischarge = true) ∧
        (∀ k a, (systemReset s k).byte a = if clearedMemory a then 0#8 else s.byte a) ∧
        (systemReset s false).path.pairA = .off ∧ (systemReset s false).path.pairB = .off ∧
        (systemReset s false).now = s.now ∧ (systemReset s false).fox.hist = s.fox.hist) ∧
  (∀ (s : State) (f : Field),
      f.key ∉ [PP_STATUS.VAUX_OK.key, OTP_CFG.VERIFY.key, OTP_CFG.REBURN.key, SYS_RSTCAUSE.LONG.key,
        SYS_RSTCAUSE.NRESET.key, FLT_TEST.TRIES.key, FLT_TEST.LOCKOUT.key, TWT_STATUS.ADDR.key,
          TWT_STATUS.KTADDR.key] →
      (longReset s).get f = f.reset) ∧
  (∀ (s : State),
      (longReset s).get SYS_RSTCAUSE.LONG = 1 ∧ (longReset s).now = s.now ∧ (longReset s).fox.hist = [] ∧
        (longReset s).path.pairA = .off ∧ (longReset s).path.pairB = .off ∧ (longReset s).path.off = .opening ∧
        (longReset s).mem = [] ∧ (longReset s).path.openAt = s.now ∧ (longReset s).supply.rails = false ∧
        (longReset s).get FLT_TEST.LOCKOUT = s.get FLT_TEST.LOCKOUT % 2 ∧
        (longReset s).get FLT_TEST.TRIES = s.get FLT_TEST.TRIES % 4 ∧
        (longReset s).get PP_STATUS.VAUX_OK = s.get PP_STATUS.VAUX_OK % 2 ∧
        (longReset s).get SYS_RSTCAUSE.NRESET = (if s.supply.nreset then 1 else 0) ∧
        (longReset s).get TWT_STATUS.ADDR = (0x20 + s.supply.straps) % 2 ^ 7 ∧
        (longReset s).get TWT_STATUS.KTADDR = (0x60 + s.supply.straps) % 2 ^ 7)

/-- Start-up begins when POR is released, a reset ends or Snowdrop is woken, and XREF locks in its phase 1. With VAUX
above its detector the release of POR begins start-up phase 0, or leaves it to the rise of nRESET while nRESET is low
(R524); without, the block waits as in Snowdrop (R302). Either way the straps give the two-wire addresses (R452) and
the outputs' discharges connect; a second release changes nothing. The rise of nRESET begins start-up where POR is
released and nothing else holds it, and otherwise only sets the level; VIO, VIO_VCL and TEST_EN are seen there as they
then are, and with VIO gone XREF is lost too, with its WARNING (R514, R31). A long press ends its 400 ms opening in
start-up, and with VAUX below UV_RISE serves as the bank wake; while nRESET is low start-up waits for it (R524, R530).
A wake in Snowdrop, by VAUX or by a press held for SNOW_BTN, sets SNOW_WAKE and begins start-up where nRESET is high;
in phase 0 it is noted for the wait; a shorter press wakes nothing. Start-up begins in phase 0 with the power path's
values at reset (R305), every command slot FREE and the command interface off until phase 5 (R433, R441). XREF locks
in phase 1 only, and shows that VIO is there (R523, R514), and its loss after lock ends the lock and raises a WARNING
on line 42 (R31). That a wake with nRESET low leaves start-up to its rise is the model's choice (log entry 30), and so
are the commands with which the pins' levels come (log entry 126). Further choices of the model: an event that cannot
happen in the present state changes nothing (log entry 6),
  an entry to Snowdrop acts as a system reset (log entry 29). -/
def Obligations.ResetsEnd : Prop :=
  (∀ (straps : BitVec 4) (vio vioVcl testEn : Bool) (s : State), s.supply.released = false →
      (s.supply.nreset && vio) = false →
      exec (.porRelease straps true vio vioVcl testEn) s = .next (beginStartup ((({ s with
          supply := { s.supply.balls vio vioVcl testEn with released := true, straps := straps.toNat, vauxDet := true },
          vdrv := { s.vdrv with resetDischarge := true } } : State).set
            TWT_STATUS.ADDR (0x20 + straps.toNat)).set TWT_STATUS.KTADDR (0x60 + straps.toNat)))) ∧
  (∀ (straps : BitVec 4) (vio vioVcl testEn : Bool) (s : State), s.supply.released = false →
      (s.supply.nreset && vio) = true → exec (.porRelease straps true vio vioVcl testEn) s = .next ((({ s with
          supply := { s.supply.balls vio vioVcl testEn with released := true, straps := straps.toNat, vauxDet := true },
          vdrv := { s.vdrv with resetDischarge := true }, path := { s.path with off := .start } } : State).set
            TWT_STATUS.ADDR (0x20 + straps.toNat)).set TWT_STATUS.KTADDR (0x60 + straps.toNat))) ∧
  (∀ (straps : BitVec 4) (vio vioVcl testEn : Bool) (s : State), s.supply.released = false →
      exec (.porRelease straps false vio vioVcl testEn) s = .next ((({ s with
          supply := { s.supply.balls vio vioVcl testEn with released := true, straps := straps.toNat, vauxDet := false },
          vdrv := { s.vdrv with resetDischarge := true }, path := { s.path with off := .snowdrop } } : State).set
            TWT_STATUS.ADDR (0x20 + straps.toNat)).set TWT_STATUS.KTADDR (0x60 + straps.toNat))) ∧
  (∀ (straps : BitVec 4) (vaux vio vioVcl testEn : Bool) (s : State), s.supply.released = true →
      exec (.porRelease straps vaux vio vioVcl testEn) s = .next s) ∧
  (∀ (vio vioVcl testEn : Bool) (s : State), s.supply.nreset = true → s.supply.released = true →
      s.path.off = .start → s.sys.started = false →
      exec (.nresetRelease vio vioVcl testEn) s = .next (beginStartup { seeBalls s vio vioVcl testEn with
          supply := { (seeBalls s vio vioVcl testEn).supply with nreset := false } })) ∧
  (∀ (vio vioVcl testEn : Bool) (s : State),
      s.supply.nreset = false ∨ s.supply.released = false ∨ s.path.off ≠ .start ∨ s.sys.started = true →
      exec (.nresetRelease vio vioVcl testEn) s = .next { seeBalls s vio vioVcl testEn with
          supply := { (seeBalls s vio vioVcl testEn).supply with nreset := false } }) ∧
  (∀ (vio vioVcl testEn : Bool) (s : State),
      let u := seeBalls s vio vioVcl testEn;
        u.supply = { s.supply with
          vio := vio, vioVcl := vioVcl, testEn := testEn, nreset := s.supply.nreset && vio,
            xref := s.supply.xref && vio } ∧
        ((vio = true ∨ s.supply.xref = false) → u = { s with supply := s.supply.balls vio vioVcl testEn }) ∧
        (vio = false → s.supply.xref = true →
          u = { raiseBare { s with supply := { s.supply with xref := false } }
                  { evt := SYS_EVT.EVT, bit := 0, src := 0, line := 42, cls := .warning } with supply := u.supply }))
                    ∧
  (∀ (s : State), s.path.off = .opening → s.supply.nreset = false → exec .longPressOpenEnd s =
        .next (beginStartup { s with
          sys := { s.sys with bankWake := !decide (s.get PP_STATUS.VAUX_OK = 1) && !s.path.aboveOv } })) ∧
  (∀ (s : State), s.path.off = .opening → s.supply.nreset = true → exec .longPressOpenEnd s = .next { s with
          sys := { s.sys with bankWake := !decide (s.get PP_STATUS.VAUX_OK = 1) && !s.path.aboveOv },
          path := { s.path with off := .start } }) ∧
  (∀ (s : State), s.path.off ≠ .opening → exec .longPressOpenEnd s = .next s) ∧
  (∀ (press : Option Nat) (s : State), s.supply.released = true → s.path.off = .snowdrop →
      (∀ held, press = some held → s.path.pressAt.isSome = true ∧ s.get PP_BTN.SNOW_BTN * 100 ≤ held) →
      let u := { s with
          supply := { s.supply with vauxDet := s.supply.vauxDet || press.isNone },
          sys := { s.sys with bankWake := s.sys.bankWake || press.isSome } }.set SYS_RSTCAUSE.SNOW_WAKE 1;
        exec (.snowdropWake press) s =
          .next (if s.supply.nreset then { u with path := { u.path with off := .start } } else beginStartup u)) ∧
  (∀ (press : Option Nat) (s : State), s.supply.released = true → s.path.off = .start →
      s.get SYS_STATUS.PHASE = 0 →
      (∀ held, press = some held → s.path.pressAt.isSome = true ∧ s.get PP_BTN.SNOW_BTN * 100 ≤ held) →
      exec (.snowdropWake press) s = .next { s with
          supply := { s.supply with vauxDet := s.supply.vauxDet || press.isNone },
          sys := { s.sys with bankWake := s.sys.bankWake || press.isSome } }) ∧
  (∀ (held : Nat) (s : State), s.path.pressAt = none ∨ held < s.get PP_BTN.SNOW_BTN * 100 →
      exec (.snowdropWake (some held)) s = .next s) ∧
  (∀ (s : State), (beginStartup s).sys.started = true ∧ (beginStartup s).get SYS_STATUS.PHASE = 0 ∧
        (beginStartup s).path.off = .start ∧ (beginStartup s).path.act = {} ∧
        (beginStartup s).hci.slots = [] ∧ (beginStartup s).get HCI_CTRL.EN = 0 ∧
          (beginStartup s).get HCI_STATUS.STATE = 0 ∧
        (beginStartup s).thermal.ntcBad = 0 ∧ (beginStartup s).thermal.tmonBad = 0 ∧
        SameFields [SYS_STATUS.PHASE, HCI_CTRL.EN, HCI_STATUS.STATE, HCI_CQ_HEAD.HEAD, HCI_CQ_TAIL.TAIL,
          HCI_EVT.SIGNAL] s (beginStartup s) ∧
        (∀ a, (beginStartup s).byte a = if 0x010000 ≤ a ∧ a < 0x014000 then 0#8 else s.byte a) ∧
          (beginStartup s).otp = s.otp ∧ (beginStartup s).now = s.now) ∧
  (∀ (s : State), k0Runs s = true → s.sys.started = true → s.get SYS_STATUS.PHASE = 1 →
      exec .xrefLock s = .next { s with supply := { s.supply with xref := true, vio := true } }) ∧
  (∀ (s : State), k0Runs s = false ∨ s.sys.started = false ∨ s.get SYS_STATUS.PHASE ≠ 1 →
      exec .xrefLock s = .next s) ∧
  (∀ (s : State), s.supply.xref = true →
      exec .xrefLoss s = .next (raiseBare { s with supply := { s.supply with xref := false } }
          { evt := SYS_EVT.EVT, bit := 0, src := 0, line := 42, cls := .warning })) ∧
  (∀ (s : State), s.supply.xref = false → exec .xrefLoss s = .next s)

/-- Each start-up phase ends in the next. With K0 running in the phase that ends: phase 0 ends at once where the reset
kept a FET pair (R530), with a VAUX in range by closing onto AUX, and otherwise on a bank wake with the bank
available; else the device waits on. Phase 1 begins with the internal VSYS rails up (R24), where a reset's discharges
connect (R167), and its end begins phase 2. The end of phase 1 sees the balls of the supplies (R514). A failed ROM CRC
halts K0 (R304); a verdict that is stored and whose CRC matches is used without a full self-test unless
BIST_CTRL.FULLNEXT is 1 (R307); else the units that drive balls stop for phase 3 (R317); a full self-test ends phase 3
and clears FULLNEXT, and its verdict marks the units that failed a test (R316). Every test of Table 10.6 runs once on
every unit, and one that the command does not list has passed (the model's choice, log entry 120). Phase 4 loads the
shadow registers, phase 5 applies the verdict, selects the level and enables the command interface or refuses it, and
phase 6 starts the units of the level in eight steps, in the order of R309, before RUN. A new phase notes the
interrupt lines that it raises (R409, log entry 10). A phase row outside its phase changes nothing. The order of the
ends of phase 0 (log entry 33), the start of ALIVE (37), THR 0xF of the keepers (40), the enables that phase 6 carries
out (41), the diagnosis words (42), the signatures and the CRC (96) and the levels of the balls with the supplies
(126) are the model's readings and choices. What bootOtp, applyConfig and the units' starts do is their own rows'
statements. Further choices of the model: the reset record comes after the events of the verdicts (log entry 32), the
level with the thermal latch set (log entry 39), the rails come up with phase 1 (log entry 97). -/
def Obligations.StartupPhases : Prop :=
  (∀ (bkb : Nat) (s : State), inPhase s 0 = true → s.get PP_STATUS.STATE ≠ 0 →
      exec (.phaseWaitEnd bkb) s = .next (toSupply s)) ∧
  (∀ (bkb since : Nat) (s : State), inPhase s 0 = true → s.get PP_STATUS.STATE = 0 →
      s.path.rangeSince = some since → exec (.phaseWaitEnd bkb) s =
        .next (toSupply (enterAux { s with path := { s.path with qualified := true } }))) ∧
  (∀ (bkb : Nat) (s : State), inPhase s 0 = true → s.get PP_STATUS.STATE = 0 → s.path.rangeSince = none →
      let u := { s with path := { s.path with bkb := bkb } };
        exec (.phaseWaitEnd bkb) s =
          .next (if s.sys.bankWake && bankAvail u then toSupply (enterBank u bkb 0) else u)) ∧
  (∀ (s : State),
      (toSupply s).get SYS_STATUS.PHASE = 1 ∧ (toSupply s).supply.rails = true ∧ (toSupply s).sys.bankWake = false ∧
        (toSupply s).outs = (if !s.supply.rails && s.vdrv.resetDischarge then dischargeAll true else s.outs) ∧
        SameFields [SYS_STATUS.PHASE] s (toSupply s) ∧ SameMemory s (toSupply s) ∧ (toSupply s).path = s.path ∧
        (toSupply s).now = s.now) ∧
  (∀ (vio vioVcl : Bool) (s : State), inPhase s 1 = true → exec (.phaseSupplyEnd vio vioVcl) s = .next
        (toPhase (seeBalls s vio vioVcl s.supply.testEn) 2)) ∧
  (∀ (s : State), inPhase s 2 = true →
      exec (.phaseRomEnd false) s = .next { s with sys := { s.sys with k0Halt := true } }) ∧
  (∀ (s : State), inPhase s 2 = true →
      (∀ x, s.sys.stored = some x → x.crc ≠ Config.verdictCrc x.verdict % 2 ^ 16) →
      exec (.phaseRomEnd true) s = .next (toPhase (stopUnits s) 3)) ∧
  (∀ (x : Stored) (s : State), inPhase s 2 = true → s.sys.stored = some x →
      x.crc = Config.verdictCrc x.verdict % 2 ^ 16 →
      exec (.phaseRomEnd true) s = .next (if s.get BIST_CTRL.FULLNEXT = 1 then toPhase (stopUnits s) 3
          else toPhase (aliveFirst { s with sys := { s.sys with verdict := some x.verdict, source := 1 } }) 4)) ∧
  (∀ (tests : List BistTest) (s : State), inPhase s 3 = true →
      exec (.phaseBistEnd tests) s = .next (toPhase (aliveFirst (notice
        ((showVerdict { s with sys := { s.sys with verdict := some (verdictOf tests), source := 2 } }
          (verdictOf tests).words).set BIST_CTRL.FULLNEXT 0) (sysEv 3 .notice))) 4)) ∧
  (∀ (t : BistTest), verdictOf [] = ⟨[0, 0, 0, 0, 0], [0, 0, 0]⟩ ∧
        (testFails t = true ↔ (unitMask (t.unit.toNat / 32)).testBit (t.unit.toNat % 32) = true ∧
          1 ≤ t.kind.toNat ∧ t.kind.toNat ≤ 6 ∧
          t.sig.toNat ≠ Config.bistSignature t.unit.toNat t.kind.toNat % 2 ^ 32) ∧
        (testFails t = true → (verdictOf [t]).diag =
          [t.unit.toNat * 2 ^ 16 + t.kind.toNat * 2 ^ 8 + 1, t.sig.toNat, expectedSig t])) ∧
  (∀ (progOk : Bool) (s : State), inPhase s 4 = true →
      ∃ t, t = applyConfig (bootOtp (((s.set (INTC_T_CFG.THR 0) 0xF).set (INTC_T_CFG.THR 1) 0xF).set OTP_STATUS.PROGOK
          (if progOk && decide (verdictWord s 0 / 2 ^ 18 % 16 ≠ 15) then 1 else 0))
            (decide (bitOf (verdictWord s 0) 28 = 1))
          (progOk && decide (verdictWord s 0 / 2 ^ 18 % 16 ≠ 15))) ∧
        exec (.phaseOtpEnd progOk) s = .next (if t.get SYS_STATUS.PHASE = 4 then toPhase t 5 else t)) ∧
  (∀ (s : State), inPhase s 5 = true → ∃ r t u : State, r = resetRecord (applyLevel (applyPhases (applyVerdict
          (({ s with sys := { s.sys with stored := none } } : State).set BIST_STATUS.STORED 0)))) ∧
        t = enableHci (applySlices r) (unusable r 26) ∧ u = { t with twt := { t.twt with narrow := false } } ∧
        exec .phaseLevelEnd s = .next (if u.get THM_TSD.LATCH = 1 then stopAtLatch u else toPhase u 6)) ∧
  (∀ (s : State) (bad : Bool), enableHci s bad = notice (if bad then s.set HCI_STATUS.REASON 0x10
          else ((s.set HCI_CTRL.EN 1).set HCI_STATUS.STATE 1).set HCI_STATUS.K1LANE (if unusable s 25 then 0 else 1))
        (hciEv 5 .notice)) ∧
  (∀ (s : State) (n : Nat),
      (toPhase s n).get SYS_STATUS.PHASE = n % 2 ^ 4 ∧ SameFields [SYS_STATUS.PHASE] s (toPhase s n) ∧
        SameMemory s (toPhase s n)) ∧
  (∀ (s : State), inPhase s 6 = true →
      let u := bringUpAll s;
        exec .phaseBringupEnd s = .next (if u.get SYS_STATUS.PHASE = 6 then
          notice (toPhase { u with sys := { u.sys with op := 0 } } 7) (sysEv 0 .notice) else u)) ∧
  (∀ (s : State) (l : Nat) (f : State → State), s.get SYS_STATUS.PHASE = 6 →
      bringUpSteps[s.sys.brought]? = some (l, f) →
      let u := { s with sys := { s.sys with brought := s.sys.brought + 1 } };
        bringUpNext s = if l ≤ s.get SYS_SERVICE.LEVEL then f u else u) ∧
  (∀ (n : Nat) (s : State), inPhase s n = false → n = 0 ∨ n = 1 ∨ n = 2 ∨ n = 3 ∨ n = 4 ∨ n = 5 ∨ n = 6 →
      (n = 0 → ∀ bkb, exec (.phaseWaitEnd bkb) s = .next s) ∧
        (n = 1 → ∀ v w, exec (.phaseSupplyEnd v w) s = .next s) ∧
        (n = 2 → ∀ ok, exec (.phaseRomEnd ok) s = .next s) ∧ (n = 3 → ∀ t, exec (.phaseBistEnd t) s = .next s) ∧
        (n = 4 → ∀ ok, exec (.phaseOtpEnd ok) s = .next s) ∧ (n = 5 → exec .phaseLevelEnd s = .next s) ∧
        (n = 6 → exec .phaseBringupEnd s = .next s))

/-- The verdicts select the service level. levelOf, the level that PHASE_LEVEL_END applies, is above 0 exactly where
no unit that S0 or S1 requires is marked unusable, and 3 exactly where no unit or class that a level requires is; then
no unit blocks a level (BLOCKER 0xFF) (R4, R5, R310). Where nothing is marked at all, applyLevel shows LEVEL 3,
BLOCKER 0xFF and S0FAIL 0 and does nothing else; a unit of S0 that is marked makes the level 0. With the
thermal-shutdown latch set applyLevel gives level 0 whatever levelOf says (R370). Which units and classes a level
requires, that BLOCKER is by the verdicts alone, and the level with the latch set are the model's readings (log
entries 32, 39 and 42). -/
def Obligations.LevelEndShowsLevel : Prop :=
  (∀ (s : State), (0 < levelOf s ↔ stopping s 0 = [] ∧ stopping s 1 = []) ∧
        (levelOf s = 3 ↔ stopping s 0 = [] ∧ stopping s 1 = [] ∧ stopping s 2 = [] ∧ stopping s 3 = []) ∧
        (levelOf s = 3 → blockerOf s = 0xFF) ∧ (stopping s 0 ≠ [] → levelOf s = 0)) ∧
  (∀ (s : State), s.get THM_TSD.LATCH ≠ 1 → levelOf s = 3 → marked s allUnits = [] →
      applyLevel s = ((s.set SYS_SERVICE.LEVEL 3).set SYS_SERVICE.BLOCKER 0xFF).set SYS_SERVICE.S0FAIL 0)

/-- The power-down sequence runs in its steps. SHUTDOWN and ORDERLY are accepted in the phases to RUN and start the
sequence with their trigger, unless one runs (R311). Step 1 ends with the engines, or with TMAX and its warning
(R312). With every rail off and the interface drained, the outputs above their limit at DISTMO after their drains
began fail, in that order (R314), and the self-test begins in phase 9 with ALIVE low, queue memory empty and the units
above S0 stopped (R317, R391, R441); its verdict is stored with its CRC and the trigger says what follows: HALTED
after SHUTDOWN, a SYSTEM reset and start-up otherwise, Snowdrop where the path is in SHUTDOWN, or start-up with ALIVE
toggling where VAUX has returned (R10, R307, Table 10.4). RESTART, unless the thermal-shutdown latch is set, and
STANDBY act in HALTED (R320, R322, R370), and a wake from standby by an address of the port, a press or the timer
advances the device time by the ticks of 125 µs (R32), in start-up or, with nRESET low, waiting for its rise (R524).
Each row changes nothing in any other state. The phases in which they are accepted (log entry 35), RESTART without a
reset (34), what OP reads meanwhile (98), that it keeps the key store (121), the operation marks and the drain of the
interface at the wait (36), the units that stop for the self-test (95), the CRC (96), 12500 TREF periods a tick (29)
and the wait for nRESET (30) are the model's readings and choices. Further choices of the model: an event that cannot
happen in the present state changes nothing (log entry 6), an expiry moves the device time to it (log entry 7), the
start of ALIVE (log entry 37), the device time has no bound (log entry 90). -/
def Obligations.PowerDown : Prop :=
  (∀ (s : State), k0Runs s = true → s.sys.started = true → s.get SYS_STATUS.PHASE ≤ 7 →
      exec .sysShutdown s = .next (pdStart s 3) ∧ exec .sysOrderly s = .next (pdStart s 4)) ∧
  (∀ (s : State), k0Runs s = false ∨ s.sys.started = false ∨ 7 < s.get SYS_STATUS.PHASE →
      exec .sysShutdown s = .next s ∧ exec .sysOrderly s = .next s) ∧
  (∀ (s : State) (trig : Nat), s.sys.pd = none → s.sys.k0Halt = false →
      let v := if bootLoads s && !executes s 0x10 then opEnd s 5 else s;
        let u : State := { v with sys := { v.sys with
          pd := some { trig := trig, start := s.now }, stored := none,
          op := if trig = 3 then 1 else if trig = 4 then 2 else 0 } };
        pdStart s trig = State.each (List.range 4) pdEngine (formFit (opMark
          ((toPhase ((((u.set BIST_STATUS.STORED 0).set SYS_PDSTAT.TRIG trig).set SYS_PDSTAT.DONE 0).set
            SYS_PDSTAT.TMAXHIT 0 |>.set SYS_PDSTAT.DUR 0) 8).set NRG_STATUS.PDOWN 1) 2 1))) ∧
  (∀ (s : State) (trig : Nat), s.sys.pd.isSome = true ∨ s.sys.k0Halt = true → pdStart s trig = s) ∧
  (∀ (s : State) (x : Pd), s.sys.pd = some x → x.step = 1 → enginesOff s = true →
      exec .pdEnginesDrained s = .next (opMark { s with sys := { s.sys with pd := some { x with step := 2 } } } 2 2))
        ∧
  (∀ (s : State) (x : Pd), s.sys.pd = some x → x.step = 1 → exec .pdTmax s = .next (pdStep (enginesDrain (raise
        ((s.expire (deadlineAt x.start (s.get SYS_PDCFG.TMAX * 1000))).set SYS_PDSTAT.TMAXHIT 1) (sysEv 2 .warning)))
          x 2)) ∧
  (∀ (s : State) (n : Nat), (∀ x, s.sys.pd = some x → x.step ≠ n) →
      (n = 1 → exec .pdEnginesDrained s = .next s ∧ exec .pdTmax s = .next s) ∧
        (n = 2 → (∀ x, s.sys.pd = some x → x.step ≠ 3) → ∀ above, exec (.pdDischargeWaitEnd above) s = .next s) ∧
        (n = 4 → ∀ ts, exec (.shutdownBistDone ts) s = .next s)) ∧
  (∀ (s : State) (x : Pd) (above : Word), s.sys.pd = some x → x.step = 2 ∨ x.step = 3 → enginesOff s = true →
      enabledRails s = [] →
      let u := hciDrained (hciDrain s);
        exec (.pdDischargeWaitEnd above) s = .next (if u.get HCI_STATUS.STATE = 2 then u
          else beginSelfTest (State.each (slowOutputs u above.toNat) distmoFails (pdStep u x 3)) x)) ∧
  (∀ (s : State) (x : Pd) (above : Word), s.sys.pd = some x → enginesOff s = false ∨ enabledRails s ≠ [] →
      exec (.pdDischargeWaitEnd above) s = .next s) ∧
  (∀ (s : State) (x : Pd),
      (beginSelfTest s x).get SYS_STATUS.PHASE = 9 ∧ (beginSelfTest s x).sys.pd = some { x with step := 4 } ∧
        (beginSelfTest s x).fox.alive = .low ∧
        beginSelfTest s x = aliveLow (opMark (toPhase (pdStep (stopUnits (endDischarges (hciClear s))) x 4) 9) 3 0)) ∧
  (∀ (s : State) (x : Pd) (ts : List BistTest), s.sys.pd = some x → x.step = 4 → s.get SYS_STATUS.PHASE = 9 →
      exec (.shutdownBistDone ts) s = .next (afterSelfTest (storeVerdict s x (verdictOf ts)) x.trig)) ∧
  (∀ (s : State) (x : Pd) (v : Verdict), (storeVerdict s x v).sys.pd = none ∧
        (storeVerdict s x v).sys.stored = some { verdict := v, crc := Config.verdictCrc v % 2 ^ 16 } ∧
        (storeVerdict s x v).get BIST_STATUS.STORED = 1 ∧ (storeVerdict s x v).get SYS_PDSTAT.DONE = 1 ∧
        (storeVerdict s x v).get NRG_STATUS.PDOWN = 0) ∧
  (∀ (s : State) (trig : Nat), afterSelfTest s trig =
        if s.path.restart then beginStartup (aliveRun
          { s with path := { s.path with restart := false }, otp := otpThroughRestart s, free := s.free + 2 })
        else if s.get PP_STATUS.STATE = 4 then pathOff s .snowdrop
        else if trig = 3 then enterHalted s
        else beginStartup (setStored ((systemReset s true).set SYS_RSTCAUSE.ORDERLY 1) s.sys.stored)) ∧
  (∀ (s : State), k0Runs s = true → s.get SYS_STATUS.PHASE = 10 → s.get THM_TSD.LATCH ≠ 1 →
      let u := beginStartup { s with otp := otpThroughRestart s, free := s.free + 2 };
        exec .sysRestart s = .next { u with sys := { u.sys with op := 4 } }) ∧
  (∀ (s : State), s.get THM_TSD.LATCH = 1 ∨ k0Runs s = false ∨ s.get SYS_STATUS.PHASE ≠ 10 →
      exec .sysRestart s = .next s) ∧
  (∀ (s : State), k0Runs s = true → s.get SYS_STATUS.PHASE = 10 →
      exec .sysStandby s = .next ((pathOff s .standby).set SYS_STATUS.PHASE 11)) ∧
  (∀ (s : State), k0Runs s = false ∨ s.get SYS_STATUS.PHASE ≠ 10 → exec .sysStandby s = .next s) ∧
  (∀ (s : State) (mode : OffMode),
      (pathOff s mode).path.off = mode ∧ (pathOff s mode).path.pairA = .off ∧ (pathOff s mode).path.pairB = .off ∧
        (pathOff s mode).supply.rails = false ∧ (pathOff s mode).mem = [] ∧ (pathOff s mode).now = s.now ∧
        (pathOff s mode).sys.stored = (if mode = .start then none else s.sys.stored)) ∧
  (∀ (cause : WakeCause) (ticks : Nat) (s : State), s.path.off = .standby → wakes s cause = true →
      s.supply.nreset = false →
      let u := beginStartup
        { { s with now := s.now + standbyTicks s cause ticks * 12500 }.set SYS_RSTCAUSE.STBY_WAKE 1 with
          sys := { s.sys with bankWake := true } };
        exec (.standbyWake cause ticks) s = .next { u with twt := { u.twt with narrow := true } }) ∧
  (∀ (cause : WakeCause) (ticks : Nat) (s : State), s.path.off ≠ .standby ∨ wakes s cause = false →
      exec (.standbyWake cause ticks) s = .next s) ∧
  (∀ (ticks : Nat) (s : State), standbyTicks s .timer ticks = s.get SYS_STBY.WAKET * 8000 ∧
        (wakes s .timer = true ↔ s.get SYS_STBY.WAKET ≠ 0)) ∧
  (∀ (cause : WakeCause) (ticks : Nat) (s : State), s.path.off = .standby → wakes s cause = true →
      s.supply.nreset = true →
      let u := { s with now := s.now + standbyTicks s cause ticks * 12500 }.set SYS_RSTCAUSE.STBY_WAKE 1;
        exec (.standbyWake cause ticks) s = .next { u with
          sys := { u.sys with bankWake := true }, path := { u.path with off := .start },
          twt := { u.twt with narrow := true } })

/-- A host write follows the access code of each field. A register write is served where the address is a multiple of
four and K0 runs, and, but for the words of the S0 units and PP_SNOW, the internal VSYS rails are up (R24, R304); it
changes nothing otherwise (log entry 48). It takes each field of the word in turn: a field without a row of its own
keeps its value where its code is RO or SC or where no byte lane covers it, takes the written bits where it is RW (RWE
with its enable at 0, RWL with FLT_CTRL.LOCK at 0) and the value is one the field takes, keeps its value where RWE or
RWL guards it or where the value is not one it takes, takes the ones where it is W1S, and loses the bits written 1
where it is W1C (R17, R18, Table 0.6). A written 1 in a CLRCNT or CLRDL bit zeroes the counters that the bit names,
and a write of INTC_MASKq sets the MASK bits its lanes cover (Table 14.13). A written 0 in ADC_CAP.EN turns capture
off and ends its fill, and a written WEAR_CTRL drops the wait of an injection that it disables (log entry 75); a
window channel that a write binds to another source waits for that output's PGS (R184). A field whose written value
its text excludes keeps its value: the model's choice (log entry 44); so are the fields that keep nothing of a write
(log entry 89) and the bits that a write cannot clear or that are forced (log entry 82). -/
def Obligations.RegisterWriteAccess : Prop :=
  (∀ (addr : BitVec 24) (value : Word) (lanes : BitVec 4) (s : State), wordServed s addr.toNat = true →
      addr.toNat % 4 = 0 →
      let u := plainWrite s addr.toNat value.toNat (laneMask lanes);
        exec (.registerWrite addr value lanes) s = .next
          (if addr.toNat = 0x1A28 ∧ zeros value.toNat (laneMask lanes) 31 then endFill (u.set ADC_CAP.EN 0) else u)) ∧
  (∀ (addr : BitVec 24) (value : Word) (lanes : BitVec 4) (s : State),
      wordServed s addr.toNat = false ∨ addr.toNat % 4 ≠ 0 → exec (.registerWrite addr value lanes) s = .next s) ∧
  (∀ (s : State) (a : Nat),
      wordServed s a = true ↔ k0Runs s = true ∧ (s.supply.rails = true ∨ s0Page (a / 0x100) = true ∨ a = 0x0120)) ∧
  (∀ (addr : BitVec 24) (value : Word) (lanes : BitVec 4) (s : State), wordServed s addr.toNat = true →
      addr.toNat % 4 = 0 → addr.toNat ≠ 0x0100 → addr.toNat ≠ 0x1A28 → addr.toNat ≠ 0x2C00 →
      addr.toNat < 0x2910 ∨ 0x2928 ≤ addr.toNat → addr.toNat < 0x2040 ∨ 0x2560 ≤ addr.toNat →
      (∀ c ∈ counterClears, c.1 ≠ addr.toNat) → exec (.registerWrite addr value lanes) s = .next
        (rebind s addr.toNat (State.each (fieldsAt addr.toNat) (storeField value.toNat (laneMask lanes)) s))) ∧
  (∀ (s t : State) (a : Nat), ((∀ n, n < 64 → (SUP_CFG.SRC n).addr ≠ a) → rebind s a t = t) ∧
        SameFields [] t (rebind s a t) ∧ SameMemory t (rebind s a t) ∧
        ∀ n, n < 64 → ((rebind s a t).supCh n).settled = ((t.supCh n).settled &&
          !(decide ((SUP_CFG.SRC n).addr = a) && decide (s.get (SUP_CFG.SRC n) ≠ t.get (SUP_CFG.SRC n))))) ∧
  (∀ (v m : Nat) (s : State) (f : Field), f ∉ commandFields → keepsNothing s f = false →
      (fieldPart f m = 0 → storeField v m s f = s) ∧ (f.acc = .ro ∨ f.acc = .sc → storeField v m s f = s) ∧
        (fieldPart f m ≠ 0 → (f.acc = .rw ∨ (f.acc = .rwe ∧ enableReads1 s f.addr = false) ∨
            (f.acc = .rwl ∧ s.get FLT_CTRL.LOCK ≠ 1)) →
          storeField v m s f = if takes f (forced f (merged f (s.get f) (fieldPart f v) (fieldPart f m))) = true then
            s.set f (forced f (merged f (s.get f) (fieldPart f v) (fieldPart f m))) else s) ∧
        (f.acc = .rwe → enableReads1 s f.addr = true → storeField v m s f = s) ∧
        (f.acc = .rwl → s.get FLT_CTRL.LOCK = 1 → storeField v m s f = s) ∧
        (fieldPart f m ≠ 0 → f.acc = .w1s → storeField v m s f = s.set f
          (s.get f ||| (fieldPart f v &&& fieldPart f m)))) ∧
  (∀ (v m : Nat) (s : State) (f : Field) (i : Nat), f ∉ commandFields → keepsNothing s f = false →
      f.acc = .w1c → i < f.width → (fieldPart f m).testBit i = true → ((storeField v m s f).get f).testBit i =
        ((s.get f).testBit i && (!(fieldPart f v).testBit i ||
          (decide (f = PH_FAULTED.MASK) && (heldBits s f).testBit i)))) ∧
  (∀ (s : State) (a v m : Nat) (c : Nat × Nat × List Field) (f : Field), c ∈ counterClears → c.1 = a →
      ones v m c.2.1 = true → f ∈ c.2.2 → (clearCounters s a v m).get f = 0) ∧
  (∀ (s : State) (a v m : Nat) (j k : Nat), j < 8 → a = 0x2540 + 4 * j → k < 32 → m.testBit k = true →
      ((writeMasks s a v m).get (INTC_SRC.MASK (32 * j + k + 1))).testBit 0 = v.testBit k)

/-- A BLOCK reset returns a disabled unit's fields. SYS_BRST names a unit. Where K0 runs, a unit whose enable reads 1
is left alone with RESULT 2, and an unknown unit gives RESULT 3. Otherwise RESULT is 1 and each field of the unit's
registers reads its reset value, but those marked (POR) and the exceptions of Table 1.11, which the model reads as the
latches and the fields that report the unit's present state (log entry 43); no other field but SYS_BRST's own changes,
no byte of memory, no fuse, and the device time stays (R43). Where K0 does not run it changes nothing. -/
def Obligations.BlockReset : Prop :=
  (∀ (unit : BitVec 8) (s : State), k0Runs s = true → unitEnable unit.toNat = none →
      exec (.blockReset unit) s = .next ((s.set SYS_BRST.UNIT unit.toNat).set SYS_BRST.RESULT 3)) ∧
  (∀ (unit : BitVec 8) (s : State), k0Runs s = false → exec (.blockReset unit) s = .next s) ∧
  (∀ (unit : BitVec 8) (s : State) (en : Field), k0Runs s = true → unitEnable unit.toNat = some en →
      (s.set SYS_BRST.UNIT unit.toNat).get en = 1 →
      exec (.blockReset unit) s = .next ((s.set SYS_BRST.UNIT unit.toNat).set SYS_BRST.RESULT 2)) ∧
  (∀ (unit : BitVec 8) (s : State) (en : Field), k0Runs s = true → unitEnable unit.toNat = some en →
      (s.set SYS_BRST.UNIT unit.toNat).get en ≠ 1 →
      ∃ t, exec (.blockReset unit) s = .next t ∧ t.get SYS_BRST.RESULT = 1 ∧
        (∀ f ∈ resetFields unit.toNat, f.key ≠ SYS_BRST.RESULT.key → t.get f = f.reset) ∧
        SameFields (SYS_BRST.UNIT :: SYS_BRST.RESULT :: resetFields unit.toNat) s t ∧ SameMemory s t ∧ t.otp = s.otp ∧
        t.now = s.now)

/-- A drain ends with the enable at 0. A unit that drains ends its drain by the row that says so, and the row changes
nothing for a unit that does not drain: the rails, the engines, the command ports, the slices, the charger, the host
interface, the two-wire controller, the ring and the window channels (R37, R38). A rail's end also frees the ROM's
claims whose rails are all off (R531). The enable is then 0. That EN and ILIM_ACT of an output change at the drain's
end (log entry 84), the order of a loop's due drops (log entry 106) and what an engine's drain leaves to the ROM
firmware (log entry 58) are the model's readings. Further choices of the model: an event that cannot happen in the
present state changes nothing (log entry 6), the RAW code of a discarded entry (log entry 77). -/
def Obligations.DrainsEnd : Prop :=
  (∀ (n : Fin 6) (s : State), s.get (LP_CTRL.EN n) = 1 → s.get (LP_STATUS.STATE n) = 5 →
      let u := romFree (loopDrained (dropsAtEnd s n) n);
        exec (.blockDrainEnd (.rail (.lp n))) s = .next u ∧ u.get (LP_CTRL.EN n) = 0) ∧
  (∀ (r : Rail) (s : State), isOutput r = true → s.get (railEn r) = 1 → s.get (railState r) = 4 →
      exec (.blockDrainEnd (.rail r)) s = .next (romFree (outputDrained s r)) ∧
        (outputDrained s r).get (railEn r) = 0) ∧
  (∀ (r : Rail) (s : State), s.get (railEn r) ≠ 1 ∨ draining s r = false →
      exec (.blockDrainEnd (.rail r)) s = .next s) ∧
  (∀ (e : Fin 4) (s : State), s.get (CAM_CTRL.EN e) = 1 → s.get (CAM_STATUS.STATE e) = 4 →
      exec (.blockDrainEnd (.engine e)) s = .next (engineDrained s e) ∧ (engineDrained s e).get (CAM_CTRL.EN e) = 0) ∧
  (∀ (p : Fin 2) (s : State), (s.port p).draining = true →
      (let s1 := endFlight s p 4; exec (.blockDrainEnd (.vclPort p)) s = .next
          (notice ((s1.setPort p { s1.port p with draining := false }).set (VCL_CTRL.EN p) 0) (vclEv p 6 .notice))) ∧
        (portDrained s p).get (VCL_CTRL.EN p) = 0) ∧
  (∀ (k : Fin 4) (s : State), bitOf s.adc.slDrain k = 1 →
      exec (.blockDrainEnd (.adcSlice k)) s = .next (sliceDrained s k) ∧
        (sliceDrained s k).get (ADC_SL_CTRL.EN k) = 0) ∧
  (∀ (s : State), s.charger.draining = true →
      exec (.blockDrainEnd .charger) s = .next (chgDrained s) ∧ (chgDrained s).get CHG_CTRL.EN = 0) ∧
  (∀ (wdone : BitVec 6) (data : List Byte) (s : State), s.get TWC_CTRL.EN = 1 → s.get TWC_STATUS.STATE = 5 →
      exec (.blockDrainEnd (.twc wdone data)) s = .next (twcDrained s wdone.toNat data) ∧
        (twcDrained s wdone.toNat data).get TWC_CTRL.EN = 0) ∧
  (∀ (n : Fin 64) (s : State),
      (jstate s = 3 → exec (.blockDrainEnd .ring) s = .next ((s.set MNG_STATUS.JSTATE 0).set MNG_CTRL.EN 0)) ∧
        (jstate s ≠ 3 → exec (.blockDrainEnd .ring) s = .next s) ∧
        ((s.supCh n).draining = true → exec (.blockDrainEnd (.sup n)) s =
          .next ((s.setSup n { s.supCh n with draining := false }).set (SUP_CFG.EN n) 0)) ∧
        ((s.supCh n).draining = false → exec (.blockDrainEnd (.sup n)) s = .next s)) ∧
  (∀ (s : State), s.get HCI_STATUS.STATE = 2 → hciIdle s = true →
      let s1 := State.each (slotsIn s .inflight)
          (fun s k => writeCompletion s k ((s.slot k).outcome.getD { status := 2 })) s;
        exec (.blockDrainEnd .hci) s = .next
          (notice ((s1.set HCI_CTRL.EN 0).set HCI_STATUS.STATE 0) (hciEv 5 .notice))) ∧
  (∀ (s : State) (e : Fin 4) (p : Fin 2) (k : Fin 4) (wdone : BitVec 6) (data : List Byte),
      (s.get (CAM_CTRL.EN e) ≠ 1 ∨ s.get (CAM_STATUS.STATE e) ≠ 4 → exec (.blockDrainEnd (.engine e)) s = .next s) ∧
        ((s.port p).draining = false → exec (.blockDrainEnd (.vclPort p)) s = .next s) ∧
        (bitOf s.adc.slDrain k ≠ 1 → exec (.blockDrainEnd (.adcSlice k)) s = .next s) ∧
        (s.charger.draining = false → exec (.blockDrainEnd .charger) s = .next s) ∧
        (s.get HCI_STATUS.STATE ≠ 2 ∨ hciIdle s = false → exec (.blockDrainEnd .hci) s = .next s) ∧
        (s.get TWC_CTRL.EN ≠ 1 ∨ s.get TWC_STATUS.STATE ≠ 5 → exec (.blockDrainEnd (.twc wdone data)) s = .next s))

/-- The ledger updates on the 1 ms boundaries. An update runs at the next 1 ms boundary of device time; one that
overruns raises LEDGER_DEADLINE as a FAULT and begins the next (R254, R258). The earliest debit entry expires at its
time, and with none the row changes nothing. FREEZE acts at once on the fit set (R266). Without the VSYS rails, in a
reset, with K0 halted or while TREF does not run the ledger does not (R24, R32). That a row of the ledger advances the
device time to its boundary is the model's choice (log entry 7), and so is a time without bound (log entry 90).
Further choices of the model: an event that cannot happen in the present state changes nothing (log entry 6). -/
def Obligations.LedgerUpdates : Prop :=
  (∀ (s : State), timeRuns s = true →
      exec .ledgerUpdate s = .next (ledgerUpdate (s.expire (nextBoundary s.now 100000 s.ledger.lastAt)))) ∧
  (∀ (s : State), timeRuns s = true → exec .ledgerDeadline s = .next (ledgerUpdate (raise
        (s.expire (nextBoundary s.now 100000 s.ledger.lastAt)) (nrgEv 4 .fault)))) ∧
  (∀ (s : State) (freeze : Bool),
      (timeRuns s = false → exec .ledgerUpdate s = .next s ∧ exec .ledgerDeadline s = .next s ∧
        exec .debitExpiry s = .next s) ∧
        (vsysRuns s = false → exec (.nrgFreeze freeze) s = .next s)) ∧
  (∀ (now period : Nat) (last : Option Nat), 0 < period →
      nextBoundary now period last % period = 0 ∧ (∀ l, last = some l → l % period = 0 →
        l < nextBoundary now period last)) ∧
  (∀ (s : State) (d : Nat × Nat) (ds : List (Nat × Nat)), debitsByExpiry s = d :: ds → timeRuns s = true →
      exec .debitExpiry s = .next { (s.expire d.2) with ledger := { s.ledger with debits := ds } }) ∧
  (∀ (s : State), debitsByExpiry s = [] → exec .debitExpiry s = .next s) ∧
  (∀ (freeze : Bool) (s : State), vsysRuns s = true →
      exec (.nrgFreeze freeze) s = .next (formFit (s.set NRG_CTRL.FREEZE (if freeze then 1 else 0))))

/-- The power budget is the lowest of its four terms, and an update revokes what it does not cover. The budget that an
update forms is the least of the source term, the thermal term of the present rung, NRG_CAP and, on the bank, the
energy term; NRG_STATUS.BIND names the first of the terms, in that order, that equals it (Table 8.9), and the source
term shows in NRG_SRCTERM (R254). While the granted sum is above the budget the update revokes the granted steady
claim of the highest class, the one granted last in it, never one of class 0; it stops as soon as the sum fits or only
class 0 is left, and revokes nothing in the power-down sequence (R28, R268, R271). A revoked claim is no longer
granted: it is pending again for its task, revoked at this time, or FREE where the ROM firmware held it (R28, R531). A
sum that is then still above the budget sets OVER, with one FAULT, until an update finds it within (R29, R270). The
bound that this leaves after the row LEDGER_UPDATE is ConservedQuantities. -/
def Obligations.BudgetIsTheLowestTerm : Prop :=
  (∀ (s : State),
      let src := sourceTerm s;
        let heat := s.get (NRG_HEAT.HEAT (rungNow s));
        let cap := s.get NRG_CAP.CAP;
        let least := min (min src heat) (min cap (energyTerm s (sat32 (ledgerEnergy s)) (s.get NRG_CFG.HMIN)));
        (formBudget s).get NRG_BUDGET.VAL = least % 2 ^ 32 ∧ (formBudget s).get NRG_SRCTERM.VAL = src % 2 ^ 32 ∧
        (formBudget s).get NRG_STATUS.BIND =
          (if least = src then 0 else if least = heat then 1 else if least = cap then 2 else 3) ∧
        SameFields [NRG_BUDGET.VAL, NRG_SRCTERM.VAL, NRG_ENERGY.VAL, NRG_LOAD.VAL, NRG_STATUS.BIND, NRG_STATUS.RUNG,
          NRG_STATUS.SRC] s (formBudget s) ∧ SameMemory s (formBudget s)) ∧
  (∀ (s : State),
      (nextToRevoke s = none ↔ ∀ c ∈ claimIds, (s.claim c).isGranted = true → (s.claim c).cls = 0) ∧
        ∀ c, nextToRevoke s = some c → c ∈ claimIds ∧ (s.claim c).isGranted = true ∧ 0 < (s.claim c).cls ∧
          ∀ d ∈ claimIds, (s.claim d).isGranted = true → 0 < (s.claim d).cls → (s.claim d).cls < (s.claim c).cls ∨
            ((s.claim d).cls = (s.claim c).cls ∧ (s.claim d).grantSeq ≤ (s.claim c).grantSeq)) ∧
  (∀ (s : State) (n : Nat),
      (granted s ≤ s.get NRG_BUDGET.VAL → revokeLoop n s = s) ∧ (nextToRevoke s = none → revokeLoop n s = s) ∧
        ∀ c, s.get NRG_BUDGET.VAL < granted s → nextToRevoke s = some c →
          revokeLoop (n + 1) s = revokeLoop n (revoke s c)) ∧
  (∀ (s : State), (s.get NRG_STATUS.PDOWN = 1 → shed s = s) ∧
        (s.get NRG_STATUS.PDOWN ≠ 1 → granted (shed s) ≤ (shed s).get NRG_BUDGET.VAL ∨
          nextToRevoke (shed s) = none)) ∧
  (∀ (s : State) (c : Nat),
      ((revoke s c).claim c).isGranted = false ∧ ((s.claim c).rom = true → ((revoke s c).claim c).st = .free) ∧
        ((s.claim c).rom = false →
          (∀ id n, ((railsOff s (claimRails (s.claim c))).task (s.claim c).eng (s.claim c).task).wait = some
            (.claim id n) → id ≠ c) →
          (revoke s c).claim c = { s.claim c with st := .revoked, fit := false, revokedAt := s.now })) ∧
  (∀ (s : State), (s.get NRG_BUDGET.VAL < granted s → s.get NRG_STATUS.OVER ≠ 1 →
          formOver s = raise ((s.set NRG_STATUS.OVER 1).addWrap NRG_CNT1.OVERS 1) (nrgEv 1 .fault)) ∧
        (s.get NRG_BUDGET.VAL < granted s → s.get NRG_STATUS.OVER = 1 → formOver s = s) ∧
        (granted s ≤ s.get NRG_BUDGET.VAL → formOver s = s.set NRG_STATUS.OVER 0)) ∧
  (∀ (s : State),
      ledgerUpdate s = formHoldup (formOverdraw (evalDirty (formFit (formOver (shed (formStale (formBudget { s with
          ledger := { s.ledger with firstAt := some (s.ledger.firstAt.getD s.now), lastAt := some s.now } }))))))))

/-- The power path changes state as Table 2.3 gives. VAUX lost on AUX raises the cause's event and fails over: to an
available bank, to the entry to SHUTDOWN where SNOW_ARM is set, or to a power loss where no bank is available or VSYS
has collapsed; a VSYS sag on AUX fails over without ending VAUX's qualification, and a dip only ends it. In RETURN a
loss out of range opens the VAUX pair, ends its regulation and goes back to BANK; in the other states and before the
path runs a loss ends the qualification or changes nothing. There and in the other states a loss by VSYS alone only
notes the bank's voltage, as a loss ends the qualification in the other states and before the path runs. A VSYS below
VSYS_UV on the bank, or below 5.7 V in any state but OFF, is a power loss, which goes before a move to the bank. VAUX
entering its range starts its qualification, whose end returns BANK to RETURN unless LOCKOUT holds, and RETURN's
overlap ends in AUX, with the bank pair open. A bank overcurrent latches BKB_OCL and is a power loss, or AUX in
RETURN; the low bank and the cutoff act below their levels on the bank, and the 5 s of SHUTDOWN end in Snowdrop
(Tables 2.3, 2.10, R24, R55, R63, R64, R81, R315). While nRESET is low the path keeps its pair and acts on no failure
but the collapse of VSYS (log entry 116). BKB_OC in BANK and SHUTDOWN (log entry 27), VAUX_RETURN at every
qualification and the events' states (28), and a power loss below 5.7 V (94) are the model's readings. Further choices
of the model: an event that cannot happen in the present state changes nothing (log entry 6), an expiry moves the
device time to it (log entry 7), the lock of TREF and the state in Snowdrop (log entry 29), the device time has no
bound (log entry 90). -/
def Obligations.PowerPathMoves : Prop :=
  (∀ (cause : VauxCause) (bkb vsys : Nat) (s : State), pathActs s = true → s.get PP_STATUS.STATE = 1 →
      cause = .uv ∨ cause = .ov → exec (.vauxLoss cause bkb vsys) s = .next (auxFails (raise
          (vauxOut (s.setPath { s.path with bkb := bkb }) (decide (cause = .ov)))
          (if cause = .uv then ppEv 1 .warning else ppEv 2 .warning)) bkb vsys)) ∧
  (∀ (bkb vsys : Nat) (s : State), pathActs s = true → s.get PP_STATUS.STATE = 1 →
      exec (.vauxLoss .vsysUv bkb vsys) s = .next (auxFails (s.setPath { s.path with bkb := bkb }) bkb vsys)) ∧
  (∀ (bkb vsys : Nat) (s : State), pathActs s = true →
      exec (.vauxLoss .dip bkb vsys) s = .next (vauxOut (s.setPath { s.path with bkb := bkb }) false)) ∧
  (∀ (bkb vsys : Nat) (s : State), pathActs s = true → s.get PP_STATUS.STATE = 3 →
      exec (.vauxLoss .uv bkb vsys) s = .next (backToBank (raise
          (vauxOut (s.setPath { s.path with bkb := bkb }) false) (ppEv 1 .warning))) ∧
        exec (.vauxLoss .ov bkb vsys) s = .next (backToBank (raise
          (vauxOut (s.setPath { s.path with bkb := bkb }) true) (ppEv 2 .warning)))) ∧
  (∀ (cause : VauxCause) (bkb vsys : Nat) (s : State), pathActs s = true → s.get PP_STATUS.STATE ≠ 1 →
      s.get PP_STATUS.STATE ≠ 3 →
      exec (.vauxLoss cause bkb vsys) s = .next (vauxLossEvent (if cause = .vsysUv then
          s.setPath { s.path with bkb := bkb } else vauxOut (s.setPath { s.path with bkb := bkb })
            (decide (cause = .ov))) cause)) ∧
  (∀ (bkb vsys : Nat) (s : State), pathActs s = true → s.get PP_STATUS.STATE = 3 →
      exec (.vauxLoss .vsysUv bkb vsys) s = .next (s.setPath { s.path with bkb := bkb })) ∧
  (∀ (cause : VauxCause) (bkb vsys : Nat) (s : State), pathRuns s = true → s.supply.nreset = true →
      let u := if cause = .vsysUv then s.setPath { s.path with bkb := bkb }
          else vauxOut (s.setPath { s.path with bkb := bkb }) (decide (cause = .ov));
        exec (.vauxLoss cause bkb vsys) s = .next (if s.get PP_STATUS.STATE ≠ 0 ∧
          vsys < 5700 then powerLoss u else u)) ∧
  (∀ (cause : VauxCause) (bkb vsys : Nat) (s : State), pathRuns s = false →
      exec (.vauxLoss cause bkb vsys) s = .next s ∧ exec .vauxRise s = .next s) ∧
  (∀ (bkb vsys : Nat) (s : State), (bankAvail s = false ∨ vsys < 5700 → auxFails s bkb vsys = powerLoss s) ∧
        (bankAvail s = true → 5700 ≤ vsys → s.get PP_CTRL.SNOW_ARM = 1 →
          auxFails s bkb vsys = enterShutdown (ontoBank s 2 bkb vsys) 2) ∧
        (bankAvail s = true → 5700 ≤ vsys → s.get PP_CTRL.SNOW_ARM ≠ 1 →
          auxFails s bkb vsys = bankEntered (ontoBank s 2 bkb vsys))) ∧
  (∀ (s : State) (st bkb vsys : Nat),
      let x := { s.path with pairA := .off, pairB := bankPair bkb vsys, soaSince := none, lowRaised := false };
        let pairA := if s.path.pairA = .off then .on else s.path.pairA;
        let y := { s.path with pairA, pairB := .off, bankEn := s.on PP_CTRL.BANK_EN };
        ontoBank s st bkb vsys = srcChange (ppEnter ((s.setPath x).set PP_STATUS.ILIM_ACT 0) st) ∧
        (vsys + 2000 < bkb → bankPair bkb vsys = .limited) ∧ (bkb < vsys → bankPair bkb vsys = .blocking) ∧
        (vsys ≤ bkb → bkb ≤ vsys + 2000 → bankPair bkb vsys = .on) ∧
        enterAux s = srcChange (ppEnter (s.setPath y) 1)) ∧
  (∀ (vsys : Nat) (s : State), pathActs s = true → s.get PP_STATUS.STATE = 2 → vsys < s.path.act.vsysUv * 250 →
      exec (.vsysUv vsys) s = .next (powerLoss (raise s (ppEv 6 .critical)))) ∧
  (∀ (vsys : Nat) (s : State),
      pathActs s = false ∨ s.get PP_STATUS.STATE ≠ 2 ∨ s.path.act.vsysUv * 250 ≤ vsys →
      (s.get PP_STATUS.STATE ≠ 0 → vsys < 5700 → exec (.vsysUv vsys) s = .next (powerLoss s)) ∧
        (s.get PP_STATUS.STATE = 0 ∨ 5700 ≤ vsys → exec (.vsysUv vsys) s = .next s)) ∧
  (∀ (s : State), pathRuns s = true → (s.path.rangeSince = none → exec .vauxRise s =
          .next ((s.setPath { s.path with rangeSince := some s.now, aboveOv := false }).set PP_STATUS.VAUX_OK 1)) ∧
        (∀ t, s.path.rangeSince = some t → exec .vauxRise s = .next s)) ∧
  (∀ (t : Nat) (s : State), pathActs s = true → s.path.rangeSince = some t → s.get PP_STATUS.STATE ≠ 0 →
      s.path.qualified = false ∨ onAux s = false →
      let s0 := s.expire (deadlineAt t (s.path.act.auxQual * 1000));
        exec .vauxQualified s = .next
          (returnIfAllowed (notice (s0.setPath { s0.path with qualified := true }) (ppEv 3 .notice)))) ∧
  (∀ (s : State),
      pathActs s = false ∨ s.path.rangeSince = none ∨ s.get PP_STATUS.STATE = 0 ∨
        (s.path.qualified = true ∧ onAux s = true) →
      exec .vauxQualified s = .next s) ∧
  (∀ (s : State),
      ((s.get PP_STATUS.STATE = 2 ∨ (s.get PP_STATUS.STATE = 4 ∧ s.path.shutReturns = true)) →
        s.get PP_STATUS.LOCKOUT ≠ 1 →
          returnIfAllowed s = ppEnter (s.setPath
            { s.path with pairA := .on, returnAt := s.now, restart := decide (s.get PP_STATUS.STATE = 4) || s.path.restart }) 3) ∧
        (s.get PP_STATUS.STATE ≠ 2 ∧ (s.get PP_STATUS.STATE ≠ 4 ∨ s.path.shutReturns = false) ∨
          s.get PP_STATUS.LOCKOUT = 1 →
          returnIfAllowed s = s)) ∧
  (∀ (s : State),
      (s.get PP_STATUS.STATE = 3 → exec .returnOverlapEnd s = .next (enterAux (s.expire (s.path.returnAt + 1000)))) ∧
        (s.get PP_STATUS.STATE ≠ 3 → exec .returnOverlapEnd s = .next s)) ∧
  (∀ (s : State), pathActs s = true → (s.get PP_STATUS.STATE = 2 ∨ s.get PP_STATUS.STATE = 4 →
          exec .bkbOc s = .next (powerLoss (raise (s.set PP_STATUS.BKB_OCL 1) (ppEv 7 .fault)))) ∧
        (s.get PP_STATUS.STATE = 3 → exec .bkbOc s = .next
          (enterAux (raise (s.set PP_STATUS.BKB_OCL 1) (ppEv 7 .fault)))) ∧
        (s.get PP_STATUS.STATE < 2 ∨ 4 < s.get PP_STATUS.STATE → exec .bkbOc s = .next s)) ∧
  (∀ (bkb : Nat) (s : State), pathActs s = false →
      exec .bkbOc s = .next s ∧ exec (.bankLow bkb) s = .next (s.setPath { s.path with bkb := bkb }) ∧
        exec (.bankCutoff bkb) s = .next (s.setPath { s.path with bkb := bkb })) ∧
  (∀ (bkb : Nat) (s : State), pathActs s = true → s.get PP_STATUS.STATE = 2 → s.path.lowRaised = false →
      bkb < s.get CHG_BANK.CELLS * (s.get CHG_VTHR.VCUT_CELL + 100) →
      exec (.bankLow bkb) s = .next
        (raise (s.setPath { s.path with bkb := bkb, lowRaised := true }) (ppEv 8 .warning))) ∧
  (∀ (bkb : Nat) (s : State),
      s.get PP_STATUS.STATE ≠ 2 ∨ s.path.lowRaised = true ∨
        s.get CHG_BANK.CELLS * (s.get CHG_VTHR.VCUT_CELL + 100) ≤ bkb →
      exec (.bankLow bkb) s = .next (s.setPath { s.path with bkb := bkb })) ∧
  (∀ (bkb : Nat) (s : State), pathActs s = true →
      (s.get PP_STATUS.STATE = 2 → bkb < bankCut s → exec (.bankCutoff bkb) s =
          .next (enterShutdown (raise (bankEmpty (s.setPath { s.path with bkb := bkb })) (ppEv 9 .critical)) 1)) ∧
        (s.get PP_STATUS.STATE ≠ 2 ∨ bankCut s ≤ bkb →
          exec (.bankCutoff bkb) s = .next (s.setPath { s.path with bkb := bkb }))) ∧
  (∀ (s : State), k0Runs s = true → (s.get PP_STATUS.STATE = 2 → exec .snowdropEnter s =
          .next (enterShutdown (s.setPath { s.path with entering := true }) 2)) ∧
        (onAux s = true → exec .snowdropEnter s = .next (s.set PP_STATUS.REASON 5)) ∧
        (onAux s = false → s.get PP_STATUS.STATE ≠ 2 → exec .snowdropEnter s = .next (s.set PP_STATUS.REASON 7))) ∧
  (∀ (s : State), (k0Runs s = false → exec .snowdropEnter s = .next s) ∧
        (s.get PP_STATUS.STATE = 4 → exec .shutdownTimeout s = .next
          (snowdrop (s.expire (s.path.shutAt + 500000000)))) ∧
        (s.get PP_STATUS.STATE ≠ 4 → exec .shutdownTimeout s = .next s))

/-- The pairs, the current limit and the commands of the power path. A pair that is on blocks reverse current, and a
blocking one goes on again only while the state enables it (R53); a limited bank pair is enhanced (R56); the VAUX
limit shows in ILIM_ACT with a NOTICE and its safe-area time while it holds, and a loss of the safe area raises its
FAULT, counts a trip, the third within 10 s setting LOCKOUT, and fails over from AUX (R60, R61); APPLY commits the
staged limits or leaves the lowest reason (R85: that REASON keeps its code after an accepted APPLY is the model's
choice, log entry 101, and the lowest code is, log entry 102); CLRFLT clears LOCKOUT and BKB_OCL and the trips, and
returns to a VAUX that has qualified meanwhile (R61). A command of the host acts while the VSYS rails are up (R24),
and the comparators while no reset holds (log entry 116). Each row changes nothing in the other states. Further
choices of the model: an event that cannot happen in the present state changes nothing (log entry 6), an expiry moves
the device time to it (log entry 7), a loss of the safe area with SNOW_ARM (log entry 27), the device time has no
bound (log entry 90), a collapse of VSYS (log entry 94). -/
def Obligations.PowerPathDevices : Prop :=
  (∀ (s : State),
      (s.path.pairA ≠ .off → exec (.pairReverseBlock .vaux) s = .next (s.setPath { s.path with pairA := .blocking }))
        ∧
        (s.path.pairB ≠ .off → exec (.pairReverseBlock .bank) s = .next
          (s.setPath { s.path with pairB := .blocking })) ∧
        (s.path.pairA = .off → exec (.pairReverseBlock .vaux) s = .next s) ∧
        (s.path.pairB = .off → exec (.pairReverseBlock .bank) s = .next s)) ∧
  (∀ (s : State), (s.path.pairA = .blocking → onAux s = true →
          exec (.pairForwardOn .vaux) s = .next (s.setPath { s.path with pairA := .on })) ∧
        (s.path.pairA ≠ .blocking ∨ onAux s = false → exec (.pairForwardOn .vaux) s = .next s) ∧
        (s.path.pairB = .blocking → pairEnabled s .bank = true →
          exec (.pairForwardOn .bank) s = .next (s.setPath { s.path with pairB := .on })) ∧
        (s.path.pairB ≠ .blocking ∨ pairEnabled s .bank = false → exec (.pairForwardOn .bank) s = .next s) ∧
        (onAux s = true ↔ s.get PP_STATUS.STATE = 1 ∨ s.get PP_STATUS.STATE = 3) ∧
        (pairEnabled s .bank = true ↔ 2 ≤ s.get PP_STATUS.STATE ∧ s.get PP_STATUS.STATE ≤ 4)) ∧
  (∀ (s : State),
      (s.path.pairB = .limited → exec .bankPairFullEnhance s = .next (s.setPath { s.path with pairB := .on })) ∧
        (s.path.pairB ≠ .limited → exec .bankPairFullEnhance s = .next s)) ∧
  (∀ (s : State), (pathActs s = true → onAux s = true → s.get PP_STATUS.ILIM_ACT ≠ 1 → exec .ilimAct s =
          .next (notice ((s.setPath { s.path with soaSince := some s.now }).set PP_STATUS.ILIM_ACT 1)
            (ppEv 4 .notice))) ∧
        (pathActs s = false ∨ onAux s = false ∨ s.get PP_STATUS.ILIM_ACT = 1 → exec .ilimAct s = .next s) ∧
        exec .ilimEnd s = .next ((s.setPath { s.path with soaSince := none }).set PP_STATUS.ILIM_ACT 0)) ∧
  (∀ (bkb vsys t : Nat) (s : State), pathActs s = true → s.path.soaSince = some t →
      let s0 := s.expire (deadlineAt t (s.path.act.soaT * 1000));
        let s1 := countTrip (raise (s0.setPath { s0.path with bkb := bkb }) (ppEv 5 .fault));
        exec (.ilimSoa bkb vsys) s = .next (if s.get PP_STATUS.STATE = 1 then auxFails s1 bkb vsys else s1)) ∧
  (∀ (bkb vsys : Nat) (s : State), pathActs s = false ∨ s.path.soaSince = none →
      exec (.ilimSoa bkb vsys) s = .next s) ∧
  (∀ (s : State) (trips : List Nat),
      trips = s.now :: s.path.soaTrips.filter (fun t => decide (s.now ≤ t + 1000000000)) →
      let s1 := s.setPath { s.path with soaTrips := trips, soaSince := none };
        (trips.length < 3 ∨ s.get PP_STATUS.LOCKOUT = 1 → countTrip s = s1) ∧
        (3 ≤ trips.length → s.get PP_STATUS.LOCKOUT ≠ 1 →
          countTrip s = raise (s1.set PP_STATUS.LOCKOUT 1) (ppEv 13 .fault))) ∧
  (∀ (s : State), vsysRuns s = true →
      (ppReason s = 0 → exec .ppApply s = .next (s.setPath { s.path with act := staged s })) ∧
        (ppReason s ≠ 0 → exec .ppApply s = .next (s.set PP_STATUS.REASON (ppReason s)))) ∧
  (∀ (s : State), vsysRuns s = true →
      let s1 := ((s.setPath { s.path with soaTrips := [] }).set PP_STATUS.LOCKOUT 0).set PP_STATUS.BKB_OCL 0;
        (s.path.rangeSince = none → exec .ppClrflt s = .next s1) ∧
        (∀ t, s.path.rangeSince = some t → exec .ppClrflt s =
          .next (if deadlineAt t (s.path.act.auxQual * 1000) ≤ s.now then returnIfAllowed s1 else s1))) ∧
  (∀ (s : State), vsysRuns s = false → exec .ppApply s = .next s ∧ exec .ppClrflt s = .next s)

/-- PWRBTN is timed from the press. A press starts the timing once POR is released; a release after 50 ms and before
LONG raises BTN_SHORT where the S0 units run, and any other release only ends the timing (R79, Table 2.9). The warning
of a long press is raised once a press, LONG − 2 s after it. A press held for SNOW_BTN, or VAUX, starts the device
from Snowdrop with SNOW_WAKE as the reset cause, and in the wait of phase 0 it is kept for that wait (R79, R302).
Further choices of the model: an event that cannot happen in the present state changes nothing (log entry 6), an
expiry moves the device time to it (log entry 7), a wake from Snowdrop (log entry 29). -/
def Obligations.ButtonTimes : Prop :=
  (∀ (s : State),
      (s.supply.released = true → exec .btnPress s = .next
        (s.setPath { s.path with pressAt := some s.now, warned := false })) ∧
        (s.supply.released = false → exec .btnPress s = .next s)) ∧
  (∀ (held : Nat) (s : State), s.path.pressAt.isSome = true → k0Runs s = true → 50 ≤ held →
      held < s.get PP_BTN.LONG * 1000 →
      exec (.btnRelease held) s = .next
        (notice (s.setPath { s.path with pressAt := none, warned := false }) (ppEv 11 .notice))) ∧
  (∀ (held : Nat) (s : State),
      s.path.pressAt = none ∨ k0Runs s = false ∨ held < 50 ∨ s.get PP_BTN.LONG * 1000 ≤ held →
      exec (.btnRelease held) s = .next (s.setPath { s.path with pressAt := none, warned := false })) ∧
  (∀ (held : Nat) (s : State), s.path.pressAt.isSome = true → (s.get PP_BTN.LONG - 2) * 1000 ≤ held →
      s.path.warned = false → k0Runs s = true →
      exec (.btnLongWarn held) s = .next (notice (s.setPath { s.path with warned := true }) (ppEv 12 .notice))) ∧
  (∀ (held : Nat) (s : State),
      s.path.pressAt = none ∨ held < (s.get PP_BTN.LONG - 2) * 1000 ∨ s.path.warned = true ∨ k0Runs s = false →
      exec (.btnLongWarn held) s = .next s) ∧
  (∀ (press : Option Nat) (s : State), s.supply.released = true →
      (∀ held, press = some held → s.path.pressAt.isSome = true ∧ s.get PP_BTN.SNOW_BTN * 100 ≤ held) →
      let s1 := { s with supply := { s.supply with vauxDet := s.supply.vauxDet || !press.isSome } };
        let s2 := s1.setSys { s1.sys with bankWake := s1.sys.bankWake || press.isSome };
        (s.path.off = .snowdrop → exec (.snowdropWake press) s = .next
          (startIfReleased (s2.set SYS_RSTCAUSE.SNOW_WAKE 1))) ∧
        (s.path.off = .start → s.get SYS_STATUS.PHASE = 0 → exec (.snowdropWake press) s = .next s2) ∧
        (s.path.off = .start → s.get SYS_STATUS.PHASE ≠ 0 → exec (.snowdropWake press) s = .next s) ∧
        (s.path.off = .standby → exec (.snowdropWake press) s = .next s)) ∧
  (∀ (held : Nat) (s : State),
      s.supply.released = false ∨ s.path.pressAt = none ∨ held < s.get PP_BTN.SNOW_BTN * 100 →
      exec (.snowdropWake (some held)) s = .next s)

/-- The charger changes state as Table 2.7 gives. An accepted enable enters DETECT and a refused one leaves the lowest
reason, and an enabled charger ignores it (R68, R87; the lowest code is the model's choice, log entry 102, as are the
level that has no charger, log entry 117, and what SUSP, STATE and REASON show beside, log entries 100, 101 and 131);
a disable begins the drain. The probe starts in DETECT, DONE, BANK_MISSING and TIMEOUT, and finds the bank missing
when it falls by more than 50 mV (R75). With the bank at the level that the table names PRECHARGE leads to CC or,
after TSHORT, to BANK_SHORT, and CC to CV; a current below ITERM with no limiter starts the terminating probe; TOPOFF
ends in DONE after TTOP; a bank below VREG − VRECH leaves DONE for PRECHARGE or CC where RECHG_EN allows; the signs of
R77 lead to BANK_MISSING; 120 × TSAFE of weighted time leads to TIMEOUT; CLRFLT clears both latches and leads TIMEOUT
and BANK_SHORT to DETECT where the units fed from VSYS run (R69, R74, R77; the events of BANK_MISSING by log entry
23). In the other states and beyond these levels the rows change nothing. Further choices of the model: an event that
cannot happen in the present state changes nothing (log entry 6), an expiry moves the device time to it (log entry 7),
CHG_TEMP at an enable and the suspension by a thermal shutdown (log entry 78), the device time has no bound (log entry
90). -/
def Obligations.ChargerStates : Prop :=
  (∀ (s : State), (s.get CHG_CTRL.EN ≠ 1 → servesAt s 1 = true → chgReason s = 0 →
          exec .chgEnable s = .next (followTemp (chgEnter (s.set CHG_CTRL.EN 1) 1))) ∧
        (servesAt s 1 = false → exec .chgEnable s = .next s) ∧
        (s.get CHG_CTRL.EN ≠ 1 → servesAt s 1 = true → chgReason s ≠ 0 →
          exec .chgEnable s = .next (s.set CHG_STATUS.REASON (chgReason s))) ∧
        (s.get CHG_CTRL.EN = 1 → exec .chgEnable s = .next s ∧
          exec .chgDisable s = .next (s.setChg { s.charger with draining := true })) ∧
        (s.get CHG_CTRL.EN ≠ 1 → exec .chgDisable s = .next s)) ∧
  (∀ (s : State), chgRuns s = true → s.charger.probe = false →
      s.get CHG_STATUS.STATE = 1 ∨ s.get CHG_STATUS.STATE = 6 ∨ s.get CHG_STATUS.STATE = 8 ∨
        s.get CHG_STATUS.STATE = 10 →
      exec .probeStart s = .next (s.setChg { s.charger with probe := true, probeAt := s.now, terminating := false }))
        ∧
  (∀ (s : State), chgRuns s = false ∨ s.charger.probe = true ∨ s.get CHG_STATUS.STATE ∉ [1, 6, 8, 10] →
      exec .probeStart s = .next s) ∧
  (∀ (start drop : Nat) (s : State), s.charger.probe = true → chgRuns s = true →
      let s0 := s.expire (s.charger.probeAt + 2000000);
        let s1 := s0.setChg { s0.charger with probe := false, terminating := false };
        (50 < drop → exec (.probeEnd start drop) s = .next (chgMissing (s1.setWear { s1.wear with qKnown := false })))
          ∧
        (drop ≤ 50 → exec (.probeEnd start drop) s = .next (probePresent s1 start
          (decide (start < s.get CHG_BANK.CELLS * s.get CHG_VTHR.VSHORT_CELL)) s.charger.terminating))) ∧
  (∀ (start drop : Nat) (s : State), s.charger.probe = false ∨ chgRuns s = false →
      exec (.probeEnd start drop) s = .next s) ∧
  (∀ (bkb : Nat) (s : State), chgRuns s = true → s.get CHG_STATUS.STATE = 2 →
      (s.get CHG_BANK.CELLS * s.get CHG_VREG.VPRE_CELL ≤ bkb → exec (.prechargeExit bkb) s = .next (chgGo s 3)) ∧
        (bkb < s.get CHG_BANK.CELLS * s.get CHG_VTHR.VSHORT_CELL → exec (.bankShortDetect bkb) s =
          .next (raise ((enterAfter s (s.charger.taken.tshort * 100000000) 9).setChg
            { (enterAfter s (s.charger.taken.tshort * 100000000) 9).charger with shortL := true }) (chgEv 4 .fault))))
              ∧
  (∀ (bkb : Nat) (s : State), chgRuns s = true → s.get CHG_STATUS.STATE = 3 →
      s.get CHG_BANK.CELLS * s.get CHG_VREG.VREG_CELL ≤ bkb → exec (.chgCvEntry bkb) s = .next (chgGo s 4)) ∧
  (∀ (current : Nat) (s : State), chgRuns s = true → s.get CHG_STATUS.STATE = 4 → s.get CHG_STATUS.LIMIT = 0 →
      current < s.charger.taken.iterm * 10 →
      let s1 := s.expire (s.charger.freeAt + 6000000000);
        exec (.chgTermination current) s = .next (chgRefresh
          (s1.setChg { s1.charger with probe := true, probeAt := s1.now, terminating := true }))) ∧
  (∀ (s : State), chgRuns s = true → s.get CHG_STATUS.STATE = 5 →
      exec .topoffEnd s = .next (enterAfter s (s.charger.taken.ttop * 6000000000) 6)) ∧
  (∀ (bkb : Nat) (s : State), chgRuns s = true → s.get CHG_STATUS.STATE = 6 → s.get CHG_CTRL.RECHG_EN = 1 →
      bkb + s.get CHG_BANK.CELLS * s.get CHG_VTHR.VRECH_CELL < s.get CHG_BANK.CELLS * s.get CHG_VREG.VREG_CELL →
      exec (.rechargeStart bkb) s = .next
        (chgStart s (if bkb < s.get CHG_BANK.CELLS * s.get CHG_VREG.VPRE_CELL then 2 else 3))) ∧
  (∀ (bkb rise current : Nat) (s : State), chgRuns s = true → 2 ≤ s.get CHG_STATUS.STATE →
      s.get CHG_STATUS.STATE ≤ 5 → removalSeen s bkb rise current = true →
      exec (.bankRemoval bkb rise current) s = .next (chgMissing (s.setWear { s.wear with qKnown := false }))) ∧
  (∀ (bkb rise current v : Nat) (s : State), v = s.get CHG_BANK.CELLS * s.get CHG_VREG.VREG_CELL →
      (removalSeen s bkb rise current = true ↔ (v * 10 < rise ∨ v * 101 ≤ bkb * 100) ∧
        current * 5 * s.charger.target.2 < s.charger.target.1)) ∧
  (∀ (s : State), chgRuns s = true → 2 ≤ s.get CHG_STATUS.STATE → s.get CHG_STATUS.STATE ≤ 4 →
      120 * s.charger.taken.tsafe ≤ s.get CHG_TELAPSED.ELAPSED → exec .chgTimeout s = .next
        (raise ((chgEnter s 10).setChg { (chgEnter s 10).charger with timeoutL := true }) (chgEv 5 .fault))) ∧
  (∀ (s : State), (vsysRuns s = false → exec .chgClrflt s = .next s) ∧
        (vsysRuns s = true → chgRuns s = true → s.get CHG_STATUS.STATE = 9 ∨ s.get CHG_STATUS.STATE = 10 →
          exec .chgClrflt s = .next
          (chgEnter (s.setChg { s.charger with timeoutL := false, shortL := false, probe := false }) 1)) ∧
        (vsysRuns s = true → chgRuns s = false ∨ s.get CHG_STATUS.STATE ∉ [9, 10] →
          exec .chgClrflt s = .next (s.setChg { s.charger with timeoutL := false, shortL := false }))) ∧
  (∀ (bkb rise current : Nat) (s : State),
      (chgRuns s = false ∨ s.get CHG_STATUS.STATE ≠ 2 ∨ bkb < s.get CHG_BANK.CELLS * s.get CHG_VREG.VPRE_CELL →
          exec (.prechargeExit bkb) s = .next s) ∧
        (chgRuns s = false ∨ s.get CHG_STATUS.STATE ≠ 2 ∨ s.get CHG_BANK.CELLS * s.get CHG_VTHR.VSHORT_CELL ≤ bkb →
          exec (.bankShortDetect bkb) s = .next s) ∧
        (chgRuns s = false ∨ s.get CHG_STATUS.STATE ≠ 3 ∨ bkb < s.get CHG_BANK.CELLS * s.get CHG_VREG.VREG_CELL →
          exec (.chgCvEntry bkb) s = .next s) ∧
        (chgRuns s = false ∨ s.get CHG_STATUS.STATE ≠ 4 ∨ s.get CHG_STATUS.LIMIT ≠ 0 ∨
          s.charger.taken.iterm * 10 ≤ current →
          exec (.chgTermination current) s = .next s) ∧
        (chgRuns s = false ∨ s.get CHG_STATUS.STATE ≠ 5 → exec .topoffEnd s = .next s) ∧
        (chgRuns s = false ∨ s.get CHG_STATUS.STATE ≠ 6 ∨ s.get CHG_CTRL.RECHG_EN ≠ 1 ∨ s.get CHG_BANK.CELLS *
            s.get CHG_VREG.VREG_CELL ≤ bkb + s.get CHG_BANK.CELLS * s.get CHG_VTHR.VRECH_CELL →
          exec (.rechargeStart bkb) s = .next s) ∧
        (chgRuns s = false ∨ s.get CHG_STATUS.STATE < 2 ∨ 5 < s.get CHG_STATUS.STATE ∨
          removalSeen s bkb rise current = false →
          exec (.bankRemoval bkb rise current) s = .next s) ∧
        (chgRuns s = false ∨ s.get CHG_STATUS.STATE < 2 ∨ 4 < s.get CHG_STATUS.STATE ∨
            s.get CHG_TELAPSED.ELAPSED < 120 * s.charger.taken.tsafe → exec .chgTimeout s = .next s))

/-- The charger's timer and current target. Once a second of TREF time, in PRECHARGE, CC and CV, TELAPSED gains the
weight of the present charge, saturating, and TRATE shows it; in the other states TRATE reads 0 (R73; at a demand of 0
the spec gives no weight, a free value, log entry 12). The target is the least of the demand, the rung's cap and the
input's share, LIMIT shows which of the two binds, with a NOTICE when it leaves 0, and outside the charging states
both are 0 (R72; at a bank voltage of 0 the share is a free value, log entry 22). SUSPEND acts at once (R70); an
overvoltage of more than 3 % stops the charger with a FAULT in every state, until a recomputation finds the bank at or
below the level (log entry 25), and the recomputation's missed deadline is a FAULT of a charger that runs (R83). Where
the units fed from VSYS do not run, these rows change nothing (R24). -/
def Obligations.ChargerTarget : Prop :=
  (∀ (actual cv : Nat) (s : State), vsysRuns s = true →
      s.get CHG_STATUS.STATE < 2 ∨ 4 < s.get CHG_STATUS.STATE →
      exec (.safetyTimerTick actual cv) s = .next (({ s with free := s.free + 1 } : State).set CHG_STATUS.TRATE 0)) ∧
  (∀ (actual cv : Nat) (s : State), vsysRuns s = true → 2 ≤ s.get CHG_STATUS.STATE →
      s.get CHG_STATUS.STATE ≤ 4 →
      exec (.safetyTimerTick actual cv) s = .next ((({ s with free := s.free + 1 } : State).set CHG_STATUS.TRATE
        (timerRate actual (phaseDemand s cv) s.free)).addSat CHG_TELAPSED.ELAPSED
          (timerRate actual (phaseDemand s cv) s.free))) ∧
  (∀ (actual demand i : Nat), 0 < demand →
      timerRate actual demand i = if demand ≤ 2 * actual then 2 else if demand ≤ 5 * actual then 1 else 0) ∧
  (∀ (on : Bool) (s : State), vsysRuns s = true →
      exec (.chgHostSuspend on) s = .next (chgRefresh (s.set CHG_CTRL.SUSPEND (if on then 1 else 0)))) ∧
  (∀ (actual cv iVaux iChgIn vsys vBank bkb : Nat) (on : Bool) (s : State), vsysRuns s = false →
      exec (.safetyTimerTick actual cv) s = .next s ∧ exec (.chgHostSuspend on) s = .next s ∧
        exec (.chgTargetRecompute iVaux iChgIn vsys vBank cv) s = .next s ∧ exec (.chgOv bkb) s = .next s) ∧
  (∀ (iVaux iChgIn vsys vBank cv : Nat) (s : State), vsysRuns s = true →
      chgRuns s = false ∨ s.get CHG_STATUS.STATE < 2 ∨ 5 < s.get CHG_STATUS.STATE →
      ∃ t, exec (.chgTargetRecompute iVaux iChgIn vsys vBank cv) s = .next (t.set CHG_STATUS.LIMIT 0) ∧
        t.charger.target = (0, 1) ∧ t.charger.switching = false ∧ t.free = s.free + 1 ∧ t.regs = s.regs ∧
          t.now = s.now ∧
        SameMemory s t) ∧
  (∀ (iVaux iChgIn vsys vBank cv : Nat) (s : State), vsysRuns s = true → chgRuns s = true →
      2 ≤ s.get CHG_STATUS.STATE → s.get CHG_STATUS.STATE ≤ 5 →
      let s1 := { s with free := s.free + 1 };
        let ov := s.charger.ovStopped && decide (s.get CHG_BANK.CELLS * s.get CHG_VREG.VREG_CELL * 103 < vBank * 100);
        let u := breakRest (s1.setChg { s1.charger with switching := !ov, ovStopped := ov, taken := chgFields s1 });
        let demand := phaseDemand u cv;
        let rung := (chgCap (rungNow s), 1);
        let share := shareOf u iVaux iChgIn vsys vBank s.free;
        let low := if fracLt rung share then rung else share;
        let target := if fracLt low (demand, 1) then low else (demand, 1);
        let limit := limitBits demand rung share;
        let freeAt := if limit = 0 then u.charger.freeAt else u.now;
        let t := (u.setChg { u.charger with target, freeAt }).set CHG_STATUS.LIMIT limit;
        exec (.chgTargetRecompute iVaux iChgIn vsys vBank cv) s =
          .next (if s.get CHG_STATUS.LIMIT = 0 ∧ limit ≠ 0 then notice t (chgEv 7 .notice) else t)) ∧
  (∀ (bkb : Nat) (s : State),
      (vsysRuns s = true → s.get CHG_BANK.CELLS * s.get CHG_VREG.VREG_CELL * 103 < bkb * 100 →
        exec (.chgOv bkb) s = .next (raise
          (s.setChg { s.charger with ovStopped := true, switching := false, target := (0, 1) }) (chgEv 8 .fault))) ∧
        (bkb * 100 ≤ s.get CHG_BANK.CELLS * s.get CHG_VREG.VREG_CELL * 103 → exec (.chgOv bkb) s = .next s) ∧
        (chgRuns s = true → exec .chgDeadline s = .next (raise s (chgEv 9 .fault))) ∧
        (chgRuns s = false → exec .chgDeadline s = .next s))

/-- A loop runs from START to REGULATE and its periods follow the compensator. A loop in START enters RAMP when SRDY
has passed since its verdict, and its reference then moves; RAMP ends in REGULATE when the reference arrives, with
LP_STATE raised (R108). Each period of a switching loop samples the error, counts the current limit, acknowledges an
arrived target, runs the compensator, forms the slots and begins a new period (R92, R105, R106, R114, R145); a missed
compensator deadline keeps the Ic before and is a FAULT counted in DLCNT (R93). At the 1 ms boundary IOUT and PIN take
the window's sums, which start again (R125). In its other states the rows change nothing. The model's choices are the
rounding and saturation of the estimates and of the error (log entries 14, 16 and 20), which period counts as the
first of the 8 of R119 (log entry 18), where the DAC's code stands at a reference that arrives (log entry 105), and
that a deadline missed in the last period of a loop that drains counts (log entry 127). Further choices of the model:
an event that cannot happen in the present state changes nothing (log entry 6), an expiry moves the device time to it
(log entry 7), the device time has no bound (log entry 90). -/
def Obligations.LoopSequence : Prop :=
  (∀ (n : Fin 6) (s : State),
      let s1 := s.expire (deadlineAt (s.loop n).refAt (s.get (LP_CFG.SRDY n)));
        (s.get (LP_STATUS.STATE n) = 2 → exec (.loopSwitchingStart n) s =
          .next ((s1.setLoop n { s1.loop n with refHeld := false, refAt := s1.now, quiet := 9 }).set
            (LP_STATUS.STATE n) 3)) ∧
        (s.get (LP_STATUS.STATE n) ≠ 2 → exec (.loopSwitchingStart n) s = .next s)) ∧
  (∀ (n : Fin 6) (s : State),
      let u := s.expire (arrivalTime s n);
        (s.get (LP_STATUS.STATE n) = 3 → exec (.loopRampEnd n) s = .next (supEnterAll (notice ((u.setLoop n
          { u.loop n with refFrom := u.get (LP_VREF.TARGET n) * 500, refAt := u.now, dacFrom := u.get (LP_VREF.TARGET n) * 4 }).set (LP_STATUS.STATE n) 4)
          (railEv (.lp n) 0 .notice)) (.lp n))) ∧
        (s.get (LP_STATUS.STATE n) ≠ 3 → exec (.loopRampEnd n) s = .next s)) ∧
  (∀ (n : Fin 6) (vsns : Int) (s : State), loopSwitches s n = true →
      let e0 := errorCode s n vsns;
        let s1 := countIlim { s with free := s.free + 1 } n;
        exec (.loopPeriodStart n vsns) s = .next
          (newPeriod (formSlots (compensatePeriod (ackReached s1 n e0) n e0) n) n) ∧
        -512 ≤ e0 ∧ e0 ≤ 511) ∧
  (∀ (n : Fin 6) (vsns : Int) (s : State), loopSwitches s n = false →
      exec (.loopPeriodStart n vsns) s = .next s) ∧
  (∀ (n : Fin 6) (s : State), loopPulses s n = false → exec (.compDeadline n) s = .next s) ∧
  (∀ (n : Fin 6) (s : State), loopPulses s n = true →
      exec (.compDeadline n) s = .next (raise ((s.setLoop n { s.loop n with ic := (s.loop n).icPrev }).addSat
        (LP_STATUS.DLCNT n) 1) (railEv (.lp n) 7 .fault))) ∧
  (∀ (n : Fin 6) (s : State),
      let s0 := s.expire (nextBoundary s.now 100000 none);
        let l := s0.loop n;
        let s1 := s0.set (LP_IOUT.IOUT n) (satAt 32 (l.s.1 * 5 / (l.s.2 * 8192)));
        let s2 := s1.set (LP_PIN.PIN n) (satAt 32 (l.q * loopVin s0 n / (5120000000000 * 2048)));
        (vsysRuns s = true → exec (.loopEstimateWindow n) s = .next (s2.setLoop n
          { l with q := 0, s := (0, 1), iouts := (s1.get (LP_IOUT.IOUT n) :: l.iouts).take 10 })) ∧
        (vsysRuns s = false → exec (.loopEstimateWindow n) s = .next s))

/-- The compensator's accumulator stays within its clamp. After every run of the compensator, whatever the truncation,
the error, the gains and the state, the accumulator lies between 0 and PHLIM × 4096 (R92, R116), and the Ic before is
kept for a missed deadline. Over a whole period, one that injects among them, in which the accumulator is held and Ic
raised within PHLIM (R354; the clamp of Ic is the model's choice, log entry 19), an accumulator within the clamp stays
within it, and Ic stays at or below PHLIM. Further choices of the model: the rounding of the terms is free (log entry
14). -/
def Obligations.CompensatorClamp : Prop :=
  (∀ (n : Nat) (e0 : Int) (s : State), (((compensate s n e0).loop n).acc ≤ s.get (LP_ILIM.PHLIM n) * 4096) ∧
        ((compensate s n e0).loop n).icPrev = (s.loop n).ic ∧ ((compensate s n e0).loop n).trunc = (s.loop n).trunc) ∧
  (∀ (n : Nat) (e0 : Int) (s : State), (s.loop n).acc ≤ s.get (LP_ILIM.PHLIM n) * 4096 →
      let l := (compensatePeriod s n e0).loop n;
        l.acc ≤ s.get (LP_ILIM.PHLIM n) * 4096 ∧ l.ic ≤ s.get (LP_ILIM.PHLIM n) ∧ l.trunc = (s.loop n).trunc)

/-- A pulse turns on and off and is checked at its end. The turn-on of a phase whose last pulse has ended comes at the
instant of its slot, which is j × period / N to the nearest edge of 156.25 ps, or TOFFMIN after that pulse where this
is later (log entry 128), once a period and in the slots' order, and drives PWM high unless the loop truncates (R94,
R105). The turn-off, where the cause given can have ended the pulse (Table 3.3; log entries 15 and 128), adds the
pulse's charge to the window, shows its peak and its length in PH_MEAS (rounded and saturated by log entry 16), judges
the checks of R118 (log entries 16, 17, 20 and 104) and drops the phases that are due (R120, R123; their order by log
entry 106). A sense voltage beyond NEGLIM floats a low PWM, also in the cycle in flight of a loop that drains (R96,
R109). Above VREF + THR truncation stops the phases, at high impedance above VREF + BRAKE, aborts an injection and
shows in OST_ACT; below VREF + REL it is released; one that lasts TMAX raises OST_TIMEOUT and goes on (R115, R117;
that the brake stays until the release and a pulse open until its own turn-off is log entry 21, the 8 periods after it
log entry 18). In the other states the rows change nothing. Further choices of the model: an event that cannot happen
in the present state changes nothing (log entry 6), an expiry moves the device time to it (log entry 7), the device
time has no bound (log entry 90). -/
def Obligations.PulseTiming : Prop :=
  (∀ (k : Fin 20) (n j : Nat) (s : State), pulseOwner s k = some n → slotOf s n k = some j →
      (s.loop n).trunc = .none → slotTurn s n k j = true → (s.phase k).pulse = false →
      let t := max (slotAt s n j) ((s.phase k).offAt + toffMin);
        let s1 := s.expire (t / 64);
        exec (.phaseTurnOn k) s =
          .next (s1.setPhase k { s1.phase k with pwm := .high, turned := true, pulse := true, onAt := max t (s1.now * 64) })) ∧
  (∀ (s : State) (n j : Nat), 0 < s.get (LP_PWM.FSW n) * (s.loop n).slots.length →
      let d := s.get (LP_PWM.FSW n) * (s.loop n).slots.length;
        let x := slotAt s n j - (s.loop n).periodAt * 64;
        (s.loop n).periodAt * 64 ≤ slotAt s n j ∧ 2 * (j * 6400000) ≤ (2 * x + 1) * d ∧
          2 * x * d ≤ 2 * (j * 6400000) + d) ∧
  (∀ (k : Fin 20) (s : State),
      pulseOwner s k = none ∨ (∃ n, pulseOwner s k = some n ∧
        ((s.loop n).trunc ≠ .none ∨ slotOf s n k = none ∨ (s.phase k).pulse = true ∨
        ∃ j, slotOf s n k = some j ∧ slotTurn s n k j = false)) → exec (.phaseTurnOn k) s = .next s) ∧
  (∀ (k : Fin 20) (n : Nat) (vOn vOff : Int) (ton : Nat) (ended : PulseEnd) (s : State),
      pulseEnds s k = some n → canEnd s n k vOff ton ended = true →
      let cOn := senseCode s n k vOn s.free;
        let cOff := senseCode s n k vOff (s.free + 1);
        let both := senseUnits s n cOn + senseUnits s n cOff;
        let s1 := s.setPhase k
          { s.phase k with pwm := offLevel s n, pulse := false, offAt := (s.phase k).onAt + ton, sense := both };
        let s2 := addCharge { s1 with free := s.free + 2 } n both ton;
        let s3 := (s2.set (PH_MEAS.IPK k) (satAt 12 (senseUnits s n cOff / 2048))).set (PH_MEAS.TON k) (satAt 16 ton);
        exec (.phaseTurnOff k vOn vOff ton ended) s = .next
          (dropDuePhases (countFailures s3 n k (failedChecks s n k cOn cOff ton ended)) n)) ∧
  (∀ (k : Fin 20) (vOn vOff : Int) (ton : Nat) (ended : PulseEnd) (s : State),
      pulseEnds s k = none ∨ (∃ n, pulseEnds s k = some n ∧ canEnd s n k vOff ton ended = false) →
      exec (.phaseTurnOff k vOn vOff ton ended) s = .next s) ∧
  (∀ (k : Fin 20) (n : Nat) (v : Int) (s : State), offTimeOf s k = some n →
      let limit : Int := s.get (LP_ILIM.NEGLIM n) * 25 * s.get (PH_CS.GAIN k);
        (senseCurrent s k v < -limit → exec (.negativeCurrentLimit k v) s =
          .next (s.setPhase k { s.phase k with pwm := .hiZ })) ∧
        (-limit ≤ senseCurrent s k v → exec (.negativeCurrentLimit k v) s = .next s)) ∧
  (∀ (k : Fin 20) (v : Int) (s : State), offTimeOf s k = none → exec (.negativeCurrentLimit k v) s = .next s) ∧
  (∀ (n : Fin 6) (vsns : Int) (s : State), s.get (LP_CTRL.OST_EN n) = 1 → loopPulses s n = true →
      aboveRef s n vsns (s.get (LP_OST.THR n)) = true →
      let brake := s.get (LP_OST.BRAKE n);
        let deep := (decide (brake ≠ 0) && aboveRef s n vsns brake) || decide ((s.loop n).trunc = .brake);
        let trunc := if deep then .brake else .hold;
        let truncAt := if (s.loop n).trunc = .none then some s.now else (s.loop n).truncAt;
        let u := (s.setLoop n { s.loop n with trunc, truncAt }).set (LP_STATUS.OST_ACT n) 1;
        let off := fun p : Pwm => if deep then .hiZ else if p = .high then .low else p;
        exec (.ostStart n vsns) s = .next (State.each (phasesIn u n 2)
          (fun t k => t.setPhase k { t.phase k with pwm := off (t.phase k).pwm })
          (if injecting s = some n.val then abortInjection u n 3 else u))) ∧
  (∀ (n : Fin 6) (vsns : Int) (s : State),
      s.get (LP_CTRL.OST_EN n) ≠ 1 ∨ loopPulses s n = false ∨ aboveRef s n vsns (s.get (LP_OST.THR n)) = false →
      exec (.ostStart n vsns) s = .next s) ∧
  (∀ (n : Fin 6) (vsns : Int) (s : State),
      let level : Int := ((dacNow s n + s.get (LP_OST.REL n) * 1000) * divider s n : Nat);
        ((s.loop n).trunc ≠ .none → vsns < level → exec (.ostRelease n vsns) s =
          .next ((s.setLoop n { s.loop n with trunc := .none, truncAt := none, quiet := 9 }).set (LP_STATUS.OST_ACT n)
            0)) ∧
        ((s.loop n).trunc = .none ∨ level ≤ vsns → exec (.ostRelease n vsns) s = .next s)) ∧
  (∀ (n : Fin 6) (s : State), ((s.loop n).truncAt = none → exec (.ostTimeout n) s = .next s) ∧
        (∀ t, (s.loop n).truncAt = some t →
            let u := s.expire (deadlineAt t (s.get (LP_OST.TMAX n)));
          exec (.ostTimeout n) s =
            .next (loopAlert (raise (u.setLoop n { u.loop n with truncAt := none }) (railEv (.lp n) 6 .fault)) n 1)))

/-- The integrated outputs, VDRV and AON18 start, limit, trip and discharge. A start ends in REGULATE when the setting
arrives, unless the discharge after a reset still holds it (R159, R167). A running output's current limit shows in
ILIM_ACT and is raised once, and its end clears the bit (R163); a short while in limit, after a switch's rise time,
trips the output as a FAULT and latches SHORTL, which CLRFLT clears (R164). An input below range clears VIN_OK, and
pauses a running BK with its WARNING; its return sets VIN_OK and restarts a PAUSED BK from the measured output (R165).
A discharge ends with the output OFF, or leaves a check that runs (R166); the discharge after a reset ends 10 ms after
it (R167). A RAILON's verdict accepts or refuses the enable, after that of a loop of lower index that started with it
(R103), or ends the RAILON of a rail that no check holds, with REVOKED where its claim was revoked (R209, R224). The
model's choices are REASON and ILIM_ACT after an accepted enable and a drain (log entry 84), an input that falls in
CHECK (log entry 130), and VDRV's and AON18's rows, which act only while the regulator is on (log entry 92): while
VDRV is on, a failure raises its CRITICAL at its deadline, tells the charger and switches every loop off; power good
arms the undervoltage test and is told to the charger, and its fall clears PG; its current limit shows in ILIM_ACT
with a WARNING at its start; a limit of 1 ms begins the hiccup, whose 4 ms end in a restart (R168). AON18's limit is
shown, and raised at its start, while it is on (R169) and the VSYS rails that feed the register and Foxglove are up
(R24, R524). In the other states the rows change nothing. Further choices of the model: an event that cannot happen in
the present state changes nothing (log entry 6), an expiry moves the device time to it (log entry 7), a rail that
fails is switched off (log entry 38), the device time has no bound (log entry 90), an LDO's setting starts at its
measured output (log entry 108). -/
def Obligations.OutputsRun : Prop :=
  (∀ (rail : Rail) (s : State), isOutput rail = true → s.get (railState rail) = 2 →
      (s.out (railCode rail)).startPending = false →
      exec (.outputStartEnd rail) s = .next
        (supEnterAll (notice ((s.expire (settingArrival s rail)).set (railState rail) 3)
        (railEv rail 0 .notice)) rail)) ∧
  (∀ (rail : Rail) (s : State),
      isOutput rail = false ∨ s.get (railState rail) ≠ 2 ∨ (s.out (railCode rail)).startPending = true →
      exec (.outputStartEnd rail) s = .next s) ∧
  (∀ (n : Fin 6) (s : State),
      (outputRuns s (.bk n) = true → s.get (BK_STATUS.ILIM_ACT n) ≠ 1 → exec (.bkIlim n) s =
          .next (raise (s.set (BK_STATUS.ILIM_ACT n) 1) (railEv (.bk n) 2 .warning))) ∧
        (outputRuns s (.bk n) = false ∨ s.get (BK_STATUS.ILIM_ACT n) = 1 → exec (.bkIlim n) s = .next s) ∧
        exec (.bkIlimEnd n) s = .next (s.set (BK_STATUS.ILIM_ACT n) 0)) ∧
  (∀ (rail : Rail) (s : State),
      (isLdoSw rail = true → outputRuns s rail = true → s.get (railIlim rail) ≠ 1 → exec (.ldoSwIlim rail) s =
          .next (raise (s.set (railIlim rail) 1) (railEv rail 2 .warning))) ∧
        (isLdoSw rail = false ∨ outputRuns s rail = false ∨ s.get (railIlim rail) = 1 →
          exec (.ldoSwIlim rail) s = .next s) ∧
        (isLdoSw rail = true → exec (.ldoSwIlimEnd rail) s = .next (s.set (railIlim rail) 0)) ∧
        (isLdoSw rail = false → exec (.ldoSwIlimEnd rail) s = .next s)) ∧
  (∀ (rail : Rail) (s : State),
      (outputRuns s rail = true → s.get (railIlim rail) = 1 → exec (.outputShort rail) s = .next
          (railFails (raise (setShortl (railOff (s.expire (shortAfter s rail)) rail) rail 1) (railEv rail 3 .fault))
            rail)) ∧
        (outputRuns s rail = false ∨ s.get (railIlim rail) ≠ 1 → exec (.outputShort rail) s = .next s)) ∧
  (∀ (k n : Fin 6) (m : Fin 8) (s : State),
      exec (.outputClrflt (.bk n)) s = .next (s.set (BK_STATUS.SHORTL n) 0) ∧
        exec (.outputClrflt (.ldo m)) s = .next (s.set (LDO_STATUS.SHORTL m) 0) ∧
        exec (.outputClrflt (.sw m)) s = .next (s.set (SW_STATUS.SHORTL m) 0) ∧
          exec (.outputClrflt (.lp k)) s = .next s) ∧
  (∀ (n : Fin 6) (s : State),
      let s0 := s.set (BK_STATUS.VIN_OK n) 0;
        (vsysRuns s = true → outputRuns s (.bk n) = true → exec (.bkVinUv n) s = .next (raise
          (((if s.get (BK_STATUS.STATE n) = 3 then supLeaveAll s0 (.bk n) else s0).set (BK_STATUS.ILIM_ACT n) 0).set
            (BK_STATUS.STATE n) 6) (railEv (.bk n) 4 .warning))) ∧
        (vsysRuns s = true → outputRuns s (.bk n) = false → exec (.bkVinUv n) s = .next s0) ∧
        (vsysRuns s = false → exec (.bkVinUv n) s = .next s)) ∧
  (∀ (n : Fin 6) (start : Nat) (s : State),
      let s0 := s.set (BK_STATUS.VIN_OK n) 1;
        let s1 := s0.set (BK_STATUS.STATE n) 2;
        (vsysRuns s = true → s.get (BK_STATUS.STATE n) = 6 → exec (.bkVinRestore n start) s =
          .next (if (s.out (railCode (.bk n))).startPending then s1 else startMotion s1 (.bk n) start)) ∧
        (vsysRuns s = true → s.get (BK_STATUS.STATE n) ≠ 6 → exec (.bkVinRestore n start) s = .next s0) ∧
        (vsysRuns s = false → exec (.bkVinRestore n start) s = .next s)) ∧
  (∀ (rail : Rail) (s : State), isOutput rail = true →
      let o := s.out (railCode rail);
        let s1 := s.setOut (railCode rail)
          { o with disch := s.vdrv.resetDischarge, forced := false, drainAt := none, left := 0 };
        (s.get (railState rail) = 5 → exec (.dischargeEnd rail) s = .next (s1.set (railState rail) 0)) ∧
        (s.get (railState rail) = 1 → o.left = 5 → exec (.dischargeEnd rail) s = .next s1) ∧
        (s.get (railState rail) ≠ 5 → s.get (railState rail) ≠ 1 ∨ o.left ≠ 5 →
          exec (.dischargeEnd rail) s = .next s)) ∧
  (∀ (n : Fin 6) (s : State), exec (.dischargeEnd (.lp n)) s = .next s) ∧
  (∀ (measured : List Nat) (s : State),
      (s.vdrv.resetEnd = none → exec (.resetDischargeEnd measured) s = .next s) ∧
        (∀ t, s.vdrv.resetEnd = some t →
            let s0 := s.expire (t + 1000000);
          let s1 := { s0 with vdrv := { s0.vdrv with resetDischarge := false, resetEnd := none } };
          exec (.resetDischargeEnd measured) s =
            .next (State.each (allRails.filter isOutput) (endResetDischarge measured) s1))) ∧
  (∀ (rail : Rail) (vin start : Nat) (s : State), checkWaits s rail = false → s.get (railState rail) = 1 →
      s.get (railEn rail) = 1 → exec (.railonVerdict rail vin start) s = .next (completeRailon
        (if railReasonCode s vin rail = 0 then acceptRail s rail start else refuseRail s rail
          (railReasonCode s vin rail))
          rail (railReasonCode s vin rail))) ∧
  (∀ (rail : Rail) (vin start : Nat) (s : State),
      (checkWaits s rail = true → exec (.railonVerdict rail vin start) s = .next s) ∧
        (checkWaits s rail = false → s.get (railState rail) ≠ 1 ∨ s.get (railEn rail) ≠ 1 →
          exec (.railonVerdict rail vin start) s =
            .next (endRailons s rail fun s e t => if stillCovered s e t rail then 0 else 0x86))) ∧
  (∀ (s : State), s.vdrv.on = true →
      let u := raise ((s.expire (vdrvUvAt s)).set VDRV_STATUS.PG 0) (vdrvEv 0 .critical);
        exec .vdrvUv s = .next
          (loopsOff (chgRefresh (u.setChg { u.charger with vdrvLost := true, switching := false })))) ∧
  (∀ (s : State), s.vdrv.on = true → s.get VDRV_STATUS.ILIM_ACT = 1 →
      let u := s.expire (s.vdrv.limAt + 100000);
        exec .vdrvHiccup s = .next
          (((u.setVdrv { u.vdrv with hiccup := true, offAt := u.now, lowAt := some (u.vdrv.lowAt.getD u.now) }).set
          VDRV_STATUS.PG 0).set VDRV_STATUS.ILIM_ACT 0)) ∧
  (∀ (s : State),
      let u := s.expire (s.vdrv.offAt + 400000);
        (s.vdrv.hiccup = true → exec .vdrvRestart s =
          .next (u.setVdrv { u.vdrv with hiccup := false, armed := false, startAt := u.now, lowAt := none })) ∧
        (s.vdrv.hiccup = false → exec .vdrvRestart s = .next s)) ∧
  (∀ (s : State), s.vdrv.on = true → s.vdrv.hiccup = false →
      let u := (s.setVdrv { s.vdrv with armed := true, lowAt := none }).set VDRV_STATUS.PG 1;
        exec (.vdrvPowerGood true) s = .next (chgRefresh (u.setChg { u.charger with vdrvLost := false }))) ∧
  (∀ (s : State), s.vdrv.on = true → (s.get VDRV_STATUS.PG = 1 → exec (.vdrvPowerGood false) s =
          .next ((s.setVdrv { s.vdrv with lowAt := some s.now }).set VDRV_STATUS.PG 0)) ∧
        (s.get VDRV_STATUS.PG ≠ 1 → exec (.vdrvPowerGood false) s = .next s) ∧
        (s.vdrv.hiccup = true → exec (.vdrvPowerGood true) s = .next s) ∧
        (s.vdrv.hiccup = false → s.get VDRV_STATUS.ILIM_ACT ≠ 1 → exec (.vdrvIlim true) s =
          .next (raise ((s.setVdrv { s.vdrv with limAt := s.now }).set VDRV_STATUS.ILIM_ACT 1) (vdrvEv 1 .warning))) ∧
        (s.vdrv.hiccup = false → s.get VDRV_STATUS.ILIM_ACT = 1 → exec (.vdrvIlim false) s =
          .next (s.set VDRV_STATUS.ILIM_ACT 0)) ∧
        (s.vdrv.hiccup = true → ∀ active, exec (.vdrvIlim active) s = .next s) ∧
        (s.get VDRV_STATUS.ILIM_ACT ≠ 1 → exec .vdrvHiccup s = .next s)) ∧
  (∀ (good active : Bool) (s : State), s.vdrv.on = false →
      exec .vdrvUv s = .next s ∧ exec .vdrvHiccup s = .next s ∧ exec (.vdrvPowerGood good) s = .next s ∧
        exec (.vdrvIlim active) s = .next s) ∧
  (∀ (s : State),
      (aon18On s = true → vsysRuns s = true → s.get AON_STATUS.ILIM_ACT ≠ 1 →
        exec (.aon18Ilim true) s = .next (raise (s.set AON_STATUS.ILIM_ACT 1)
          { evt := AON_STATUS.EVT, bit := 0, src := 0x067, line := 20, cls := .warning })) ∧
        (aon18On s = true → vsysRuns s = true → s.get AON_STATUS.ILIM_ACT = 1 →
          exec (.aon18Ilim false) s = .next (s.set AON_STATUS.ILIM_ACT 0)) ∧
        (aon18On s = false ∨ vsysRuns s = false → ∀ active, exec (.aon18Ilim active) s = .next s) ∧
        (s.get AON_STATUS.ILIM_ACT = 1 → exec (.aon18Ilim true) s = .next s) ∧
        (s.get AON_STATUS.ILIM_ACT ≠ 1 → exec (.aon18Ilim false) s = .next s))

/-- The window channels sample, settle and are checked. A running channel takes its sample, cut at its source's full
scale, and judges it (R176, R180); PGS rises when the settle time has run with PG at 1 (R183); TRACK refreshes the
nominal of a bound channel (R176); an enable is accepted or refused with its reason and channel, and where the
channels do not serve (log entry 117) or on an enabled channel it is ignored (R188, R191); a disable begins the drain,
with DETACHED where an enabled output names the channel (R190). The self-check checks the next enabled channel while
SUP_CHK.EN is 1, and the comparators of FREE phases, and that of an ACTIVE phase, in its off-time, has its own row
(R192, R195, R196; a FREE phase's check whatever SUP_CHK.EN reads, and the drain, are log entry 83, and the one
reading of R184's CHATTER log entry 129). In the other states the rows change nothing. Further choices of the model:
an event that cannot happen in the present state changes nothing (log entry 6), an expiry moves the device time to it
(log entry 7), the number of an event bit (log entry 13), the device time has no bound (log entry 90). -/
def Obligations.SupervisionChannels : Prop :=
  (∀ (n : Fin 64) (uv : Nat) (s : State), supRuns s n = true →
      exec (.supSample n uv) s = .next (applySample s n (takeSample s n uv)) ∧
        takeSample s n uv = takeSample s n (withinScale s n uv)) ∧
  (∀ (n : Fin 64) (uv : Nat) (s : State), supRuns s n = false →
      exec (.supSample n uv) s = .next s ∧ exec (.supTrackRefresh n) s = .next s ∧ exec (.supDisable n) s = .next s) ∧
  (∀ (n : Fin 64) (s : State),
      (∀ t, (s.supCh n).pgSince = some t → s.get (SUP_STAT.PG n) = 1 → s.get (SUP_STAT.PGS n) ≠ 1 →
          exec (.supSettleEnd n) s = .next (pgsReached (s.expire (deadlineAt t (settleUs s n))) n)) ∧
        ((s.supCh n).pgSince = none ∨ s.get (SUP_STAT.PG n) ≠ 1 ∨ s.get (SUP_STAT.PGS n) = 1 →
          exec (.supSettleEnd n) s = .next s)) ∧
  (∀ (n : Fin 64) (s : State), supRuns s n = true →
      (∀ r, s.get (SUP_CFG.TRACK n) = 1 → trackRail s n = some r →
          exec (.supTrackRefresh n) s = .next (s.setSup n { s.supCh n with vn := trackedUv s r })) ∧
        (s.get (SUP_CFG.TRACK n) ≠ 1 ∨ trackRail s n = none → exec (.supTrackRefresh n) s = .next s)) ∧
  (∀ (n : Fin 64) (s : State),
      (s.get (SUP_CFG.EN n) = 1 ∨ servesAt s 2 = false → exec (.supEnable n) s = .next s) ∧
        (s.get (SUP_CFG.EN n) ≠ 1 → servesAt s 2 = true → supReason s n = 0 →
          exec (.supEnable n) s = .next (supStart s n)) ∧
        (s.get (SUP_CFG.EN n) ≠ 1 → servesAt s 2 = true → supReason s n ≠ 0 → exec (.supEnable n) s =
          .next ((s.set SUP_STATUS.REASON (supReason s n)).set SUP_STATUS.RCH n))) ∧
  (∀ (n : Fin 64) (s : State), supRuns s n = true →
      let s1 := (clearSupStat s n).setSup n { draining := true, settled := (s.supCh n).settled };
        exec (.supDisable n) s = .next (if namedByEnabled s n then raise s1 (supEv s n 6 .warning) else s1)) ∧
  (∀ (pass : Bool) (freeFail : BitVec 20) (s : State),
      (∀ n, s.get SUP_CHK.EN = 1 → nextEnabled s (s.get SUP_CHK.NEXT) = some n →
        exec (.supSelfCheck pass freeFail) s =
          .next (State.each ((List.range 20).filter fun k => vsysRuns s && decide (s.get (PH_STATUS.STATE k) = 0) &&
            freeFail.getLsbD k) cmpFails (supChecked s n pass))) ∧
        (s.get SUP_CHK.EN ≠ 1 ∨ nextEnabled s (s.get SUP_CHK.NEXT) = none → exec (.supSelfCheck pass freeFail) s =
          .next (State.each ((List.range 20).filter fun k => vsysRuns s && decide (s.get (PH_STATUS.STATE k) = 0) &&
            freeFail.getLsbD k) cmpFails s))) ∧
  (∀ (k : Fin 20) (pass : Bool) (s : State),
      (vsysRuns s = true → s.get (PH_STATUS.STATE k) = 2 → (s.phase k).pwm ≠ .high →
          exec (.cmpSelfCheck k false) s = .next (cmpFails s k)) ∧
        (vsysRuns s = false ∨ s.get (PH_STATUS.STATE k) ≠ 2 ∨ (s.phase k).pwm = .high ∨ pass = true →
          exec (.cmpSelfCheck k pass) s = .next s))

/-- Each VCL transaction executes or refuses its command, and a port is enabled, held and drained. RACK = 1 first
releases the acknowledgement shown last (R150). SETV, and PSTATE with the preset's VID and slew (R139), set a target
or are refused with the first code of Table 4.7 that applies, PORT_OFF before all others (R143, R153); a full queue
raises a warning as well. SETSLEW sets DSLEW, GETV and GETI answer with their DATA (R140 to R142), a reserved CMD is
refused with BAD_CMD (R138), and a frame with a bad CRC executes nothing and ignores RACK (R137). Every such
transaction ends with the response and the acknowledgement frame of the port, and its frame names the command by
Tables 4.3 and 4.4. A stall adds 1 to FRAMERR and raises VCL_FRAME, and a late one counts the acknowledgement as not
delivered (R134). A missed arrival deadline raises VCL_DEADLINE once, and the transition stays in flight (R149). An
enable that is refused leaves its reason, an enabled port ignores it, a disable starts the drain (R130, R153), and a
changed HOLD latches the alert flag that AMASK allows (R154, R151); an accepted enable takes the loop's slew, sets EN
and latches the alert flag of the first enable. A port that VSYS or VIO_VCL does not feed answers nothing, and none is
enabled where the level has no port (R24, R514; log entries 117 and 126). The order of the codes is the model's
reading (log entry 46), and so are the VID of a NONE frame, a free value, with the late stall (log entry 47), the
rounding and the DATA fields that the spec leaves open and REASON after an accepted enable (log entry 124), SETSLEW's
slew of 0 and the release before the check (log entry 133). Further choices of the model: a frame comes whole (log
entry 5). -/
def Obligations.VclTransactions : Prop :=
  (∀ (p : Fin 2) (rack : Bool) (tag : BitVec 2) (vid : BitVec 12) (slew : BitVec 9) (s : State),
      targetCode (releaseAck s p rack) p vid.toNat slew.toNat false false = 0 → portAnswers s = true →
      let v := releaseAck s p rack;
      exec (.vclSetv p rack tag vid slew) s = .next
        (endTransaction (acceptTarget v p tag.toNat vid.toNat
        (if slew.toNat = 0 then v.get (VCL_STATUS.DSLEW p) else slew.toNat)).1 p tag.toNat
        (acceptTarget v p tag.toNat vid.toNat (if slew.toNat = 0 then v.get (VCL_STATUS.DSLEW p) else slew.toNat)).2))
        ∧
  (∀ (p : Fin 2) (rack : Bool) (tag : BitVec 2) (vid : BitVec 12) (slew : BitVec 9) (s : State),
      targetCode (releaseAck s p rack) p vid.toNat slew.toNat false false ≠ 0 →
      targetCode (releaseAck s p rack) p vid.toNat slew.toNat false false ≠ 0x19 → portAnswers s = true →
      let v := releaseAck s p rack;
      let c := targetCode v p vid.toNat slew.toNat false false;
      exec (.vclSetv p rack tag vid slew) s = .next (endTransaction (refuseFrame v p c) p tag.toNat (refused c))) ∧
  (∀ (p : Fin 2) (rack : Bool) (tag : BitVec 2) (vid : BitVec 12) (slew : BitVec 9) (s : State),
      targetCode (releaseAck s p rack) p vid.toNat slew.toNat false false = 0x19 → portAnswers s = true →
      let v := releaseAck s p rack;
      exec (.vclSetv p rack tag vid slew) s = .next
        (endTransaction (raise (refuseFrame v p 0x19) (vclEv p 5 .warning)) p tag.toNat (refused 0x19))) ∧
  (∀ (p : Fin 2) (rack : Bool) (tag : BitVec 2) (q : Fin 4) (z : BitVec 19) (s : State), portAnswers s = true →
      let v := releaseAck s p rack;
      exec (.vclPstate p rack tag q z) s = .next
        (endTransaction (newTarget v p tag.toNat (v.get (VCL_PST.VID p q)) (v.get (VCL_PST.SLEW p q)) (decide (z ≠ 0))
        (decide (v.get (VCL_PST.VALID p q) ≠ 1))).1 p tag.toNat
        (newTarget v p tag.toNat (v.get (VCL_PST.VID p q)) (v.get (VCL_PST.SLEW p q)) (decide (z ≠ 0))
        (decide (v.get (VCL_PST.VALID p q) ≠ 1))).2)) ∧
  (∀ (p : Fin 2) (rack : Bool) (tag : BitVec 2) (slew : BitVec 9) (s : State),
      (releaseAck s p rack).get (VCL_CTRL.EN p) = 1 → 5 ≤ slew.toNat → slew.toNat ≤ 400 → portAnswers s = true →
      let v := releaseAck s p rack;
      exec (.vclSetslew p rack tag slew 0) s = .next
        (endTransaction (v.set (VCL_STATUS.DSLEW p) slew.toNat) p tag.toNat { code := 1, data := slew.toNat * 2 })) ∧
  (∀ (p : Fin 2) (rack : Bool) (tag : BitVec 2) (slew : BitVec 9) (z : BitVec 12) (s : State),
      z ≠ 0 ∨ (releaseAck s p rack).get (VCL_CTRL.EN p) ≠ 1 ∨ slew.toNat < 5 ∨ 400 < slew.toNat →
      portAnswers s = true →
      let v := releaseAck s p rack;
      let c := if v.get (VCL_CTRL.EN p) ≠ 1 then 0x12 else if z ≠ 0 then 0x11 else 0x13;
      exec (.vclSetslew p rack tag slew z) s = .next (endTransaction (refuseFrame v p c) p tag.toNat (refused c))) ∧
  (∀ (p : Fin 2) (rack : Bool) (tag : BitVec 2) (vsns : Int) (s : State),
      (releaseAck s p rack).get (VCL_CTRL.EN p) = 1 → portAnswers s = true →
      let v := releaseAck s p rack;
      exec (.vclGetv p rack tag 0 vsns) s = .next
        (endTransaction v p tag.toNat { code := 7, data := getvData v p vsns }) ∧
        exec (.vclGeti p rack tag 0) s = .next (endTransaction v p tag.toNat { code := 7, data := getiData v p })) ∧
  (∀ (p : Fin 2) (rack : Bool) (tag : BitVec 2) (z : BitVec 21) (vsns : Int) (s : State),
      z ≠ 0 ∨ (releaseAck s p rack).get (VCL_CTRL.EN p) ≠ 1 → portAnswers s = true →
      let v := releaseAck s p rack;
      let c := if v.get (VCL_CTRL.EN p) ≠ 1 then 0x12 else 0x11;
      exec (.vclGetv p rack tag z vsns) s = .next (endTransaction (refuseFrame v p c) p tag.toNat (refused c)) ∧
        exec (.vclGeti p rack tag z) s = .next (endTransaction (refuseFrame v p c) p tag.toNat (refused c))) ∧
  (∀ (p : Fin 2) (rack : Bool) (tag : BitVec 2) (s : State), portAnswers s = true →
      let v := releaseAck s p rack;
      let c := if v.get (VCL_CTRL.EN p) = 1 then 0x10 else 0x12;
      exec (.vclBadCmd p rack tag) s = .next (endTransaction (refuseFrame v p c) p tag.toNat (refused c))) ∧
  (∀ (s : State) (p vid slew : Nat) (argBad unset : Bool),
      (s.get (VCL_CTRL.EN p) ≠ 1 → targetCode s p vid slew argBad unset = 0x12) ∧
        (s.get (VCL_CTRL.EN p) = 1 → argBad = true → targetCode s p vid slew argBad unset = 0x11) ∧
        (targetCode s p vid slew argBad unset = 0 → s.get (VCL_CTRL.EN p) = 1 ∧ argBad = false ∧ unset = false ∧
          (slew = 0 ∨ 5 ≤ slew ∧ slew ≤ 400) ∧ vid ≤ s.get (LP_VCFG.VMAX (boundLoop s p)) ∧
            s.get (VCL_CTRL.HOLD p) ≠ 1 ∧
          s.get (LP_STATUS.STATE (boundLoop s p)) ∉ [0, 1, 2, 3, 5])) ∧
  (∀ (p : Fin 2) (f : Nat) (vsns : Int), (withCrc f ≠ f → vclCommand p f vsns = .vclCrcError p) ∧
        (withCrc f = f → bitsOf f 28 4 = 0 ∨ 5 < bitsOf f 28 4 →
          vclCommand p f vsns = .vclBadCmd p (decide (bitOf f 27 = 1)) (BitVec.ofNat 2 (f / 2 ^ 25))) ∧
        vclCommand p 0x1CE88142 vsns = .vclSetv p true 2 0x744 20) ∧
  (∀ (p : Fin 2) (s : State), portAnswers s = true →
      exec (.vclCrcError p) s = .next
        (endTransaction (notice (s.addWrap (VCL_CNT3.CRCERR p) 1) (vclEv p 1 .notice)) p 0 { code := 6, data := 0 }))
        ∧
  (∀ (p : Fin 2) (rack late : Bool) (tag : BitVec 2) (vid z : BitVec 12) (slew : BitVec 9) (q : Fin 4) (x : BitVec 19)
    (y : BitVec 21) (vsns : Int) (s : State),
      portAnswers s = false →
      exec (.vclSetv p rack tag vid slew) s = .next s ∧ exec (.vclPstate p rack tag q x) s = .next s ∧
        exec (.vclSetslew p rack tag slew z) s = .next s ∧ exec (.vclGetv p rack tag y vsns) s = .next s ∧
        exec (.vclGeti p rack tag y) s = .next s ∧ exec (.vclBadCmd p rack tag) s = .next s ∧
        exec (.vclCrcError p) s = .next s ∧ exec (.vclStall p late) s = .next s) ∧
  (∀ (p tag : Nat) (r : Response) (s : State),
      ((endTransaction s p tag r).port p).resp = responseFrame r.code tag r.data ∧
        ((endTransaction s p tag r).port p).ack = ackFrame s p ∧
        ((endTransaction s p tag r).port p).queue = (s.port p).queue ∧
        ((endTransaction s p tag r).port p).flight = (s.port p).flight ∧ (endTransaction s p tag r).regs = s.regs) ∧
  (∀ (p : Fin 2) (s : State), portAnswers s = true →
      exec (.vclStall p false) s = .next (notice (s.addWrap (VCL_CNT3.FRAMERR p) 1) (vclEv p 2 .notice)) ∧
        exec (.vclStall p true) s = .next
        (notice ((s.setPort p { s.port p with shown := none }).addWrap (VCL_CNT3.FRAMERR p) 1) (vclEv p 2 .notice))) ∧
  (∀ (p : Fin 2) (f : VclFlight) (s : State), (s.port p).flight = some f → f.missed = false →
      ∃ u : State, u = (s.expire f.deadline).setPort p { s.port p with flight := some { f with missed := true } } ∧
        exec (.vclDeadline p) s = .next (raise (u.addWrap (VCL_CNT2.DEADLINE p) 1) (vclEv p 4 .fault))) ∧
  (∀ (p : Fin 2) (s : State), (∀ f, (s.port p).flight = some f → f.missed = true) →
      exec (.vclDeadline p) s = .next s) ∧
  (∀ (p : Fin 2) (s : State), s.get (VCL_CTRL.EN p) = 1 →
      exec (.vclPortEnable p) s = .next s ∧ exec (.vclPortDisable p) s = .next
        (s.setPort p { s.port p with draining := true })) ∧
  (∀ (p : Fin 2) (s : State), s.get (VCL_CTRL.EN p) ≠ 1 →
      exec (.vclPortDisable p) s = .next s ∧ (servesFrom s 3 = true → portReason s p ≠ 0 →
        exec (.vclPortEnable p) s = .next (notice (s.set (VCL_STATUS.REASON p) (portReason s p)) (vclEv p 6 .notice)))
        ∧ (servesFrom s 3 = false → exec (.vclPortEnable p) s = .next s)) ∧
  (∀ (p : Fin 2) (s : State), s.get (VCL_CTRL.EN p) ≠ 1 → servesFrom s 3 = true → portReason s p = 0 →
      let s1 := (s.set (VCL_STATUS.DSLEW p) (s.get (LP_SLEW.SLEW (boundLoop s p)))).setPort p
        { s.port p with enabled := true };
      exec (.vclPortEnable p) s = .next
        (notice ((if (s.port p).enabled then s1 else vclAlert s1 p 5).set (VCL_CTRL.EN p) 1) (vclEv p 6 .notice))) ∧
  (∀ (p : Fin 2) (hold : Bool) (s : State), s.get (VCL_CTRL.HOLD p) = (if hold then 1 else 0) →
      exec (.vclHold p hold) s = .next s) ∧
  (∀ (p : Fin 2) (hold : Bool) (s : State), s.get (VCL_CTRL.HOLD p) = (if hold then 0 else 1) →
      vsysRuns s = true →
      exec (.vclHold p hold) s = .next (vclAlert (s.set (VCL_CTRL.HOLD p) (if hold then 1 else 0)) p 0)) ∧
  (∀ (p : Fin 2) (hold : Bool) (s : State), vsysRuns s = false → exec (.vclHold p hold) s = .next s)

/-- SETSLEW sets the default slew of later frames alone, and an enable takes the loop's slew. A SETSLEW that is not
refused leaves its slew in DSLEW, and the transition in flight and every loop stay as they are; a SETV with slew 0 is
the SETV with DSLEW, wherever DSLEW lies from 5 to 400; a port enable that is accepted leaves LPn_SLEW.SLEW in DSLEW,
which has the same 9 bits. A port serves where VSYS and VIO_VCL feed it (log entry 126) and is enabled where its level
has it (log entry 117). Further choices of the model: REASON after an accepted enable (log entry 124), a slew of 0
(log entry 133). -/
def Obligations.VclDefaultSlew : Prop :=
  (∀ (p : Fin 2) (rack : Bool) (tag : BitVec 2) (slew : BitVec 9) (s : State), portAnswers s = true →
      s.get (VCL_CTRL.EN p) = 1 → 5 ≤ slew.toNat → slew.toNat ≤ 400 →
      ∃ t, exec (.vclSetslew p rack tag slew 0) s = .next t ∧ t.get (VCL_STATUS.DSLEW p) = slew.toNat ∧
        (t.port p).flight = (s.port p).flight ∧ t.loops = s.loops ∧ ∀ n : Fin 6,
        t.get (LP_VREF.TARGET n) = s.get (LP_VREF.TARGET n)) ∧
  (∀ (p : Fin 2) (rack : Bool) (tag : BitVec 2) (vid : BitVec 12) (slew : BitVec 9) (s : State),
      s.get (VCL_STATUS.DSLEW p) = slew.toNat → 5 ≤ slew.toNat → slew.toNat ≤ 400 →
      exec (.vclSetv p rack tag vid 0) s = exec (.vclSetv p rack tag vid slew) s) ∧
  (∀ (p : Fin 2) (rack : Bool) (tag : BitVec 2) (q : Fin 4) (vid : BitVec 12) (slew : BitVec 9) (s : State),
      s.get (VCL_PST.VALID p q) = 1 → s.get (VCL_PST.VID p q) = vid.toNat →
      s.get (VCL_PST.SLEW p q) = slew.toNat →
      exec (.vclPstate p rack tag q 0) s = exec (.vclSetv p rack tag vid slew) s) ∧
  (∀ (p : Fin 2) (s : State), s.get (VCL_CTRL.EN p) ≠ 1 → servesFrom s 3 = true → portReason s p = 0 →
      s.get (LP_SLEW.SLEW (boundLoop s p)) < 2 ^ 9 →
      ∃ t, exec (.vclPortEnable p) s = .next t ∧ t.get (VCL_STATUS.DSLEW p) = s.get (LP_SLEW.SLEW (boundLoop s p)) ∧
        t.get (VCL_CTRL.EN p) = 1)

/-- An instruction runs only where a task runs, its word reads and its address lies in the code. Every command that is
a Camast instruction (camastWord) goes through this one issue, whatever its effect, with the word that Table 7.3 gives
it, and acts only where program memory holds that word at the program counter (the model's choice, log entry 57). For
each of them: an engine without a running task executes nothing, nor does one whose word at the program counter is
another; a triple error halts the engine, which drains (R202); an address at or beyond the code raises ILLEGAL (Table
7.8); otherwise the instruction has its effect with the program counter at the next instruction, and a corrected read
is counted (R202). -/
def Obligations.InstructionIssue : Prop :=
  (∀ (c : Instr) (i : Issue) (w : Nat), camastWord c = some (i, w) →
      ∃ body : State → Nat → Task → State, ∀ s, exec c s = issue i w s body) ∧
  (∀ (c : Instr) (i : Issue) (w : Nat) (s : State), camastWord c = some (i, w) → running s i.eng = none →
      exec c s = .next s) ∧
  (∀ (c : Instr) (i : Issue) (w : Nat) (s : State) (t : Nat) (x : Task), camastWord c = some (i, w) →
      running s i.eng = some (t, x) → (i.fetch = .triple → exec c s = .next (memErr (issued i s t x) i.eng t)) ∧
        (i.fetch ≠ .triple → s.get CAM_IMG_STATUS.CODE_LEN ≤ x.pc →
          exec c s = .next (takeExc (issued i s t x) i.eng t 5)) ∧
        (i.fetch ≠ .triple → x.pc < s.get CAM_IMG_STATUS.CODE_LEN → s.word (progAddr x.pc) ≠ w →
          exec c s = .next s)) ∧
  (∀ (i : Issue) (w : Nat) (s : State) (body : State → Nat → Task → State), running s i.eng = none →
      issue i w s body = .next s) ∧
  (∀ (i : Issue) (w : Nat) (s : State) (t : Nat) (x : Task) (body : State → Nat → Task → State),
      running s i.eng = some (t, x) → i.fetch = .triple →
      issue i w s body = .next (memErr (issued i s t x) i.eng t)) ∧
  (∀ (i : Issue) (w : Nat) (s : State) (t : Nat) (x : Task) (body : State → Nat → Task → State),
      running s i.eng = some (t, x) → i.fetch ≠ .triple → s.get CAM_IMG_STATUS.CODE_LEN ≤ x.pc →
      issue i w s body = .next (takeExc (issued i s t x) i.eng t 5)) ∧
  (∀ (i : Issue) (w : Nat) (s : State) (t : Nat) (x : Task) (body : State → Nat → Task → State),
      running s i.eng = some (t, x) → i.fetch ≠ .triple → x.pc < s.get CAM_IMG_STATUS.CODE_LEN →
      s.word (progAddr x.pc) ≠ w → issue i w s body = .next s) ∧
  (∀ (i : Issue) (w : Nat) (s : State) (t : Nat) (x : Task) (body : State → Nat → Task → State),
      Runs i w s t x → issue i w s body = .next (body (issued i s t x) t x.advanced)) ∧
  (∀ (i : Issue) (s : State) (t : Nat) (x : Task),
      (issued i s t x).get CAM_IMG_MEMERR.COUNT =
        (if i.fetch = .corrected then min (s.get CAM_IMG_MEMERR.COUNT + 1) (2 ^ CAM_IMG_MEMERR.COUNT.width - 1) else
        s.get CAM_IMG_MEMERR.COUNT) ∧ (∀ f : Field, f.key ≠ CAM_IMG_MEMERR.COUNT.key →
        (issued i s t x).get f = s.get f) ∧ SameMemory s (issued i s t x))

/-- MOV, ADD, SUB, AND, OR, CMP and SHR give their result and flags. The result is written modulo 2^32, Z and N come
from it, C is the carry, the borrow or the last bit shifted out, and MOV, AND and OR leave C as it is; CMP is a SUB
that writes no register; D, T, the other registers and the rest of the machine stay as they are, but for the task and
a corrected read; a constant whose word reads with a triple error halts the engine instead, as the instruction's own
word does (R202). The instruction runs where program memory holds its word (the model's choice, log entry 57). The
register form of SHR counts by Wt[4:0]. Immediates are sign-extended for MOV, ADD, SUB and CMP and zero-extended for
AND and OR (R207). -/
def Obligations.ArithmeticResults : Prop :=
  (∀ (i : Issue) (wd ws : Fin 16) (s : State) (t : Nat) (x : Task), Runs i (movRegWord wd ws) s t x →
      ∃ z, exec (.movReg i wd ws) s = .next ((issued i s t x).setTask i.eng t z) ∧ Wrote x z wd (x.reg ws) ∧
        z.c = x.c) ∧
  (∀ (i : Issue) (wd : Fin 16) (imm : BitVec 22) (s : State) (t : Nat) (x : Task),
      Runs i (movImmWord wd imm) s t x →
      ∃ z, exec (.movImm i wd imm) s = .next ((issued i s t x).setTask i.eng t z) ∧
        Wrote x z wd (signExt 22 imm.toNat) ∧ z.c = x.c) ∧
  (∀ (i : Issue) (wd : Fin 16) (k : BitVec 13) (read : Fetch) (s : State) (t : Nat) (x : Task),
      Runs i (movConstWord wd k) s t x → read ≠ .triple →
      ∃ z, exec (.movConst i wd k read) s = .next ((fetched (issued i s t x) read).setTask i.eng t z) ∧
        Wrote x z wd (constWord (issued i s t x) k.toNat) ∧ z.c = x.c) ∧
  (∀ (i : Issue) (wd : Fin 16) (k : BitVec 13) (s : State) (t : Nat) (x : Task),
      Runs i (movConstWord wd k) s t x →
      exec (.movConst i wd k .triple) s = .next (memErr (issued i s t x) i.eng t)) ∧
  (∀ (i : Issue) (wd ws : Fin 16) (src : AluSrc) (s : State) (t : Nat) (x : Task),
      Runs i (aluWord 0x1B wd ws src) s t x →
      ∃ z, exec (.add i wd ws src) s = .next ((issued i s t x).setTask i.eng t z) ∧
        Wrote x z wd (x.reg ws + arithOperand x src) ∧ z.c = decide (2 ^ 32 ≤ x.reg ws + arithOperand x src)) ∧
  (∀ (i : Issue) (wd ws : Fin 16) (src : AluSrc) (s : State) (t : Nat) (x : Task),
      Runs i (aluWord 0x1C wd ws src) s t x →
      ∃ z, exec (.sub i wd ws src) s = .next ((issued i s t x).setTask i.eng t z) ∧
        Wrote x z wd (x.reg ws + 2 ^ 32 - arithOperand x src) ∧ z.c = decide (x.reg ws < arithOperand x src)) ∧
  (∀ (i : Issue) (wd ws : Fin 16) (src : AluSrc) (s : State) (t : Nat) (x : Task),
      Runs i (aluWord 0x1D wd ws src) s t x →
      ∃ z, exec (.and i wd ws src) s = .next ((issued i s t x).setTask i.eng t z) ∧
        Wrote x z wd (x.reg ws &&& logicOperand x src) ∧ z.c = x.c) ∧
  (∀ (i : Issue) (wd ws : Fin 16) (src : AluSrc) (s : State) (t : Nat) (x : Task),
      Runs i (aluWord 0x1E wd ws src) s t x →
      ∃ z, exec (.or i wd ws src) s = .next ((issued i s t x).setTask i.eng t z) ∧
        Wrote x z wd (x.reg ws ||| logicOperand x src) ∧ z.c = x.c) ∧
  (∀ (i : Issue) (ws : Fin 16) (src : AluSrc) (s : State) (t : Nat) (x : Task), Runs i (cmpWord ws src) s t x →
      ∃ z, exec (.cmp i ws src) s = .next ((issued i s t x).setTask i.eng t z) ∧
        z = { x.advanced with z := decide (subWord (x.reg ws) (arithOperand x src) = 0), n := decide (2 ^ 31 ≤ subWord (x.reg ws) (arithOperand x src)), c := decide (x.reg ws < arithOperand x src) }) ∧
  (∀ (i : Issue) (wd ws wt : Fin 16) (s : State) (t : Nat) (x : Task), Runs i (shrWord wd ws (.reg wt)) s t x →
      ∃ z, exec (.shr i wd ws (.reg wt)) s = .next ((issued i s t x).setTask i.eng t z) ∧
        Wrote x z wd (x.reg ws / 2 ^ (x.reg wt % 32)) ∧
        z.c = (if (x.reg wt % 32) = 0 then x.c else (x.reg ws).testBit ((x.reg wt % 32) - 1))) ∧
  (∀ (i : Issue) (wd ws : Fin 16) (n : BitVec 5) (s : State) (t : Nat) (x : Task),
      Runs i (shrWord wd ws (.imm n)) s t x →
      ∃ z, exec (.shr i wd ws (.imm n)) s = .next ((issued i s t x).setTask i.eng t z) ∧
        Wrote x z wd (x.reg ws / 2 ^ n.toNat) ∧ z.c = (if n.toNat = 0 then x.c else (x.reg ws).testBit (n.toNat - 1)))

/-- JMP, Bcc, CALL, RET, TASK, YIELD and an idle engine act as R207, R230, R231 and R234 say. Targets are absolute
(R207). CALL pushes the address of the next instruction, or raises STACK with 8 entries on the stack; RET pops, or
ends the task (R230). TASK starts an IDLE or FAULTED task with W0 to W15 at 0, flags clear and an empty stack; TASK 15
raises ILLEGAL (R231). YIELD is a scheduling point, and a task that holds a revoked claim enters REVOKED there (R234,
R224). An instruction runs where program memory holds its word (the model's choice, log entry 57). -/
def Obligations.FlowInstructions : Prop :=
  (∀ (i : Issue) (target : BitVec 13) (s : State) (t : Nat) (x : Task), Runs i (jmpWord target) s t x →
      let u := issued i s t x;
      exec (.jmp i target) s = .next (u.setTask i.eng t { x.advanced with pc := target.toNat })) ∧
  (∀ (i : Issue) (cond : Cond) (target : BitVec 13) (s : State) (t : Nat) (x : Task),
      Runs i (bccWord cond target) s t x →
      let u := issued i s t x;
      exec (.bcc i cond target) s = .next
        (u.setTask i.eng t { x.advanced with pc := if condMet x cond then target.toNat else x.pc + 1 })) ∧
  (∀ (i : Issue) (target : BitVec 13) (s : State) (t : Nat) (x : Task), Runs i (callWord target) s t x →
      x.stack.length < 8 →
      let u := issued i s t x;
      exec (.call i target) s = .next
        (u.setTask i.eng t { x.advanced with stack := (x.pc + 1) :: x.stack, pc := target.toNat })) ∧
  (∀ (i : Issue) (target : BitVec 13) (s : State) (t : Nat) (x : Task), Runs i (callWord target) s t x →
      8 ≤ x.stack.length →
      let u := issued i s t x;
      exec (.call i target) s = .next (takeExc u i.eng t 6)) ∧
  (∀ (i : Issue) (a : Nat) (rest : List Nat) (s : State) (t : Nat) (x : Task), Runs i retWord s t x →
      x.stack = a :: rest →
      let u := issued i s t x;
      exec (.ret i) s = .next (u.setTask i.eng t { x.advanced with pc := a, stack := rest })) ∧
  (∀ (i : Issue) (s : State) (t : Nat) (x : Task), Runs i retWord s t x → x.stack = [] →
      let u := issued i s t x;
      exec (.ret i) s = .next (endRunning u i.eng t)) ∧
  (∀ (i : Issue) (m : Fin 16) (prio cls : BitVec 3) (entry : BitVec 13) (s : State) (t : Nat) (x : Task),
      Runs i (taskWord m prio cls entry) s t x → m.val ≠ 15 →
      ((issued i s t x).task i.eng m).st = .idle ∨ ((issued i s t x).task i.eng m).st = .faulted →
      let u := issued i s t x;
      exec (.task i m prio cls entry) s = .next
        ((u.setTask i.eng m { st := .ready, pc := entry.toNat, prio := prio.toNat, cls := cls.toNat }).setTask i.eng t
        { x.advanced with z := true })) ∧
  (∀ (i : Issue) (m : Fin 16) (prio cls : BitVec 3) (entry : BitVec 13) (s : State) (t : Nat) (x : Task),
      Runs i (taskWord m prio cls entry) s t x → m.val ≠ 15 → ((issued i s t x).task i.eng m).st ≠ .idle →
      ((issued i s t x).task i.eng m).st ≠ .faulted →
      let u := issued i s t x;
      exec (.task i m prio cls entry) s = .next (u.setTask i.eng t { x.advanced with z := false })) ∧
  (∀ (i : Issue) (prio cls : BitVec 3) (entry : BitVec 13) (s : State) (t : Nat) (x : Task),
      Runs i (taskWord 15 prio cls entry) s t x →
      let u := issued i s t x;
      exec (.task i 15 prio cls entry) s = .next (takeExc u i.eng t 5)) ∧
  (∀ (i : Issue) (s : State) (t : Nat) (x : Task), Runs i yieldWord s t x →
      let u := issued i s t x;
      exec (.yield i) s = .next
        (dispatch (u.setTask i.eng t
        (if hasRevoked u i.eng t then { x.advanced with st := .revoked, wait := none, t := true } else
        { x.advanced with st := .ready })) i.eng)) ∧
  (∀ (e : Fin 4) (s : State), engineRuns s e = true → (s.engine e).cur = none →
      exec (.engineIdleWake e) s = .next (dispatch s e)) ∧
  (∀ (e : Fin 4) (s : State), engineRuns s e = false ∨ (s.engine e).cur ≠ none →
      exec (.engineIdleWake e) s = .next s)

/-- The dispatcher runs a candidate of the highest priority, round-robin among equals, or idles. Where no candidate is
left the engine idles. The choice among candidates is one of a priority that no candidate exceeds, and among those the
first task index after last_run of that priority, wrapping; with no last_run yet it is the lowest index (the model's
choice, log entry 146). A READY choice runs from the present device time, and CURTASK names it (R234, R235). A choice
in CLAIMWAIT or REVOKED is run where its pending claim is granted and it holds no further revoked claim, and a
CLAIMWAIT's CLAIM then completes with Z = 1 (R220, R224); where the grant is refused the next choice is made among the
others, and where a further claim is revoked the choice is made again while the task still counts (R234, R262). A
grant whose LIMITED event drains the engine, or freezes the task, starts no task by itself (R273, R376). With an
engine that does not run there is no choice. -/
def Obligations.DispatcherChoice : Prop :=
  (∀ (s : State) (e : Nat), engineRuns s e = true → candidates s e = [] → dispatch s e = idleEngine s e) ∧
  (∀ (s : State) (e : Nat), engineRuns s e = true → candidates s e ≠ [] →
      (∀ k ∈ candidates s e, (s.task e k).st = .ready) →
      ∃ k ∈ candidates s e, dispatch s e = runTask s e k ∧ (runTask s e k).get (CAM_STATUS.CURTASK e) = k ∧
        ((runTask s e k).task e k).st = .run ∧ ∀ j ∈ candidates s e, (s.task e j).prio ≤ (s.task e k).prio) ∧
  (∀ (s : State) (e : Nat) (cands : List Nat), choose s e cands = none ↔ cands = []) ∧
  (∀ (s : State) (e : Nat) (cands : List Nat) (t : Nat), cands.Pairwise (· < ·) → choose s e cands = some t →
      let last := ((s.engine e).lastRun.find? fun x => x.1 = (s.task e t).prio).map Prod.snd;
        t ∈ cands ∧ (∀ j ∈ cands, (s.task e j).prio ≤ (s.task e t).prio) ∧
        ∀ j ∈ cands, (s.task e j).prio = (s.task e t).prio →
          (last = none → t ≤ j) ∧ ∀ k, last = some k → (k < t → k < j → t ≤ j) ∧ (t ≤ k → j ≤ k ∧ t ≤ j)) ∧
  (∀ (s : State) (e t : Nat), engineRuns s e = true → choose s e (candidates s e) = some t →
      (s.task e t).st = .ready → dispatch s e = runTask s e t ∧ (candidates s e).Pairwise (· < ·)) ∧
  (∀ (s u : State) (e t c : Nat), engineRuns s e = true → choose s e (candidates s e) = some t →
      pendingClaim s e t = some c → ledgerGrant s c = some u → engineRuns u e = true →
      (u.task e t).st = (s.task e t).st → hasRevoked u e t = false →
      ∃ v : State, v = u.setTask e t { u.task e t with z := (u.task e t).z || decide ((u.task e t).st = .claimwait) }
        ∧
        dispatch s e = runTask v e t ∧ ((u.task e t).st = .claimwait → ((dispatch s e).task e t).z = true) ∧
        ((dispatch s e).task e t).st = .run ∧ (dispatch s e).get (CAM_STATUS.CURTASK e) = t % 16) ∧
  (∀ (s : State) (e t c n : Nat) (cands : List Nat), choose s e cands = some t → pendingClaim s e t = some c →
      (ledgerGrant s c = none → dispatchLoop (n + 1) s e cands = dispatchLoop n s e (cands.filter (· ≠ t))) ∧
        ∀ u, ledgerGrant s c = some u →
          (engineRuns u e = false → dispatchLoop (n + 1) s e cands = u.setEngine e { u.engine e with cur := none }) ∧
          (engineRuns u e = true → (u.task e t).st ≠ (s.task e t).st → dispatchLoop (n + 1) s e cands = u) ∧
          (engineRuns u e = true → (u.task e t).st = (s.task e t).st → hasRevoked u e t = true →
            dispatchLoop (n + 1) s e cands =
              dispatchLoop n u e (if candidate u e t then cands else cands.filter (· ≠ t)))) ∧
  (∀ (s : State) (e t n : Nat) (cands : List Nat), choose s e cands = some t → (s.task e t).st = .ready →
      dispatchLoop (n + 1) s e cands = runTask s e t) ∧
  (∀ (s : State) (e : Nat), engineRuns s e = false →
      dispatch s e = s.setEngine e { s.engine e with cur := none })

/-- RAILON, RAILOFF and SETV commit, or end with a result code. RAILON sets EN, starts the enable check and waits for
its verdict; without a granted covering claim it raises CLAIM_MISSING, with a revoked one it ends with REVOKED (0x86),
on task 15 with 0x87; on an enabled rail it ends with DONE and no effect, and on a draining one it waits for the end
of the drain, where it goes on unless its claim has been revoked meanwhile (R209, R224). RAILOFF is never refused
(R210). SETV writes the setting or ends with the lowest code of Table 7.5 that applies (R211). Z is 1 for DONE alone
(R208; that RAILOFF sets it is log entry 58, the task's state while it waits log entry 56). An instruction runs where
program memory holds its word (the model's choice, log entry 57). Further choices of the model: an event that cannot
happen in the present state changes nothing (log entry 6), a handover that waits (log entry 59), REASON and EN around
a start (log entry 84). -/
def Obligations.PowerInstructions : Prop :=
  (∀ (i : Issue) (rail : Rail) (wd : Fin 16) (s : State) (t : Nat) (x : Task),
      Runs i (railonWord rail wd) s t x → t = 15 →
      let u := issued i s t x;
      exec (.railon i rail wd) s = .next (u.setTask i.eng t (powerResult x.advanced wd 0x87))) ∧
  (∀ (i : Issue) (rail : Rail) (wd : Fin 16) (s : State) (t : Nat) (x : Task),
      Runs i (railonWord rail wd) s t x → t ≠ 15 → covering (issued i s t x) i.eng t rail .revoked = true →
      let u := issued i s t x;
      exec (.railon i rail wd) s = .next (u.setTask i.eng t (powerResult x.advanced wd 0x86))) ∧
  (∀ (i : Issue) (rail : Rail) (wd : Fin 16) (s : State) (t : Nat) (x : Task),
      Runs i (railonWord rail wd) s t x → t ≠ 15 → covering (issued i s t x) i.eng t rail .revoked = false →
      covering (issued i s t x) i.eng t rail .granted = false →
      let u := issued i s t x;
      exec (.railon i rail wd) s = .next (takeExc u i.eng t 4)) ∧
  (∀ (i : Issue) (rail : Rail) (wd : Fin 16) (s : State) (t : Nat) (x : Task),
      Runs i (railonWord rail wd) s t x → t ≠ 15 → covering (issued i s t x) i.eng t rail .revoked = false →
      covering (issued i s t x) i.eng t rail .granted = true → draining (issued i s t x) rail = true →
      let u := issued i s t x;
      exec (.railon i rail wd) s = .next (u.setTask i.eng t { x.advanced with wait := some (.drain rail wd) })) ∧
  (∀ (i : Issue) (rail : Rail) (wd : Fin 16) (s : State) (t : Nat) (x : Task),
      Runs i (railonWord rail wd) s t x → t ≠ 15 → covering (issued i s t x) i.eng t rail .revoked = false →
      covering (issued i s t x) i.eng t rail .granted = true → draining (issued i s t x) rail = false →
      (issued i s t x).get (railEn rail) = 1 →
      let u := issued i s t x;
      exec (.railon i rail wd) s = .next (u.setTask i.eng t (powerResult x.advanced wd 0))) ∧
  (∀ (i : Issue) (rail : Rail) (wd : Fin 16) (s : State) (t : Nat) (x : Task),
      Runs i (railonWord rail wd) s t x → t ≠ 15 → covering (issued i s t x) i.eng t rail .revoked = false →
      covering (issued i s t x) i.eng t rail .granted = true → draining (issued i s t x) rail = false →
      (issued i s t x).get (railEn rail) ≠ 1 →
      let u := issued i s t x;
      exec (.railon i rail wd) s = .next
        ((startCheck u rail).setTask i.eng t { x.advanced with wait := some (.verdict rail wd) })) ∧
  (∀ (e : Fin 4) (t : Nat) (r : Rail) (wd : Nat) (s : State), (s.engine e).cur = some t →
      (s.task e t).wait = some (.drain r wd) → draining s r = false →
      let y := { s.task e t with wait := none };
        (stillCovered s e t r = true → s.get (railEn r) ≠ 1 → exec (.railonAfterDrain e) s =
          .next ((startCheck s r).setTask e t { y with wait := some (.verdict r wd) })) ∧
        (stillCovered s e t r = true → s.get (railEn r) = 1 → exec (.railonAfterDrain e) s =
          .next (finishHandover (s.setTask e t (powerResult y wd 0)) e)) ∧
        (stillCovered s e t r = false → exec (.railonAfterDrain e) s =
          .next (finishHandover (s.setTask e t (powerResult y wd 0x86)) e))) ∧
  (∀ (e : Fin 4) (s : State),
      (∀ t r wd, (s.engine e).cur = some t → (s.task e t).wait = some (.drain r wd) → draining s r = true) →
      exec (.railonAfterDrain e) s = .next s) ∧
  (∀ (x : Task) (wd code : Nat), code < 256 →
      (powerResult x wd code).reg wd = code ∧ (powerResult x wd code).z = decide (code = 0)) ∧
  (∀ (i : Issue) (rail : Rail) (s : State) (t : Nat) (x : Task), Runs i (railoffWord rail) s t x →
      let u := issued i s t x;
      exec (.railoff i rail) s = .next ((railOff u rail).setTask i.eng t { x.advanced with z := true })) ∧
  (∀ (i : Issue) (rail : Rail) (src : SetvSrc) (wd : Fin 16) (s : State) (t : Nat) (x : Task),
      Runs i (setvWord rail src wd) s t x →
      let u := issued i s t x;
      exec (.setv i rail src wd) s = .next
        ((if setvCode u rail (setvOperand x src).1 (setvOperand x src).2 = 0 then commitSetv u rail
        (setvOperand x src).1 (setvOperand x src).2 else u).setTask i.eng t
        (powerResult x.advanced wd (setvCode u rail (setvOperand x src).1 (setvOperand x src).2))))

/-- SETSLEW writes SLEW within 5 to 400, and PHASES writes the phase mask of a loop that is off. SETSLEW writes
LPn_SLEW.SLEW; a slew outside 5 to 400, 0 included, ends with OUT_OF_RANGE (0x83) and SLEW is unchanged. PHASES writes
Ws[19:0] to LPn_PHMASK. The result code of Table 7.5 is in Wd with Z, and no other field but the corrected-read count
and no byte of memory differs. A rail that is no loop ends either with 0x81, and an enabled loop ends PHASES with
0x85. An instruction runs where program memory holds its word (the model's choice, log entry 57). -/
def Obligations.SlewAndPhases : Prop :=
  (∀ (i : Issue) (n : Fin 6) (slew : BitVec 9) (wd : Fin 16) (s : State) (t : Nat) (x : Task),
      Runs i (setslewWord (.lp n) slew wd) s t x → 5 ≤ slew.toNat → slew.toNat ≤ 400 →
      ∃ v, exec (.setslew i (.lp n) slew wd) s = .next v ∧ v.get (LP_SLEW.SLEW n) = slew.toNat ∧
        SameFields [LP_SLEW.SLEW n, CAM_IMG_MEMERR.COUNT] s v ∧ SameMemory s v ∧ (v.task i.eng t).reg wd = 0 ∧
        (v.task i.eng t).z = true) ∧
  (∀ (i : Issue) (n : Fin 6) (slew : BitVec 9) (wd : Fin 16) (s : State) (t : Nat) (x : Task),
      Runs i (setslewWord (.lp n) slew wd) s t x → slew.toNat < 5 ∨ 400 < slew.toNat →
      ∃ v, exec (.setslew i (.lp n) slew wd) s = .next v ∧ SameFields [CAM_IMG_MEMERR.COUNT] s v ∧ SameMemory s v ∧
        (v.task i.eng t).reg wd = 0x83 ∧ (v.task i.eng t).z = false) ∧
  (∀ (i : Issue) (n : Fin 6) (ws wd : Fin 16) (s : State) (t : Nat) (x : Task),
      Runs i (phasesWord (.lp n) ws wd) s t x → s.get (LP_CTRL.EN n) ≠ 1 →
      ∃ v, exec (.phases i (.lp n) ws wd) s = .next v ∧ v.get (LP_PHMASK.MASK n) = x.reg ws % 2 ^ 20 ∧
        SameFields [LP_PHMASK.MASK n, CAM_IMG_MEMERR.COUNT] s v ∧ SameMemory s v ∧ (v.task i.eng t).reg wd = 0 ∧
        (v.task i.eng t).z = true) ∧
  (∀ (i : Issue) (n : Fin 6) (ws wd : Fin 16) (s : State) (t : Nat) (x : Task),
      Runs i (phasesWord (.lp n) ws wd) s t x → s.get (LP_CTRL.EN n) = 1 →
      ∃ v, exec (.phases i (.lp n) ws wd) s = .next v ∧ SameFields [CAM_IMG_MEMERR.COUNT] s v ∧ SameMemory s v ∧
        (v.task i.eng t).reg wd = 0x85 ∧ (v.task i.eng t).z = false) ∧
  (∀ (i : Issue) (r : Rail) (slew : BitVec 9) (wd : Fin 16) (s : State) (t : Nat) (x : Task),
      Runs i (setslewWord r slew wd) s t x → (∀ n, r ≠ .lp n) →
      exec (.setslew i r slew wd) s = .next ((issued i s t x).setTask i.eng t (powerResult x.advanced wd 0x81))) ∧
  (∀ (i : Issue) (r : Rail) (ws wd : Fin 16) (s : State) (t : Nat) (x : Task),
      Runs i (phasesWord r ws wd) s t x → (∀ n, r ≠ .lp n) →
      exec (.phases i r ws wd) s = .next ((issued i s t x).setTask i.eng t (powerResult x.advanced wd 0x81)))

/-- WAITPG, WAITT, WAITEV and WAITSTEP complete at once or wait, and their deadlines end them. A WAITT is ready when
its duration has passed and keeps its deadline until it resumes (R215); a missed deadline ends the wait with D = 1 and
the task takes the exception (R218); RUN_DEADLINE counts RUNMAX from the dispatch and is taken once (R235; once for
each dispatch by log entry 56); where no such wait or run is there, these rows change nothing. A waiting instruction
clears D and T when it starts (R201). WAITPG completes at once when PGS of its channel is 1 (R214), WAITEV with L = 1
when its source is pending (R216), WAITSTEP when the ring state is at or above n (R217); otherwise, and WAITT always,
the task waits with its deadline and the dispatcher runs (R215, R219). An instruction runs where program memory holds
its word (the model's choice, log entry 57). Further choices of the model: an event that cannot happen in the present
state changes nothing (log entry 6), an expiry moves the device time to it (log entry 7). -/
def Obligations.WaitInstructions : Prop :=
  (∀ (i : Issue) (ch : Fin 64) (dl : BitVec 16) (s : State) (t : Nat) (x : Task),
      Runs i (waitpgWord ch dl) s t x → (issued i s t x).get (SUP_STAT.PGS ch) = 1 →
      let u := issued i s t x;
      exec (.waitpg i ch dl) s = .next (u.setTask i.eng t x.advanced.startWait)) ∧
  (∀ (i : Issue) (ch : Fin 64) (dl : BitVec 16) (s : State) (t : Nat) (x : Task),
      Runs i (waitpgWord ch dl) s t x → (issued i s t x).get (SUP_STAT.PGS ch) ≠ 1 →
      let u := issued i s t x;
      exec (.waitpg i ch dl) s = .next (enterWait u i.eng t x.advanced (.pg ch (deadlineOf u dl)))) ∧
  (∀ (i : Issue) (dur : BitVec 16) (sl : BitVec 8) (s : State) (t : Nat) (x : Task),
      Runs i (waittWord dur sl) s t x →
      let u := issued i s t x;
      exec (.waitt i dur sl) s = .next
        (enterWait u i.eng t x.advanced
        (.time (deadlineAt u.now ((deadlineUs dur.toNat).getD 0))
        (deadlineAt u.now ((deadlineUs dur.toNat).getD 0 + sl.toNat))))) ∧
  (∀ (i : Issue) (src : BitVec 9) (dl : BitVec 16) (s : State) (t : Nat) (x : Task),
      Runs i (waitevWord src true dl) s t x → srcPending (issued i s t x) src.toNat = true →
      let u := issued i s t x;
      exec (.waitev i src true dl) s = .next (u.setTask i.eng t x.advanced.startWait)) ∧
  (∀ (i : Issue) (src : BitVec 9) (l : Bool) (dl : BitVec 16) (s : State) (t : Nat) (x : Task),
      Runs i (waitevWord src l dl) s t x → l = false ∨ srcPending (issued i s t x) src.toNat = false →
      let u := issued i s t x;
      exec (.waitev i src l dl) s = .next (enterWait u i.eng t x.advanced (.event src.toNat (deadlineOf u dl)))) ∧
  (∀ (i : Issue) (n : BitVec 8) (dl : BitVec 16) (s : State) (t : Nat) (x : Task),
      Runs i (waitstepWord n dl) s t x → n.toNat ≤ ringState (issued i s t x) →
      let u := issued i s t x;
      exec (.waitstep i n dl) s = .next (u.setTask i.eng t x.advanced.startWait)) ∧
  (∀ (i : Issue) (n : BitVec 8) (dl : BitVec 16) (s : State) (t : Nat) (x : Task),
      Runs i (waitstepWord n dl) s t x → ringState (issued i s t x) < n.toNat →
      let u := issued i s t x;
      exec (.waitstep i n dl) s = .next (enterWait u i.eng t x.advanced (.step n.toNat (deadlineOf u dl)))) ∧
  (∀ (u : State) (e t : Nat) (x : Task) (w : Wait), hasRevoked u e t = false →
      enterWait u e t x w = dispatch (u.setTask e t { x with st := .wait, wait := some w, d := false, t := false }) e)
        ∧
  (∀ (u : State) (e t : Nat) (x : Task) (w : Wait), hasRevoked u e t = true →
      enterWait u e t x w = dispatch (u.setTask e t { x with st := .revoked, wait := none, d := false, t := true }) e)
        ∧
  (∀ (e : Fin 4) (t : Fin 16) (ready dl : Nat) (s : State), (s.task e t).st = .wait →
      (s.task e t).wait = some (.time ready dl) →
      exec (.waittReady e t) s = .next
        ((s.expire ready).setTask e t { s.task e t with st := .ready, wait := none, resumeBy := some dl })) ∧
  (∀ (e : Fin 4) (t : Fin 16) (d : Nat) (s : State), waitDeadlineOf (s.task e t) = some d →
      exec (.waitDeadline e t) s = .next
        (deadlineExc ((s.expire d).setTask e t
        { s.task e t with st := .ready, wait := none, resumeBy := none, d := true }) e t 1)) ∧
  (∀ (e : Fin 4) (t : Nat) (r : Nat) (s : State), (s.engine e).cur = some t → countsAsRun (s.task e t) = true →
      (s.task e t).runAt = some r →
      exec (.runDeadline e) s = .next
        (deadlineExc ((s.expire (deadlineAt r (s.get (CAM_CFG.RUNMAX e)))).setTask e t
        { s.task e t with d := true, runAt := none }) e t 2)) ∧
  (∀ (e : Fin 4) (t : Fin 16) (s : State),
      ((s.task e t).st ≠ .wait ∨ (∀ r d, (s.task e t).wait ≠ some (.time r d)) → exec (.waittReady e t) s = .next s) ∧
        (waitDeadlineOf (s.task e t) = none → exec (.waitDeadline e t) s = .next s) ∧
        ((∀ k, (s.engine e).cur = some k → countsAsRun (s.task e k) = false ∨ (s.task e k).runAt = none) →
          exec (.runDeadline e) s = .next s))

/-- An exception records its cause, its task and the causing address and enters the handler. The record of an
exception writes the address of the causing instruction, the task and the cause to CAM_En_EXC and sets the CAM_EXC bit
(R237). The event that it raises sets that bit as well. Where a handler stands and the return stack has room, the task
is vectored with the next instruction's address on its stack, emptied first for STACK (R230); otherwise it stops
(R239). -/
def Obligations.ExceptionEntry : Prop :=
  (∀ (e : Fin 4) (t : Fin 16) (cause : Fin 9) (s : State),
      (recordExc s e t cause).get (CAM_EXC.CAUSE e) = cause ∧ (recordExc s e t cause).get (CAM_EXC.TASK e) = t ∧
        (recordExc s e t cause).get (CAM_EXC.PC e) = (s.task e t).ipc % 2 ^ (CAM_EXC.PC e).width ∧
        ((recordExc s e t cause).get (CAM_EVT.EVT e)).testBit 2 = true ∧ SameMemory s (recordExc s e t cause) ∧
        OnlyRegs s (recordExc s e t cause)) ∧
  (∀ (e t cause : Nat) (s : State), vectorOf (raiseExc (recordExc s e t cause) e t cause) e cause ≠ noEntry →
      cause = 6 ∨ ((raiseExc (recordExc s e t cause) e t cause).task e t).stack.length < 8 →
      let u := raiseExc (recordExc s e t cause) e t cause;
      takeExc s e t cause = u.setTask e t
        { u.task e t with stack := (u.task e t).pc :: (if cause = 6 then [] else (u.task e t).stack), pc := vectorOf u e cause }) ∧
  (∀ (e t cause : Nat) (s : State), vectorOf (raiseExc (recordExc s e t cause) e t cause) e cause = noEntry →
      takeExc s e t cause = faultTask (raiseExc (recordExc s e t cause) e t cause) e t) ∧
  (∀ (e t cause : Nat) (s : State), cause ≠ 6 →
      8 ≤ ((raiseExc (recordExc s e t cause) e t cause).task e t).stack.length →
      takeExc s e t cause = faultTask (raiseExc (recordExc s e t cause) e t cause) e t)

/-- CLAIM, RELEASE and RECLAIM act on the task's own claims. CLAIM of a free claim is submitted and granted in that
handshake or left pending with the task in CLAIMWAIT; of a claim granted to the task it ends with Z = 1; of another
task's it ends with Z = 0 and T = 1 and changes no claim; a task with a revoked claim enters REVOKED instead, where
the claim is its own revoked one or would leave it waiting, and the claim submitted is withdrawn (R220, R224). A CLAIM
by task 15 ends with Z = 0. CLAIM_DEADLINE withdraws the pending claim, and changes nothing where none waits with a
deadline (R221). RELEASE releases the task's granted claim (R222). RECLAIM always grants a decrease, grants an
increase that fits the room, and otherwise leaves the amount (R223, R267); the capacity is evaluated in each case
(R273). An index that the engine may not use raises ILLEGAL (Table 7.8). That the counter of deferrals also counts a
claim held by another task is the model's choice (log entry 45), as are the holdoff of a claim never revoked (log
entry 54) and the ends of a CLAIM of an own revoked claim and of a RELEASE or RECLAIM of another task's (log entry
55). An instruction runs where program memory holds its word (the model's choice, log entry 57). -/
def Obligations.LedgerInstructions : Prop :=
  (∀ (i : Issue) (id : Fin 64) (dl : BitVec 16) (s : State) (t : Nat) (x : Task),
      Runs i (claimWord id dl) s t x → claimAllowed (issued i s t x) i.eng id = false →
      let u := issued i s t x;
      exec (.claim i id dl) s = .next (takeExc (u.setTask i.eng t x.advanced.startWait) i.eng t 5)) ∧
  (∀ (i : Issue) (id : Fin 64) (dl : BitVec 16) (s : State) (t : Nat) (x : Task),
      Runs i (claimWord id dl) s t x → claimAllowed (issued i s t x) i.eng id = true → t = 15 →
      let u := issued i s t x;
      exec (.claim i id dl) s = .next
        ((u.addWrap NRG_CNT1.DEFERS 1).setTask i.eng t { x.advanced.startWait with z := false })) ∧
  (∀ (i : Issue) (id : Fin 64) (dl : BitVec 16) (s : State) (t : Nat) (x : Task),
      Runs i (claimWord id dl) s t x → claimAllowed (issued i s t x) i.eng id = true → t ≠ 15 →
      owns (issued i s t x) i.eng t id .granted = true →
      let u := issued i s t x;
      exec (.claim i id dl) s = .next (u.setTask i.eng t { x.advanced.startWait with z := true })) ∧
  (∀ (i : Issue) (id : Fin 64) (dl : BitVec 16) (s : State) (t : Nat) (x : Task),
      Runs i (claimWord id dl) s t x → claimAllowed (issued i s t x) i.eng id = true → t ≠ 15 →
      ((issued i s t x).claim id).st ≠ .free → owns (issued i s t x) i.eng t id .granted = false →
      owns (issued i s t x) i.eng t id .revoked = false →
      let u := issued i s t x;
      exec (.claim i id dl) s = .next
        ((u.addWrap NRG_CNT1.DEFERS 1).setTask i.eng t { x.advanced.startWait with z := false, t := true })) ∧
  (∀ (i : Issue) (id : Fin 64) (dl : BitVec 16) (s : State) (t : Nat) (x : Task),
      Runs i (claimWord id dl) s t x → claimAllowed (issued i s t x) i.eng id = true → t ≠ 15 →
      ((issued i s t x).claim id).st = .free →
      grantsNow (submitClaim (issued i s t x) id i.eng t x.cls) id = true →
      let u := issued i s t x;
      let v := submitClaim u id i.eng t x.cls;
      exec (.claim i id dl) s = .next (grant (v.setTask i.eng t { x.advanced.startWait with z := true }) id)) ∧
  (∀ (i : Issue) (id : Fin 64) (dl : BitVec 16) (s : State) (t : Nat) (x : Task),
      Runs i (claimWord id dl) s t x → claimAllowed (issued i s t x) i.eng id = true → t ≠ 15 →
      ((issued i s t x).claim id).st = .free → hasRevoked (issued i s t x) i.eng t = false →
      grantsNow (submitClaim (issued i s t x) id i.eng t x.cls) id = false →
      let u := issued i s t x;
      let v := submitClaim u id i.eng t x.cls;
      exec (.claim i id dl) s = .next
        (leaveRun (v.addWrap NRG_CNT1.DEFERS 1) i.eng t
        { x.advanced.startWait with z := false, st := .claimwait, wait := some (.claim id (deadlineOf u dl)) })) ∧
  (∀ (i : Issue) (id : Fin 64) (dl : BitVec 16) (s : State) (t : Nat) (x : Task),
      Runs i (claimWord id dl) s t x → claimAllowed (issued i s t x) i.eng id = true → t ≠ 15 →
      owns (issued i s t x) i.eng t id .granted = false → owns (issued i s t x) i.eng t id .revoked = true →
      let u := issued i s t x;
      exec (.claim i id dl) s = .next (claimRevoked u i.eng t x.advanced.startWait)) ∧
  (∀ (i : Issue) (id : Fin 64) (dl : BitVec 16) (s : State) (t : Nat) (x : Task),
      Runs i (claimWord id dl) s t x → claimAllowed (issued i s t x) i.eng id = true → t ≠ 15 →
      ((issued i s t x).claim id).st = .free → hasRevoked (issued i s t x) i.eng t = true →
      grantsNow (submitClaim (issued i s t x) id i.eng t x.cls) id = false →
      let u := issued i s t x;
      exec (.claim i id dl) s = .next
        (claimRevoked (dropClaim (submitClaim u id i.eng t x.cls) id) i.eng t x.advanced.startWait)) ∧
  (∀ (e : Fin 4) (t : Fin 16) (s : State),
      ((s.task e t).st ≠ .claimwait → exec (.claimDeadline e t) s = .next s) ∧
      ((∀ c d, (s.task e t).wait ≠ some (.claim c (some d))) → exec (.claimDeadline e t) s = .next s)) ∧
  (∀ (e : Fin 4) (t : Fin 16) (c d : Nat) (s : State), (s.task e t).st = .claimwait →
      (s.task e t).wait = some (.claim c (some d)) →
      exec (.claimDeadline e t) s = .next
        (deadlineExc ((dropClaim (s.expire d) c).setTask e t
        { s.task e t with st := .ready, wait := none, z := false, d := true, t := true }) e t 3)) ∧
  (∀ (i : Issue) (id : Fin 64) (s : State) (t : Nat) (x : Task), Runs i (releaseWord id) s t x →
      claimAllowed (issued i s t x) i.eng id = true → owns (issued i s t x) i.eng t id .granted = true →
      let u := issued i s t x;
      exec (.release i id) s = .next ((releaseClaim u id).setTask i.eng t { x.advanced with z := true })) ∧
  (∀ (i : Issue) (id : Fin 64) (s : State) (t : Nat) (x : Task), Runs i (releaseWord id) s t x →
      claimAllowed (issued i s t x) i.eng id = true → owns (issued i s t x) i.eng t id .granted = false →
      owns (issued i s t x) i.eng t id .revoked = true →
      let u := issued i s t x;
      exec (.release i id) s = .next ((dropClaim u id).setTask i.eng t { x.advanced with z := true })) ∧
  (∀ (i : Issue) (id : Fin 64) (s : State) (t : Nat) (x : Task), Runs i (releaseWord id) s t x →
      claimAllowed (issued i s t x) i.eng id = true → owns (issued i s t x) i.eng t id .granted = false →
      owns (issued i s t x) i.eng t id .revoked = false →
      let u := issued i s t x;
      exec (.release i id) s = .next (u.setTask i.eng t { x.advanced with z := true })) ∧
  (∀ (i : Issue) (id : Fin 64) (ws : Fin 16) (s : State) (t : Nat) (x : Task),
      Runs i (reclaimWord id ws) s t x → claimAllowed (issued i s t x) i.eng id = true →
      owns (issued i s t x) i.eng t id .granted = true →
      let u := issued i s t x;
      exec (.reclaim i id ws) s = .next
        ((reclaimTo u id (x.reg ws)).2.setTask i.eng t
        { (reclaimTo u id (x.reg ws)).2.task i.eng t with z := (reclaimTo u id (x.reg ws)).1 })) ∧
  (∀ (i : Issue) (id : Fin 64) (ws : Fin 16) (s : State) (t : Nat) (x : Task),
      Runs i (reclaimWord id ws) s t x → claimAllowed (issued i s t x) i.eng id = true →
      owns (issued i s t x) i.eng t id .granted = false →
      let u := issued i s t x;
      exec (.reclaim i id ws) s = .next (u.setTask i.eng t { x.advanced with z := false })) ∧
  (∀ (i : Issue) (id : Fin 64) (s : State) (t : Nat) (x : Task), Runs i (releaseWord id) s t x →
      claimAllowed (issued i s t x) i.eng id = false →
      let u := issued i s t x;
      exec (.release i id) s = .next (takeExc u i.eng t 5)) ∧
  (∀ (i : Issue) (id : Fin 64) (ws : Fin 16) (s : State) (t : Nat) (x : Task),
      Runs i (reclaimWord id ws) s t x → claimAllowed (issued i s t x) i.eng id = false →
      let u := issued i s t x;
      exec (.reclaim i id ws) s = .next (takeExc u i.eng t 5)) ∧
  (∀ (s : State) (c v : Nat), v < (s.claim c).amount →
      reclaimTo s c v = (true, evalCapacity (formFit (s.setClaim c { s.claim c with amount := v })) c)) ∧
  (∀ (s : State) (c v : Nat), (s.claim c).amount ≤ v →
      v - (s.claim c).amount ≤ steadyRoom s (s.claim c).cls (s.claim c).revokedAt (earmark s) →
      reclaimTo s c v = (true, evalCapacity (s.setClaim c { s.claim c with amount := v }) c)) ∧
  (∀ (s : State) (c v : Nat), (s.claim c).amount ≤ v →
      steadyRoom s (s.claim c).cls (s.claim c).revokedAt (earmark s) < v - (s.claim c).amount →
      reclaimTo s c v = (false, evalCapacity s c))

/-- RAISE, LOG, SNAP, RDADC and RDSUP act as R227, R228 and R232 say. RDADC with U = 0 writes the latest valid reading
with Z and N from it, or leaves Wd and clears Z; with U = 1 a derived channel is read at once, channel 0x1D is no
request, and an analog channel issues an urgent request and waits unless it is dropped (R227, R336). RDSUP writes the
status byte and the chatter count (R228). RAISE queues its code with the issuing task and sets Z; with 8 entries it is
counted in LOST, raises its warning and clears Z. LOG writes a program record, SNAP requests a snapshot with TRIG 1,
and a pop removes the head entry, while the VSYS rails are up and K0 runs (R24, R304). CAM_En_RAISE shows the depth
and the head. An instruction runs where program memory holds its word (the model's choice, log entry 57). Further
choices of the model: the stamp of an event (log entry 8). -/
def Obligations.ReportingInstructions : Prop :=
  (∀ (i : Issue) (code : BitVec 8) (s : State) (t : Nat) (x : Task), Runs i (raiseWord code) s t x →
      ((issued i s t x).engine i.eng).raiseQ.length < 8 →
      let u := issued i s t x;
      exec (.raise i code) s = .next
        ((showRaise (u.setEngine i.eng { u.engine i.eng with raiseQ := (u.engine i.eng).raiseQ ++ [(code.toNat, t)] })
        i.eng).setTask i.eng t { x.advanced with z := true })) ∧
  (∀ (i : Issue) (code : BitVec 8) (s : State) (t : Nat) (x : Task), Runs i (raiseWord code) s t x →
      8 ≤ ((issued i s t x).engine i.eng).raiseQ.length →
      let u := issued i s t x;
      exec (.raise i code) s = .next
        (raise ((u.addSat (CAM_RAISE.LOST i.eng) 1).setTask i.eng t { x.advanced with z := false })
        (camEv i.eng 5 .warning x.pc t))) ∧
  (∀ (i : Issue) (code : BitVec 8) (ws : Fin 16) (s : State) (t : Nat) (x : Task),
      Runs i (logWord code ws) s t x →
      let u := issued i s t x;
      exec (.log i code ws) s = .next (logWrite u fun seq => programWords seq i.eng t code.toNat (x.reg ws) u.stamp))
        ∧
  (∀ (i : Issue) (code : BitVec 8) (s : State) (t : Nat) (x : Task), Runs i (snapWord code) s t x →
      let u := issued i s t x;
      exec (.snap i code) s = .next (snapRequest u 1 code.toNat)) ∧
  (∀ (e : Fin 4) (s : State), (vsysRuns s = true → exec (.raisePop e) s =
          .next (showRaise (s.setEngine e { s.engine e with raiseQ := (s.engine e).raiseQ.drop 1 }) e)) ∧
        (vsysRuns s = false → exec (.raisePop e) s = .next s)) ∧
  (∀ (e : Fin 4) (s : State),
      (showRaise s e).get (CAM_RAISE.DEPTH e) = (s.engine e).raiseQ.length % 2 ^ (CAM_RAISE.DEPTH e).width ∧
        SameFields [CAM_RAISE.DEPTH e, CAM_RAISE.CODE e, CAM_RAISE.TASK e] s (showRaise s e) ∧
        OnlyRegs s (showRaise s e)) ∧
  (∀ (i : Issue) (wd : Fin 16) (ch : BitVec 7) (s : State) (t : Nat) (x : Task),
      Runs i (rdadcWord wd ch false) s t x →
      let u := issued i s t x;
      exec (.rdadc i wd ch) s = .next (u.setTask i.eng t (readResult x.advanced wd (readNow u ch.toNat)))) ∧
  (∀ (i : Issue) (wd : Fin 16) (ch : Fin 64) (s : State) (t : Nat) (x : Task), Runs i (rdsupWord wd ch) s t x →
      let u := issued i s t x;
      exec (.rdsup i wd ch) s = .next
        (u.setTask i.eng t (x.advanced.result wd (supStatByte u ch + u.get (SUP_CHAT.COUNT ch) * 256)))) ∧
  (∀ (i : Issue) (wd : Fin 16) (ch : BitVec 7) (s : State) (t : Nat) (x : Task),
      Runs i (rdadcWord wd ch true) s t x → 0x40 ≤ ch.toNat ∨ ch.toNat = 0x1D →
      let u := issued i s t x;
      exec (.rdadcUrgent i wd ch) s = .next
        (u.setTask i.eng t (readResult x.advanced wd (if ch.toNat < 0x40 then none else derivedChannel u ch.toNat))))
        ∧
  (∀ (i : Issue) (wd : Fin 16) (ch : BitVec 7) (s : State) (t : Nat) (x : Task),
      Runs i (rdadcWord wd ch true) s t x → ch.toNat < 0x40 → ch.toNat ≠ 0x1D →
      let u := issued i s t x;
      exec (.rdadcUrgent i wd ch) s = .next
        ((urgentRequest u (.task i.eng t) ch.toNat).2.setTask i.eng t
        (if (urgentRequest u (.task i.eng t) ch.toNat).1 then { x.advanced with wait := some (.urgent ch.toNat wd) }
        else readResult x.advanced wd none)))

/-- An engine is enabled or refused, drains, and the ROM firmware switches its rails off. A write of 1 to
CAM_En_CTRL.EN is ignored where EN reads 1 (R38); otherwise the engine starts task 0 at its entry, or the enable is
refused with its reason (R247, R20). A disable drains it, unless it is off or drains already (R252). Each ROM step
switches off the rail of the latest RAILON commit, 1 ms after the one before (R242), and with none left the ROM's
claims are freed (R531). A level without the engines ignores the enable (log entry 117), and that CAM_En_EXC is
cleared by it while the raise queue stays is log entry 58. Further choices of the model: an event that cannot happen
in the present state changes nothing (log entry 6). -/
def Obligations.EnginesStartAndStop : Prop :=
  (∀ (e : Fin 4) (s : State), s.get (CAM_CTRL.EN e) = 1 → exec (.camEnable e) s = .next s) ∧
  (∀ (e : Fin 4) (s : State), s.get (CAM_CTRL.EN e) ≠ 1 → servesAt s 2 = true → engineReason s e ≠ 0 →
      exec (.camEnable e) s = .next (notice (s.set (CAM_STATUS.REASON e) (engineReason s e)) (camEv e 1 .notice 0 0)))
        ∧
  (∀ (e : Fin 4) (s : State), servesAt s 2 = false → exec (.camEnable e) s = .next s) ∧
  (∀ (e : Fin 4) (s : State), s.get (CAM_CTRL.EN e) ≠ 1 → servesAt s 2 = true → engineReason s e = 0 →
      ∃ u : State, u = ((((loadEngineTable s e).setEngine e
        { s.engine e with cur := none, lastRun := [], halted := false, handing := false }).set (CAM_CTRL.EN e) 1).set
        (CAM_EXC.CAUSE e) 0).set (CAM_STATUS.PDOWN e) 0 ∧
        exec (.camEnable e) s = .next (startEngine (notice u (camEv e 0 .notice 0 0)) e)) ∧
  (∀ (e : Fin 4) (s : State), (s.get (CAM_CTRL.EN e) = 1 → s.get (CAM_STATUS.STATE e) ≠ 4 →
          exec (.camDisable e) s =
            .next ((s.setEngine e { s.engine e with handing := false }).set (CAM_STATUS.STATE e) 4)) ∧
        (s.get (CAM_CTRL.EN e) ≠ 1 ∨ s.get (CAM_STATUS.STATE e) = 4 → exec (.camDisable e) s = .next s)) ∧
  (∀ (r : Rail) (s : State), latestCommit s (romRails s) = some r →
      let v : State := match s.ledger.romAt with | some t => (s.expire (t + 100000)) | none => s;
      exec .romRailOffStep s = .next (railOff { v with ledger := { v.ledger with romAt := some v.now } } r)) ∧
  (∀ (s : State), latestCommit s (romRails s) = none →
      exec .romRailOffStep s = .next { romFree s with ledger := { (romFree s).ledger with romAt := none } })

/-- The ring counts edges, takes and releases holds, and misses step deadlines. A joined node that does not hold MSTEP
adds 1 to its counter and to ADV at a rising edge outside an abort, raises its notice, starts the step deadline of the
new state and, below state 255, the 2 µs after which it takes its hold again (R282, R283, R285); a counter at 255 does
not change; a node that is not joined, or holds the line, or is within an abort counts nothing, and one without the
VSYS rails sees nothing (R24). STEP with A = 0 is executed by the ring owner alone, is remembered while listening,
releases the hold in state n − 1 (the master's waits for EXPECT while state 0 has never been left, R284), also during
an abort (log entry 53), and otherwise clears Z; STEP with A = 1 asks for an abort on a joined node and otherwise
clears Z (R226). A step deadline that expires with the line low is a FAULT, with which a master with AUTOISO polls the
holders (R285, R295); 1 ms after the last ISOLATE with the line low the master polls once more, and a line that no
present node holds then is MSTEP_STUCK (R296). That an edge at 255 is still counted in ADV, that LINE is sampled at
these commands, and the two stages of MSTEP_STUCK are the model's choices (log entries 50, 109, 111), and so are the
step deadline of a state entered without an edge (log entry 49) and what a WAITSTEP and the ring owner's task do at an
abort (log entry 51). An instruction runs where program memory holds its word (log entry 57). Further choices of the
model: an event that cannot happen in the present state changes nothing (log entry 6), an expiry moves the device time
to it (log entry 7). -/
def Obligations.RingStepping : Prop :=
  (∀ (s : State), vsysRuns s = true → jstate s = 2 → s.get MNG_STATUS.HOLD ≠ 1 → s.ring.window = false →
      ringState s < 255 →
      ∃ u : State, u = enterRingState (notice ((s.set MNG_STATUS.LINE 1).addWrap MNG_CNT.ADV 1) (mngEv 0 .notice))
        (ringState s + 1) ∧ exec .mstepAdvance s = .next
        (wakeStep (u.setRing { u.ring with retakeAt := (if ringState s = 254 then none else some s.now) })
        (ringState s + 1))) ∧
  (∀ (s : State), vsysRuns s = true → jstate s = 2 → s.get MNG_STATUS.HOLD ≠ 1 → s.ring.window = false →
      ringState s = 255 →
      exec .mstepAdvance s = .next (notice ((s.set MNG_STATUS.LINE 1).addWrap MNG_CNT.ADV 1) (mngEv 0 .notice))) ∧
  (∀ (s : State), vsysRuns s = true → jstate s ≠ 2 ∨ s.get MNG_STATUS.HOLD = 1 ∨ s.ring.window = true →
      exec .mstepAdvance s = .next (s.set MNG_STATUS.LINE (if s.get MNG_STATUS.HOLD = 1 then 0 else 1))) ∧
  (∀ (s : State), vsysRuns s = false → exec .mstepAdvance s = .next s) ∧
  (∀ (s : State) (n : Nat),
      (enterRingState s n).get MNG_STATUS.STATE = n % 256 ∧ (enterRingState s n).ring.stateAt = some s.now ∧
        ((enterRingState s n).ring.departed = true ↔ s.ring.departed = true ∨ (ringState s = 0 ∧ n ≠ 0))) ∧
  (∀ (t : Nat) (s : State), s.ring.retakeAt = some t → jstate s = 2 →
      exec .holdRetake s = .next (takeHold (s.expire (t + 200)))) ∧
  (∀ (s : State), s.ring.retakeAt = none ∨ jstate s ≠ 2 → exec .holdRetake s = .next s) ∧
  (∀ (i : Issue) (n : BitVec 8) (s : State) (t : Nat) (x : Task), Runs i (stepWord n false) s t x →
      (issued i s t x).get (CAM_STATUS.RINGOWN i.eng) ≠ 1 →
      let u := issued i s t x;
      exec (.step i n) s = .next (takeExc u i.eng t 5)) ∧
  (∀ (i : Issue) (n : BitVec 8) (s : State) (t : Nat) (x : Task), Runs i (stepWord n true) s t x →
      (issued i s t x).get (CAM_STATUS.RINGOWN i.eng) ≠ 1 →
      let u := issued i s t x;
      exec (.stepAbort i n) s = .next (takeExc u i.eng t 5)) ∧
  (∀ (i : Issue) (n : BitVec 8) (s : State) (t : Nat) (x : Task), Runs i (stepWord n false) s t x →
      (issued i s t x).get (CAM_STATUS.RINGOWN i.eng) = 1 → jstate (issued i s t x) = 1 →
      let u := issued i s t x;
      exec (.step i n) s = .next
        ((u.setRing { u.ring with remembered := some n.toNat }).setTask i.eng t { x.advanced with z := true })) ∧
  (∀ (i : Issue) (n : BitVec 8) (s : State) (t : Nat) (x : Task), Runs i (stepWord n false) s t x →
      (issued i s t x).get (CAM_STATUS.RINGOWN i.eng) = 1 → jstate (issued i s t x) = 2 →
      (issued i s t x).get MNG_STATUS.HOLD = 1 → n.toNat = ringState (issued i s t x) + 1 →
      let u := issued i s t x;
      exec (.step i n) s = .next
        ((useRemembered (u.setRing { u.ring with remembered := some n.toNat })).setTask i.eng t
        { x.advanced with z := true })) ∧
  (∀ (i : Issue) (n : BitVec 8) (s : State) (t : Nat) (x : Task), Runs i (stepWord n false) s t x →
      (issued i s t x).get (CAM_STATUS.RINGOWN i.eng) = 1 → jstate (issued i s t x) ≠ 1 →
      jstate (issued i s t x) ≠ 2 ∨ (issued i s t x).get MNG_STATUS.HOLD ≠ 1 ∨
        n.toNat ≠ ringState (issued i s t x) + 1 →
      let u := issued i s t x;
      exec (.step i n) s = .next (u.setTask i.eng t { x.advanced with z := false })) ∧
  (∀ (s : State) (n : Nat), s.ring.remembered = some n →
      (n = ringState s + 1 → waitsExpect s = false →
        useRemembered s = (s.set MNG_STATUS.HOLD 0).setRing { s.ring with remembered := none }) ∧
      (n = ringState s + 1 → waitsExpect s = true → useRemembered s = s) ∧
      (n ≠ ringState s + 1 → useRemembered s = s.setRing { s.ring with remembered := none })) ∧
  (∀ (i : Issue) (n : BitVec 8) (s : State) (t : Nat) (x : Task), Runs i (stepWord n true) s t x →
      (issued i s t x).get (CAM_STATUS.RINGOWN i.eng) = 1 → jstate (issued i s t x) = 2 →
      let u := issued i s t x;
      exec (.stepAbort i n) s = .next (wantAbort (u.setTask i.eng t { x.advanced with z := true }) n.toNat)) ∧
  (∀ (i : Issue) (n : BitVec 8) (s : State) (t : Nat) (x : Task), Runs i (stepWord n true) s t x →
      (issued i s t x).get (CAM_STATUS.RINGOWN i.eng) = 1 → jstate (issued i s t x) ≠ 2 →
      let u := issued i s t x;
      exec (.stepAbort i n) s = .next (u.setTask i.eng t { x.advanced with z := false })) ∧
  (∀ (line : Bool) (t us : Nat) (s : State), s.ring.stateAt = some t → stepDeadline s = some us →
      jstate s = 2 →
      ∃ u : State, u = seeLine (s.expire (deadlineAt t us)) line ∧
        (s.get MNG_STATUS.HOLD = 1 ∨ line = false → u.get MNG_STATUS.LINE = 0) ∧
      exec (.mstepDeadline line) s = .next
        (if u.get MNG_STATUS.LINE = 1 then u.setRing { u.ring with stateAt := none }
        else if s.get MNG_STATUS.MASTER_ACT = 1 ∧ s.get MNG_CFG.AUTOISO = 1 then isolatePolls
          (ringQuiet (raise (u.setRing { u.ring with stateAt := none }) (mngEv 4 .fault)))
        else raise (u.setRing { u.ring with stateAt := none }) (mngEv 4 .fault))) ∧
  (∀ (line : Bool) (s : State), s.ring.stateAt = none ∨ stepDeadline s = none ∨ jstate s ≠ 2 →
      exec (.mstepDeadline line) s = .next s) ∧
  (∀ (line : Bool) (t : Nat) (s : State), s.ring.isoAt = some t → masterActs s = true →
      ∃ u v : State, u = seeLine (s.expire (t + 100000)) line ∧
        v = u.setRing { u.ring with isoAt := none, stuckPolled := false } ∧
      exec (.mstepStuck line) s = .next (if u.get MNG_STATUS.LINE = 1 then v
        else if s.ring.stuckPolled = false then (holderPolls (ringQuiet u)).setRing
          { (holderPolls (ringQuiet u)).ring with stuckPolled := true }
        else if s.ring.polls ≠ [] then u
        else if (∃ a ∈ holders s, present s a = true) then v
        else raise v (mngEv 6 .fault))) ∧
  (∀ (line : Bool) (s : State), s.ring.isoAt = none ∨ masterActs s = false →
      exec (.mstepStuck line) s = .next s)

/-- A node joins, is enumerated, is found lost, and leaves the ring. An enable is ignored where EN reads 1, and is
accepted or refused with its reason (R289). A listening node inserts itself once and joins at the first STATE frame
(RingFrames), or, 500 µs after its insertion, starts as the master with address 0 (R289). The master sends its cycle
every 100 µs: STATE, the presence polls, and an ENUM for the lowest free address, which waits while the ring is open
(R288, R290, R297). A node takes the address offered and enters it in its map, or drops its address at CLR (R290); a
taken address is a NODE_JOIN at the master. A polled node adds its bit of presence or of its hold (R287); the master
counts the misses of a presence poll and, at the last holder poll of R295, asks for the abort; NODE_LOST clears the
node's bit with a WARNING, and LOSTPOL asks for an abort (R291, R292). EN = 0 drains a listening or joined node
(R291); the addressed node of ISOLATE passes the frame on and is ISOLATED with its FAULT, and the master whose ISOLATE
returns sends NODE_LOST (R295). Silence and an open ring are raised once (R297). In every other case the command
changes nothing. That an ENUM which left is not given up before three resends, and how the map is cleared, is the
model's choice (log entries 52, 53), and so are what is kept while the ring is open and the abort whose ABORT is given
up (log entry 125), the maps cleared at the enable (log entry 49), and the level without a ring (log entry 117).
Further choices of the model: an event that cannot happen in the present state changes nothing (log entry 6), the
sequences of STATE frames (log entry 110). -/
def Obligations.RingMembership : Prop :=
  (∀ (s : State), s.get MNG_CTRL.EN = 1 → exec .ringEnable s = .next s) ∧
  (∀ (s : State), s.get MNG_CTRL.EN ≠ 1 → servesAt s 3 = true → ringReason s ≠ 0 →
      exec .ringEnable s = .next (s.set MNG_STATUS.REASON (ringReason s))) ∧
  (∀ (s : State), servesAt s 3 = false → exec .ringEnable s = .next s ∧ exec .ringInsert s = .next s) ∧
  (∀ (s : State), s.get MNG_CTRL.EN ≠ 1 → servesAt s 3 = true → ringReason s = 0 →
      exec .ringEnable s = .next
        (((State.each (List.range 4) (fun s g => s.set (MNG_PRESENT.MASK g) 0) (s.setRing {})).set MNG_CTRL.EN 1).set
        MNG_STATUS.JSTATE 1)) ∧
  (∀ (s : State), servesAt s 3 = true →
      exec .ringInsert s = .next (if (jstate s = 1 ∧ s.ring.inserted = none) ∧
        s.supply.vio = true then s.setRing { s.ring with inserted := some s.now } else s)) ∧
  (∀ (t : Nat) (afterLoss : Bool) (s : State), s.ring.inserted = some t → jstate s = 1 →
      s.get MNG_CFG.MASTER = 1 →
      ∃ u v : State, u = (s.expire (t + 50000)) ∧ v = setPresent
        (((u.set MNG_STATUS.MASTER_ACT 1).set MNG_STATUS.ADDR 0).set MNG_STATUS.ADDRV 1) 0 ∧
        exec (.ringMasterStart afterLoss) s = .next
        (joinRing (v.setRing { u.ring with clear := afterLoss, stateSeen := u.now, ownSeen := u.now }) (ringState s)))
        ∧
  (∀ (afterLoss : Bool) (s : State), s.ring.inserted = none ∨ jstate s ≠ 1 ∨ s.get MNG_CFG.MASTER ≠ 1 →
      exec (.ringMasterStart afterLoss) s = .next s) ∧
  (∀ (s : State),
      exec .ringLeave s = .next (if s.get MNG_CTRL.EN = 1 ∧
        (jstate s = 1 ∨ jstate s = 2) then offRing (s.set MNG_STATUS.JSTATE 3) else s)) ∧
  (∀ (u : State) (s : State), masterActs s = true →
      u = giveUp (match s.ring.cycleAt with | some t => s.expire (t + 10000) | none => s) →
      let polls := pollBodies u false (groupsInUse u) ++
        (if u.get MNG_STATUS.OPEN = 1 then [] else pollBodies u true u.ring.polls);
        let v := stateSent (ringSend u (masterState u :: polls));
        let w := v.setRing { v.ring with cycleAt := some u.now };
        exec .ringCycle s = .next (match freeAddress u with
          | some a => (if s.get MNG_STATUS.OPEN = 1 then w else ringSendAcked
            (w.setRing { w.ring with clear := false }) (enumBody a false u.ring.clear))
          | none => w)) ∧
  (∀ (s : State),
      (giveUp s).ring.unacked = s.ring.unacked.filter
        (fun x => decide (s.get MNG_STATUS.OPEN = 1) || decide (x.resends < 3) || decide (s.now < x.sentAt + 20000)) ∧
        ((∀ x ∈ s.ring.unacked, givenUp s x = false ∨ bodyType x.frame ≠ 3) ∨ s.ring.abortSent = false →
          giveUp s = s.setRing { s.ring with unacked := s.ring.unacked.filter fun x => !givenUp s x })) ∧
  (∀ (s : State), masterActs s = false → exec .ringCycle s = .next s) ∧
  (∀ (offered : BitVec 7) (taken clr : Bool) (s : State),
      ∃ u : State, u = ringSend s [fillBody s (enumBody offered.toNat taken clr)] ∧
        exec (.ringEnumFrame offered taken clr) s = .next (if masterActs s = true ∨ s.ring.inserted = none then s
        else if clr = true then dropAddresses u
        else if jstate s = 2 ∧ s.get MNG_STATUS.ADDRV ≠ 1 ∧
          taken = false then setPresent ((u.set MNG_STATUS.ADDR offered.toNat).set MNG_STATUS.ADDRV 1) offered.toNat
        else u)) ∧
  (∀ (offered : BitVec 7) (taken clr : Bool) (s : State), masterActs s = true →
      (∃ x ∈ s.ring.unacked, x.frame = enumBody offered.toNat false clr) →
      ∃ u : State, u = ringAck (ringReturned s) (enumBody offered.toNat false clr) ∧
        exec (.ringEnumReturn offered taken clr) s = .next (if taken = true ∧ clr = false ∧
        present s offered.toNat = false then useRemembered (notice (setPresent u offered.toNat) (mngEv 2 .notice))
        else u)) ∧
  (∀ (offered : BitVec 7) (taken clr : Bool) (s : State),
      masterActs s = false ∨ (∀ x ∈ s.ring.unacked, x.frame ≠ enumBody offered.toNat false clr) →
      exec (.ringEnumReturn offered taken clr) s = .next s) ∧
  (∀ (hold : Bool) (group : BitVec 2) (bits : Word) (s : State),
      ∃ (b : Nat) (u : State), b = fillBody s (pollBody hold group.toNat bits.toNat) ∧ u = ringSend s [b] ∧
        exec (.ringPollFrame hold group bits) s = .next (if masterActs s = true ∨ s.ring.inserted = none then s
        else if hold = true then u
        else u.set (MNG_PRESENT.MASK group.toNat) (s.get (MNG_PRESENT.MASK group.toNat) ||| b % 2 ^ 32))) ∧
  (∀ (hold : Bool) (group : BitVec 2) (bits : Word) (s : State), masterActs s = false →
      exec (.ringPollReturn hold group bits) s = .next s) ∧
  (∀ (group : BitVec 2) (bits : Word) (s : State), masterActs s = true →
      ∃ u : State, u = ringReturned s ∧ exec (.ringPollReturn false group bits) s = .next
        (presencePoll u group.toNat bits.toNat)) ∧
  (∀ (group : BitVec 2) (bits : Word) (s : State), masterActs s = true →
      ∃ u v w : State, u = (ringReturned s).set (MNG_HOLDERS.MASK group.toNat) bits.toNat ∧
      v = u.setRing { u.ring with
          polls := (ringReturned s).ring.polls.filter (· ≠ group.toNat),
          cmdPoll := (ringReturned s).ring.cmdPoll && !((ringReturned s).ring.polls.filter (· ≠ group.toNat)).isEmpty
            } ∧
      w = v.setRing { v.ring with found := sortBy (fun a b => decide (a ≤ b)) (v.ring.found ++
          (((List.range 32).filter fun k => bitOf bits.toNat k = 1).map (32 * group.toNat + ·)).filter fun a =>
            !v.ring.found.contains a) } ∧
      exec (.ringPollReturn true group bits) s = .next (if (ringReturned s).ring.isolating = true ∧
        group.toNat ∈ (ringReturned s).ring.polls then
          (if v.ring.polls = [] then requestAbort (w.setRing { w.ring with isolating := false })
            { target := isoTarget w, node := s.get MNG_STATUS.ADDR, iso := true } else w)
        else v)) ∧
  (∀ (addr : BitVec 7) (s : State), masterActs s = false → s.ring.inserted ≠ none →
      exec (.ringNodeLostFrame addr) s = .next
        (raise (clearPresent (ringSend s [lostBody addr.toNat]) addr.toNat) (mngEv 3 .warning))) ∧
  (∀ (addr : BitVec 7) (s : State), masterActs s = true → s.ring.inserted ≠ none →
      ∃ u : State, u = raise (clearPresent (ringAck (ringReturned s) (lostBody addr.toNat)) addr.toNat)
        (mngEv 3 .warning) ∧ exec (.ringNodeLostFrame addr) s = .next
        (if s.get MNG_CFG.LOSTPOL = 1 then requestAbort u { target := isoTarget u, node := s.get MNG_STATUS.ADDR }
        else u)) ∧
  (∀ (addr : BitVec 7) (s : State), s.ring.inserted ≠ none → s.get MNG_STATUS.ADDRV = 1 →
      s.get MNG_STATUS.ADDR = addr.toNat →
      exec (.ringIsolateFrame addr) s = .next
        (raise (((offRing (ringSend s [isolateBody addr.toNat])).set MNG_STATUS.JSTATE 4).set MNG_CTRL.EN 0)
        (mngEv 5 .fault))) ∧
  (∀ (addr : BitVec 7) (s : State), s.ring.inserted ≠ none →
      s.get MNG_STATUS.ADDRV ≠ 1 ∨ s.get MNG_STATUS.ADDR ≠ addr.toNat →
      ∃ u : State, u = ringAck (ringReturned s) (isolateBody addr.toNat) ∧
        exec (.ringIsolateFrame addr) s = .next
        (if masterActs s = true then ringSendAcked u (lostBody addr.toNat) else ringSend s [isolateBody addr.toNat]))
        ∧
  (∀ (addr : BitVec 7) (s : State), s.ring.inserted = none →
      exec (.ringNodeLostFrame addr) s = .next s ∧ exec (.ringIsolateFrame addr) s = .next s) ∧
  (∀ (s : State),
      exec .ringSilent s = .next (if jstate s = 2 ∧
        s.get MNG_STATUS.SILENT ≠ 1 then raise ((s.expire (s.ring.stateSeen + 50000)).set MNG_STATUS.SILENT 1)
        (mngEv 8 .warning) else s)) ∧
  (∀ (s : State),
      exec .ringOpen s = .next (if masterActs s = true ∧
        s.get MNG_STATUS.OPEN ≠ 1 then raise ((s.expire (s.ring.ownSeen + 20000)).set MNG_STATUS.OPEN 1)
        (mngEv 7 .fault) else s))

/-- STATE and ABORT frames, bad frames, resends and the host's commands act as R287 to R297 say. At the first STATE
frame a listening node joins in its state (R289); a joined node checks its counter and takes the frame's state at the
second mismatch, with STATE_MISMATCH (R294), and leaves where the count says that the ring is full and it has no
address (R290); the frame passes on with the node's request where AREQ arrives 0 (R293). At the master its own frame
completes the round and may carry a request; one that it did not send stops it with MASTER_CONFLICT (R297). An ABORT
passes on and takes effect at a joined node; the master acts on its own when it returns (R293), and sends it 3 µs
after it took its hold. A frame with a bad CRC is counted and passes on bad, except one of a reserved type and at the
master (R287); the frame sent first that may still be resent is resent up to three times (R289). The commands of
MNG_CMD act on a joined node or at the master (Table 9.16), and not while a POLL that MNG_CMD asked for has polls out
(R16). When a frame of the master's returns to an open ring, the ISOLATE frames and the holder polls that waited leave
with what the row sends (R297). In every other case the command changes nothing but LINE. That the line's level comes
with the frame, that eight sequences stay outstanding, what is dropped with a bad frame, and which frame is resent
first are the model's choices (log entries 51, 52, 109, 110), and so are the resending after the ring was open and the
MNG_CMD action that counts as running (log entry 125). Further choices of the model: what other nodes send comes as
commands (log entry 5), an event that cannot happen in the present state changes nothing (log entry 6), the deadline
of a state entered without an edge (log entry 49), a STEP during an abort (log entry 53). -/
def Obligations.RingFrames : Prop :=
  (∀ (f : StateFrame) (k : State), k.ring.inserted ≠ none → masterActs k = false →
      ∃ s u : State, s = seeLine k f.line ∧ u = (fillAreq s f).set MNG_STATUS.SILENT 0 ∧
      (jstate k = 1 → exec (.ringStateFrame f) k = .next
        (joinRing (u.setRing { u.ring with stateSeen := k.now }) f.state.toNat)) ∧
      (jstate k = 2 → exec (.ringStateFrame f) k = .next
        (let v := checkState (u.setRing { u.ring with stateSeen := k.now }) f.state.toNat; if f.count.toNat = 128 ∧
        k.get MNG_STATUS.ADDRV ≠ 1 then leaveRing (raise v (mngEv 11 .fault)) else v)) ∧
      (jstate k ≠ 1 → jstate k ≠ 2 → exec (.ringStateFrame f) k = .next s)) ∧
  (∀ (f : StateFrame) (k : State), masterActs k = true →
      exec (.ringStateFrame f) k = .next (masterSawState (if k.ring.inserted = none then k else seeLine k f.line) f))
        ∧
  (∀ (f : StateFrame) (s : State), s.ring.inserted = none → masterActs s = false →
      exec (.ringStateFrame f) s = .next s) ∧
  (∀ (f : StateFrame) (s : State), f.seq.toNat ∉ s.ring.seqs →
      masterSawState s f = raise (stopMaster s) (mngEv 10 .fault)) ∧
  (∀ (n : Nat) (s : State), s.ring.window = false → n ≠ ringState s →
      checkState s n = (if s.ring.mismatches = 0 then s.setRing { s.ring with mismatches := 1 } else wakeStep
        (raise (agree (enterRingState s n)) (mngEv 9 .fault)) n)) ∧
  (∀ (target : BitVec 8) (node : BitVec 7) (seq : BitVec 4) (s : State), masterActs s = false →
      ∃ u : State, u = ringSend s [abortBody target.toNat node.toNat seq.toNat] ∧
        exec (.ringAbortFrame target node seq) s = .next
        (if jstate s = 2 then applyAbort u target.toNat node.toNat seq.toNat else if s.ring.inserted ≠ none then u
        else s)) ∧
  (∀ (target : BitVec 8) (node : BitVec 7) (seq : BitVec 4) (s : State), masterActs s = true →
      exec (.ringAbortFrame target node seq) s = .next
        (if s.ring.abortSent = true then masterAborted s target.toNat node.toNat seq.toNat else s)) ∧
  (∀ (t : Nat) (r : AbortReq) (rest : List AbortReq) (s : State), s.ring.abortHold = some t →
      s.ring.requests = r :: rest → s.ring.abortSent = false → masterActs s = true → s.get MNG_STATUS.OPEN ≠ 1 →
      ∃ u : State, u = (s.expire (t + 300)) ∧ exec .abortHoldWaitEnd s = .next
        (ringSendAcked (u.setRing
        { u.ring with abortSent := true, abortSeq := (s.ring.abortSeq + 1) % 16, window := true, tx := [] })
        (abortBody r.target r.node s.ring.abortSeq))) ∧
  (∀ (s : State),
      s.ring.abortHold = none ∨ s.ring.requests = [] ∨ s.ring.abortSent = true ∨ masterActs s = false ∨
        s.get MNG_STATUS.OPEN = 1 →
      exec .abortHoldWaitEnd s = .next s) ∧
  (∀ (body : BitVec 40) (s : State),
      ∃ u : State, u = s.addSat MNG_CNT.CRCERR 1 ∧ exec (.ringFrameCrcError body) s = .next
        (if s.ring.inserted = none then s
        else if masterActs s = true ∨ bodyType body.toNat < 1 ∨ 6 < bodyType body.toNat then u
        else u.setRing { u.ring with tx := [ringFrame (fillBody s body.toNat) true] })) ∧
  (∀ (x : RingSent) (s : State), firstDue s.ring.unacked = some x → masterActs s = true →
      s.get MNG_STATUS.OPEN ≠ 1 →
      ∃ u : State, u = (s.expire (x.sentAt + 20000)) ∧
        exec .ringFrameResend s = .next
        (u.setRing { u.ring with tx := [ringFrame x.frame], unacked := s.ring.unacked.erase x ++ [{ x with sentAt := u.now, resends := x.resends + 1 }] })) ∧
  (∀ (s : State), firstDue s.ring.unacked = none ∨ masterActs s = false ∨ s.get MNG_STATUS.OPEN = 1 →
      exec .ringFrameResend s = .next s) ∧
  (∀ (x : RingSent) (l : List RingSent), firstDue l = some x →
      x ∈ l ∧ x.resends < 3 ∧ ∀ y ∈ l, y.resends < 3 → x.sentAt ≤ y.sentAt) ∧
  (∀ (arg : BitVec 8) (s : State),
      exec (.mngCmdAbort arg) s = .next (if jstate s = 2 ∧
        s.ring.cmdPoll = false then wantAbort s arg.toNat else s)) ∧
  (∀ (arg : BitVec 8) (s : State),
      exec (.mngCmdIsolate arg) s = .next (if masterActs s = true ∧ arg.toNat < 128 ∧
        s.ring.cmdPoll = false then sendIsolate (s.setRing { s.ring with tx := [] }) arg.toNat else s)) ∧
  (∀ (s : State), exec .mngCmdPoll s = .next (if masterActs s = true ∧ s.ring.cmdPoll = false then
        (let u := holderPolls (s.setRing { s.ring with tx := [] }); u.setRing
          { u.ring with cmdPoll := !u.ring.polls.isEmpty }) else s)) ∧
  (∀ (s : State),
      (s.get MNG_STATUS.OPEN ≠ 1 → ringReturned s = (s.setRing { s.ring with ownSeen := s.now, tx := [] }).set
        MNG_STATUS.OPEN 0) ∧
        (s.get MNG_STATUS.OPEN = 1 →
          (∀ a ∈ s.ring.isoWaits, ringFrame (isolateBody a) ∈ (ringReturned s).ring.tx) ∧
          (s.ring.pollsWait = true → ∀ g, g < 4 → s.get (MNG_PRESENT.MASK g) ≠ 0 →
            ∃ b ∈ pollBodies s true [g], ringFrame b ∈ (ringReturned s).ring.tx) ∧
          (ringReturned s).ring.isoWaits = [] ∧ (ringReturned s).ring.pollsWait = false))

/-- ADC slices, entries and housekeeping rounds run as R327 to R333, R340 and R360 say. A slice's enable is ignored,
refused or taken (R329, R38); its disable begins the drain and discards the entry under conversion (R330). A period
starts the sequence or counts a skipped start (R327). An entry with its 2^AVG samples gives RAW, their sum shifted
right by SHIFT, and the channel's latest result, and the sequence goes on (R328); a base-list channel with its 16
samples, an NTC or a TMON voltage has its result once in a round (R331, R360); both stand still during a burst (R338).
Samples of the capture source enter the buffer (R340). A round starts at its boundary, completes in the same handshake
where nothing is waited for and otherwise when nothing is waited for any more, and an unfinished one is abandoned with
HK_DEADLINE (R332, R333). A command that meets none of these changes nothing. That a RAW value left by a disable is
free, that a reading is rounded freely, and the instant of a period are the model's choices (log entries 75, 76, 77,
112), and so are the scales of the channels whose unit Table 11.1 leaves open (log entry 112) and the phases in which
the ADC serves (log entry 117). Further choices of the model: an event that cannot happen in the present state changes
nothing (log entry 6), an expiry moves the device time to it (log entry 7). -/
def Obligations.AdcSequences : Prop :=
  (∀ (k : Fin 4) (s : State), s.get (ADC_SL_CTRL.EN k) = 1 → exec (.adcSliceEnable k) s = .next s) ∧
  (∀ (k : Fin 4) (s : State), s.get (ADC_SL_CTRL.EN k) ≠ 1 → unitsServe s = true → sliceReason s k ≠ 0 →
      exec (.adcSliceEnable k) s = .next
        (notice ((s.set ADC_STATUS.REASON (sliceReason s k)).set ADC_STATUS.RSRC k) (adcEv 2 .notice))) ∧
  (∀ (k : Fin 4) (s : State), unitsServe s = false → exec (.adcSliceEnable k) s = .next s) ∧
  (∀ (k : Fin 4) (s : State), s.get (ADC_SL_CTRL.EN k) ≠ 1 → unitsServe s = true → sliceReason s k = 0 →
      ∃ u : State, u = { s.set (ADC_SL_CTRL.EN k) 1 with adc := { s.adc with perAt := NMap.put 0 s.adc.perAt k (s.now + 1) } } ∧ exec (.adcSliceEnable k) s = .next (notice (if s.get (ADC_SL_CTRL.RUN k) = 2 then startSeq u k else u) (adcEv 2 .notice))) ∧
  (∀ (k : Fin 4) (s : State), sliceRuns s k = true →
      ∃ u v : State, u = s.setAdc { s.adc with slDrain := setBitNat s.adc.slDrain k } ∧
        v = { stopSeq u k with free := s.free + 1 } ∧
        exec (.adcSliceDisable k) s = .next
        (if seqRuns s k = true then
        ((v.set (ADC_SL_RAW.RAW k) (Config.discardedRaw s.free)).set (ADC_SL_RAW.ENTRY k)
        (NMap.get 0 s.adc.pos k)).set (ADC_SL_RAW.DISCARDED k) 1 else u)) ∧
  (∀ (k : Fin 4) (s : State), sliceRuns s k = false →
      exec (.adcSliceDisable k) s = .next s ∧ exec (.adcSeqPeriod k) s = .next s) ∧
  (∀ (k : Fin 4) (t : Nat) (s : State), sliceRuns s k = true → s.get (ADC_SL_CTRL.RUN k) = 3 →
      NMap.get 0 s.adc.perAt k = t + 1 →
      ∃ u v : State, u = (s.expire (deadlineAt t (s.get (ADC_SL_CTRL.PER k)))) ∧
        v = u.setAdc { u.adc with perAt := NMap.put 0 u.adc.perAt k (deadlineAt t (s.get (ADC_SL_CTRL.PER k)) + 1) } ∧
        exec (.adcSeqPeriod k) s = .next (if seqRuns s k then v.addSat (ADC_SL_RAW.SKIP k) 1 else startSeq v k)) ∧
  (∀ (k : Fin 4) (s : State), s.get (ADC_SL_CTRL.RUN k) ≠ 3 ∨ NMap.get 0 s.adc.perAt k = 0 →
      exec (.adcSeqPeriod k) s = .next s) ∧
  (∀ (k : Fin 4) (codes : List (BitVec 12)) (s : State), seqRuns s k = true → s.adc.burst = none →
      codes.length = 2 ^ s.get (ADC_SEQ.AVG k (NMap.get 0 s.adc.pos k)) →
      ∃ (e raw : Nat) (u v : State), e = NMap.get 0 s.adc.pos k ∧
        raw = (codes.map BitVec.toNat).foldl (· + ·) 0 / 2 ^ s.get (ADC_SEQ.SHIFT k e) ∧
      u = ((s.set (ADC_SL_RAW.RAW k) raw).set (ADC_SL_RAW.ENTRY k) e).set (ADC_SL_RAW.DISCARDED k) 0 ∧
      v = { setLatest u (s.get (ADC_SEQ.CH k e)) (readingOf s (s.get (ADC_SEQ.CH k e)) raw (s.get (ADC_SEQ.AVG k e) - s.get (ADC_SEQ.SHIFT k e))) with free := s.free + 2 } ∧
      exec (.adcEntryDone (.seq k codes)) s = .next
        (nextEntry (if 0xFFF#12 ∈ codes then notice v (adcEv 8 .notice) else v) k e)) ∧
  (∀ (k : Fin 4) (codes : List (BitVec 12)) (s : State),
      seqRuns s k = false ∨ s.adc.burst ≠ none ∨ codes.length ≠ 2 ^ s.get (ADC_SEQ.AVG k (NMap.get 0 s.adc.pos k)) →
      exec (.adcEntryDone (.seq k codes)) s = .next s) ∧
  (∀ (c : Nat) (v : Nat) (s : State), bitOf s.adc.baseLeft c = 1 → s.adc.burst = none →
      ∃ u : State, u = setLatest s c v ∧ baseDone s c v =
        { u.setAdc { u.adc with baseLeft := withBit u.adc.baseLeft c false } with free := s.free + 2 }) ∧
  (∀ (c : Nat) (v : Nat) (s : State), bitOf s.adc.baseLeft c ≠ 1 ∨ s.adc.burst ≠ none → baseDone s c v = s) ∧
  (∀ (c : BitVec 6) (codes : List (BitVec 12)) (s : State),
      exec (.adcEntryDone (.base c codes)) s = .next
        (if codes.length = 16 then baseDone s c.toNat
        (readingOf s c.toNat ((codes.map BitVec.toNat).foldl (· + ·) 0 / 2 ^ 4) 0) else s)) ∧
  (∀ (k : Fin 4) (j : Fin 6) (uv : Nat) (s : State),
      exec (.adcEntryDone (.ntc k uv)) s = .next (baseDone s (0x26 + k) (ntcReading s uv)) ∧
        exec (.adcEntryDone (.tmon j uv)) s = .next (baseDone s (0x2A + j) (tmonReading s uv))) ∧
  (∀ (samples : List (BitVec 16)) (s : State),
      exec (.adcEntryDone (.capture samples)) s = .next
        (if bufferWritten s = true then putSamples s
        (if s.get ADC_SNAP.STATE = 1 then samples.take s.adc.fillLeft else samples) else s)) ∧
  (∀ (v b c : BitVec 16) (s : State), s.adc.round = false → unitsServe s = true →
      ∃ u : State, u = startRound (s.expire (roundBoundary s)) ∧
        exec (.hkRoundStart v b c) s = .next
        (if roundIsDone u = true then completeRound u v.toNat b.toNat c.toNat else u)) ∧
  (∀ (v b c : BitVec 16) (s : State), s.adc.round = true ∨ unitsServe s = false →
      exec (.hkRoundStart v b c) s = .next s) ∧
  (∀ (s : State),
      exec .hkDeadline s = .next
        (if s.adc.round = true then startRound (raise (s.expire (roundBoundary s)) (adcEv 1 .fault)) else s)) ∧
  (∀ (v b c : BitVec 16) (s : State),
      exec (.hkRoundComplete v b c) s = .next (if s.adc.round = true ∧ s.adc.roundWaits = 0 ∧
        s.adc.baseLeft = 0 then completeRound s v.toNat b.toNat c.toNat else s))

/-- Every step keeps the books of the urgent conversions. The books are REQ = SERVED + DROPPED + INCONV, modulo 65 536
(R337): every step that meets them keeps them, whatever its command, and they hold at reset. A request counts in REQ
at its arrival and is either taken, so that INCONV is 1, or counted in DROPPED; a conversion that is delivered counts
in SERVED and leaves INCONV 0; ADC_CTRL.CLRCNT sets SERVED and DROPPED to 0 and REQ to INCONV; and reading ADC_URGREQ
latches ADC_DROP, DROPPED and INCONV together, while VSYS feeds the ADC and K0 runs (R24, R304). ADC_URGREQ shows REQ
and SERVED. Further choices of the model: commands wait in a queue (log entry 1), an expiry moves the device time to
it (log entry 7). -/
def Obligations.UrgentRequestBooks : Prop :=
  (∀ (s t : State), step s = .next t → s.adc.booked → t.adc.booked) ∧
  (State.reset.adc.booked) ∧
  (∀ (who : Requester) (c : Nat) (s : State),
      let r := urgentRequest s who c;
        r.2.adc.asked = (s.adc.asked + 1) % 65536 ∧ r.2.adc.served = s.adc.served ∧
        (r.1 = true → s.adc.urgent = none ∧ r.2.adc.urgent = some (who, c) ∧ r.2.adc.dropped = s.adc.dropped) ∧
        (r.1 = false → r.2.adc.urgent = s.adc.urgent ∧ r.2.adc.dropped = (s.adc.dropped + 1) % 65536)) ∧
  (∀ (reading : BitVec 16) (who : Requester) (c : Nat) (s : State), s.adc.urgent = some (who, c) →
      ∃ u t : State, u = { s with adc := { s.adc with urgent := none, served := (s.adc.served + 1) % 65536 } } ∧
        t = deliver u who c reading.toNat ∧ exec (.urgentConversionDone reading) s = .next t ∧
        (s.adc.booked → t.adc.booked) ∧
        ((∀ e k, who = .task e k → (s.engine e).handing = false) →
          t.adc.urgent = none ∧ t.adc.served = (s.adc.served + 1) % 65536 ∧ t.adc.asked = s.adc.asked ∧
          t.adc.dropped = s.adc.dropped)) ∧
  (∀ (reading : BitVec 16) (s : State), s.adc.urgent = none → exec (.urgentConversionDone reading) s = .next s) ∧
  (∀ (s : State), vsysRuns s = true →
      (∃ u : State, exec .adcClrcnt s = .next u ∧ u.adc.served = 0 ∧ u.adc.dropped = 0 ∧
          u.adc.asked = (if s.adc.urgent.isSome then 1 else 0) ∧ u.adc.urgent = s.adc.urgent) ∧
        ∃ u : State, exec .adcUrgreqRead s = .next u ∧ u.adc = s.adc ∧
          u.get ADC_DROP.DROPPED = s.adc.dropped % 65536 ∧
          u.get ADC_DROP.INCONV = (if s.adc.urgent.isSome then 1 else 0) ∧
          shownField u (liveFields u 0x1A1C) ADC_URGREQ.REQ = s.adc.asked % 65536 ∧
          shownField u (liveFields u 0x1A1C) ADC_URGREQ.SERVED = s.adc.served % 65536) ∧
  (∀ (s : State), vsysRuns s = false → exec .adcClrcnt s = .next s ∧ exec .adcUrgreqRead s = .next s)

/-- Bursts, capture, snapshots and capacitor injections run as R338 to R344 and R354 say. A burst starts or is refused
with its reason and source, and while its own burst runs GO is ignored (R338, R329, R16); at its end the slices
resume, and the fit converges or MISMATCH is raised (R339). Capture is enabled, refused or, where it is enabled,
ignored (R340, R38). A snapshot is requested with TRIG 2; a fill under way takes its samples and ends, HELD, when it
has taken all of them; the held one is digested once with SHA-256 over what R344 lists, and released (R341 to R344).
An injection waits for its conditions while its indicator and INJ_EN stay on, runs as a 40 µs burst or is refused,
notes the total currents before and in its raised periods, is fitted to the samples that the slices took after its
first period, gives no measurement where the burst ends before its raised periods are over, and is abandoned with its
cause after 1 h (R354). In every other case the command changes nothing. Where the buffer's first sample stands, when
an injection is due how the step and the fit are measured and rounded, the layout of the digest's words and the phases
in which the ADC serves are the model's choices (log entries 74, 75, 79, 80, 117, 132). Further choices of the model:
an event that cannot happen in the present state changes nothing (log entry 6), the digest is the published SHA-256
(log entry 91). -/
def Obligations.CapturesAndInjections : Prop :=
  (∀ (s : State),
      exec .adcBurstGo s = .next (if goRuns s = true ∨
        unitsServe s = false then s else if burstReason s (s.get ADC_BURST.CH) = 0 then startBurst s
        { ch := s.get ADC_BURST.CH, len := s.get ADC_BURST.LEN, start := s.now } else
        (s.set ADC_STATUS.REASON (burstReason s (s.get ADC_BURST.CH))).set ADC_STATUS.RSRC 4)) ∧
  (∀ (x : Burst) (converged limit : Bool) (s : State), s.adc.burst = some x → x.injection = none →
      ∃ u : State, u = stopBurst (s.expire (x.start + x.len * 100)) ∧
        exec (.burstEnd converged limit) s = .next
        (if limit then mismatch u else if converged then u.set ADC_MISM.CONV 1 else u)) ∧
  (∀ (converged limit : Bool) (s : State),
      (s.adc.burst = none → exec (.burstEnd converged limit) s = .next s) ∧
        (∀ x n, s.adc.burst = some x → x.injection = some n → exec (.burstEnd converged limit) s = .next s)) ∧
  (∀ (s : State),
      exec .mismClr s = .next
        (if vsysRuns s = true then ({ s with adc := { s.adc with corrTemps := [] } } : State).set ADC_MISM.CONV 0 else
        s) ∧
      exec .adcCtrlSnap s = .next (if vsysRuns s = true then snapRequest s 2 0 else s)) ∧
  (∀ (s : State),
      ∃ u : State, u = (s.set ADC_CAP.EN 1).setAdc
        { s.adc with capPos := Config.captureStart s.free % 32768, capLen := 0 } ∧
      exec .captureEnable s = .next (if s.get ADC_CAP.EN = 1 ∨
        unitsServe s = false then s else if captureReason s = 0 then { u with free := s.free + 1 } else
        (s.set ADC_STATUS.REASON (captureReason s)).set ADC_STATUS.RSRC 5)) ∧
  (∀ (samples : List (BitVec 16)) (s : State),
      ∃ u : State, u = captureSamples s samples ∧ exec (.snapshotFreeze samples) s = .next
        (if s.get ADC_SNAP.STATE = 1 then (if u.adc.fillLeft = 0 then endFill (u.expire u.adc.fillEnd) else u) else
        s)) ∧
  (∀ (s : State),
      ∃ u : State, u = State.each (digestWords (sha256 (snapMessage s))).zipIdx
        (fun s x => s.set (ADC_SNAPDIG.DIGEST x.2) x.1) s ∧
        exec .snapshotDigestDone s = .next (if s.get ADC_SNAP.STATE = 2 ∧
        s.get ADC_SNAP.DIGV ≠ 1 then notice (u.set ADC_SNAP.DIGV 1) (adcEv 6 .notice) else s)) ∧
  (∀ (s : State),
      exec .snapshotRelease s = .next (if vsysRuns s = true ∧
        s.get ADC_SNAP.STATE = 2 then (s.setAdc { s.adc with capLen := 0 }).set ADC_SNAP.STATE 0 else s)) ∧
  (∀ (n : Nat) (rest : List Nat) (s : State), injectionLoops s = n :: rest →
      exec .injectionDue s = .next (if s.get WEAR_CTRL.INJ_EN = 1 ∧ waitingInjection s = none ∧
        injecting s = none then awaitInjection s n (injectionTime s n) else s)) ∧
  (∀ (n t : Nat) (s : State),
      ∃ u : State, u = (s.expire t) ∧ awaitInjection s n t = u.setAdc
        { u.adc with injNext := (n + 1) % 6, injWait := some (n, u.now), injAt := NMap.put 0 u.adc.injAt n (u.now + 1) }) ∧
  (∀ (s : State), injectionLoops s = [] → exec .injectionDue s = .next s) ∧
  (∀ (n t : Nat) (s : State), waitingInjection s = some (n, t) ↔
        s.adc.injWait = some (n, t) ∧ s.get WEAR_CTRL.INJ_EN = 1 ∧ wearOn s (1 + n) = true) ∧
  (∀ (n t : Nat) (s : State), waitingInjection s = some (n, t) →
      exec .injectionStart s = .next
        (if injectionCause s n ≠ 0 then s else if burstReason s n = 0 then startBurst
        { s with adc := { s.adc with injWait := none } } { ch := n, len := 40, start := s.now, injection := some n }
        else adcRefuse s (burstReason s n) 6)) ∧
  (∀ (n t : Nat) (s : State), waitingInjection s = some (n, t) →
      exec .injAbort s = .next
        (if waitCause s n = 0 then s else abortInjection (s.expire (t + hour)) n (waitCause s n))) ∧
  (∀ (s : State), waitingInjection s = none → exec .injectionStart s = .next s ∧ exec .injAbort s = .next s) ∧
  (∀ (n cause : Nat) (s : State),
      abortInjection s n cause = wearNotice
        (((dropInjection s n).set WEAR_STATUS.INJCAUSE cause).set WEAR_STATUS.INJLOOP n) 12) ∧
  (∀ (x : Burst) (n : Nat) (codes : List (BitVec 12)) (converged limit : Bool) (s : State),
      s.adc.burst = some x → x.injection = some n → injectionOver s n x = true →
      exec (.injectionDone codes converged limit) s = .next
        (if codes.length = (x.stepEnd - x.firstEnd) * 4 then fitInjection (burstEnds s x converged limit) n x codes
        else s)) ∧
  (∀ (x : Burst) (n : Nat) (codes : List (BitVec 12)) (converged limit : Bool) (s : State),
      s.adc.burst = some x → x.injection = some n → injectionOver s n x = false →
      ∃ u : State, u = burstEnds s x converged limit ∧ exec (.injectionDone codes converged limit) s =
        .next (if injectionCut s n x then u.setLoop n { u.loop n with inj := 0 } else s)) ∧
  (∀ (s : State) (n : Nat) (x : Burst),
      (injectionOver s n x = true ↔ x.injected = true ∧ x.raised = false ∧ (s.loop n).inj = 0) ∧
        (injectionCut s n x = true ↔ x.start + x.len * 100 ≤ s.now ∨
          (s.get (LP_STATUS.STATE n) ≠ 3 ∧ s.get (LP_STATUS.STATE n) ≠ 4))) ∧
  (∀ (codes : List (BitVec 12)) (converged limit : Bool) (s : State), injecting s = none →
      exec (.injectionDone codes converged limit) s = .next s) ∧
  (∀ (x : Burst) (n now : Nat) (totals : List Nat),
      (x.injected = false → x.raise now totals =
        { x with injected := true, raised := true, stepAt := now, before := totals }) ∧
      (x.injected = true → x.raise now totals = { x with raised := true }) ∧
      (x.injection = some n → x.raised = true → ∀ t,
        x.note n t now = { x with raised := false, during := t :: x.during, stepEnd := now, firstEnd := if x.during = [] then now else x.firstEnd }) ∧
      (x.injection ≠ some n ∨ x.raised = false → ∀ t, x.note n t now = x))

/-- A wear day, the bank's rest, the ageing count and a thermal shutdown act as R346 to R357 and R368 say. A wear day
ends every stage and trend, shows every prediction, adds 1 to DAY and raises its notice (R347, R348). The ageing count
once an hour gives the slowdown less the difference of final test, which enters its indicator where that is enabled
(R357). A rest of 30 min without the charger's switching sets Q from the open-circuit voltage, and gives a fix or, of
a stack, an estimate from two rests (R346, R352, R353). A die sensor's trip, while the VSYS rails are up (R24), sets
the latch with its sensor and the last TJMAX; unless a reset holds, where it is only latched (log entry 78), it raises
TSD as CRITICAL, switches every rail, VDRV and the charger off, drains the engines and the ring, and leaves the device
in HALTED with level 0 (R368, R369). In every other case the command changes nothing. The rounding of the estimates,
the state of charge at the ends of the curve and the ageing count below 0 are the model's choices (log entries 74, 78,
113). Further choices of the model: an event that cannot happen in the present state changes nothing (log entry 6),
the first capacity fix (log entry 26), the layout of TRIM (log entry 64). -/
def Obligations.WearAndThermal : Prop :=
  (∀ (s : State), timeRuns s = true →
      ∃ u v : State, u = (s.expire (nextBoundary s.now wearDay s.wear.dayAt)) ∧
        v = State.each (List.range 15) showEol
        (State.each (List.range 6) endStage
        (State.each trendKeys endTrend (u.setWear { u.wear with dayAt := some u.now }))) ∧
        exec .wearDay s = .next (notBlank (wearNotice (v.addSat WEAR_STATUS.DAY 1) 9))) ∧
  (∀ (a b : Nat) (s : State), timeRuns s = true →
      ∃ u v : State, u = (s.expire (nextBoundary s.now hour s.wear.ageAt)) ∧
        v = { u with free := s.free + 1, wear := { u.wear with ageAt := some u.now } } ∧
        exec (.ageingCount a b) s = .next
        (if wearOn s 14 = true then ageingPoint v (slowdown a b (Config.oscDifference (regionContent s.otp 1)) s.free)
        else v)) ∧
  (∀ (a b : Nat) (s : State), timeRuns s = false →
      exec .wearDay s = .next s ∧ exec (.ageingCount a b) s = .next s) ∧
  (∀ (slow : Int) (s : State),
      ageingPoint s slow = (measure s 14 slow).set (WEAR_VAL.VAL 14)
        (if slow < 0 then Config.slowBelowZero s.free else min slow.toNat 0xFFFFFFFF)) ∧
  (∀ (a b free : Nat) (diff : Int), b ≠ 0 → ((b : Int) - a) * 1000000 % b = 0 →
      slowdown a b diff free = ((b : Int) - a) * 1000000 / b - diff) ∧
  (∀ (t bkb : Nat) (s : State), s.wear.restAt = some t → s.charger.switching = false →
      exec (.bankRest bkb) s = .next (restReading (restEnds s t bkb) bkb)) ∧
  (∀ (bkb : Nat) (s : State), s.wear.restAt = none ∨ s.charger.switching = true →
      exec (.bankRest bkb) s = .next s) ∧
  (∀ (bkb : Nat) (s : State), isStack s = false →
      restReading s bkb = (match ocvSoc s bkb with | some ((n, d), true) => showBank (socFix (setQFrom s bkb) n d) | _ => showBank (setQFrom s bkb))) ∧
  (∀ (c b bkb : Nat) (q : Int) (s : State), isStack s = true →
      ∃ u v : State, u = setQFrom s bkb ∧ v = u.setWear { u.wear with rest := some (s.wear.coul, bkb) } ∧
        (s.wear.rest = none → restReading s bkb = showBank v) ∧
        (s.wear.rest = some (q, b) → restReading s bkb = (if wearOn s 0 = true ∧
        b ≠ bkb then newSoh v ((s.wear.coul - q).natAbs / (((bkb : Int) - b).natAbs * s.get WEAR_BANKCAP.CAP)) else
        showBank v))) ∧
  (∀ (n : Fin 8) (s : State), s.supply.rails = true →
      ∃ u : State, u = ((s.set THM_TSD.LATCH 1).set THM_TSD.SENSOR n).set THM_TSD.TJLAST (s.get THM_STATUS.TJMAX) ∧
        exec (.thermalShutdown n) s = .next (if s.supply.nreset then u else tsdActs (raise u (thmEv 5 .critical)))) ∧
  (∀ (n : Fin 8) (s : State), s.supply.rails = false → exec (.thermalShutdown n) s = .next s) ∧
  (∀ (s : State),
      (tsdActs s).get SYS_STATUS.PHASE = 10 ∧ (tsdActs s).get SYS_SERVICE.LEVEL = 0 ∧
        (tsdActs s).get NRG_STATUS.PDOWN = 0)

/-- Foxglove's commands and the latching reads act as R380 to R398 and their read rules say. A record closes when its
actions are complete (R384). KEEPER_HANG, while K0 runs its service, is CRITICAL with STOP-ALIVE always in its
reaction (R390). A write of 1 clears a FLT_STATUS bit unless it is latched (R380); when no STOP-ALIVE bit is left
ALIVE's resumption begins, and it toggles again 0.50 ms later (R392). MARKREAD moves the mark to the newest record
(R388). Test entry compares the key, or counts a try and locks out at three (R396); an injected fault acts as its
line's event in test mode alone (R398). Each latching read latches its registers (R32, R506, R337, R388, R424) while
the host can read: those of the units fed from VSYS with their rails up (R24). In every other case the command changes
nothing. The model's choices: how a key compares (log entry 64), when KEEPER_HANG is seen and a repeated test entry
(log entry 82), the events that an event itself raises (log entry 80), and a device time without bound (log entry 90).
Further choices of the model: an event that cannot happen in the present state changes nothing (log entry 6), an
expiry moves the device time to it (log entry 7). -/
def Obligations.RecordsAndReads : Prop :=
  (∀ (t0 merge : Nat) (h : HistRec) (x : EventRec) (s : State), s.fox.openRec = some (t0, merge) →
      openRecord s = some (h, x) → actionsComplete s x.react = true →
      exec .recordClose s = .next (closeRecord (s.expire (deadlineAt t0 merge)) h x t0)) ∧
  (∀ (s : State),
      (s.fox.openRec = none → exec .recordClose s = .next s) ∧ (openRecord s = none → exec .recordClose s = .next s) ∧
        (∀ h x, openRecord s = some (h, x) → actionsComplete s x.react = false → exec .recordClose s = .next s)) ∧
  (∀ (s : State), exec .keeperHang s = .next (if k0Runs s then foxEvent 4 s keeperEv 8 false else s)) ∧
  (∀ (q : Fin 2) (bits : Word) (s : State), k0Runs s = true →
      ∃ u v : State, u = s.clearBits (FLT_STATUS.LINES q) (bits.toNat &&& (2 ^ 32 - 1 - s.get (FLT_LATCH.LINES q))) ∧
        v = { u with fox := { u.fox with stopLines := u.fox.stopLines &&& statusLines u } } ∧
        exec (.fltStatusClear q bits) s = .next (if v.fox.alive = .held ∧
        aliveStopped v = false then { v with fox := { v.fox with alive := .resuming, aliveEdge := v.now } } else v)) ∧
  (∀ (q : Fin 2) (bits : Word) (line : BitVec 6) (cls : BitVec 2) (s : State), k0Runs s = false →
      exec (.fltStatusClear q bits) s = .next s ∧ exec .fltMarkread s = .next s ∧
        exec (.faultInjection line cls) s = .next s) ∧
  (∀ (s : State), s.fox.alive = .resuming →
      ∃ u : State, u = (s.expire (s.fox.aliveEdge + 50000)) ∧
        exec .aliveResume s = .next
        (foxEvt { u with fox := { u.fox with alive := .run, aliveEdge := u.now, aliveLvl := !u.fox.aliveLvl } } 3)) ∧
  (∀ (s : State), s.fox.alive ≠ .resuming → exec .aliveResume s = .next s) ∧
  (∀ (r : HistRec) (l : List HistRec) (s : State), k0Runs s = true → s.fox.hist = r :: l →
      exec .fltMarkread s = .next { s with fox := { s.fox with readMark := some r.seq } }) ∧
  (∀ (s : State), s.fox.hist = [] → exec .fltMarkread s = .next s) ∧
  (∀ (s : State),
      exec .testEntry s = .next
        (if testPossible s then
        (if Config.testKeyMatches (regionContent s.otp 8) ((List.range 4).map fun k => s.get (FLT_TKEY.KEY k)) then
        raiseBare (foxEvt (s.set FLT_TEST.ACTIVE 1) 4) testEv else if s.get FLT_TEST.TRIES < 2 then s.set
        FLT_TEST.TRIES (s.get FLT_TEST.TRIES + 1) else foxEvt ((s.set FLT_TEST.TRIES 3).set FLT_TEST.LOCKOUT 1) 4)
        else s)) ∧
  (∀ (s : State), testPossible s = false → exec .testEntry s = .next s) ∧
  (∀ (line : BitVec 6) (cls : BitVec 2) (s : State), k0Runs s = true → s.get FLT_TEST.ACTIVE = 1 →
      exec (.faultInjection line cls) s = .next
        (foxEvent 4 ((s.set FLT_INJ.LINE line.toNat).set FLT_INJ.CLASS cls.toNat)
        { evt := SYS_EVT.EVT, bit := 0, src := 0, line := line.toNat, cls := clsOf cls.toNat } 0 true)) ∧
  (∀ (line : BitVec 6) (cls : BitVec 2) (s : State), s.get FLT_TEST.ACTIVE ≠ 1 →
      exec (.faultInjection line cls) s = .next s) ∧
  (∀ (s : State), k0Runs s = true →
      exec .sysTimeLoRead s = .next (s.set SYS_TIME_HI.TIME (s.now / 2 ^ 32)) ∧
        exec .idSerialLoRead s = .next (s.set ID_SERIAL_HI.SERIAL (serialNow s / 2 ^ 32)) ∧
        (vsysRuns s = true → exec .adcUrgreqRead s = .next (latchDrop s)) ∧
        exec .fltHwrRead s = .next (latchHistory s) ∧
        exec .fltLwrRead s = .next ((s.set FLT_LOVR.COUNT s.fox.logOver).set FLT_LSTAT.HELD s.fox.logHeld) ∧
        exec .fltRec0Read s = .next (latchRecord s) ∧
        (vsysRuns s = true → exec .hciCredit0Read s = .next (latchCredit s))) ∧
  (∀ (s : State), k0Runs s = false →
      exec .sysTimeLoRead s = .next s ∧ exec .idSerialLoRead s = .next s ∧ exec .fltHwrRead s = .next s ∧
        exec .fltLwrRead s = .next s ∧ exec .fltRec0Read s = .next s) ∧
  (∀ (s : State), vsysRuns s = false → exec .adcUrgreqRead s = .next s ∧ exec .hciCredit0Read s = .next s)

/-- A completion by the owner completes its source, and any other write is counted as BADCOMP. A write of an ID to the
COMPLETE register of a claiming target completes the source where it is ACTIVE or ACTIVE_PENDING with that owner:
ACTIVE_PENDING becomes PENDING, and ACTIVE becomes PENDING where its request line is 1 and IDLE otherwise (Table
14.2); a completion of 0x100 clears RING and is applied with the request at 0 (R413). Any other write by a claiming
target changes no source's state, adds 1 to INTC_CNT.BADCOMP and is a NOTICE on line 38. A target that takes no claim
(R404), and any target while the units fed from VSYS do not run (R415), completes and claims nothing. What a
completion does to the other targets' lines is noted as log entry 10 says. -/
def Obligations.InterruptCompletion : Prop :=
  (∀ (t : Fin 8) (id : BitVec 9) (s : State), t.val ∈ claimTargets → vsysRuns s = true → 1 ≤ id.toNat →
      id.toNat ≤ 256 → s.get (INTC_SRC.OWNER id.toNat) = t →
      s.get (INTC_SRC.STATE id.toNat) = 3 ∨ s.get (INTC_SRC.STATE id.toNat) = 2 →
      ∃ u, exec (.intcComplete t id) s = .next u ∧ u.get (INTC_SRC.STATE id.toNat) =
        (if s.get (INTC_SRC.STATE id.toNat) = 3 ∨ (id.toNat ≠ 256 ∧
        s.get (INTC_SRC.REQ id.toNat) = 1) then 1 else 0) ∧ (id.toNat = 256 → u.get INTC_DBELL.RING = 0) ∧
        u.get INTC_CNT.BADCOMP = s.get INTC_CNT.BADCOMP) ∧
  (∀ (t : Fin 8) (id : BitVec 9) (s : State), t.val ∈ claimTargets → vsysRuns s = true →
      id.toNat = 0 ∨ 256 < id.toNat ∨ s.get (INTC_SRC.OWNER id.toNat) ≠ t ∨
        (s.get (INTC_SRC.STATE id.toNat) ≠ 2 ∧ s.get (INTC_SRC.STATE id.toNat) ≠ 3) →
      ∃ u : State, exec (.intcComplete t id) s = .next u ∧
        u = noticeCount ((s.set (INTC_T_COMPLETE.ID t) id.toNat).addWrap INTC_CNT.BADCOMP 1) badCompEv ∧
        badCompEv.line = 38 ∧ u.get INTC_CNT.BADCOMP = (s.get INTC_CNT.BADCOMP + 1) % 2 ^ INTC_CNT.BADCOMP.width ∧
        ∀ n, 1 ≤ n → n ≤ 256 → u.get (INTC_SRC.STATE n) = s.get (INTC_SRC.STATE n)) ∧
  (∀ (t : Fin 8) (id : BitVec 9) (s : State), t.val ∉ claimTargets ∨ vsysRuns s = false →
      exec (.intcComplete t id) s = .next s ∧ exec (.intcClaim t) s = .next s)

/-- Requests, claims and the doorbell move a source as Table 14.2 says. A request line that rises makes an IDLE source
PENDING and an ACTIVE one ACTIVE_PENDING; a level that falls returns a PENDING source that is not latched to IDLE
(R405). A claim takes the highest presented source and makes it ACTIVE with its owner, or is spurious, or returns 0
(R409). The doorbell sets and clears RING, and the controller sees the request fall with the clear, so that a later
ring makes an IDLE source PENDING (R413). While the units fed from VSYS do not run the controller takes none of them
(R415), and an ID outside 1 to 256 has no line. An ACTIVE_PENDING source keeps its state whatever its line does. That
the change is taken by a command, how a line's history counts for SPUR and what a claim of an unusable controller
returns are the model's choices (log entries 9, 10, 11). -/
def Obligations.InterruptRequests : Prop :=
  (∀ (s : State) (src : Nat), s.get (INTC_SRC.STATE src) = 0 →
      requestState s src true = (s.set (INTC_SRC.STATE src) 1).set (INTC_SRC.LATCHED src) 0 ∧
        requestState s src false = s) ∧
  (∀ (s : State) (src : Nat), s.get (INTC_SRC.STATE src) = 1 →
      requestState s src true = s ∧ requestState s src false =
        (if s.get (INTC_SRC.LATCHED src) = 1 then s else s.set (INTC_SRC.STATE src) 0)) ∧
  (∀ (s : State) (src : Nat), s.get (INTC_SRC.STATE src) = 2 →
      requestState s src true = (if s.get (INTC_SRC.REQ src) = 1 then s else s.set (INTC_SRC.STATE src) 3) ∧
        requestState s src false = s) ∧
  (∀ (s : State) (src : Nat) (req : Bool), s.get (INTC_SRC.STATE src) = 3 → requestState s src req = s) ∧
  (∀ (src : BitVec 9) (s : State), 1 ≤ src.toNat → src.toNat ≤ 256 → vsysRuns s = true →
      ∃ u : State, u = (requestState s src.toNat (s.request src.toNat)).set (INTC_SRC.REQ src.toNat)
        (if s.request src.toNat then 1 else 0) ∧ exec (.intcRequestChange src) s = .next
        (noteLines (wakeIfRaised (pendingNow s src.toNat) u src.toNat))) ∧
  (∀ (t : Fin 8) (src : Nat) (s : State), t.val ∈ claimTargets → vsysRuns s = true → topSource s t = some src →
      ∃ u : State, u = ((s.set (INTC_SRC.STATE src) 2).set (INTC_SRC.OWNER src) t).set (INTC_SRC.LATCHED src) 0 ∧
        exec (.intcClaim t) s = .next (claimResult (u.addWrap INTC_CNT.CLAIMS 1) t src)) ∧
  (∀ (t : Fin 8) (s : State), t.val ∈ claimTargets → vsysRuns s = true → topSource s t = none →
      exec (.intcClaim t) s = .next
        (if NMap.get false s.intc.lineSeen t && !unusable s 27 then claimResult (s.addSat (INTC_T_STAT.SPUR t) 1) t
        0x1FF else claimResult s t 0)) ∧
  (∀ (s : State), exec .intcDbellSet s = .next (if vsysRuns s then s.set INTC_DBELL.RING 1 else s) ∧
        exec .intcDbellClr s = .next (if vsysRuns s then takeRequest (s.set INTC_DBELL.RING 0) 0x100 else s) ∧
        (vsysRuns s = true → ∃ t u : State, exec .intcDbellClr s = .next t ∧ t.get INTC_DBELL.RING = 0 ∧
          t.get (INTC_SRC.REQ 0x100) = 0 ∧ exec .intcDbellSet t = .next u ∧
          (t.get (INTC_SRC.STATE 0x100) = 0 → vsysRuns t = true → ∃ v, exec (.intcRequestChange 0x100) u = .next v ∧
            v.get (INTC_SRC.STATE 0x100) = 1))) ∧
  (∀ (src : BitVec 9) (s : State), src.toNat = 0 ∨ 256 < src.toNat ∨ vsysRuns s = false →
      exec (.intcRequestChange src) s = .next s)

/-- SPI and two-wire transfers read and write what R418 to R422 and R453 to R471 say. An SPI transaction with another
opcode, or a register access at an address that is no multiple of 4, is an error that writes nothing (R419, R421);
otherwise the words are written or read in turn (R418, R419). The interface answers nothing while it does not run or
its unit is unusable. A two-wire write takes its pointer byte and data, with PEC only where the PEC is right (R453,
R461); a read sends the bytes from the pointer, with PEC the data, the PEC and then 0xFF (R457, R461). TWT_STUCK ends
the transfer with what it had done, and is counted and raised (R464). While such a read runs TWT_STATUS.BUSY reads 1
(R473). The KT1240 window takes its pointer and data, and a read of it sends the bytes from the window's pointer; the
byte of CHk_H latches CHk_L alone (R470, R471). A port that does not run, or a window that is disabled, does nothing.
The model's choices: a word that is not whole and a misaligned address (log entries 85, 86), the unit while it is
unusable (log entry 103), and that the one row of a window read stands for every read there (log entry 123). Further
choices of the model: channels that are no voltage and free offsets (log entry 87). -/
def Obligations.SerialAccess : Prop :=
  (∀ (addr : BitVec 24) (data : List Byte) (s : State), spiRuns s = true → misaligned addr.toNat = false →
      let r := spiWriteWords (data.length + 1) s addr.toNat data;
      exec (.spiWrite 0x02 addr data) s = .next (spiEnd r.1 (spiHead s) r.2)) ∧
  (∀ (addr : BitVec 24) (n : Nat) (s : State), spiRuns s = true → misaligned addr.toNat = false →
      let r := spiReadWords n s addr.toNat n;
      exec (.spiRead 0x03 addr n) s = .next (spiEnd r.2 (spiHead s ++ 0#8 :: r.1) false)) ∧
  (∀ (op : BitVec 8) (addr : BitVec 24) (data : List Byte) (s : State), spiRuns s = true →
      op ≠ 2#8 ∨ (addr.toNat < 0x010000 ∧ addr.toNat % 4 ≠ 0) →
      exec (.spiWrite op addr data) s = .next
        (notice ((s.setHci { s.hci with spiErr := true, spiOut := spiHead s }).addSat HCI_CNT1.SPIERR 1)
        (hciEv 3 .notice))) ∧
  (∀ (op : BitVec 8) (addr : BitVec 24) (n : Nat) (s : State), spiRuns s = true →
      op ≠ 3#8 ∨ (addr.toNat < 0x010000 ∧ addr.toNat % 4 ≠ 0) →
      exec (.spiRead op addr n) s = .next
        (notice ((s.setHci { s.hci with spiErr := true, spiOut := spiHead s }).addSat HCI_CNT1.SPIERR 1)
        (hciEv 3 .notice))) ∧
  (∀ (op : BitVec 8) (addr : BitVec 24) (data : List Byte) (n : Nat) (s : State), spiRuns s = false →
      exec (.spiWrite op addr data) s = .next s ∧ exec (.spiRead op addr n) s = .next s) ∧
  (∀ (data : List Byte) (restart : Bool) (s : State), twtRuns s = true →
      exec (.twtWrite data restart) s = .next
        (if s.get TWT_CFG.PEC = 1 then pecWrite s (s.get TWT_STATUS.ADDR) data restart mainApply else mainApply
        (twtCount s data.length (if data.head? = some 0xFF#8 then 3 else data.length) []) data)) ∧
  (∀ (n : Nat) (s : State), twtRuns s = true → s.get TWT_CFG.PEC ≠ 1 →
      let d := twtData (s.set TWT_STATUS.BUSY 1) n;
      exec (.twtRead n) s = .next (twtSent d.2 d.1)) ∧
  (∀ (n len : Nat) (s : State), twtRuns s = true → s.get TWT_CFG.PEC = 1 → len = s.get TWT_CFG.PECLEN →
      let d := twtData (s.set TWT_STATUS.BUSY 1) (min n len);
      exec (.twtRead n) s = .next
        (twtSent d.2 (d.1 ++ (if n ≤ len then [] else pecOf
        (s.twt.lead ++ addressByte (s.get TWT_STATUS.ADDR) true :: d.1) :: List.replicate (n - len - 1) 0xFF#8)))) ∧
  (∀ (t : Abandoned) (s : State), twtRuns s = true →
      ∃ u : State, u = abandoned s t ∧ exec (.twtStuck t) s = .next
        (raise ((u.setTwt { u.twt with lead := [] }).addSat TWT_CNT.STUCK 1) (twtEv 1 .warning))) ∧
  (∀ (data : List Byte) (restart : Bool) (s : State), twtRuns s = true → s.get TWT_CFG.KT_EN = 1 →
      exec (.ktWindowWrite data restart) s = .next
        (if s.get TWT_CFG.PEC = 1 then pecWrite s (s.get TWT_STATUS.KTADDR) data restart ktApply else ktApply
        (twtCount s data.length data.length []) data)) ∧
  (∀ (n : Nat) (s : State), twtRuns s = true → s.get TWT_CFG.KT_EN = 1 →
      exec (.ktChHRead n) s = .next (sendRead s (s.get TWT_STATUS.KTADDR) n ktData)) ∧
  (∀ (k : Fin 12) (s : State), s.twt.ktPtr = 8 + 2 * k →
      (ktData s 1).1 = [BitVec.ofNat 8 (ktVoltage s k / 256)] ∧
        (ktData s 1).2 = s.setTwt
        { s.twt with chLow := NMap.put 0 s.twt.chLow k (ktVoltage s k % 256), ktPtr := s.twt.ktPtr + 1 }) ∧
  (∀ (data : List Byte) (restart : Bool) (n : Nat) (s : State), s.get TWT_CFG.KT_EN ≠ 1 →
      exec (.ktWindowWrite data restart) s = .next s ∧ exec (.ktChHRead n) s = .next s) ∧
  (∀ (data : List Byte) (restart : Bool) (t : Abandoned) (n : Nat) (s : State), twtRuns s = false →
      exec (.twtWrite data restart) s = .next s ∧ exec (.twtRead n) s = .next s ∧ exec (.twtStuck t) s = .next s ∧
        exec (.ktWindowWrite data restart) s = .next s ∧ exec (.ktChHRead n) s = .next s)

/-- A byte that the host writes in a writable window reads back, and the pointer wraps on its page. A write of a byte
that the window takes is read back there, changes no other byte and no register; one that the window does not take
changes nothing (R419, R422, Table 18.6). The two-wire pointer advances by one, wraps from 0xFE to 0x00 and reaches
0xFF by no advance (R454), so that after n bytes read in a window it is the n-th advance of the pointer. Which windows
take host writes is read from Table 15.4 as log entry 85 says. -/
def Obligations.WindowBytes : Prop :=
  (∀ (s : State) (a : Nat) (v : Byte), windowWritable s a = true →
      windowByte (writeByte s a v) a = v ∧ (∀ k, k ≠ a → windowByte (writeByte s a v) k = windowByte s k) ∧
        (writeByte s a v).regs = s.regs) ∧
  (∀ (s : State) (a : Nat) (v : Byte), windowWritable s a = false → writeByte s a v = s) ∧
  (nextPtr 0xFE = 0 ∧ (∀ p, p < 0xFE → nextPtr p = p + 1) ∧ ∀ p, nextPtr p ≤ 0xFE) ∧
  (∀ (n p : Nat) (latch : Option (Nat × Nat)) (s : State), 0x0100 ≤ twtPage s →
      (twtGet n s p latch).2.twt.ptr = Nat.repeat nextPtr n p ∧ (twtGet n s p latch).2.mem = s.mem ∧
        (twtGet n s p latch).1 = (List.range n).map fun k => if pageReached s then windowByte s
        (twtPage s * 0x100 + Nat.repeat nextPtr k p) else 0#8)

/-- The two-wire controller port is enabled, transfers, retries and drains as R465 to R469 say. An enable is ignored
where EN reads 1 or the port does not serve, and otherwise loads or is refused with its reason; a disable begins the
drain (R466). GO of an idle port waits for the poll entry under way, with the lengths it was given; a transfer of no
bytes ends at once with REFUSED (7), and GO is ignored while a transfer of its own waits or runs (R467, R16). A
transfer that ends is acknowledged or counts a NACK (R467). A lost arbitration is counted, with the bytes read so far
in TWC_DATA, and retried, or ends with ARB_LOST (3) after RETRY retries; the bus is busy then, or from another
controller's START, and free again it starts the transfer from step 1 (R465, R468). A stuck bus is recovered and
counted, or ends the transfer with BUS_STUCK (4), and an SCL held low ends it with SCL_TIMEOUT (5) (R465); a poll
entry stores its data or its status (R469). In every other case the command changes nothing. The model's choices: when
the lengths and the address of a transfer are taken and when its bus counts as busy (log entry 115), that a port which
does not serve ignores an enable (log entry 117), the REASON after an accepted enable (log entry 101), and the lines
without VIO (log entry 126). -/
def Obligations.ControllerPort : Prop :=
  (∀ (s : State), s.get TWC_CTRL.EN = 1 →
      exec .twcEnable s = .next s ∧ exec .twcDisable s = .next (s.set TWC_STATUS.STATE 5)) ∧
  (∀ (s : State), s.get TWC_CTRL.EN ≠ 1 → servesFrom s 1 = true →
      exec .twcDisable s = .next s ∧ exec .twcEnable s = .next
        (notice (if twcReason s = 0 then
        ((State.each (List.range 8) (fun s k => s.set (TWC_PSTAT.STATUS k) 0xF) (s.setTwc { busy := s.twc.busy })).set
        TWC_CTRL.EN 1).set TWC_STATUS.STATE 1 else s.set TWC_STATUS.REASON (twcReason s)) (twcEv 1 .notice))) ∧
  (∀ (s : State), s.get TWC_CTRL.EN ≠ 1 → servesFrom s 1 = false → exec .twcEnable s = .next s) ∧
  (∀ (s : State),
      exec .twcTransfer s = .next (if twcRuns s = false ∨ s.twc.waiting = true ∨
        s.twc.cur = some .host then s else if s.get TWC_XFER.WLEN = 0 ∧
        s.get TWC_XFER.RLEN = 0 then hostResult (s.set TWC_RES.TRIES 0) 7 0 0 else twcNext
        (s.setTwc { s.twc with waiting := true, addr := s.get TWC_XFER.ADDR, len := (s.get TWC_XFER.WLEN, s.get TWC_XFER.RLEN) }))) ∧
  (∀ (wdone : BitVec 6) (data : List Byte) (s : State), transferring s = true → s.twc.cur = some .host →
      exec (.twcTransferEnd .ok wdone data) s = .next
        (twcNext (endTransfer s 0 s.twc.len.1 (readBytes s.twc.len.2 data))) ∧
        exec (.twcTransferEnd .nackAddr wdone data) s = .next
        (twcNext (endTransfer (s.addSat TWC_CNT.NACK 1) 1 wdone.toNat [])) ∧
        exec (.twcTransferEnd .nackData wdone data) s = .next
        (twcNext (endTransfer (s.addSat TWC_CNT.NACK 1) 2 wdone.toNat []))) ∧
  (∀ (e : XferEnd) (wdone : BitVec 6) (data : List Byte) (k : Nat) (s : State),
      ((transferring s = false ∨ s.twc.cur ≠ some .host) → exec (.twcTransferEnd e wdone data) s = .next s) ∧
        (transferring s = false → exec (.twcPollEntryEnd e data) s = .next s ∧
        exec (.twcArbLost wdone data) s = .next s) ∧
        (s.get TWC_STATUS.STATE ≠ 3 ∨ s.twc.cur = none → exec (.twcSclTimeout wdone data) s = .next s) ∧
        (s.twc.cur = some .host ∨ s.twc.cur = none → exec (.twcPollEntryEnd e data) s = .next s)) ∧
  (∀ (wdone : BitVec 6) (data : List Byte) (s : State), transferring s = true →
      ∃ u v : State, u = (s.addWrap TWC_CNT.ARBLOST 1).addSat TWC_RES.TRIES 1 ∧
        v = u.setTwc { s.twc with tries := s.twc.tries + 1, busy := true } ∧
        exec (.twcArbLost wdone data) s = .next
        (if s.get TWC_CTRL.RETRY < s.twc.tries + 1 then twcNext (endTransfer v 3 wdone.toNat data) else
        (if s.twc.cur = some .host then putRead v (data.take s.twc.len.2) else v).set TWC_STATUS.STATE 2)) ∧
  (∀ (s : State), s.supply.vio = true → s.get TWC_CTRL.EN = 1 →
      ∃ u : State, u = s.setTwc { s.twc with busy := false } ∧
        exec (.twcBusFree .freed) s = .next
        (if s.get TWC_STATUS.STATE = 2 then
        (if s.twc.cur = some .host then u.setTwc
        { u.twc with sent := xferBytes s.twc.addr (dataBytes s s.twc.len.1) s.twc.len.2 } else u).set TWC_STATUS.STATE
        3 else u)) ∧
  (∀ (s : State), s.supply.vio = true → s.get TWC_CTRL.EN = 1 → exec (.twcBusFree .started) s =
        .next (if transferring s then s else { s with twc := { s.twc with busy := true } })) ∧
  (∀ (e : BusEdge) (s : State), s.supply.vio = false ∨ s.get TWC_CTRL.EN ≠ 1 → exec (.twcBusFree e) s = .next s) ∧
  (∀ (s : State), twcRuns s = true → s.supply.vio = true →
      exec (.twcBusRecover .begins) s = .next (s.set TWC_STATUS.STATE 4) ∧
      exec (.twcBusRecover .released) s = .next
        (if s.get TWC_STATUS.STATE = 4 then recoveryEnds (s.addSat TWC_CNT.RECOVER 1) false else s) ∧
      exec (.twcBusRecover .stuck) s = .next
        (if s.get TWC_STATUS.STATE = 4 then recoveryEnds (endTransfer (raise s (twcEv 3 .fault)) 4 0 []) true else s))
        ∧
  (∀ (r : Recovery) (s : State), twcRuns s = false ∨ s.supply.vio = false → exec (.twcBusRecover r) s = .next s) ∧
  (∀ (wdone : BitVec 6) (data : List Byte) (s : State), s.get TWC_STATUS.STATE = 3 → s.twc.cur ≠ none →
      ∃ u : State, u = endTransfer s 5 wdone.toNat data ∧
        exec (.twcSclTimeout wdone data) s = .next (twcNext (u.setTwc { u.twc with busy := true }))) ∧
  (∀ (k : Nat) (data : List Byte) (s : State), transferring s = true → s.twc.cur = some (.poll k) →
      exec (.twcPollEntryEnd .ok data) s = .next (twcNext (endTransfer s 0 1 (readBytes s.twc.pollLen data))) ∧
        exec (.twcPollEntryEnd .nackAddr data) s = .next (twcNext (endTransfer (s.addSat TWC_CNT.NACK 1) 1 0 [])) ∧
        exec (.twcPollEntryEnd .nackData data) s = .next (twcNext (endTransfer (s.addSat TWC_CNT.NACK 1) 2 0 [])))

/-- Doorbells, starts, completions, the head and the interface's enable act as R425 to R444 say. A doorbell that names
a FREE slot queues it, and any other is counted and raised (R425). A lane takes the head of the queue that R426
chooses, and the command is INFLIGHT, or ends at once where Table 15.10 refuses it. A command's outcome is written as
its completion (R431), where a commit that blows its locks first ends with them (R487). A head write frees the slots
that it passes, or is counted and raised (R432). A missed bound is raised once and makes the completion LATE (R435).
Moderation signals when its timer ends (R444). EN is taken once, is refused with UNUSABLE alone, and its clearing
drains the interface (R441). An IMG_LOAD begins operation 5 of FLT_OPMARK with its start, and an OTP_COMMIT operation
1 at its first logical word (R394). Where K0 or the VSYS rails that feed the interface do not run (R24, R304), and in
every other case, the command changes nothing. The model's choices: doorbells of a disabled interface are ignored
uncounted (log entry 60), when a start acts and which command it refuses first (log entry 70), the end of a lock's
blow (log entry 68), the first detail of IMG_LOAD's operation mark (log entry 119), REASON after an accepted enable
(log entry 101), that an HCI_ENABLE while it drains is ignored as EN reads 1 (log entry 84), and a device time without
bound (log entry 90). Further choices of the model: an expiry moves the device time to it (log entry 7). -/
def Obligations.HostQueues : Prop :=
  (∀ (queue : BitVec 2) (slot : BitVec 8) (s : State), vsysRuns s = true → hciRuns s = true →
      (s.slot slot.toNat).st = .free →
      ∃ u : State, u = (s.set HCI_DB.QUEUE queue.toNat).set HCI_DB.SLOT slot.toNat ∧
        exec (.hciDoorbell queue slot) s = .next
        ((u.setQueue queue.toNat (u.queue queue.toNat ++ [slot.toNat])).setSlot slot.toNat
        { st := .queued, queue := queue.toNat })) ∧
  (∀ (queue : BitVec 2) (slot : BitVec 8) (s : State), vsysRuns s = true → hciRuns s = true →
      (s.slot slot.toNat).st ≠ .free →
      exec (.hciDoorbell queue slot) s = .next
        (notice (((s.set HCI_DB.QUEUE queue.toNat).set HCI_DB.SLOT slot.toNat).addSat HCI_CNT1.BADDB 1)
        (hciEv 1 .notice))) ∧
  (∀ (queue : BitVec 2) (slot : BitVec 8) (s : State), vsysRuns s = true → hciRuns s = false →
      exec (.hciDoorbell queue slot) s = .next ((s.set HCI_DB.QUEUE queue.toNat).set HCI_DB.SLOT slot.toNat)) ∧
  (∀ (queue : BitVec 2) (slot : BitVec 8) (head : BitVec 9) (s : State), vsysRuns s = false →
      exec (.hciDoorbell queue slot) s = .next s ∧ exec (.hciCqHeadWrite head) s = .next s ∧
        exec .hciEnable s = .next s) ∧
  (∀ (lane : Fin 2) (q : Nat) (s : State), vsysRuns s = true → hciRuns s = true → nextQueue s lane = some q →
      exec (.commandStart lane) s = .next (startCommand s lane q)) ∧
  (∀ (lane : Fin 2) (s : State), vsysRuns s = false ∨ hciRuns s = false ∨ nextQueue s lane = none →
      exec (.commandStart lane) s = .next s) ∧
  (∀ (l q k : Nat) (rest : List Nat) (s : State), s.queue q = k :: rest →
      ∃ u v : State, u = s.setQueue q rest ∧ v =
        ({ u with hci := { u.hci with lastQueue := some q } } : State).setSlot k
        { st := .inflight, queue := q, lane := l, since := s.now, input := commandInput s k } ∧
        startCommand s l q = (if commandReason s k ≠ 0 then refuseCommand v k 0 (commandReason s k)
        (if commandReason s k = 5 then s.get ID_CERTLEN.LEN else 0) else if slotOp s k = 0x10 then opMark v 5 0 else
        if slotOp s k = 0x51 then opMark v 1 (slotArg s k 1) else v)) ∧
  (∀ (k : BitVec 8) (s : State),
      ∃ u : State, u = endLocking s k.toNat ∧ (∀ c, vsysRuns s = true → (u.slot k.toNat).st = .inflight →
        (u.slot k.toNat).outcome = some c → exec (.commandComplete k) s = .next (writeCompletion u k.toNat c)) ∧
      ((u.slot k.toNat).st ≠ .inflight → exec (.commandComplete k) s = .next s) ∧
        ((u.slot k.toNat).outcome = none → exec (.commandComplete k) s = .next s) ∧
      (vsysRuns s = false → exec (.commandComplete k) s = .next s)) ∧
  (∀ (k : Nat) (s : State),
      (s.otp.job = none → endLocking s k = s) ∧ (∀ j, s.otp.job = some j →
        endLocking s k = (if j.locking = true ∧ j.slot = k then commitLocked s j else s))) ∧
  (∀ (head : BitVec 9) (s : State), vsysRuns s = true →
      (head.toNat + 512 - s.get HCI_CQ_HEAD.HEAD) % 512 ≤ s.hci.entries.length →
      exec (.hciCqHeadWrite head) s = .next
        (passEntries (s.set HCI_CQ_HEAD.HEAD head.toNat) ((head.toNat + 512 - s.get HCI_CQ_HEAD.HEAD) % 512))) ∧
  (∀ (head : BitVec 9) (s : State), vsysRuns s = true →
      s.hci.entries.length < (head.toNat + 512 - s.get HCI_CQ_HEAD.HEAD) % 512 →
      exec (.hciCqHeadWrite head) s = .next (notice (s.addSat HCI_CNT1.BADHEAD 1) (hciEv 2 .notice))) ∧
  (∀ (k : BitVec 8) (s : State), vsysRuns s = true → (s.slot k.toNat).st = .inflight →
      (s.slot k.toNat).late = false →
      ∃ u : State, u = (s.expire (deadlineAt (s.slot k.toNat).since (boundOf s k.toNat))) ∧
        exec (.cmdDeadline k) s = .next
        (raise (u.setSlot k.toNat { s.slot k.toNat with late := true })
        (hciEv 4 .fault (k.toNat + slotOp s k.toNat * 256)))) ∧
  (∀ (k : BitVec 8) (s : State),
      vsysRuns s = false ∨ (s.slot k.toNat).st ≠ .inflight ∨ (s.slot k.toNat).late = true →
      exec (.cmdDeadline k) s = .next s) ∧
  (∀ (s : State), s.hci.timer = none → exec .moderationTimer s = .next s) ∧
  (∀ (t : Nat) (s : State), s.hci.timer = some t → exec .moderationTimer s = .next (signalAll (s.expire t))) ∧
  (∀ (s : State), s.get HCI_CTRL.EN = 1 → exec .hciEnable s = .next s) ∧
  (∀ (s : State), vsysRuns s = true → s.get HCI_CTRL.EN ≠ 1 →
      exec .hciEnable s = .next
        (notice (if unusable s 26 then s.set HCI_STATUS.REASON 0x10 else
        ((s.set HCI_CTRL.EN 1).set HCI_STATUS.STATE 1).set HCI_STATUS.K1LANE (if unusable s 25 then 0 else 1))
        (hciEv 5 .notice))) ∧
  (∀ (s : State), exec .hciDisable s = .next (if vsysRuns s then hciDrain s else s))

/-- A completion is written at its entry with the inverse of the count's bit 8, and its slot becomes UNREAD. The entry
of tail count c occupies entry c mod 256 and carries PHASE equal to the inverse of bit 8 of c (R430); the tail
advances by one modulo 512 and the slot becomes UNREAD, and no byte outside the entry and log memory, 0x020000 to
0x027FFF, changes (R431). Further choices of the model: memory that nothing has written reads 0 (log entry 3). -/
def Obligations.CompletionEntry : Prop :=
  ∀ (s : State) (k : Nat) (c : Completion),
    ∀ n late, n = s.get HCI_CQ_TAIL.TAIL → late = (s.slot k).late →
      (∀ j, j < 16 → (writeCompletion s k c).byte (0x012000 + 16 * (n % 256) + j) =
      (wordsBytes (completionWords s k n late c)).getD j 0#8) ∧
      (writeCompletion s k c).get HCI_CQ_TAIL.TAIL = (n + 1) % 512 ∧ ((writeCompletion s k c).slot k).st = .unread ∧
      ((completionWords s k n late c).headD 0).testBit 31 = !n.testBit 8 ∧ ∀ a, (a < 0x020000 ∨ 0x028000 ≤ a) →
      (a < 0x012000 + 16 * (n % 256) ∨ 0x012010 + 16 * (n % 256) ≤ a) → (writeCompletion s k c).byte a = s.byte a

/-- Each host command has the effect of Table 15.9 and ends with its results. A command that executes in its slot with
its opcode and has not passed its commit point acts and ends: NOP returns ARG0 and GET_INFO the device's state, both
before their commit point, which is their completion (R436), DOORBELL rings, CANCEL acts as R440 says, IMG_LOAD loads
or is refused (R248), ADC_CONVERT is an urgent request or DROPPED (R335), SNAPSHOT triggers or releases (R341, R342),
ATTEST signs its block (R437), GET_CERT returns the certificate (R502), and the wear state is exported and imported
(R349, R439). A command that does not execute there with its opcode, or is past its commit point, does nothing. The
model's choices: the wear state's form in an export (log entry 71), the signature's number (log entry 63), the corners
of a certificate that is not there, of a CANCEL of its own slot and of a wrong length (log entry 70), when the device
key can be used (log entry 72), what a cancelled output buffer holds (log entry 114), and a device time without bound
(log entry 90). Further choices of the model: an event that cannot happen in the present state changes nothing (log
entry 6), a release outside HELD (log entry 75), the CRC-32 is that of IEEE 802.3 (log entry 91). -/
def Obligations.HostCommandEffects : Prop :=
  (∀ (k : BitVec 8) (s : State), executing s k.toNat = true → slotOp s k.toNat = 0x01 →
      (s.slot k.toNat).committed = false →
      exec (.nop k) s = .next (endCommand s k.toNat { status := 0, r0 := slotArg s k.toNat 0 })) ∧
  (∀ (k : BitVec 8) (s : State), executing s k.toNat = true → slotOp s k.toNat = 0x02 →
      (s.slot k.toNat).committed = false →
      exec (.getInfo k) s = .next
        (endCommand s k.toNat
        { status := 0, r0 := s.get ID_ROM.EDITION + s.get SYS_SERVICE.LEVEL * 2 ^ 8 + phaseNow s * 2 ^ 16 + s.get HCI_STATUS.K1LANE * 2 ^ 24, r1 := s.regWord 0x000C })) ∧
  (∀ (k : BitVec 8) (s : State), executing s k.toNat = true → slotOp s k.toNat = 0x03 →
      (s.slot k.toNat).committed = false →
      exec (.doorbell k) s = .next (endOk (s.set INTC_DBELL.RING 1) k.toNat)) ∧
  (∀ (k : BitVec 8) (s : State), executing s k.toNat = true → slotOp s k.toNat = 0x04 →
      (s.slot k.toNat).committed = false →
      exec (.cancel k) s = .next
        (endOk (cancelSlot s (slotArg s k.toNat 0 % 256) (slotArg s k.toNat 1)).2 k.toNat
        (cancelSlot s (slotArg s k.toNat 0 % 256) (slotArg s k.toNat 1)).1)) ∧
  (∀ (k : BitVec 8) (s : State), executing s k.toNat = true → slotOp s k.toNat = 0x10 →
      (s.slot k.toNat).committed = false →
      let r := loadImage (s.bytes 0x040000 (min (slotArg s k.toNat 0) 40960)) (slotArg s k.toNat 0) 2 s;
      exec (.imgLoad k) s = .next
        (if r.1 = 0 then endOk r.2 k.toNat (r.2.get CAM_IMG_STATUS.CODE_LEN) (r.2.get CAM_IMG_ID.ID) else
        refuseCommand r.2 k.toNat 1 r.1)) ∧
  (∀ (k : BitVec 8) (s : State), executing s k.toNat = true → slotOp s k.toNat = 0x20 →
      (s.slot k.toNat).committed = false →
      let r := urgentRequest s (.host k.toNat) (slotArg s k.toNat 0);
      exec (.adcConvert k) s = .next
        (if r.1 then commitSlot r.2 k.toNat else endCommand (commitSlot r.2 k.toNat) k.toNat { status := 3 })) ∧
  (∀ (k : BitVec 8) (s : State), executing s k.toNat = true → slotOp s k.toNat = 0x21 →
      (s.slot k.toNat).committed = false → slotArg s k.toNat 0 = 0 →
      exec (.snapshotCmdTrigger k) s = .next (endSnapshot (snapRequest s 3 0) k.toNat)) ∧
  (∀ (k : BitVec 8) (s : State), executing s k.toNat = true → slotOp s k.toNat = 0x21 →
      (s.slot k.toNat).committed = false → slotArg s k.toNat 0 = 1 →
      exec (.snapshotCmdRelease k) s = .next (endSnapshot (snapRelease s) k.toNat)) ∧
  (∀ (k : BitVec 8) (s : State), executing s k.toNat = true → slotOp s k.toNat = 0x30 →
      (s.slot k.toNat).committed = false →
      let m := attestBlock s (s.slot k.toNat).input (slotArg s k.toNat 2);
      let g := ecdsaSign (s.otp.scalar.getD 0) (signNonce s) m;
      exec (.attest k) s = .next
        (endOk (writeData { s with free := s.free + 1 } (slotArg s k.toNat 1) (m ++ beBytes 32 g.1 ++ beBytes 32 g.2))
        k.toNat 192 (s.now % 2 ^ 32))) ∧
  (∀ (k : BitVec 8) (s : State), executing s k.toNat = true → slotOp s k.toNat = 0x31 →
      (s.slot k.toNat).committed = false →
      exec (.getCert k) s = .next
        (endOk (writeData s (slotArg s k.toNat 0) (if regionUsed s 3 then certBytes s else [])) k.toNat
        (s.get ID_CERTLEN.LEN))) ∧
  (∀ (k : BitVec 8) (s : State), executing s k.toNat = true → slotOp s k.toNat = 0x40 →
      (s.slot k.toNat).committed = false →
      exec (.wearExport k) s = .next
        (endOk (writeData s (slotArg s k.toNat 0) (exportBody s ++ leBytes 4 (crc32 (exportBody s)))) k.toNat 1044
        (s.get WEAR_STATUS.DAY))) ∧
  (∀ (k : BitVec 8) (s : State), executing s k.toNat = true → slotOp s k.toNat = 0x41 →
      (s.slot k.toNat).committed = false →
      let c := importReason s (s.slot k.toNat).input;
      exec (.wearImport k) s = .next
        (if c = 0 then endOk (wearNotice (importWear s (s.slot k.toNat).input (slotArg s k.toNat 1)) 11) k.toNat else
        refuseCommand (wearNotice (s.set WEAR_STATUS.RESTORE c) 11) k.toNat 4 c)) ∧
  (∀ (k : BitVec 8) (s : State), executing s k.toNat = false ∨ (s.slot k.toNat).committed = true →
      exec (.nop k) s = .next s ∧ exec (.getInfo k) s = .next s ∧ exec (.doorbell k) s = .next s ∧
        exec (.cancel k) s = .next s ∧ exec (.imgLoad k) s = .next s ∧ exec (.adcConvert k) s = .next s ∧
        exec (.snapshotCmdTrigger k) s = .next s ∧ exec (.snapshotCmdRelease k) s = .next s ∧
        exec (.attest k) s = .next s ∧ exec (.getCert k) s = .next s ∧ exec (.wearExport k) s = .next s ∧
        exec (.wearImport k) s = .next s) ∧
  (∀ (k : BitVec 8) (s : State), (slotOp s k.toNat ≠ 0x01 → exec (.nop k) s = .next s) ∧
      (slotOp s k.toNat ≠ 0x02 → exec (.getInfo k) s = .next s) ∧
      (slotOp s k.toNat ≠ 0x03 → exec (.doorbell k) s = .next s) ∧
      (slotOp s k.toNat ≠ 0x04 → exec (.cancel k) s = .next s) ∧
      (slotOp s k.toNat ≠ 0x10 → exec (.imgLoad k) s = .next s) ∧
      (slotOp s k.toNat ≠ 0x20 → exec (.adcConvert k) s = .next s) ∧
      (slotOp s k.toNat ≠ 0x21 → exec (.snapshotCmdTrigger k) s = .next s) ∧
      (slotOp s k.toNat ≠ 0x21 → exec (.snapshotCmdRelease k) s = .next s) ∧
      (slotOp s k.toNat ≠ 0x30 → exec (.attest k) s = .next s) ∧
      (slotOp s k.toNat ≠ 0x31 → exec (.getCert k) s = .next s) ∧
      (slotOp s k.toNat ≠ 0x40 → exec (.wearExport k) s = .next s) ∧
      (slotOp s k.toNat ≠ 0x41 → exec (.wearImport k) s = .next s) ∧
      (slotArg s k.toNat 0 ≠ 0 → exec (.snapshotCmdTrigger k) s = .next s) ∧
        (slotArg s k.toNat 0 ≠ 1 → exec (.snapshotCmdRelease k) s = .next s)) ∧
  (∀ (s : State) (n r0 r1 : Nat), executing s n = true →
      endOk s n r0 r1 = s.setSlot n { s.slot n with committed := true, outcome := some { status := 0, r0, r1 } } ∧
        endCommand s n { status := 0, r0, r1 } = s.setSlot n
        { s.slot n with outcome := some { status := 0, r0, r1 } })

/-- OTP is read, committed, programmed word by word and on the raw path as R486 to R501 say. OTP_READ returns its
words, or is refused with the first code that applies (R497). OTP_COMMIT on the device locks begins to blow them, on a
region programs word after word with its voids and its seal, or is refused (R487, R495). A word under programming is
written or, after its retries, voided (R491), and the commit goes on, or completes CANCELLED where a CANCEL has
reached it, unless it blows its locks already. A raw operation begins in test mode on a word whose region is not held,
or stops with its reason (R498); KEYGEN draws a scalar and begins to program, seal and lock a blank KEYPRIV, or stops
with its reason (R501). Each of its program operations is done, or fails and is tried elsewhere, and the next begins
where the conditions of R490 hold; after the last the raw operation ends, and that of a KEYGEN shows the public key;
one that a sticky lock overtakes is cut after some pulse and ends (R488, log entry 137). In every other case the
command changes nothing. The model's choices: the raw path's steps and failures (log entry 61), which fuses a failed
word has (log entry 62), the scalar (log entry 63), the lock that an index names (log entry 64), the order of a
commit's codes (log entry 66), the first code of a refused read (log entry 67), the end of a lock's blow and KEYGEN on
a KEYPRIV that is not blank (log entry 68), K0's own conversions before phase 7 (log entry 88), and a seal position
that cannot be used and a CANCEL of the seal (log entry 122). Further choices of the model: an event that cannot
happen in the present state changes nothing (log entry 6). -/
def Obligations.OtpCommands : Prop :=
  (∀ (k : BitVec 8) (s : State), executing s k.toNat = true → slotOp s k.toNat = 0x50 →
      readReason s (slotArg s k.toNat 0 % 32) (slotArg s k.toNat 1) (slotArg s k.toNat 2) ≠ 0 →
      exec (.otpRead k) s = .next
        (otpRefuse s k.toNat (readReason s (slotArg s k.toNat 0 % 32) (slotArg s k.toNat 1) (slotArg s k.toNat 2)))) ∧
  (∀ (k : BitVec 8) (s : State), executing s k.toNat = true → slotOp s k.toNat = 0x50 →
      readReason s (slotArg s k.toNat 0 % 32) (slotArg s k.toNat 1) (slotArg s k.toNat 2) = 0 →
      let ps := ((chain s.otp (slotArg s k.toNat 0 % 32)).drop (slotArg s k.toNat 1)).take (slotArg s k.toNat 2);
      exec (.otpRead k) s = .next
        (endCommand (commitSlot
        (writeData { s with free := s.free + 1536 } (slotArg s k.toNat 3) ((readWords s ps).flatMap (leBytes 16)))
        k.toNat) k.toNat { status := 0, r0 := slotArg s k.toNat 2, r1 := (ps.filter (isWeak s.otp)).length })) ∧
  (∀ (k : BitVec 8) (s : State), executing s k.toNat = true → slotOp s k.toNat = 0x51 → s.otp.job = none →
      commitReason s (commitArgs s k.toNat) ≠ 0 →
      exec (.otpCommit k) s = .next (otpRefuse s k.toNat (commitReason s (commitArgs s k.toNat)))) ∧
  (∀ (k : BitVec 8) (s : State), executing s k.toNat = true → slotOp s k.toNat = 0x51 → s.otp.job = none →
      commitReason s (commitArgs s k.toNat) = 0 →
      let a := commitArgs s k.toNat;
      exec (.otpCommit k) s = .next
        (if a.region = 0x1F then commitDone s
        { slot := k.toNat, region := a.region, logical := 0, words := [], lockW := a.lockW, lockR := a.lockR, sealDue := false, phys := 0, target := 0 } else startCommit s k.toNat a)) ∧
  (∀ (k : BitVec 8) (s : State), executing s k.toNat = false →
      exec (.otpRead k) s = .next s ∧ exec (.otpCommit k) s = .next s) ∧
  (∀ (k : BitVec 8) (s : State),
      (slotOp s k.toNat ≠ 0x50 → exec (.otpRead k) s = .next s) ∧
        (slotOp s k.toNat ≠ 0x51 → exec (.otpCommit k) s = .next s) ∧
        (s.otp.job ≠ none → exec (.otpCommit k) s = .next s)) ∧
  (∀ (j : OtpJob) (s : State),
      commitDone s j = (if j.lockW = true ∨ j.lockR = true then
        (if progReason s = 0 then commitSlot
        { s with free := s.free + 1, otp := { s.otp with job := some { j with locking := true } } } j.slot else
        commitFails s j (progReason s)) else commitOk s j)) ∧
  (∀ (ok : Bool) (weak : BitVec 148) (s : State),
      (s.otp.job = none → s.otp.raw = [] → exec (.otpWordProgramDone ok weak) s = .next s) ∧
        (∀ j, s.otp.job = some j → j.locking = true → exec (.otpWordProgramDone ok weak) s = .next s)) ∧
  (∀ (j : OtpJob) (weak : BitVec 148) (s : State), s.otp.job = some j → j.locking = false →
      (∃ u : State, u = wordWritten s j weak.toNat ∧
        (j.sealing = true → exec (.otpWordProgramDone true weak) s = .next
        (if j.cancelled then commitEnds u j { status := 2, r0 := j.wrote } else commitDone (commitSlot u j.slot) j)) ∧
        (j.sealing = false → ∃ i, i =
        { j with wrote := j.wrote + 1, logical := j.logical + 1, words := j.words.drop 1 } ∧
        exec (.otpWordProgramDone true weak) s = .next
        (if j.cancelled then commitEnds u i { status := 2, r0 := j.wrote + 1 } else commitNext u i i.words))) ∧
        ∃ u : State, u = wordFailed s j ∧ exec (.otpWordProgramDone false weak) s = .next
        (if j.cancelled then commitEnds u j { status := 2, r0 := j.wrote } else if j.sealing then sealRun u j else
        commitNext u j j.words)) ∧
  (∀ (op : ProgOp) (rest : List ProgOp) (weak : BitVec 148) (s : State), s.otp.job = none →
      s.otp.raw = op :: rest → opHeld s op = false →
      (∀ fs ok, op = .locks fs → exec (.otpWordProgramDone ok weak) s = .next
        (rawNext (s.setOtp (blowFuses s.otp fs)) rest)) ∧
        (∀ r p ok, op = .void r p → exec (.otpWordProgramDone ok weak) s = .next (rawNext (voidWord s r p) rest)) ∧
        ∀ p, isVoid op = false → opWord s.otp op = some p →
        exec (.otpWordProgramDone true weak) s = .next (rawNext (blowWord s p (opFuses op) weak.toNat) rest) ∧
        ∃ u : State, u = failWord s (opRegion op) p (opFuses op) ∧
        exec (.otpWordProgramDone false weak) s = .next
        (match rawAgain u.otp op with | some again => rawNext u (again :: rest) | none => rawStops u 0x07)) ∧
  (∀ (op : ProgOp) (rest : List ProgOp) (ok : Bool) (weak : BitVec 148) (s : State), s.otp.job = none →
      s.otp.raw = op :: rest → opHeld s op = true →
      exec (.otpWordProgramDone ok weak) s = .next (rawCut s op) ∧ (rawCut s op).otp.raw = [] ∧
        (rawCut s op).otp.keygen = none) ∧
  (∀ (op : ProgOp) (ops : List ProgOp) (s : State),
      rawNext s [] = rawEnds s ∧ rawNext s (op :: ops) =
        (if progReason s = 0 then { s with otp := { s.otp with raw := op :: ops }, free := s.free + 1 } else
        refreshOtp (({ s with otp := { s.otp with raw := [], keygen := none } } : State).set OTP_STATUS.REASON
        (progReason s))) ∧ (s.otp.keygen = none → rawEnds s = refreshOtp
        { s with otp := { s.otp with raw := [], keygen := none } }) ∧ ∀ d, s.otp.keygen = some d →
        rawEnds s = refreshOtp
        ((showPub s (publicKey d)).setOtp { (showPub s (publicKey d)).otp with raw := [], keygen := none })) ∧
  (∀ (r : Nat) (s : State), regionOf (s.get OTP_RAW_ADDR.PHYS) = some r → rawRuns s = true →
      heldRegion s r = false → rawReason s r = 0 →
      let p := s.get OTP_RAW_ADDR.PHYS;
      exec .rawProgramWord s = .next
        { s with otp := { s.otp with raw := if blank s.otp p then [.word r p (rawFuses s)] else [] }, free := s.free + 1 } ∧ exec .rawVoidWord s = .next { s with otp := { s.otp with raw := [.void r p] }, free := s.free + 1 }) ∧
  (∀ (r : Nat) (s : State), regionOf (s.get OTP_RAW_ADDR.PHYS) = some r →
      rawRuns s = false ∨ heldRegion s r = true →
      exec .rawProgramWord s = .next s ∧ exec .rawVoidWord s = .next s) ∧
  (∀ (r : Nat) (s : State), regionOf (s.get OTP_RAW_ADDR.PHYS) = some r → rawRuns s = true →
      heldRegion s r = false → rawReason s r ≠ 0 →
      exec .rawProgramWord s = .next (s.set OTP_STATUS.REASON (rawReason s r)) ∧
        exec .rawVoidWord s = .next (s.set OTP_STATUS.REASON (rawReason s r))) ∧
  (∀ (s : State), regionOf (s.get OTP_RAW_ADDR.PHYS) = none →
      exec .rawProgramWord s = .next s ∧ exec .rawVoidWord s = .next s) ∧
  (∀ (s : State), rawRuns s = true →
      (tempOk s = false → exec .rawBlowLock s = .next (s.set OTP_STATUS.REASON 0x09)) ∧
        (tempOk s = true → vsysOk s = false → exec .rawBlowLock s = .next (s.set OTP_STATUS.REASON 0x0A))) ∧
  (∀ (s : State), rawRuns s = true → tempOk s = true → vsysOk s = true →
      exec .rawBlowLock s = .next
        (match Config.lockOfIndex (s.get OTP_RAW_ADDR.PHYS) with | some (l, f) => { s with otp := { s.otp with raw := [.locks [(l, f.val)]] }, free := s.free + 1 } | none => s)) ∧
  (∀ (s : State), rawRuns s = true → heldRegion s 2 = false → rawReason s 2 = 0 →
      (regionWords 2).all (blank s.otp) = true →
      let d := Config.entropy s.free % (p256N - 1) + 1;
      exec .keygen s = .next
        { s with otp := { s.otp with raw := keygenOps d, keygen := some d }, free := s.free + 2 }) ∧
  (∀ (s : State), rawRuns s = true → heldRegion s 2 = false →
      (rawReason s 2 ≠ 0 → exec .keygen s = .next (s.set OTP_STATUS.REASON (rawReason s 2))) ∧
        (rawReason s 2 = 0 → (regionWords 2).all (blank s.otp) = false → exec .keygen s = .next s)) ∧
  (∀ (s : State), heldRegion s 2 = true → exec .keygen s = .next s) ∧
  (∀ (s : State), rawRuns s = false → exec .keygen s = .next s ∧ exec .rawBlowLock s = .next s)

/-- What register instructions, notices, latching reads and short host commands leave alone. An instruction that
program memory holds (log entry 57) and that acts on its own task (its reads of program memory corrected or without an
error) changes no register field but the count of corrected reads, no byte of memory, no other task and nothing else
of the machine. A NOTICE sets its event bit and changes no field but that, FLT_NCNT, FLT_LWR and FLT_EVT, no byte
outside log memory, and nothing but registers, memory and the collector; every raised event sets its bit. A latching
read changes the fields it latches alone, FLT_REC0 the eight words of the record among them (R388), and NOP and
GET_INFO change no register and no memory. When a NOTICE's record enters log memory is as log entry 81 says. -/
def Obligations.CommandFrames : Prop :=
  (∀ (c : Instr) (i : Issue) (w : Nat) (s u : State) (t : Nat) (x : Task), registerOnly c = true →
      camastWord c = some (i, w) → Runs i w s t x → exec c s = .next u →
      SameFields [CAM_IMG_MEMERR.COUNT] s u ∧ SameMemory s u ∧ OnlyRegsTasks s u ∧ ∀ e k : Nat,
        e * 16 + k ≠ i.eng * 16 + t → u.task e k = s.task e k) ∧
  (∀ (s : State) (v : Ev), v.bit < v.evt.width →
      ((notice s v).get v.evt).testBit v.bit = true ∧ ((raise s v).get v.evt).testBit v.bit = true ∧
        SameFields (noticeFields v.evt) s (notice s v) ∧ SameOutsideLog s (notice s v) ∧
        notice s v = { s with regs := (notice s v).regs, mem := (notice s v).mem, fox := (notice s v).fox }) ∧
  (∀ (s u : State), exec .sysTimeLoRead s = .next u → SameFields [SYS_TIME_HI.TIME] s u ∧ OnlyRegs s u) ∧
  (∀ (s u : State), exec .idSerialLoRead s = .next u → SameFields [ID_SERIAL_HI.SERIAL] s u ∧ OnlyRegs s u) ∧
  (∀ (s u : State), exec .adcUrgreqRead s = .next u →
      SameFields [ADC_DROP.DROPPED, ADC_DROP.INCONV] s u ∧ OnlyRegs s u) ∧
  (∀ (s u : State), exec .fltHwrRead s = .next u →
      SameFields [FLT_HOVR.COUNT, FLT_HSTAT.UNREAD, FLT_HSTAT.HELD] s u ∧ OnlyRegs s u) ∧
  (∀ (s u : State), exec .fltLwrRead s = .next u →
      SameFields [FLT_LOVR.COUNT, FLT_LSTAT.HELD] s u ∧ OnlyRegs s u) ∧
  (∀ (s u : State), exec .fltRec0Read s = .next u →
      SameFields ((List.range 8).map FLT_REC.WORD) s u ∧ OnlyRegs s u) ∧
  (∀ (s u : State), exec .hciCredit0Read s = .next u →
      SameFields [HCI_CREDIT1.INFLIGHT, HCI_CREDIT1.UNREAD] s u ∧ OnlyRegs s u) ∧
  (∀ (k : BitVec 8) (s u : State), exec (.nop k) s = .next u →
      u.regs = s.regs ∧ SameMemory s u ∧ u.now = s.now ∧ ∀ j, j ≠ k.toNat → u.slot j = s.slot j) ∧
  (∀ (k : BitVec 8) (s u : State), exec (.getInfo k) s = .next u →
      u.regs = s.regs ∧ SameMemory s u ∧ u.now = s.now ∧ ∀ j, j ≠ k.toNat → u.slot j = s.slot j)

/-- Decoding the word of every Camast instruction gives it back, and every legal word is that of the instruction it
decodes to. For every Camast instruction with every operand, the word that Table 7.3 gives it decodes to that
instruction with that operand, so that no bit of an operand is dropped (R206, R207). A word that decodes to an
instruction is the word of that instruction alone: an opcode, rail or condition that is reserved, and a 1 in a bit
that Table 7.3 does not assign, decode to none. The issue stands beside the word, and so does what a MOV of a constant
finds in the constant's word. Further choices of the model: words and commands are tied by the issue (log entry 57).
  -/
def Obligations.InstructionWords : Prop :=
  (∀ (c : Instr) (i : Issue) (w : Nat), camastWord c = some (i, w) → camastCommand i w (constRead c) = some c) ∧
  (∀ (i : Issue) (w : Nat) (read : Fetch) (c : Instr), camastCommand i w read = some c →
      camastWord c = some (i, w)) ∧
  (∀ (i : Issue) (w : Nat) (read : Fetch),
      (assignedBits w = none → camastCommand i w read = none) ∧ ∀ m, assignedBits w = some m →
        w % 2 ^ 26 &&& m ≠ w % 2 ^ 26 → camastCommand i w read = none)
end

