-- ==== Sys2Proof/Laws/Map.lean ====
section
/-! SUPPORT. What the finite map does: a key reads what was written to it, every other key reads as before, and the
canonical form is kept. -/

namespace Sys2Proof.Machine

variable {α : Type}

/-- Every key of `m` is at least `k`. -/
def NMap.From (k : Nat) (m : NMap α) : Prop := ∀ e ∈ m, k ≤ e.1

theorem NMap.get_drop_ne (d : α) (m : NMap α) {k j : Nat} (h : j ≠ k) : NMap.get d (NMap.drop m k) j = NMap.get d m j := by
  induction m with
  | nil => rfl
  | cons e m ih =>
    obtain ⟨a, v⟩ := e
    by_cases ha : a = k
    · subst ha; simp [NMap.drop, NMap.get, ih, Ne.symm h]
    · simp [NMap.drop, NMap.get, ha, ih]

theorem NMap.get_drop_same (d : α) (m : NMap α) (k : Nat) : NMap.get d (NMap.drop m k) k = d := by
  induction m with
  | nil => rfl
  | cons e m ih =>
    obtain ⟨a, v⟩ := e
    by_cases ha : a = k
    · simp [NMap.drop, ha, ih]
    · simp [NMap.drop, NMap.get, ha, ih]

theorem NMap.get_insert_same (d : α) (m : NMap α) (k : Nat) (v : α) (h : ∀ e ∈ m, e.1 ≠ k) :
    NMap.get d (NMap.insert m k v) k = v := by
  induction m with
  | nil => simp [NMap.insert, NMap.get]
  | cons e m ih =>
    obtain ⟨a, w⟩ := e
    have ha : a ≠ k := h (a, w) (by simp)
    by_cases hk : k < a
    · simp [NMap.insert, hk, NMap.get]
    · simp [NMap.insert, hk, NMap.get, ha, ih (fun e he => h e (by simp [he]))]

theorem NMap.get_insert_ne (d : α) (m : NMap α) {k j : Nat} (v : α) (h : j ≠ k) :
    NMap.get d (NMap.insert m k v) j = NMap.get d m j := by
  induction m with
  | nil => simp [NMap.insert, NMap.get, Ne.symm h]
  | cons e m ih =>
    obtain ⟨a, w⟩ := e
    by_cases hk : k < a
    · simp [NMap.insert, hk, NMap.get, Ne.symm h]
    · simp only [NMap.insert, hk, if_false, NMap.get, ih]

theorem NMap.drop_keys (m : NMap α) (k : Nat) : ∀ e ∈ NMap.drop m k, e ∈ m ∧ e.1 ≠ k := by
  induction m with
  | nil => simp [NMap.drop]
  | cons e m ih =>
    obtain ⟨a, v⟩ := e
    by_cases ha : a = k
    · subst ha
      intro x hx
      simp only [NMap.drop, if_pos] at hx
      exact ⟨by simp [(ih x hx).1], (ih x hx).2⟩
    · intro x hx
      simp only [NMap.drop, ha, if_false, List.mem_cons] at hx
      rcases hx with rfl | hx
      · exact ⟨by simp, ha⟩
      · exact ⟨by simp [(ih x hx).1], (ih x hx).2⟩

/-- A key reads what was written to it. -/
theorem NMap.get_put_same [DecidableEq α] (d : α) (m : NMap α) (k : Nat) (v : α) :
    NMap.get d (NMap.put d m k v) k = v := by
  unfold NMap.put
  split
  · next h => rw [NMap.get_drop_same, h]
  · exact NMap.get_insert_same d _ k v fun e he => (NMap.drop_keys m k e he).2

/-- Every other key reads as before, whatever an absent key reads as. -/
theorem NMap.get_put_ne [DecidableEq α] (d c : α) (m : NMap α) {k j : Nat} (v : α) (h : j ≠ k) :
    NMap.get c (NMap.put d m k v) j = NMap.get c m j := by
  unfold NMap.put
  split
  · exact NMap.get_drop_ne c m h
  · rw [NMap.get_insert_ne c _ v h, NMap.get_drop_ne c m h]

/-- The keys rise strictly, in the form that inductions use. -/
theorem NMap.sorted_cons (k : Nat) (v : α) (m : NMap α) :
    NMap.sorted ((k, v) :: m) = true ↔ (∀ e ∈ m, k < e.1) ∧ NMap.sorted m = true := by
  induction m generalizing k v with
  | nil => simp [NMap.sorted]
  | cons e m ih =>
    obtain ⟨a, w⟩ := e
    rw [NMap.sorted, Bool.and_eq_true, decide_eq_true_iff, ih a w]
    constructor
    · rintro ⟨h, h1, h2⟩
      refine ⟨?_, h1, h2⟩
      intro e he
      rcases List.mem_cons.mp he with rfl | he
      · exact h
      · exact Nat.lt_trans h (h1 e he)
    · rintro ⟨h, h1, h2⟩
      exact ⟨h (a, w) (by simp), h1, h2⟩

theorem NMap.sorted_filter (p : Nat × α → Bool) (m : NMap α) (h : NMap.sorted m = true) :
    NMap.sorted (m.filter p) = true := by
  induction m with
  | nil => simpa using h
  | cons e m ih =>
    obtain ⟨a, v⟩ := e
    rw [NMap.sorted_cons] at h
    rw [List.filter_cons]
    split
    · rw [NMap.sorted_cons]
      exact ⟨fun e he => h.1 e ((List.mem_filter.mp he).1), ih h.2⟩
    · exact ih h.2

theorem NMap.drop_eq_filter (m : NMap α) (k : Nat) : NMap.drop m k = m.filter fun e => decide (e.1 ≠ k) := by
  induction m with
  | nil => rfl
  | cons e m ih =>
    obtain ⟨a, v⟩ := e
    by_cases ha : a = k <;> simp [NMap.drop, ha, ih]

theorem NMap.insert_mem (m : NMap α) (k : Nat) (v : α) : ∀ e ∈ NMap.insert m k v, e = (k, v) ∨ e ∈ m := by
  induction m with
  | nil => simp [NMap.insert]
  | cons e m ih =>
    obtain ⟨a, w⟩ := e
    intro x hx
    by_cases hk : k < a
    · simp only [NMap.insert, hk, if_true, List.mem_cons] at hx
      simpa using hx
    · simp only [NMap.insert, hk, if_false, List.mem_cons] at hx
      rcases hx with rfl | hx
      · simp
      · rcases ih x hx with h | h <;> simp [h]

theorem NMap.sorted_insert (m : NMap α) (k : Nat) (v : α) (h : NMap.sorted m = true) (hk : ∀ e ∈ m, e.1 ≠ k) :
    NMap.sorted (NMap.insert m k v) = true := by
  induction m with
  | nil => simp [NMap.insert, NMap.sorted]
  | cons e m ih =>
    obtain ⟨a, w⟩ := e
    have hs := (NMap.sorted_cons a w m).mp h
    by_cases hlt : k < a
    · simp only [NMap.insert, hlt, if_true]
      rw [NMap.sorted_cons]
      refine ⟨?_, h⟩
      intro e he
      rcases List.mem_cons.mp he with rfl | he
      · exact hlt
      · exact Nat.lt_trans hlt (hs.1 e he)
    · simp only [NMap.insert, hlt, if_false]
      rw [NMap.sorted_cons]
      refine ⟨?_, ih hs.2 fun e he => hk e (by simp [he])⟩
      have hak : a ≠ k := hk (a, w) (by simp)
      intro e he
      rcases NMap.insert_mem m k v e he with rfl | he
      · simp only; omega
      · exact hs.1 e he

/-- Writing a key keeps the keys in strictly rising order. -/
theorem NMap.sorted_put [DecidableEq α] (d : α) (m : NMap α) (k : Nat) (v : α) (h : NMap.sorted m = true) :
    NMap.sorted (NMap.put d m k v) = true := by
  have hd : NMap.sorted (NMap.drop m k) = true := by rw [NMap.drop_eq_filter]; exact NMap.sorted_filter _ m h
  unfold NMap.put
  split
  · exact hd
  · exact NMap.sorted_insert _ k v hd fun e he => (NMap.drop_keys m k e he).2

theorem NMap.wf_iff [DecidableEq α] (d : α) (m : NMap α) :
    NMap.wf d m = true ↔ NMap.sorted m = true ∧ ∀ e ∈ m, e.2 ≠ d := by
  simp [NMap.wf]

/-- A part of a map in canonical form is in canonical form. -/
theorem NMap.wf_filter [DecidableEq α] (d : α) (p : Nat × α → Bool) (m : NMap α) (h : NMap.wf d m = true) :
    NMap.wf d (m.filter p) = true := by
  rw [NMap.wf_iff] at h ⊢
  exact ⟨NMap.sorted_filter p m h.1, fun e he => h.2 e ((List.mem_filter.mp he).1)⟩

/-- Writing a key keeps the canonical form. -/
theorem NMap.wf_put [DecidableEq α] (d : α) (m : NMap α) (k : Nat) (v : α) (h : NMap.wf d m = true) :
    NMap.wf d (NMap.put d m k v) = true := by
  rw [NMap.wf_iff] at h ⊢
  refine ⟨NMap.sorted_put d m k v h.1, ?_⟩
  unfold NMap.put
  split
  · exact fun e he => h.2 e (NMap.drop_keys m k e he).1
  · next hv =>
    intro e he
    rcases NMap.insert_mem _ k v e he with rfl | he
    · exact hv
    · exact h.2 e (NMap.drop_keys m k e he).1

/-- A key that a filter drops reads the default. -/
theorem NMap.get_filter_out (d : α) (p : Nat × α → Bool) (m : NMap α) (k : Nat) (h : ∀ v, p (k, v) = false) :
    NMap.get d (m.filter p) k = d := by
  induction m with
  | nil => rfl
  | cons e m ih =>
    obtain ⟨a, v⟩ := e
    by_cases hp : p (a, v) = true
    · rw [List.filter_cons_of_pos hp]
      by_cases ha : a = k
      · subst ha; rw [h v] at hp; cases hp
      · simp [NMap.get, ha, ih]
    · rw [List.filter_cons_of_neg hp]; exact ih

/-- A key that a filter keeps reads as before. -/
theorem NMap.get_filter_in (d : α) (p : Nat × α → Bool) (m : NMap α) (k : Nat) (h : ∀ v, p (k, v) = true) :
    NMap.get d (m.filter p) k = NMap.get d m k := by
  induction m with
  | nil => rfl
  | cons e m ih =>
    obtain ⟨a, v⟩ := e
    by_cases hp : p (a, v) = true
    · rw [List.filter_cons_of_pos hp]; simp [NMap.get, ih]
    · rw [List.filter_cons_of_neg hp, ih]
      by_cases ha : a = k
      · subst ha; rw [h v] at hp; simp at hp
      · simp [NMap.get, ha]

end Sys2Proof.Machine
end

