-- ==== Sys2Proof/Laws/State.lean ====
section
/-! SUPPORT. What each update of the state leaves: one lemma for each part of the state and each update, and the two
laws of register fields and of memory bytes. -/

namespace Sys2Proof.Machine

/-- A field reads what was written to it, cut to its width. -/
theorem State.get_set_same (s : State) (f : Field) (v : Nat) : (s.set f v).get f = v % 2 ^ f.width :=
  NMap.get_put_same _ _ _ _

/-- A field at another place reads as before. -/
theorem State.get_set_ne (s : State) {f g : Field} (v : Nat) (h : g.key ≠ f.key) : (s.set f v).get g = s.get g :=
  NMap.get_put_ne _ _ _ _ h

/-- A byte reads what was written to it. -/
theorem State.byte_setByte_same (s : State) (a : Nat) (b : Byte) : (s.setByte a b).byte a = b :=
  NMap.get_put_same _ _ _ _

/-- Every other byte reads as before. -/
theorem State.byte_setByte_ne (s : State) {a c : Nat} (b : Byte) (h : c ≠ a) : (s.setByte a b).byte c = s.byte c :=
  NMap.get_put_ne _ _ _ _ h

@[simp] theorem State.set_pending (s : State) (f : Field) (v : Nat) : (s.set f v).pending = s.pending := rfl
@[simp] theorem State.set_free (s : State) (f : Field) (v : Nat) : (s.set f v).free = s.free := rfl
@[simp] theorem State.set_now (s : State) (f : Field) (v : Nat) : (s.set f v).now = s.now := rfl
@[simp] theorem State.set_mem (s : State) (f : Field) (v : Nat) : (s.set f v).mem = s.mem := rfl
@[simp] theorem State.set_supply (s : State) (f : Field) (v : Nat) : (s.set f v).supply = s.supply := rfl
@[simp] theorem State.set_path (s : State) (f : Field) (v : Nat) : (s.set f v).path = s.path := rfl
@[simp] theorem State.set_charger (s : State) (f : Field) (v : Nat) : (s.set f v).charger = s.charger := rfl
@[simp] theorem State.set_intc (s : State) (f : Field) (v : Nat) : (s.set f v).intc = s.intc := rfl
@[simp] theorem State.set_fox (s : State) (f : Field) (v : Nat) : (s.set f v).fox = s.fox := rfl
@[simp] theorem State.set_loops (s : State) (f : Field) (v : Nat) : (s.set f v).loops = s.loops := rfl
@[simp] theorem State.set_phases (s : State) (f : Field) (v : Nat) : (s.set f v).phases = s.phases := rfl
@[simp] theorem State.set_outs (s : State) (f : Field) (v : Nat) : (s.set f v).outs = s.outs := rfl
@[simp] theorem State.set_vdrv (s : State) (f : Field) (v : Nat) : (s.set f v).vdrv = s.vdrv := rfl
@[simp] theorem State.set_vcl (s : State) (f : Field) (v : Nat) : (s.set f v).vcl = s.vcl := rfl
@[simp] theorem State.set_sup (s : State) (f : Field) (v : Nat) : (s.set f v).sup = s.sup := rfl
@[simp] theorem State.set_engines (s : State) (f : Field) (v : Nat) : (s.set f v).engines = s.engines := rfl
@[simp] theorem State.set_tasks (s : State) (f : Field) (v : Nat) : (s.set f v).tasks = s.tasks := rfl
@[simp] theorem State.set_claims (s : State) (f : Field) (v : Nat) : (s.set f v).claims = s.claims := rfl
@[simp] theorem State.set_ledger (s : State) (f : Field) (v : Nat) : (s.set f v).ledger = s.ledger := rfl
@[simp] theorem State.set_adc (s : State) (f : Field) (v : Nat) : (s.set f v).adc = s.adc := rfl
@[simp] theorem State.set_wear (s : State) (f : Field) (v : Nat) : (s.set f v).wear = s.wear := rfl
@[simp] theorem State.set_sys (s : State) (f : Field) (v : Nat) : (s.set f v).sys = s.sys := rfl
@[simp] theorem State.set_ring (s : State) (f : Field) (v : Nat) : (s.set f v).ring = s.ring := rfl
@[simp] theorem State.set_thermal (s : State) (f : Field) (v : Nat) : (s.set f v).thermal = s.thermal := rfl
@[simp] theorem State.set_hci (s : State) (f : Field) (v : Nat) : (s.set f v).hci = s.hci := rfl
@[simp] theorem State.set_twt (s : State) (f : Field) (v : Nat) : (s.set f v).twt = s.twt := rfl
@[simp] theorem State.set_twc (s : State) (f : Field) (v : Nat) : (s.set f v).twc = s.twc := rfl
@[simp] theorem State.set_otp (s : State) (f : Field) (v : Nat) : (s.set f v).otp = s.otp := rfl
@[simp] theorem State.set_byte (s : State) (f : Field) (v : Nat) (adr : Nat) : (s.set f v).byte adr = s.byte adr := rfl

@[simp] theorem State.setByte_pending (s : State) (a : Nat) (b : Byte) : (s.setByte a b).pending = s.pending := rfl
@[simp] theorem State.setByte_free (s : State) (a : Nat) (b : Byte) : (s.setByte a b).free = s.free := rfl
@[simp] theorem State.setByte_now (s : State) (a : Nat) (b : Byte) : (s.setByte a b).now = s.now := rfl
@[simp] theorem State.setByte_regs (s : State) (a : Nat) (b : Byte) : (s.setByte a b).regs = s.regs := rfl
@[simp] theorem State.setByte_supply (s : State) (a : Nat) (b : Byte) : (s.setByte a b).supply = s.supply := rfl
@[simp] theorem State.setByte_path (s : State) (a : Nat) (b : Byte) : (s.setByte a b).path = s.path := rfl
@[simp] theorem State.setByte_charger (s : State) (a : Nat) (b : Byte) : (s.setByte a b).charger = s.charger := rfl
@[simp] theorem State.setByte_intc (s : State) (a : Nat) (b : Byte) : (s.setByte a b).intc = s.intc := rfl
@[simp] theorem State.setByte_fox (s : State) (a : Nat) (b : Byte) : (s.setByte a b).fox = s.fox := rfl
@[simp] theorem State.setByte_loops (s : State) (a : Nat) (b : Byte) : (s.setByte a b).loops = s.loops := rfl
@[simp] theorem State.setByte_phases (s : State) (a : Nat) (b : Byte) : (s.setByte a b).phases = s.phases := rfl
@[simp] theorem State.setByte_outs (s : State) (a : Nat) (b : Byte) : (s.setByte a b).outs = s.outs := rfl
@[simp] theorem State.setByte_vdrv (s : State) (a : Nat) (b : Byte) : (s.setByte a b).vdrv = s.vdrv := rfl
@[simp] theorem State.setByte_vcl (s : State) (a : Nat) (b : Byte) : (s.setByte a b).vcl = s.vcl := rfl
@[simp] theorem State.setByte_sup (s : State) (a : Nat) (b : Byte) : (s.setByte a b).sup = s.sup := rfl
@[simp] theorem State.setByte_engines (s : State) (a : Nat) (b : Byte) : (s.setByte a b).engines = s.engines := rfl
@[simp] theorem State.setByte_tasks (s : State) (a : Nat) (b : Byte) : (s.setByte a b).tasks = s.tasks := rfl
@[simp] theorem State.setByte_claims (s : State) (a : Nat) (b : Byte) : (s.setByte a b).claims = s.claims := rfl
@[simp] theorem State.setByte_ledger (s : State) (a : Nat) (b : Byte) : (s.setByte a b).ledger = s.ledger := rfl
@[simp] theorem State.setByte_adc (s : State) (a : Nat) (b : Byte) : (s.setByte a b).adc = s.adc := rfl
@[simp] theorem State.setByte_wear (s : State) (a : Nat) (b : Byte) : (s.setByte a b).wear = s.wear := rfl
@[simp] theorem State.setByte_sys (s : State) (a : Nat) (b : Byte) : (s.setByte a b).sys = s.sys := rfl
@[simp] theorem State.setByte_ring (s : State) (a : Nat) (b : Byte) : (s.setByte a b).ring = s.ring := rfl
@[simp] theorem State.setByte_thermal (s : State) (a : Nat) (b : Byte) : (s.setByte a b).thermal = s.thermal := rfl
@[simp] theorem State.setByte_hci (s : State) (a : Nat) (b : Byte) : (s.setByte a b).hci = s.hci := rfl
@[simp] theorem State.setByte_twt (s : State) (a : Nat) (b : Byte) : (s.setByte a b).twt = s.twt := rfl
@[simp] theorem State.setByte_twc (s : State) (a : Nat) (b : Byte) : (s.setByte a b).twc = s.twc := rfl
@[simp] theorem State.setByte_otp (s : State) (a : Nat) (b : Byte) : (s.setByte a b).otp = s.otp := rfl
@[simp] theorem State.setByte_get (s : State) (a : Nat) (b : Byte) (f : Field) : (s.setByte a b).get f = s.get f := rfl
@[simp] theorem State.setByte_on (s : State) (a : Nat) (b : Byte) (f : Field) : (s.setByte a b).on f = s.on f := rfl

@[simp] theorem State.setLoop_pending (s : State) (n : Nat) (x : LoopSt) : (s.setLoop n x).pending = s.pending := rfl
@[simp] theorem State.setLoop_free (s : State) (n : Nat) (x : LoopSt) : (s.setLoop n x).free = s.free := rfl
@[simp] theorem State.setLoop_now (s : State) (n : Nat) (x : LoopSt) : (s.setLoop n x).now = s.now := rfl
@[simp] theorem State.setLoop_regs (s : State) (n : Nat) (x : LoopSt) : (s.setLoop n x).regs = s.regs := rfl
@[simp] theorem State.setLoop_mem (s : State) (n : Nat) (x : LoopSt) : (s.setLoop n x).mem = s.mem := rfl
@[simp] theorem State.setLoop_supply (s : State) (n : Nat) (x : LoopSt) : (s.setLoop n x).supply = s.supply := rfl
@[simp] theorem State.setLoop_path (s : State) (n : Nat) (x : LoopSt) : (s.setLoop n x).path = s.path := rfl
@[simp] theorem State.setLoop_charger (s : State) (n : Nat) (x : LoopSt) : (s.setLoop n x).charger = s.charger := rfl
@[simp] theorem State.setLoop_intc (s : State) (n : Nat) (x : LoopSt) : (s.setLoop n x).intc = s.intc := rfl
@[simp] theorem State.setLoop_fox (s : State) (n : Nat) (x : LoopSt) : (s.setLoop n x).fox = s.fox := rfl
@[simp] theorem State.setLoop_phases (s : State) (n : Nat) (x : LoopSt) : (s.setLoop n x).phases = s.phases := rfl
@[simp] theorem State.setLoop_outs (s : State) (n : Nat) (x : LoopSt) : (s.setLoop n x).outs = s.outs := rfl
@[simp] theorem State.setLoop_vdrv (s : State) (n : Nat) (x : LoopSt) : (s.setLoop n x).vdrv = s.vdrv := rfl
@[simp] theorem State.setLoop_vcl (s : State) (n : Nat) (x : LoopSt) : (s.setLoop n x).vcl = s.vcl := rfl
@[simp] theorem State.setLoop_sup (s : State) (n : Nat) (x : LoopSt) : (s.setLoop n x).sup = s.sup := rfl
@[simp] theorem State.setLoop_engines (s : State) (n : Nat) (x : LoopSt) : (s.setLoop n x).engines = s.engines := rfl
@[simp] theorem State.setLoop_tasks (s : State) (n : Nat) (x : LoopSt) : (s.setLoop n x).tasks = s.tasks := rfl
@[simp] theorem State.setLoop_claims (s : State) (n : Nat) (x : LoopSt) : (s.setLoop n x).claims = s.claims := rfl
@[simp] theorem State.setLoop_ledger (s : State) (n : Nat) (x : LoopSt) : (s.setLoop n x).ledger = s.ledger := rfl
@[simp] theorem State.setLoop_adc (s : State) (n : Nat) (x : LoopSt) : (s.setLoop n x).adc = s.adc := rfl
@[simp] theorem State.setLoop_wear (s : State) (n : Nat) (x : LoopSt) : (s.setLoop n x).wear = s.wear := rfl
@[simp] theorem State.setLoop_sys (s : State) (n : Nat) (x : LoopSt) : (s.setLoop n x).sys = s.sys := rfl
@[simp] theorem State.setLoop_ring (s : State) (n : Nat) (x : LoopSt) : (s.setLoop n x).ring = s.ring := rfl
@[simp] theorem State.setLoop_thermal (s : State) (n : Nat) (x : LoopSt) : (s.setLoop n x).thermal = s.thermal := rfl
@[simp] theorem State.setLoop_hci (s : State) (n : Nat) (x : LoopSt) : (s.setLoop n x).hci = s.hci := rfl
@[simp] theorem State.setLoop_twt (s : State) (n : Nat) (x : LoopSt) : (s.setLoop n x).twt = s.twt := rfl
@[simp] theorem State.setLoop_twc (s : State) (n : Nat) (x : LoopSt) : (s.setLoop n x).twc = s.twc := rfl
@[simp] theorem State.setLoop_otp (s : State) (n : Nat) (x : LoopSt) : (s.setLoop n x).otp = s.otp := rfl
@[simp] theorem State.setLoop_get (s : State) (n : Nat) (x : LoopSt) (f : Field) : (s.setLoop n x).get f = s.get f := rfl
@[simp] theorem State.setLoop_on (s : State) (n : Nat) (x : LoopSt) (f : Field) : (s.setLoop n x).on f = s.on f := rfl
@[simp] theorem State.setLoop_byte (s : State) (n : Nat) (x : LoopSt) (adr : Nat) : (s.setLoop n x).byte adr = s.byte adr := rfl

@[simp] theorem State.setPhase_pending (s : State) (k : Nat) (x : PhaseSt) : (s.setPhase k x).pending = s.pending := rfl
@[simp] theorem State.setPhase_free (s : State) (k : Nat) (x : PhaseSt) : (s.setPhase k x).free = s.free := rfl
@[simp] theorem State.setPhase_now (s : State) (k : Nat) (x : PhaseSt) : (s.setPhase k x).now = s.now := rfl
@[simp] theorem State.setPhase_regs (s : State) (k : Nat) (x : PhaseSt) : (s.setPhase k x).regs = s.regs := rfl
@[simp] theorem State.setPhase_mem (s : State) (k : Nat) (x : PhaseSt) : (s.setPhase k x).mem = s.mem := rfl
@[simp] theorem State.setPhase_supply (s : State) (k : Nat) (x : PhaseSt) : (s.setPhase k x).supply = s.supply := rfl
@[simp] theorem State.setPhase_path (s : State) (k : Nat) (x : PhaseSt) : (s.setPhase k x).path = s.path := rfl
@[simp] theorem State.setPhase_charger (s : State) (k : Nat) (x : PhaseSt) : (s.setPhase k x).charger = s.charger := rfl
@[simp] theorem State.setPhase_intc (s : State) (k : Nat) (x : PhaseSt) : (s.setPhase k x).intc = s.intc := rfl
@[simp] theorem State.setPhase_fox (s : State) (k : Nat) (x : PhaseSt) : (s.setPhase k x).fox = s.fox := rfl
@[simp] theorem State.setPhase_loops (s : State) (k : Nat) (x : PhaseSt) : (s.setPhase k x).loops = s.loops := rfl
@[simp] theorem State.setPhase_outs (s : State) (k : Nat) (x : PhaseSt) : (s.setPhase k x).outs = s.outs := rfl
@[simp] theorem State.setPhase_vdrv (s : State) (k : Nat) (x : PhaseSt) : (s.setPhase k x).vdrv = s.vdrv := rfl
@[simp] theorem State.setPhase_vcl (s : State) (k : Nat) (x : PhaseSt) : (s.setPhase k x).vcl = s.vcl := rfl
@[simp] theorem State.setPhase_sup (s : State) (k : Nat) (x : PhaseSt) : (s.setPhase k x).sup = s.sup := rfl
@[simp] theorem State.setPhase_engines (s : State) (k : Nat) (x : PhaseSt) : (s.setPhase k x).engines = s.engines := rfl
@[simp] theorem State.setPhase_tasks (s : State) (k : Nat) (x : PhaseSt) : (s.setPhase k x).tasks = s.tasks := rfl
@[simp] theorem State.setPhase_claims (s : State) (k : Nat) (x : PhaseSt) : (s.setPhase k x).claims = s.claims := rfl
@[simp] theorem State.setPhase_ledger (s : State) (k : Nat) (x : PhaseSt) : (s.setPhase k x).ledger = s.ledger := rfl
@[simp] theorem State.setPhase_adc (s : State) (k : Nat) (x : PhaseSt) : (s.setPhase k x).adc = s.adc := rfl
@[simp] theorem State.setPhase_wear (s : State) (k : Nat) (x : PhaseSt) : (s.setPhase k x).wear = s.wear := rfl
@[simp] theorem State.setPhase_sys (s : State) (k : Nat) (x : PhaseSt) : (s.setPhase k x).sys = s.sys := rfl
@[simp] theorem State.setPhase_ring (s : State) (k : Nat) (x : PhaseSt) : (s.setPhase k x).ring = s.ring := rfl
@[simp] theorem State.setPhase_thermal (s : State) (k : Nat) (x : PhaseSt) : (s.setPhase k x).thermal = s.thermal := rfl
@[simp] theorem State.setPhase_hci (s : State) (k : Nat) (x : PhaseSt) : (s.setPhase k x).hci = s.hci := rfl
@[simp] theorem State.setPhase_twt (s : State) (k : Nat) (x : PhaseSt) : (s.setPhase k x).twt = s.twt := rfl
@[simp] theorem State.setPhase_twc (s : State) (k : Nat) (x : PhaseSt) : (s.setPhase k x).twc = s.twc := rfl
@[simp] theorem State.setPhase_otp (s : State) (k : Nat) (x : PhaseSt) : (s.setPhase k x).otp = s.otp := rfl
@[simp] theorem State.setPhase_get (s : State) (k : Nat) (x : PhaseSt) (f : Field) : (s.setPhase k x).get f = s.get f := rfl
@[simp] theorem State.setPhase_on (s : State) (k : Nat) (x : PhaseSt) (f : Field) : (s.setPhase k x).on f = s.on f := rfl
@[simp] theorem State.setPhase_byte (s : State) (k : Nat) (x : PhaseSt) (adr : Nat) : (s.setPhase k x).byte adr = s.byte adr := rfl

@[simp] theorem State.setOut_pending (s : State) (c : Nat) (x : OutSt) : (s.setOut c x).pending = s.pending := rfl
@[simp] theorem State.setOut_free (s : State) (c : Nat) (x : OutSt) : (s.setOut c x).free = s.free := rfl
@[simp] theorem State.setOut_now (s : State) (c : Nat) (x : OutSt) : (s.setOut c x).now = s.now := rfl
@[simp] theorem State.setOut_regs (s : State) (c : Nat) (x : OutSt) : (s.setOut c x).regs = s.regs := rfl
@[simp] theorem State.setOut_mem (s : State) (c : Nat) (x : OutSt) : (s.setOut c x).mem = s.mem := rfl
@[simp] theorem State.setOut_supply (s : State) (c : Nat) (x : OutSt) : (s.setOut c x).supply = s.supply := rfl
@[simp] theorem State.setOut_path (s : State) (c : Nat) (x : OutSt) : (s.setOut c x).path = s.path := rfl
@[simp] theorem State.setOut_charger (s : State) (c : Nat) (x : OutSt) : (s.setOut c x).charger = s.charger := rfl
@[simp] theorem State.setOut_intc (s : State) (c : Nat) (x : OutSt) : (s.setOut c x).intc = s.intc := rfl
@[simp] theorem State.setOut_fox (s : State) (c : Nat) (x : OutSt) : (s.setOut c x).fox = s.fox := rfl
@[simp] theorem State.setOut_loops (s : State) (c : Nat) (x : OutSt) : (s.setOut c x).loops = s.loops := rfl
@[simp] theorem State.setOut_phases (s : State) (c : Nat) (x : OutSt) : (s.setOut c x).phases = s.phases := rfl
@[simp] theorem State.setOut_vdrv (s : State) (c : Nat) (x : OutSt) : (s.setOut c x).vdrv = s.vdrv := rfl
@[simp] theorem State.setOut_vcl (s : State) (c : Nat) (x : OutSt) : (s.setOut c x).vcl = s.vcl := rfl
@[simp] theorem State.setOut_sup (s : State) (c : Nat) (x : OutSt) : (s.setOut c x).sup = s.sup := rfl
@[simp] theorem State.setOut_engines (s : State) (c : Nat) (x : OutSt) : (s.setOut c x).engines = s.engines := rfl
@[simp] theorem State.setOut_tasks (s : State) (c : Nat) (x : OutSt) : (s.setOut c x).tasks = s.tasks := rfl
@[simp] theorem State.setOut_claims (s : State) (c : Nat) (x : OutSt) : (s.setOut c x).claims = s.claims := rfl
@[simp] theorem State.setOut_ledger (s : State) (c : Nat) (x : OutSt) : (s.setOut c x).ledger = s.ledger := rfl
@[simp] theorem State.setOut_adc (s : State) (c : Nat) (x : OutSt) : (s.setOut c x).adc = s.adc := rfl
@[simp] theorem State.setOut_wear (s : State) (c : Nat) (x : OutSt) : (s.setOut c x).wear = s.wear := rfl
@[simp] theorem State.setOut_sys (s : State) (c : Nat) (x : OutSt) : (s.setOut c x).sys = s.sys := rfl
@[simp] theorem State.setOut_ring (s : State) (c : Nat) (x : OutSt) : (s.setOut c x).ring = s.ring := rfl
@[simp] theorem State.setOut_thermal (s : State) (c : Nat) (x : OutSt) : (s.setOut c x).thermal = s.thermal := rfl
@[simp] theorem State.setOut_hci (s : State) (c : Nat) (x : OutSt) : (s.setOut c x).hci = s.hci := rfl
@[simp] theorem State.setOut_twt (s : State) (c : Nat) (x : OutSt) : (s.setOut c x).twt = s.twt := rfl
@[simp] theorem State.setOut_twc (s : State) (c : Nat) (x : OutSt) : (s.setOut c x).twc = s.twc := rfl
@[simp] theorem State.setOut_otp (s : State) (c : Nat) (x : OutSt) : (s.setOut c x).otp = s.otp := rfl
@[simp] theorem State.setOut_get (s : State) (c : Nat) (x : OutSt) (f : Field) : (s.setOut c x).get f = s.get f := rfl
@[simp] theorem State.setOut_on (s : State) (c : Nat) (x : OutSt) (f : Field) : (s.setOut c x).on f = s.on f := rfl
@[simp] theorem State.setOut_byte (s : State) (c : Nat) (x : OutSt) (adr : Nat) : (s.setOut c x).byte adr = s.byte adr := rfl

@[simp] theorem State.setPort_pending (s : State) (p : Nat) (x : Vcl) : (s.setPort p x).pending = s.pending := rfl
@[simp] theorem State.setPort_free (s : State) (p : Nat) (x : Vcl) : (s.setPort p x).free = s.free := rfl
@[simp] theorem State.setPort_now (s : State) (p : Nat) (x : Vcl) : (s.setPort p x).now = s.now := rfl
@[simp] theorem State.setPort_regs (s : State) (p : Nat) (x : Vcl) : (s.setPort p x).regs = s.regs := rfl
@[simp] theorem State.setPort_mem (s : State) (p : Nat) (x : Vcl) : (s.setPort p x).mem = s.mem := rfl
@[simp] theorem State.setPort_supply (s : State) (p : Nat) (x : Vcl) : (s.setPort p x).supply = s.supply := rfl
@[simp] theorem State.setPort_path (s : State) (p : Nat) (x : Vcl) : (s.setPort p x).path = s.path := rfl
@[simp] theorem State.setPort_charger (s : State) (p : Nat) (x : Vcl) : (s.setPort p x).charger = s.charger := rfl
@[simp] theorem State.setPort_intc (s : State) (p : Nat) (x : Vcl) : (s.setPort p x).intc = s.intc := rfl
@[simp] theorem State.setPort_fox (s : State) (p : Nat) (x : Vcl) : (s.setPort p x).fox = s.fox := rfl
@[simp] theorem State.setPort_loops (s : State) (p : Nat) (x : Vcl) : (s.setPort p x).loops = s.loops := rfl
@[simp] theorem State.setPort_phases (s : State) (p : Nat) (x : Vcl) : (s.setPort p x).phases = s.phases := rfl
@[simp] theorem State.setPort_outs (s : State) (p : Nat) (x : Vcl) : (s.setPort p x).outs = s.outs := rfl
@[simp] theorem State.setPort_vdrv (s : State) (p : Nat) (x : Vcl) : (s.setPort p x).vdrv = s.vdrv := rfl
@[simp] theorem State.setPort_sup (s : State) (p : Nat) (x : Vcl) : (s.setPort p x).sup = s.sup := rfl
@[simp] theorem State.setPort_engines (s : State) (p : Nat) (x : Vcl) : (s.setPort p x).engines = s.engines := rfl
@[simp] theorem State.setPort_tasks (s : State) (p : Nat) (x : Vcl) : (s.setPort p x).tasks = s.tasks := rfl
@[simp] theorem State.setPort_claims (s : State) (p : Nat) (x : Vcl) : (s.setPort p x).claims = s.claims := rfl
@[simp] theorem State.setPort_ledger (s : State) (p : Nat) (x : Vcl) : (s.setPort p x).ledger = s.ledger := rfl
@[simp] theorem State.setPort_adc (s : State) (p : Nat) (x : Vcl) : (s.setPort p x).adc = s.adc := rfl
@[simp] theorem State.setPort_wear (s : State) (p : Nat) (x : Vcl) : (s.setPort p x).wear = s.wear := rfl
@[simp] theorem State.setPort_sys (s : State) (p : Nat) (x : Vcl) : (s.setPort p x).sys = s.sys := rfl
@[simp] theorem State.setPort_ring (s : State) (p : Nat) (x : Vcl) : (s.setPort p x).ring = s.ring := rfl
@[simp] theorem State.setPort_thermal (s : State) (p : Nat) (x : Vcl) : (s.setPort p x).thermal = s.thermal := rfl
@[simp] theorem State.setPort_hci (s : State) (p : Nat) (x : Vcl) : (s.setPort p x).hci = s.hci := rfl
@[simp] theorem State.setPort_twt (s : State) (p : Nat) (x : Vcl) : (s.setPort p x).twt = s.twt := rfl
@[simp] theorem State.setPort_twc (s : State) (p : Nat) (x : Vcl) : (s.setPort p x).twc = s.twc := rfl
@[simp] theorem State.setPort_otp (s : State) (p : Nat) (x : Vcl) : (s.setPort p x).otp = s.otp := rfl
@[simp] theorem State.setPort_get (s : State) (p : Nat) (x : Vcl) (f : Field) : (s.setPort p x).get f = s.get f := rfl
@[simp] theorem State.setPort_on (s : State) (p : Nat) (x : Vcl) (f : Field) : (s.setPort p x).on f = s.on f := rfl
@[simp] theorem State.setPort_byte (s : State) (p : Nat) (x : Vcl) (adr : Nat) : (s.setPort p x).byte adr = s.byte adr := rfl

@[simp] theorem State.setSup_pending (s : State) (n : Nat) (x : SupCh) : (s.setSup n x).pending = s.pending := rfl
@[simp] theorem State.setSup_free (s : State) (n : Nat) (x : SupCh) : (s.setSup n x).free = s.free := rfl
@[simp] theorem State.setSup_now (s : State) (n : Nat) (x : SupCh) : (s.setSup n x).now = s.now := rfl
@[simp] theorem State.setSup_regs (s : State) (n : Nat) (x : SupCh) : (s.setSup n x).regs = s.regs := rfl
@[simp] theorem State.setSup_mem (s : State) (n : Nat) (x : SupCh) : (s.setSup n x).mem = s.mem := rfl
@[simp] theorem State.setSup_supply (s : State) (n : Nat) (x : SupCh) : (s.setSup n x).supply = s.supply := rfl
@[simp] theorem State.setSup_path (s : State) (n : Nat) (x : SupCh) : (s.setSup n x).path = s.path := rfl
@[simp] theorem State.setSup_charger (s : State) (n : Nat) (x : SupCh) : (s.setSup n x).charger = s.charger := rfl
@[simp] theorem State.setSup_intc (s : State) (n : Nat) (x : SupCh) : (s.setSup n x).intc = s.intc := rfl
@[simp] theorem State.setSup_fox (s : State) (n : Nat) (x : SupCh) : (s.setSup n x).fox = s.fox := rfl
@[simp] theorem State.setSup_loops (s : State) (n : Nat) (x : SupCh) : (s.setSup n x).loops = s.loops := rfl
@[simp] theorem State.setSup_phases (s : State) (n : Nat) (x : SupCh) : (s.setSup n x).phases = s.phases := rfl
@[simp] theorem State.setSup_outs (s : State) (n : Nat) (x : SupCh) : (s.setSup n x).outs = s.outs := rfl
@[simp] theorem State.setSup_vdrv (s : State) (n : Nat) (x : SupCh) : (s.setSup n x).vdrv = s.vdrv := rfl
@[simp] theorem State.setSup_vcl (s : State) (n : Nat) (x : SupCh) : (s.setSup n x).vcl = s.vcl := rfl
@[simp] theorem State.setSup_engines (s : State) (n : Nat) (x : SupCh) : (s.setSup n x).engines = s.engines := rfl
@[simp] theorem State.setSup_tasks (s : State) (n : Nat) (x : SupCh) : (s.setSup n x).tasks = s.tasks := rfl
@[simp] theorem State.setSup_claims (s : State) (n : Nat) (x : SupCh) : (s.setSup n x).claims = s.claims := rfl
@[simp] theorem State.setSup_ledger (s : State) (n : Nat) (x : SupCh) : (s.setSup n x).ledger = s.ledger := rfl
@[simp] theorem State.setSup_adc (s : State) (n : Nat) (x : SupCh) : (s.setSup n x).adc = s.adc := rfl
@[simp] theorem State.setSup_wear (s : State) (n : Nat) (x : SupCh) : (s.setSup n x).wear = s.wear := rfl
@[simp] theorem State.setSup_sys (s : State) (n : Nat) (x : SupCh) : (s.setSup n x).sys = s.sys := rfl
@[simp] theorem State.setSup_ring (s : State) (n : Nat) (x : SupCh) : (s.setSup n x).ring = s.ring := rfl
@[simp] theorem State.setSup_thermal (s : State) (n : Nat) (x : SupCh) : (s.setSup n x).thermal = s.thermal := rfl
@[simp] theorem State.setSup_hci (s : State) (n : Nat) (x : SupCh) : (s.setSup n x).hci = s.hci := rfl
@[simp] theorem State.setSup_twt (s : State) (n : Nat) (x : SupCh) : (s.setSup n x).twt = s.twt := rfl
@[simp] theorem State.setSup_twc (s : State) (n : Nat) (x : SupCh) : (s.setSup n x).twc = s.twc := rfl
@[simp] theorem State.setSup_otp (s : State) (n : Nat) (x : SupCh) : (s.setSup n x).otp = s.otp := rfl
@[simp] theorem State.setSup_get (s : State) (n : Nat) (x : SupCh) (f : Field) : (s.setSup n x).get f = s.get f := rfl
@[simp] theorem State.setSup_on (s : State) (n : Nat) (x : SupCh) (f : Field) : (s.setSup n x).on f = s.on f := rfl
@[simp] theorem State.setSup_byte (s : State) (n : Nat) (x : SupCh) (adr : Nat) : (s.setSup n x).byte adr = s.byte adr := rfl

@[simp] theorem State.setEngine_pending (s : State) (e : Nat) (x : EngineSt) : (s.setEngine e x).pending = s.pending := rfl
@[simp] theorem State.setEngine_free (s : State) (e : Nat) (x : EngineSt) : (s.setEngine e x).free = s.free := rfl
@[simp] theorem State.setEngine_now (s : State) (e : Nat) (x : EngineSt) : (s.setEngine e x).now = s.now := rfl
@[simp] theorem State.setEngine_regs (s : State) (e : Nat) (x : EngineSt) : (s.setEngine e x).regs = s.regs := rfl
@[simp] theorem State.setEngine_mem (s : State) (e : Nat) (x : EngineSt) : (s.setEngine e x).mem = s.mem := rfl
@[simp] theorem State.setEngine_supply (s : State) (e : Nat) (x : EngineSt) : (s.setEngine e x).supply = s.supply := rfl
@[simp] theorem State.setEngine_path (s : State) (e : Nat) (x : EngineSt) : (s.setEngine e x).path = s.path := rfl
@[simp] theorem State.setEngine_charger (s : State) (e : Nat) (x : EngineSt) : (s.setEngine e x).charger = s.charger := rfl
@[simp] theorem State.setEngine_intc (s : State) (e : Nat) (x : EngineSt) : (s.setEngine e x).intc = s.intc := rfl
@[simp] theorem State.setEngine_fox (s : State) (e : Nat) (x : EngineSt) : (s.setEngine e x).fox = s.fox := rfl
@[simp] theorem State.setEngine_loops (s : State) (e : Nat) (x : EngineSt) : (s.setEngine e x).loops = s.loops := rfl
@[simp] theorem State.setEngine_phases (s : State) (e : Nat) (x : EngineSt) : (s.setEngine e x).phases = s.phases := rfl
@[simp] theorem State.setEngine_outs (s : State) (e : Nat) (x : EngineSt) : (s.setEngine e x).outs = s.outs := rfl
@[simp] theorem State.setEngine_vdrv (s : State) (e : Nat) (x : EngineSt) : (s.setEngine e x).vdrv = s.vdrv := rfl
@[simp] theorem State.setEngine_vcl (s : State) (e : Nat) (x : EngineSt) : (s.setEngine e x).vcl = s.vcl := rfl
@[simp] theorem State.setEngine_sup (s : State) (e : Nat) (x : EngineSt) : (s.setEngine e x).sup = s.sup := rfl
@[simp] theorem State.setEngine_tasks (s : State) (e : Nat) (x : EngineSt) : (s.setEngine e x).tasks = s.tasks := rfl
@[simp] theorem State.setEngine_claims (s : State) (e : Nat) (x : EngineSt) : (s.setEngine e x).claims = s.claims := rfl
@[simp] theorem State.setEngine_ledger (s : State) (e : Nat) (x : EngineSt) : (s.setEngine e x).ledger = s.ledger := rfl
@[simp] theorem State.setEngine_adc (s : State) (e : Nat) (x : EngineSt) : (s.setEngine e x).adc = s.adc := rfl
@[simp] theorem State.setEngine_wear (s : State) (e : Nat) (x : EngineSt) : (s.setEngine e x).wear = s.wear := rfl
@[simp] theorem State.setEngine_sys (s : State) (e : Nat) (x : EngineSt) : (s.setEngine e x).sys = s.sys := rfl
@[simp] theorem State.setEngine_ring (s : State) (e : Nat) (x : EngineSt) : (s.setEngine e x).ring = s.ring := rfl
@[simp] theorem State.setEngine_thermal (s : State) (e : Nat) (x : EngineSt) : (s.setEngine e x).thermal = s.thermal := rfl
@[simp] theorem State.setEngine_hci (s : State) (e : Nat) (x : EngineSt) : (s.setEngine e x).hci = s.hci := rfl
@[simp] theorem State.setEngine_twt (s : State) (e : Nat) (x : EngineSt) : (s.setEngine e x).twt = s.twt := rfl
@[simp] theorem State.setEngine_twc (s : State) (e : Nat) (x : EngineSt) : (s.setEngine e x).twc = s.twc := rfl
@[simp] theorem State.setEngine_otp (s : State) (e : Nat) (x : EngineSt) : (s.setEngine e x).otp = s.otp := rfl
@[simp] theorem State.setEngine_get (s : State) (e : Nat) (x : EngineSt) (f : Field) : (s.setEngine e x).get f = s.get f := rfl
@[simp] theorem State.setEngine_on (s : State) (e : Nat) (x : EngineSt) (f : Field) : (s.setEngine e x).on f = s.on f := rfl
@[simp] theorem State.setEngine_byte (s : State) (e : Nat) (x : EngineSt) (adr : Nat) : (s.setEngine e x).byte adr = s.byte adr := rfl

@[simp] theorem State.setTask_pending (s : State) (e t : Nat) (x : Task) : (s.setTask e t x).pending = s.pending := rfl
@[simp] theorem State.setTask_free (s : State) (e t : Nat) (x : Task) : (s.setTask e t x).free = s.free := rfl
@[simp] theorem State.setTask_now (s : State) (e t : Nat) (x : Task) : (s.setTask e t x).now = s.now := rfl
@[simp] theorem State.setTask_regs (s : State) (e t : Nat) (x : Task) : (s.setTask e t x).regs = s.regs := rfl
@[simp] theorem State.setTask_mem (s : State) (e t : Nat) (x : Task) : (s.setTask e t x).mem = s.mem := rfl
@[simp] theorem State.setTask_supply (s : State) (e t : Nat) (x : Task) : (s.setTask e t x).supply = s.supply := rfl
@[simp] theorem State.setTask_path (s : State) (e t : Nat) (x : Task) : (s.setTask e t x).path = s.path := rfl
@[simp] theorem State.setTask_charger (s : State) (e t : Nat) (x : Task) : (s.setTask e t x).charger = s.charger := rfl
@[simp] theorem State.setTask_intc (s : State) (e t : Nat) (x : Task) : (s.setTask e t x).intc = s.intc := rfl
@[simp] theorem State.setTask_fox (s : State) (e t : Nat) (x : Task) : (s.setTask e t x).fox = s.fox := rfl
@[simp] theorem State.setTask_loops (s : State) (e t : Nat) (x : Task) : (s.setTask e t x).loops = s.loops := rfl
@[simp] theorem State.setTask_phases (s : State) (e t : Nat) (x : Task) : (s.setTask e t x).phases = s.phases := rfl
@[simp] theorem State.setTask_outs (s : State) (e t : Nat) (x : Task) : (s.setTask e t x).outs = s.outs := rfl
@[simp] theorem State.setTask_vdrv (s : State) (e t : Nat) (x : Task) : (s.setTask e t x).vdrv = s.vdrv := rfl
@[simp] theorem State.setTask_vcl (s : State) (e t : Nat) (x : Task) : (s.setTask e t x).vcl = s.vcl := rfl
@[simp] theorem State.setTask_sup (s : State) (e t : Nat) (x : Task) : (s.setTask e t x).sup = s.sup := rfl
@[simp] theorem State.setTask_engines (s : State) (e t : Nat) (x : Task) : (s.setTask e t x).engines = s.engines := rfl
@[simp] theorem State.setTask_claims (s : State) (e t : Nat) (x : Task) : (s.setTask e t x).claims = s.claims := rfl
@[simp] theorem State.setTask_ledger (s : State) (e t : Nat) (x : Task) : (s.setTask e t x).ledger = s.ledger := rfl
@[simp] theorem State.setTask_adc (s : State) (e t : Nat) (x : Task) : (s.setTask e t x).adc = s.adc := rfl
@[simp] theorem State.setTask_wear (s : State) (e t : Nat) (x : Task) : (s.setTask e t x).wear = s.wear := rfl
@[simp] theorem State.setTask_sys (s : State) (e t : Nat) (x : Task) : (s.setTask e t x).sys = s.sys := rfl
@[simp] theorem State.setTask_ring (s : State) (e t : Nat) (x : Task) : (s.setTask e t x).ring = s.ring := rfl
@[simp] theorem State.setTask_thermal (s : State) (e t : Nat) (x : Task) : (s.setTask e t x).thermal = s.thermal := rfl
@[simp] theorem State.setTask_hci (s : State) (e t : Nat) (x : Task) : (s.setTask e t x).hci = s.hci := rfl
@[simp] theorem State.setTask_twt (s : State) (e t : Nat) (x : Task) : (s.setTask e t x).twt = s.twt := rfl
@[simp] theorem State.setTask_twc (s : State) (e t : Nat) (x : Task) : (s.setTask e t x).twc = s.twc := rfl
@[simp] theorem State.setTask_otp (s : State) (e t : Nat) (x : Task) : (s.setTask e t x).otp = s.otp := rfl
@[simp] theorem State.setTask_get (s : State) (e t : Nat) (x : Task) (f : Field) : (s.setTask e t x).get f = s.get f := rfl
@[simp] theorem State.setTask_on (s : State) (e t : Nat) (x : Task) (f : Field) : (s.setTask e t x).on f = s.on f := rfl
@[simp] theorem State.setTask_byte (s : State) (e t : Nat) (x : Task) (adr : Nat) : (s.setTask e t x).byte adr = s.byte adr := rfl

@[simp] theorem State.setClaim_pending (s : State) (c : Nat) (x : Claim) : (s.setClaim c x).pending = s.pending := rfl
@[simp] theorem State.setClaim_free (s : State) (c : Nat) (x : Claim) : (s.setClaim c x).free = s.free := rfl
@[simp] theorem State.setClaim_now (s : State) (c : Nat) (x : Claim) : (s.setClaim c x).now = s.now := rfl
@[simp] theorem State.setClaim_regs (s : State) (c : Nat) (x : Claim) : (s.setClaim c x).regs = s.regs := rfl
@[simp] theorem State.setClaim_mem (s : State) (c : Nat) (x : Claim) : (s.setClaim c x).mem = s.mem := rfl
@[simp] theorem State.setClaim_supply (s : State) (c : Nat) (x : Claim) : (s.setClaim c x).supply = s.supply := rfl
@[simp] theorem State.setClaim_path (s : State) (c : Nat) (x : Claim) : (s.setClaim c x).path = s.path := rfl
@[simp] theorem State.setClaim_charger (s : State) (c : Nat) (x : Claim) : (s.setClaim c x).charger = s.charger := rfl
@[simp] theorem State.setClaim_intc (s : State) (c : Nat) (x : Claim) : (s.setClaim c x).intc = s.intc := rfl
@[simp] theorem State.setClaim_fox (s : State) (c : Nat) (x : Claim) : (s.setClaim c x).fox = s.fox := rfl
@[simp] theorem State.setClaim_loops (s : State) (c : Nat) (x : Claim) : (s.setClaim c x).loops = s.loops := rfl
@[simp] theorem State.setClaim_phases (s : State) (c : Nat) (x : Claim) : (s.setClaim c x).phases = s.phases := rfl
@[simp] theorem State.setClaim_outs (s : State) (c : Nat) (x : Claim) : (s.setClaim c x).outs = s.outs := rfl
@[simp] theorem State.setClaim_vdrv (s : State) (c : Nat) (x : Claim) : (s.setClaim c x).vdrv = s.vdrv := rfl
@[simp] theorem State.setClaim_vcl (s : State) (c : Nat) (x : Claim) : (s.setClaim c x).vcl = s.vcl := rfl
@[simp] theorem State.setClaim_sup (s : State) (c : Nat) (x : Claim) : (s.setClaim c x).sup = s.sup := rfl
@[simp] theorem State.setClaim_engines (s : State) (c : Nat) (x : Claim) : (s.setClaim c x).engines = s.engines := rfl
@[simp] theorem State.setClaim_tasks (s : State) (c : Nat) (x : Claim) : (s.setClaim c x).tasks = s.tasks := rfl
@[simp] theorem State.setClaim_ledger (s : State) (c : Nat) (x : Claim) : (s.setClaim c x).ledger = s.ledger := rfl
@[simp] theorem State.setClaim_adc (s : State) (c : Nat) (x : Claim) : (s.setClaim c x).adc = s.adc := rfl
@[simp] theorem State.setClaim_wear (s : State) (c : Nat) (x : Claim) : (s.setClaim c x).wear = s.wear := rfl
@[simp] theorem State.setClaim_sys (s : State) (c : Nat) (x : Claim) : (s.setClaim c x).sys = s.sys := rfl
@[simp] theorem State.setClaim_ring (s : State) (c : Nat) (x : Claim) : (s.setClaim c x).ring = s.ring := rfl
@[simp] theorem State.setClaim_thermal (s : State) (c : Nat) (x : Claim) : (s.setClaim c x).thermal = s.thermal := rfl
@[simp] theorem State.setClaim_hci (s : State) (c : Nat) (x : Claim) : (s.setClaim c x).hci = s.hci := rfl
@[simp] theorem State.setClaim_twt (s : State) (c : Nat) (x : Claim) : (s.setClaim c x).twt = s.twt := rfl
@[simp] theorem State.setClaim_twc (s : State) (c : Nat) (x : Claim) : (s.setClaim c x).twc = s.twc := rfl
@[simp] theorem State.setClaim_otp (s : State) (c : Nat) (x : Claim) : (s.setClaim c x).otp = s.otp := rfl
@[simp] theorem State.setClaim_get (s : State) (c : Nat) (x : Claim) (f : Field) : (s.setClaim c x).get f = s.get f := rfl
@[simp] theorem State.setClaim_on (s : State) (c : Nat) (x : Claim) (f : Field) : (s.setClaim c x).on f = s.on f := rfl
@[simp] theorem State.setClaim_byte (s : State) (c : Nat) (x : Claim) (adr : Nat) : (s.setClaim c x).byte adr = s.byte adr := rfl

@[simp] theorem State.expire_pending (s : State) (t : Nat) : (s.expire t).pending = s.pending := rfl
@[simp] theorem State.expire_free (s : State) (t : Nat) : (s.expire t).free = s.free := rfl
@[simp] theorem State.expire_regs (s : State) (t : Nat) : (s.expire t).regs = s.regs := rfl
@[simp] theorem State.expire_mem (s : State) (t : Nat) : (s.expire t).mem = s.mem := rfl
@[simp] theorem State.expire_supply (s : State) (t : Nat) : (s.expire t).supply = s.supply := rfl
@[simp] theorem State.expire_path (s : State) (t : Nat) : (s.expire t).path = s.path := rfl
@[simp] theorem State.expire_charger (s : State) (t : Nat) : (s.expire t).charger = s.charger := rfl
@[simp] theorem State.expire_intc (s : State) (t : Nat) : (s.expire t).intc = s.intc := rfl
@[simp] theorem State.expire_fox (s : State) (t : Nat) : (s.expire t).fox = s.fox := rfl
@[simp] theorem State.expire_loops (s : State) (t : Nat) : (s.expire t).loops = s.loops := rfl
@[simp] theorem State.expire_phases (s : State) (t : Nat) : (s.expire t).phases = s.phases := rfl
@[simp] theorem State.expire_outs (s : State) (t : Nat) : (s.expire t).outs = s.outs := rfl
@[simp] theorem State.expire_vdrv (s : State) (t : Nat) : (s.expire t).vdrv = s.vdrv := rfl
@[simp] theorem State.expire_vcl (s : State) (t : Nat) : (s.expire t).vcl = s.vcl := rfl
@[simp] theorem State.expire_sup (s : State) (t : Nat) : (s.expire t).sup = s.sup := rfl
@[simp] theorem State.expire_engines (s : State) (t : Nat) : (s.expire t).engines = s.engines := rfl
@[simp] theorem State.expire_tasks (s : State) (t : Nat) : (s.expire t).tasks = s.tasks := rfl
@[simp] theorem State.expire_claims (s : State) (t : Nat) : (s.expire t).claims = s.claims := rfl
@[simp] theorem State.expire_ledger (s : State) (t : Nat) : (s.expire t).ledger = s.ledger := rfl
@[simp] theorem State.expire_adc (s : State) (t : Nat) : (s.expire t).adc = s.adc := rfl
@[simp] theorem State.expire_wear (s : State) (t : Nat) : (s.expire t).wear = s.wear := rfl
@[simp] theorem State.expire_sys (s : State) (t : Nat) : (s.expire t).sys = s.sys := rfl
@[simp] theorem State.expire_ring (s : State) (t : Nat) : (s.expire t).ring = s.ring := rfl
@[simp] theorem State.expire_thermal (s : State) (t : Nat) : (s.expire t).thermal = s.thermal := rfl
@[simp] theorem State.expire_hci (s : State) (t : Nat) : (s.expire t).hci = s.hci := rfl
@[simp] theorem State.expire_twt (s : State) (t : Nat) : (s.expire t).twt = s.twt := rfl
@[simp] theorem State.expire_twc (s : State) (t : Nat) : (s.expire t).twc = s.twc := rfl
@[simp] theorem State.expire_otp (s : State) (t : Nat) : (s.expire t).otp = s.otp := rfl
@[simp] theorem State.expire_get (s : State) (t : Nat) (f : Field) : (s.expire t).get f = s.get f := rfl
@[simp] theorem State.expire_on (s : State) (t : Nat) (f : Field) : (s.expire t).on f = s.on f := rfl
@[simp] theorem State.expire_byte (s : State) (t : Nat) (adr : Nat) : (s.expire t).byte adr = s.byte adr := rfl

@[simp] theorem State.setPath_pending (s : State) (x : Path) : (s.setPath x).pending = s.pending := rfl
@[simp] theorem State.setPath_free (s : State) (x : Path) : (s.setPath x).free = s.free := rfl
@[simp] theorem State.setPath_now (s : State) (x : Path) : (s.setPath x).now = s.now := rfl
@[simp] theorem State.setPath_regs (s : State) (x : Path) : (s.setPath x).regs = s.regs := rfl
@[simp] theorem State.setPath_mem (s : State) (x : Path) : (s.setPath x).mem = s.mem := rfl
@[simp] theorem State.setPath_supply (s : State) (x : Path) : (s.setPath x).supply = s.supply := rfl
@[simp] theorem State.setPath_charger (s : State) (x : Path) : (s.setPath x).charger = s.charger := rfl
@[simp] theorem State.setPath_intc (s : State) (x : Path) : (s.setPath x).intc = s.intc := rfl
@[simp] theorem State.setPath_fox (s : State) (x : Path) : (s.setPath x).fox = s.fox := rfl
@[simp] theorem State.setPath_loops (s : State) (x : Path) : (s.setPath x).loops = s.loops := rfl
@[simp] theorem State.setPath_phases (s : State) (x : Path) : (s.setPath x).phases = s.phases := rfl
@[simp] theorem State.setPath_outs (s : State) (x : Path) : (s.setPath x).outs = s.outs := rfl
@[simp] theorem State.setPath_vdrv (s : State) (x : Path) : (s.setPath x).vdrv = s.vdrv := rfl
@[simp] theorem State.setPath_vcl (s : State) (x : Path) : (s.setPath x).vcl = s.vcl := rfl
@[simp] theorem State.setPath_sup (s : State) (x : Path) : (s.setPath x).sup = s.sup := rfl
@[simp] theorem State.setPath_engines (s : State) (x : Path) : (s.setPath x).engines = s.engines := rfl
@[simp] theorem State.setPath_tasks (s : State) (x : Path) : (s.setPath x).tasks = s.tasks := rfl
@[simp] theorem State.setPath_claims (s : State) (x : Path) : (s.setPath x).claims = s.claims := rfl
@[simp] theorem State.setPath_ledger (s : State) (x : Path) : (s.setPath x).ledger = s.ledger := rfl
@[simp] theorem State.setPath_adc (s : State) (x : Path) : (s.setPath x).adc = s.adc := rfl
@[simp] theorem State.setPath_wear (s : State) (x : Path) : (s.setPath x).wear = s.wear := rfl
@[simp] theorem State.setPath_sys (s : State) (x : Path) : (s.setPath x).sys = s.sys := rfl
@[simp] theorem State.setPath_ring (s : State) (x : Path) : (s.setPath x).ring = s.ring := rfl
@[simp] theorem State.setPath_thermal (s : State) (x : Path) : (s.setPath x).thermal = s.thermal := rfl
@[simp] theorem State.setPath_hci (s : State) (x : Path) : (s.setPath x).hci = s.hci := rfl
@[simp] theorem State.setPath_twt (s : State) (x : Path) : (s.setPath x).twt = s.twt := rfl
@[simp] theorem State.setPath_twc (s : State) (x : Path) : (s.setPath x).twc = s.twc := rfl
@[simp] theorem State.setPath_otp (s : State) (x : Path) : (s.setPath x).otp = s.otp := rfl
@[simp] theorem State.setPath_get (s : State) (x : Path) (f : Field) : (s.setPath x).get f = s.get f := rfl
@[simp] theorem State.setPath_on (s : State) (x : Path) (f : Field) : (s.setPath x).on f = s.on f := rfl
@[simp] theorem State.setPath_byte (s : State) (x : Path) (adr : Nat) : (s.setPath x).byte adr = s.byte adr := rfl

@[simp] theorem State.setSys_pending (s : State) (x : Sys) : (s.setSys x).pending = s.pending := rfl
@[simp] theorem State.setSys_free (s : State) (x : Sys) : (s.setSys x).free = s.free := rfl
@[simp] theorem State.setSys_now (s : State) (x : Sys) : (s.setSys x).now = s.now := rfl
@[simp] theorem State.setSys_regs (s : State) (x : Sys) : (s.setSys x).regs = s.regs := rfl
@[simp] theorem State.setSys_mem (s : State) (x : Sys) : (s.setSys x).mem = s.mem := rfl
@[simp] theorem State.setSys_supply (s : State) (x : Sys) : (s.setSys x).supply = s.supply := rfl
@[simp] theorem State.setSys_path (s : State) (x : Sys) : (s.setSys x).path = s.path := rfl
@[simp] theorem State.setSys_charger (s : State) (x : Sys) : (s.setSys x).charger = s.charger := rfl
@[simp] theorem State.setSys_intc (s : State) (x : Sys) : (s.setSys x).intc = s.intc := rfl
@[simp] theorem State.setSys_fox (s : State) (x : Sys) : (s.setSys x).fox = s.fox := rfl
@[simp] theorem State.setSys_loops (s : State) (x : Sys) : (s.setSys x).loops = s.loops := rfl
@[simp] theorem State.setSys_phases (s : State) (x : Sys) : (s.setSys x).phases = s.phases := rfl
@[simp] theorem State.setSys_outs (s : State) (x : Sys) : (s.setSys x).outs = s.outs := rfl
@[simp] theorem State.setSys_vdrv (s : State) (x : Sys) : (s.setSys x).vdrv = s.vdrv := rfl
@[simp] theorem State.setSys_vcl (s : State) (x : Sys) : (s.setSys x).vcl = s.vcl := rfl
@[simp] theorem State.setSys_sup (s : State) (x : Sys) : (s.setSys x).sup = s.sup := rfl
@[simp] theorem State.setSys_engines (s : State) (x : Sys) : (s.setSys x).engines = s.engines := rfl
@[simp] theorem State.setSys_tasks (s : State) (x : Sys) : (s.setSys x).tasks = s.tasks := rfl
@[simp] theorem State.setSys_claims (s : State) (x : Sys) : (s.setSys x).claims = s.claims := rfl
@[simp] theorem State.setSys_ledger (s : State) (x : Sys) : (s.setSys x).ledger = s.ledger := rfl
@[simp] theorem State.setSys_adc (s : State) (x : Sys) : (s.setSys x).adc = s.adc := rfl
@[simp] theorem State.setSys_wear (s : State) (x : Sys) : (s.setSys x).wear = s.wear := rfl
@[simp] theorem State.setSys_ring (s : State) (x : Sys) : (s.setSys x).ring = s.ring := rfl
@[simp] theorem State.setSys_thermal (s : State) (x : Sys) : (s.setSys x).thermal = s.thermal := rfl
@[simp] theorem State.setSys_hci (s : State) (x : Sys) : (s.setSys x).hci = s.hci := rfl
@[simp] theorem State.setSys_twt (s : State) (x : Sys) : (s.setSys x).twt = s.twt := rfl
@[simp] theorem State.setSys_twc (s : State) (x : Sys) : (s.setSys x).twc = s.twc := rfl
@[simp] theorem State.setSys_otp (s : State) (x : Sys) : (s.setSys x).otp = s.otp := rfl
@[simp] theorem State.setSys_get (s : State) (x : Sys) (f : Field) : (s.setSys x).get f = s.get f := rfl
@[simp] theorem State.setSys_on (s : State) (x : Sys) (f : Field) : (s.setSys x).on f = s.on f := rfl
@[simp] theorem State.setSys_byte (s : State) (x : Sys) (adr : Nat) : (s.setSys x).byte adr = s.byte adr := rfl

@[simp] theorem State.setChg_pending (s : State) (x : Charger) : (s.setChg x).pending = s.pending := rfl
@[simp] theorem State.setChg_free (s : State) (x : Charger) : (s.setChg x).free = s.free := rfl
@[simp] theorem State.setChg_now (s : State) (x : Charger) : (s.setChg x).now = s.now := rfl
@[simp] theorem State.setChg_regs (s : State) (x : Charger) : (s.setChg x).regs = s.regs := rfl
@[simp] theorem State.setChg_mem (s : State) (x : Charger) : (s.setChg x).mem = s.mem := rfl
@[simp] theorem State.setChg_supply (s : State) (x : Charger) : (s.setChg x).supply = s.supply := rfl
@[simp] theorem State.setChg_path (s : State) (x : Charger) : (s.setChg x).path = s.path := rfl
@[simp] theorem State.setChg_intc (s : State) (x : Charger) : (s.setChg x).intc = s.intc := rfl
@[simp] theorem State.setChg_fox (s : State) (x : Charger) : (s.setChg x).fox = s.fox := rfl
@[simp] theorem State.setChg_loops (s : State) (x : Charger) : (s.setChg x).loops = s.loops := rfl
@[simp] theorem State.setChg_phases (s : State) (x : Charger) : (s.setChg x).phases = s.phases := rfl
@[simp] theorem State.setChg_outs (s : State) (x : Charger) : (s.setChg x).outs = s.outs := rfl
@[simp] theorem State.setChg_vdrv (s : State) (x : Charger) : (s.setChg x).vdrv = s.vdrv := rfl
@[simp] theorem State.setChg_vcl (s : State) (x : Charger) : (s.setChg x).vcl = s.vcl := rfl
@[simp] theorem State.setChg_sup (s : State) (x : Charger) : (s.setChg x).sup = s.sup := rfl
@[simp] theorem State.setChg_engines (s : State) (x : Charger) : (s.setChg x).engines = s.engines := rfl
@[simp] theorem State.setChg_tasks (s : State) (x : Charger) : (s.setChg x).tasks = s.tasks := rfl
@[simp] theorem State.setChg_claims (s : State) (x : Charger) : (s.setChg x).claims = s.claims := rfl
@[simp] theorem State.setChg_ledger (s : State) (x : Charger) : (s.setChg x).ledger = s.ledger := rfl
@[simp] theorem State.setChg_adc (s : State) (x : Charger) : (s.setChg x).adc = s.adc := rfl
@[simp] theorem State.setChg_wear (s : State) (x : Charger) : (s.setChg x).wear = s.wear := rfl
@[simp] theorem State.setChg_sys (s : State) (x : Charger) : (s.setChg x).sys = s.sys := rfl
@[simp] theorem State.setChg_ring (s : State) (x : Charger) : (s.setChg x).ring = s.ring := rfl
@[simp] theorem State.setChg_thermal (s : State) (x : Charger) : (s.setChg x).thermal = s.thermal := rfl
@[simp] theorem State.setChg_hci (s : State) (x : Charger) : (s.setChg x).hci = s.hci := rfl
@[simp] theorem State.setChg_twt (s : State) (x : Charger) : (s.setChg x).twt = s.twt := rfl
@[simp] theorem State.setChg_twc (s : State) (x : Charger) : (s.setChg x).twc = s.twc := rfl
@[simp] theorem State.setChg_otp (s : State) (x : Charger) : (s.setChg x).otp = s.otp := rfl
@[simp] theorem State.setChg_get (s : State) (x : Charger) (f : Field) : (s.setChg x).get f = s.get f := rfl
@[simp] theorem State.setChg_on (s : State) (x : Charger) (f : Field) : (s.setChg x).on f = s.on f := rfl
@[simp] theorem State.setChg_byte (s : State) (x : Charger) (adr : Nat) : (s.setChg x).byte adr = s.byte adr := rfl

@[simp] theorem State.setVdrv_pending (s : State) (x : Vdrv) : (s.setVdrv x).pending = s.pending := rfl
@[simp] theorem State.setVdrv_free (s : State) (x : Vdrv) : (s.setVdrv x).free = s.free := rfl
@[simp] theorem State.setVdrv_now (s : State) (x : Vdrv) : (s.setVdrv x).now = s.now := rfl
@[simp] theorem State.setVdrv_regs (s : State) (x : Vdrv) : (s.setVdrv x).regs = s.regs := rfl
@[simp] theorem State.setVdrv_mem (s : State) (x : Vdrv) : (s.setVdrv x).mem = s.mem := rfl
@[simp] theorem State.setVdrv_supply (s : State) (x : Vdrv) : (s.setVdrv x).supply = s.supply := rfl
@[simp] theorem State.setVdrv_path (s : State) (x : Vdrv) : (s.setVdrv x).path = s.path := rfl
@[simp] theorem State.setVdrv_charger (s : State) (x : Vdrv) : (s.setVdrv x).charger = s.charger := rfl
@[simp] theorem State.setVdrv_intc (s : State) (x : Vdrv) : (s.setVdrv x).intc = s.intc := rfl
@[simp] theorem State.setVdrv_fox (s : State) (x : Vdrv) : (s.setVdrv x).fox = s.fox := rfl
@[simp] theorem State.setVdrv_loops (s : State) (x : Vdrv) : (s.setVdrv x).loops = s.loops := rfl
@[simp] theorem State.setVdrv_phases (s : State) (x : Vdrv) : (s.setVdrv x).phases = s.phases := rfl
@[simp] theorem State.setVdrv_outs (s : State) (x : Vdrv) : (s.setVdrv x).outs = s.outs := rfl
@[simp] theorem State.setVdrv_vcl (s : State) (x : Vdrv) : (s.setVdrv x).vcl = s.vcl := rfl
@[simp] theorem State.setVdrv_sup (s : State) (x : Vdrv) : (s.setVdrv x).sup = s.sup := rfl
@[simp] theorem State.setVdrv_engines (s : State) (x : Vdrv) : (s.setVdrv x).engines = s.engines := rfl
@[simp] theorem State.setVdrv_tasks (s : State) (x : Vdrv) : (s.setVdrv x).tasks = s.tasks := rfl
@[simp] theorem State.setVdrv_claims (s : State) (x : Vdrv) : (s.setVdrv x).claims = s.claims := rfl
@[simp] theorem State.setVdrv_ledger (s : State) (x : Vdrv) : (s.setVdrv x).ledger = s.ledger := rfl
@[simp] theorem State.setVdrv_adc (s : State) (x : Vdrv) : (s.setVdrv x).adc = s.adc := rfl
@[simp] theorem State.setVdrv_wear (s : State) (x : Vdrv) : (s.setVdrv x).wear = s.wear := rfl
@[simp] theorem State.setVdrv_sys (s : State) (x : Vdrv) : (s.setVdrv x).sys = s.sys := rfl
@[simp] theorem State.setVdrv_ring (s : State) (x : Vdrv) : (s.setVdrv x).ring = s.ring := rfl
@[simp] theorem State.setVdrv_thermal (s : State) (x : Vdrv) : (s.setVdrv x).thermal = s.thermal := rfl
@[simp] theorem State.setVdrv_hci (s : State) (x : Vdrv) : (s.setVdrv x).hci = s.hci := rfl
@[simp] theorem State.setVdrv_twt (s : State) (x : Vdrv) : (s.setVdrv x).twt = s.twt := rfl
@[simp] theorem State.setVdrv_twc (s : State) (x : Vdrv) : (s.setVdrv x).twc = s.twc := rfl
@[simp] theorem State.setVdrv_otp (s : State) (x : Vdrv) : (s.setVdrv x).otp = s.otp := rfl
@[simp] theorem State.setVdrv_get (s : State) (x : Vdrv) (f : Field) : (s.setVdrv x).get f = s.get f := rfl
@[simp] theorem State.setVdrv_on (s : State) (x : Vdrv) (f : Field) : (s.setVdrv x).on f = s.on f := rfl
@[simp] theorem State.setVdrv_byte (s : State) (x : Vdrv) (adr : Nat) : (s.setVdrv x).byte adr = s.byte adr := rfl

@[simp] theorem State.setAdc_pending (s : State) (x : Adc) : (s.setAdc x).pending = s.pending := rfl
@[simp] theorem State.setAdc_free (s : State) (x : Adc) : (s.setAdc x).free = s.free := rfl
@[simp] theorem State.setAdc_now (s : State) (x : Adc) : (s.setAdc x).now = s.now := rfl
@[simp] theorem State.setAdc_regs (s : State) (x : Adc) : (s.setAdc x).regs = s.regs := rfl
@[simp] theorem State.setAdc_mem (s : State) (x : Adc) : (s.setAdc x).mem = s.mem := rfl
@[simp] theorem State.setAdc_supply (s : State) (x : Adc) : (s.setAdc x).supply = s.supply := rfl
@[simp] theorem State.setAdc_path (s : State) (x : Adc) : (s.setAdc x).path = s.path := rfl
@[simp] theorem State.setAdc_charger (s : State) (x : Adc) : (s.setAdc x).charger = s.charger := rfl
@[simp] theorem State.setAdc_intc (s : State) (x : Adc) : (s.setAdc x).intc = s.intc := rfl
@[simp] theorem State.setAdc_fox (s : State) (x : Adc) : (s.setAdc x).fox = s.fox := rfl
@[simp] theorem State.setAdc_loops (s : State) (x : Adc) : (s.setAdc x).loops = s.loops := rfl
@[simp] theorem State.setAdc_phases (s : State) (x : Adc) : (s.setAdc x).phases = s.phases := rfl
@[simp] theorem State.setAdc_outs (s : State) (x : Adc) : (s.setAdc x).outs = s.outs := rfl
@[simp] theorem State.setAdc_vdrv (s : State) (x : Adc) : (s.setAdc x).vdrv = s.vdrv := rfl
@[simp] theorem State.setAdc_vcl (s : State) (x : Adc) : (s.setAdc x).vcl = s.vcl := rfl
@[simp] theorem State.setAdc_sup (s : State) (x : Adc) : (s.setAdc x).sup = s.sup := rfl
@[simp] theorem State.setAdc_engines (s : State) (x : Adc) : (s.setAdc x).engines = s.engines := rfl
@[simp] theorem State.setAdc_tasks (s : State) (x : Adc) : (s.setAdc x).tasks = s.tasks := rfl
@[simp] theorem State.setAdc_claims (s : State) (x : Adc) : (s.setAdc x).claims = s.claims := rfl
@[simp] theorem State.setAdc_ledger (s : State) (x : Adc) : (s.setAdc x).ledger = s.ledger := rfl
@[simp] theorem State.setAdc_wear (s : State) (x : Adc) : (s.setAdc x).wear = s.wear := rfl
@[simp] theorem State.setAdc_sys (s : State) (x : Adc) : (s.setAdc x).sys = s.sys := rfl
@[simp] theorem State.setAdc_ring (s : State) (x : Adc) : (s.setAdc x).ring = s.ring := rfl
@[simp] theorem State.setAdc_thermal (s : State) (x : Adc) : (s.setAdc x).thermal = s.thermal := rfl
@[simp] theorem State.setAdc_hci (s : State) (x : Adc) : (s.setAdc x).hci = s.hci := rfl
@[simp] theorem State.setAdc_twt (s : State) (x : Adc) : (s.setAdc x).twt = s.twt := rfl
@[simp] theorem State.setAdc_twc (s : State) (x : Adc) : (s.setAdc x).twc = s.twc := rfl
@[simp] theorem State.setAdc_otp (s : State) (x : Adc) : (s.setAdc x).otp = s.otp := rfl
@[simp] theorem State.setAdc_get (s : State) (x : Adc) (f : Field) : (s.setAdc x).get f = s.get f := rfl
@[simp] theorem State.setAdc_on (s : State) (x : Adc) (f : Field) : (s.setAdc x).on f = s.on f := rfl
@[simp] theorem State.setAdc_byte (s : State) (x : Adc) (adr : Nat) : (s.setAdc x).byte adr = s.byte adr := rfl

@[simp] theorem State.setWear_pending (s : State) (x : Wear) : (s.setWear x).pending = s.pending := rfl
@[simp] theorem State.setWear_free (s : State) (x : Wear) : (s.setWear x).free = s.free := rfl
@[simp] theorem State.setWear_now (s : State) (x : Wear) : (s.setWear x).now = s.now := rfl
@[simp] theorem State.setWear_regs (s : State) (x : Wear) : (s.setWear x).regs = s.regs := rfl
@[simp] theorem State.setWear_mem (s : State) (x : Wear) : (s.setWear x).mem = s.mem := rfl
@[simp] theorem State.setWear_supply (s : State) (x : Wear) : (s.setWear x).supply = s.supply := rfl
@[simp] theorem State.setWear_path (s : State) (x : Wear) : (s.setWear x).path = s.path := rfl
@[simp] theorem State.setWear_charger (s : State) (x : Wear) : (s.setWear x).charger = s.charger := rfl
@[simp] theorem State.setWear_intc (s : State) (x : Wear) : (s.setWear x).intc = s.intc := rfl
@[simp] theorem State.setWear_fox (s : State) (x : Wear) : (s.setWear x).fox = s.fox := rfl
@[simp] theorem State.setWear_loops (s : State) (x : Wear) : (s.setWear x).loops = s.loops := rfl
@[simp] theorem State.setWear_phases (s : State) (x : Wear) : (s.setWear x).phases = s.phases := rfl
@[simp] theorem State.setWear_outs (s : State) (x : Wear) : (s.setWear x).outs = s.outs := rfl
@[simp] theorem State.setWear_vdrv (s : State) (x : Wear) : (s.setWear x).vdrv = s.vdrv := rfl
@[simp] theorem State.setWear_vcl (s : State) (x : Wear) : (s.setWear x).vcl = s.vcl := rfl
@[simp] theorem State.setWear_sup (s : State) (x : Wear) : (s.setWear x).sup = s.sup := rfl
@[simp] theorem State.setWear_engines (s : State) (x : Wear) : (s.setWear x).engines = s.engines := rfl
@[simp] theorem State.setWear_tasks (s : State) (x : Wear) : (s.setWear x).tasks = s.tasks := rfl
@[simp] theorem State.setWear_claims (s : State) (x : Wear) : (s.setWear x).claims = s.claims := rfl
@[simp] theorem State.setWear_ledger (s : State) (x : Wear) : (s.setWear x).ledger = s.ledger := rfl
@[simp] theorem State.setWear_adc (s : State) (x : Wear) : (s.setWear x).adc = s.adc := rfl
@[simp] theorem State.setWear_sys (s : State) (x : Wear) : (s.setWear x).sys = s.sys := rfl
@[simp] theorem State.setWear_ring (s : State) (x : Wear) : (s.setWear x).ring = s.ring := rfl
@[simp] theorem State.setWear_thermal (s : State) (x : Wear) : (s.setWear x).thermal = s.thermal := rfl
@[simp] theorem State.setWear_hci (s : State) (x : Wear) : (s.setWear x).hci = s.hci := rfl
@[simp] theorem State.setWear_twt (s : State) (x : Wear) : (s.setWear x).twt = s.twt := rfl
@[simp] theorem State.setWear_twc (s : State) (x : Wear) : (s.setWear x).twc = s.twc := rfl
@[simp] theorem State.setWear_otp (s : State) (x : Wear) : (s.setWear x).otp = s.otp := rfl
@[simp] theorem State.setWear_get (s : State) (x : Wear) (f : Field) : (s.setWear x).get f = s.get f := rfl
@[simp] theorem State.setWear_on (s : State) (x : Wear) (f : Field) : (s.setWear x).on f = s.on f := rfl
@[simp] theorem State.setWear_byte (s : State) (x : Wear) (adr : Nat) : (s.setWear x).byte adr = s.byte adr := rfl

@[simp] theorem State.setThermal_pending (s : State) (x : Thermal) : (s.setThermal x).pending = s.pending := rfl
@[simp] theorem State.setThermal_free (s : State) (x : Thermal) : (s.setThermal x).free = s.free := rfl
@[simp] theorem State.setThermal_now (s : State) (x : Thermal) : (s.setThermal x).now = s.now := rfl
@[simp] theorem State.setThermal_regs (s : State) (x : Thermal) : (s.setThermal x).regs = s.regs := rfl
@[simp] theorem State.setThermal_mem (s : State) (x : Thermal) : (s.setThermal x).mem = s.mem := rfl
@[simp] theorem State.setThermal_supply (s : State) (x : Thermal) : (s.setThermal x).supply = s.supply := rfl
@[simp] theorem State.setThermal_path (s : State) (x : Thermal) : (s.setThermal x).path = s.path := rfl
@[simp] theorem State.setThermal_charger (s : State) (x : Thermal) : (s.setThermal x).charger = s.charger := rfl
@[simp] theorem State.setThermal_intc (s : State) (x : Thermal) : (s.setThermal x).intc = s.intc := rfl
@[simp] theorem State.setThermal_fox (s : State) (x : Thermal) : (s.setThermal x).fox = s.fox := rfl
@[simp] theorem State.setThermal_loops (s : State) (x : Thermal) : (s.setThermal x).loops = s.loops := rfl
@[simp] theorem State.setThermal_phases (s : State) (x : Thermal) : (s.setThermal x).phases = s.phases := rfl
@[simp] theorem State.setThermal_outs (s : State) (x : Thermal) : (s.setThermal x).outs = s.outs := rfl
@[simp] theorem State.setThermal_vdrv (s : State) (x : Thermal) : (s.setThermal x).vdrv = s.vdrv := rfl
@[simp] theorem State.setThermal_vcl (s : State) (x : Thermal) : (s.setThermal x).vcl = s.vcl := rfl
@[simp] theorem State.setThermal_sup (s : State) (x : Thermal) : (s.setThermal x).sup = s.sup := rfl
@[simp] theorem State.setThermal_engines (s : State) (x : Thermal) : (s.setThermal x).engines = s.engines := rfl
@[simp] theorem State.setThermal_tasks (s : State) (x : Thermal) : (s.setThermal x).tasks = s.tasks := rfl
@[simp] theorem State.setThermal_claims (s : State) (x : Thermal) : (s.setThermal x).claims = s.claims := rfl
@[simp] theorem State.setThermal_ledger (s : State) (x : Thermal) : (s.setThermal x).ledger = s.ledger := rfl
@[simp] theorem State.setThermal_adc (s : State) (x : Thermal) : (s.setThermal x).adc = s.adc := rfl
@[simp] theorem State.setThermal_wear (s : State) (x : Thermal) : (s.setThermal x).wear = s.wear := rfl
@[simp] theorem State.setThermal_sys (s : State) (x : Thermal) : (s.setThermal x).sys = s.sys := rfl
@[simp] theorem State.setThermal_ring (s : State) (x : Thermal) : (s.setThermal x).ring = s.ring := rfl
@[simp] theorem State.setThermal_hci (s : State) (x : Thermal) : (s.setThermal x).hci = s.hci := rfl
@[simp] theorem State.setThermal_twt (s : State) (x : Thermal) : (s.setThermal x).twt = s.twt := rfl
@[simp] theorem State.setThermal_twc (s : State) (x : Thermal) : (s.setThermal x).twc = s.twc := rfl
@[simp] theorem State.setThermal_otp (s : State) (x : Thermal) : (s.setThermal x).otp = s.otp := rfl
@[simp] theorem State.setThermal_get (s : State) (x : Thermal) (f : Field) : (s.setThermal x).get f = s.get f := rfl
@[simp] theorem State.setThermal_on (s : State) (x : Thermal) (f : Field) : (s.setThermal x).on f = s.on f := rfl
@[simp] theorem State.setThermal_byte (s : State) (x : Thermal) (adr : Nat) : (s.setThermal x).byte adr = s.byte adr := rfl

@[simp] theorem State.setRing_pending (s : State) (x : Ring) : (s.setRing x).pending = s.pending := rfl
@[simp] theorem State.setRing_free (s : State) (x : Ring) : (s.setRing x).free = s.free := rfl
@[simp] theorem State.setRing_now (s : State) (x : Ring) : (s.setRing x).now = s.now := rfl
@[simp] theorem State.setRing_regs (s : State) (x : Ring) : (s.setRing x).regs = s.regs := rfl
@[simp] theorem State.setRing_mem (s : State) (x : Ring) : (s.setRing x).mem = s.mem := rfl
@[simp] theorem State.setRing_supply (s : State) (x : Ring) : (s.setRing x).supply = s.supply := rfl
@[simp] theorem State.setRing_path (s : State) (x : Ring) : (s.setRing x).path = s.path := rfl
@[simp] theorem State.setRing_charger (s : State) (x : Ring) : (s.setRing x).charger = s.charger := rfl
@[simp] theorem State.setRing_intc (s : State) (x : Ring) : (s.setRing x).intc = s.intc := rfl
@[simp] theorem State.setRing_fox (s : State) (x : Ring) : (s.setRing x).fox = s.fox := rfl
@[simp] theorem State.setRing_loops (s : State) (x : Ring) : (s.setRing x).loops = s.loops := rfl
@[simp] theorem State.setRing_phases (s : State) (x : Ring) : (s.setRing x).phases = s.phases := rfl
@[simp] theorem State.setRing_outs (s : State) (x : Ring) : (s.setRing x).outs = s.outs := rfl
@[simp] theorem State.setRing_vdrv (s : State) (x : Ring) : (s.setRing x).vdrv = s.vdrv := rfl
@[simp] theorem State.setRing_vcl (s : State) (x : Ring) : (s.setRing x).vcl = s.vcl := rfl
@[simp] theorem State.setRing_sup (s : State) (x : Ring) : (s.setRing x).sup = s.sup := rfl
@[simp] theorem State.setRing_engines (s : State) (x : Ring) : (s.setRing x).engines = s.engines := rfl
@[simp] theorem State.setRing_tasks (s : State) (x : Ring) : (s.setRing x).tasks = s.tasks := rfl
@[simp] theorem State.setRing_claims (s : State) (x : Ring) : (s.setRing x).claims = s.claims := rfl
@[simp] theorem State.setRing_ledger (s : State) (x : Ring) : (s.setRing x).ledger = s.ledger := rfl
@[simp] theorem State.setRing_adc (s : State) (x : Ring) : (s.setRing x).adc = s.adc := rfl
@[simp] theorem State.setRing_wear (s : State) (x : Ring) : (s.setRing x).wear = s.wear := rfl
@[simp] theorem State.setRing_sys (s : State) (x : Ring) : (s.setRing x).sys = s.sys := rfl
@[simp] theorem State.setRing_thermal (s : State) (x : Ring) : (s.setRing x).thermal = s.thermal := rfl
@[simp] theorem State.setRing_hci (s : State) (x : Ring) : (s.setRing x).hci = s.hci := rfl
@[simp] theorem State.setRing_twt (s : State) (x : Ring) : (s.setRing x).twt = s.twt := rfl
@[simp] theorem State.setRing_twc (s : State) (x : Ring) : (s.setRing x).twc = s.twc := rfl
@[simp] theorem State.setRing_otp (s : State) (x : Ring) : (s.setRing x).otp = s.otp := rfl
@[simp] theorem State.setRing_get (s : State) (x : Ring) (f : Field) : (s.setRing x).get f = s.get f := rfl
@[simp] theorem State.setRing_on (s : State) (x : Ring) (f : Field) : (s.setRing x).on f = s.on f := rfl
@[simp] theorem State.setRing_byte (s : State) (x : Ring) (adr : Nat) : (s.setRing x).byte adr = s.byte adr := rfl

@[simp] theorem State.setHci_pending (s : State) (x : Hci) : (s.setHci x).pending = s.pending := rfl
@[simp] theorem State.setHci_free (s : State) (x : Hci) : (s.setHci x).free = s.free := rfl
@[simp] theorem State.setHci_now (s : State) (x : Hci) : (s.setHci x).now = s.now := rfl
@[simp] theorem State.setHci_regs (s : State) (x : Hci) : (s.setHci x).regs = s.regs := rfl
@[simp] theorem State.setHci_mem (s : State) (x : Hci) : (s.setHci x).mem = s.mem := rfl
@[simp] theorem State.setHci_supply (s : State) (x : Hci) : (s.setHci x).supply = s.supply := rfl
@[simp] theorem State.setHci_path (s : State) (x : Hci) : (s.setHci x).path = s.path := rfl
@[simp] theorem State.setHci_charger (s : State) (x : Hci) : (s.setHci x).charger = s.charger := rfl
@[simp] theorem State.setHci_intc (s : State) (x : Hci) : (s.setHci x).intc = s.intc := rfl
@[simp] theorem State.setHci_fox (s : State) (x : Hci) : (s.setHci x).fox = s.fox := rfl
@[simp] theorem State.setHci_loops (s : State) (x : Hci) : (s.setHci x).loops = s.loops := rfl
@[simp] theorem State.setHci_phases (s : State) (x : Hci) : (s.setHci x).phases = s.phases := rfl
@[simp] theorem State.setHci_outs (s : State) (x : Hci) : (s.setHci x).outs = s.outs := rfl
@[simp] theorem State.setHci_vdrv (s : State) (x : Hci) : (s.setHci x).vdrv = s.vdrv := rfl
@[simp] theorem State.setHci_vcl (s : State) (x : Hci) : (s.setHci x).vcl = s.vcl := rfl
@[simp] theorem State.setHci_sup (s : State) (x : Hci) : (s.setHci x).sup = s.sup := rfl
@[simp] theorem State.setHci_engines (s : State) (x : Hci) : (s.setHci x).engines = s.engines := rfl
@[simp] theorem State.setHci_tasks (s : State) (x : Hci) : (s.setHci x).tasks = s.tasks := rfl
@[simp] theorem State.setHci_claims (s : State) (x : Hci) : (s.setHci x).claims = s.claims := rfl
@[simp] theorem State.setHci_ledger (s : State) (x : Hci) : (s.setHci x).ledger = s.ledger := rfl
@[simp] theorem State.setHci_adc (s : State) (x : Hci) : (s.setHci x).adc = s.adc := rfl
@[simp] theorem State.setHci_wear (s : State) (x : Hci) : (s.setHci x).wear = s.wear := rfl
@[simp] theorem State.setHci_sys (s : State) (x : Hci) : (s.setHci x).sys = s.sys := rfl
@[simp] theorem State.setHci_ring (s : State) (x : Hci) : (s.setHci x).ring = s.ring := rfl
@[simp] theorem State.setHci_thermal (s : State) (x : Hci) : (s.setHci x).thermal = s.thermal := rfl
@[simp] theorem State.setHci_twt (s : State) (x : Hci) : (s.setHci x).twt = s.twt := rfl
@[simp] theorem State.setHci_twc (s : State) (x : Hci) : (s.setHci x).twc = s.twc := rfl
@[simp] theorem State.setHci_otp (s : State) (x : Hci) : (s.setHci x).otp = s.otp := rfl
@[simp] theorem State.setHci_get (s : State) (x : Hci) (f : Field) : (s.setHci x).get f = s.get f := rfl
@[simp] theorem State.setHci_on (s : State) (x : Hci) (f : Field) : (s.setHci x).on f = s.on f := rfl
@[simp] theorem State.setHci_byte (s : State) (x : Hci) (adr : Nat) : (s.setHci x).byte adr = s.byte adr := rfl

@[simp] theorem State.setSlot_pending (s : State) (i : Nat) (x : Slot) : (s.setSlot i x).pending = s.pending := rfl
@[simp] theorem State.setSlot_free (s : State) (i : Nat) (x : Slot) : (s.setSlot i x).free = s.free := rfl
@[simp] theorem State.setSlot_now (s : State) (i : Nat) (x : Slot) : (s.setSlot i x).now = s.now := rfl
@[simp] theorem State.setSlot_regs (s : State) (i : Nat) (x : Slot) : (s.setSlot i x).regs = s.regs := rfl
@[simp] theorem State.setSlot_mem (s : State) (i : Nat) (x : Slot) : (s.setSlot i x).mem = s.mem := rfl
@[simp] theorem State.setSlot_supply (s : State) (i : Nat) (x : Slot) : (s.setSlot i x).supply = s.supply := rfl
@[simp] theorem State.setSlot_path (s : State) (i : Nat) (x : Slot) : (s.setSlot i x).path = s.path := rfl
@[simp] theorem State.setSlot_charger (s : State) (i : Nat) (x : Slot) : (s.setSlot i x).charger = s.charger := rfl
@[simp] theorem State.setSlot_intc (s : State) (i : Nat) (x : Slot) : (s.setSlot i x).intc = s.intc := rfl
@[simp] theorem State.setSlot_fox (s : State) (i : Nat) (x : Slot) : (s.setSlot i x).fox = s.fox := rfl
@[simp] theorem State.setSlot_loops (s : State) (i : Nat) (x : Slot) : (s.setSlot i x).loops = s.loops := rfl
@[simp] theorem State.setSlot_phases (s : State) (i : Nat) (x : Slot) : (s.setSlot i x).phases = s.phases := rfl
@[simp] theorem State.setSlot_outs (s : State) (i : Nat) (x : Slot) : (s.setSlot i x).outs = s.outs := rfl
@[simp] theorem State.setSlot_vdrv (s : State) (i : Nat) (x : Slot) : (s.setSlot i x).vdrv = s.vdrv := rfl
@[simp] theorem State.setSlot_vcl (s : State) (i : Nat) (x : Slot) : (s.setSlot i x).vcl = s.vcl := rfl
@[simp] theorem State.setSlot_sup (s : State) (i : Nat) (x : Slot) : (s.setSlot i x).sup = s.sup := rfl
@[simp] theorem State.setSlot_engines (s : State) (i : Nat) (x : Slot) : (s.setSlot i x).engines = s.engines := rfl
@[simp] theorem State.setSlot_tasks (s : State) (i : Nat) (x : Slot) : (s.setSlot i x).tasks = s.tasks := rfl
@[simp] theorem State.setSlot_claims (s : State) (i : Nat) (x : Slot) : (s.setSlot i x).claims = s.claims := rfl
@[simp] theorem State.setSlot_ledger (s : State) (i : Nat) (x : Slot) : (s.setSlot i x).ledger = s.ledger := rfl
@[simp] theorem State.setSlot_adc (s : State) (i : Nat) (x : Slot) : (s.setSlot i x).adc = s.adc := rfl
@[simp] theorem State.setSlot_wear (s : State) (i : Nat) (x : Slot) : (s.setSlot i x).wear = s.wear := rfl
@[simp] theorem State.setSlot_sys (s : State) (i : Nat) (x : Slot) : (s.setSlot i x).sys = s.sys := rfl
@[simp] theorem State.setSlot_ring (s : State) (i : Nat) (x : Slot) : (s.setSlot i x).ring = s.ring := rfl
@[simp] theorem State.setSlot_thermal (s : State) (i : Nat) (x : Slot) : (s.setSlot i x).thermal = s.thermal := rfl
@[simp] theorem State.setSlot_twt (s : State) (i : Nat) (x : Slot) : (s.setSlot i x).twt = s.twt := rfl
@[simp] theorem State.setSlot_twc (s : State) (i : Nat) (x : Slot) : (s.setSlot i x).twc = s.twc := rfl
@[simp] theorem State.setSlot_otp (s : State) (i : Nat) (x : Slot) : (s.setSlot i x).otp = s.otp := rfl
@[simp] theorem State.setSlot_get (s : State) (i : Nat) (x : Slot) (f : Field) : (s.setSlot i x).get f = s.get f := rfl
@[simp] theorem State.setSlot_on (s : State) (i : Nat) (x : Slot) (f : Field) : (s.setSlot i x).on f = s.on f := rfl
@[simp] theorem State.setSlot_byte (s : State) (i : Nat) (x : Slot) (adr : Nat) : (s.setSlot i x).byte adr = s.byte adr := rfl

@[simp] theorem State.setTwc_pending (s : State) (x : Twc) : (s.setTwc x).pending = s.pending := rfl
@[simp] theorem State.setTwc_free (s : State) (x : Twc) : (s.setTwc x).free = s.free := rfl
@[simp] theorem State.setTwc_now (s : State) (x : Twc) : (s.setTwc x).now = s.now := rfl
@[simp] theorem State.setTwc_regs (s : State) (x : Twc) : (s.setTwc x).regs = s.regs := rfl
@[simp] theorem State.setTwc_mem (s : State) (x : Twc) : (s.setTwc x).mem = s.mem := rfl
@[simp] theorem State.setTwc_supply (s : State) (x : Twc) : (s.setTwc x).supply = s.supply := rfl
@[simp] theorem State.setTwc_path (s : State) (x : Twc) : (s.setTwc x).path = s.path := rfl
@[simp] theorem State.setTwc_charger (s : State) (x : Twc) : (s.setTwc x).charger = s.charger := rfl
@[simp] theorem State.setTwc_intc (s : State) (x : Twc) : (s.setTwc x).intc = s.intc := rfl
@[simp] theorem State.setTwc_fox (s : State) (x : Twc) : (s.setTwc x).fox = s.fox := rfl
@[simp] theorem State.setTwc_loops (s : State) (x : Twc) : (s.setTwc x).loops = s.loops := rfl
@[simp] theorem State.setTwc_phases (s : State) (x : Twc) : (s.setTwc x).phases = s.phases := rfl
@[simp] theorem State.setTwc_outs (s : State) (x : Twc) : (s.setTwc x).outs = s.outs := rfl
@[simp] theorem State.setTwc_vdrv (s : State) (x : Twc) : (s.setTwc x).vdrv = s.vdrv := rfl
@[simp] theorem State.setTwc_vcl (s : State) (x : Twc) : (s.setTwc x).vcl = s.vcl := rfl
@[simp] theorem State.setTwc_sup (s : State) (x : Twc) : (s.setTwc x).sup = s.sup := rfl
@[simp] theorem State.setTwc_engines (s : State) (x : Twc) : (s.setTwc x).engines = s.engines := rfl
@[simp] theorem State.setTwc_tasks (s : State) (x : Twc) : (s.setTwc x).tasks = s.tasks := rfl
@[simp] theorem State.setTwc_claims (s : State) (x : Twc) : (s.setTwc x).claims = s.claims := rfl
@[simp] theorem State.setTwc_ledger (s : State) (x : Twc) : (s.setTwc x).ledger = s.ledger := rfl
@[simp] theorem State.setTwc_adc (s : State) (x : Twc) : (s.setTwc x).adc = s.adc := rfl
@[simp] theorem State.setTwc_wear (s : State) (x : Twc) : (s.setTwc x).wear = s.wear := rfl
@[simp] theorem State.setTwc_sys (s : State) (x : Twc) : (s.setTwc x).sys = s.sys := rfl
@[simp] theorem State.setTwc_ring (s : State) (x : Twc) : (s.setTwc x).ring = s.ring := rfl
@[simp] theorem State.setTwc_thermal (s : State) (x : Twc) : (s.setTwc x).thermal = s.thermal := rfl
@[simp] theorem State.setTwc_hci (s : State) (x : Twc) : (s.setTwc x).hci = s.hci := rfl
@[simp] theorem State.setTwc_twt (s : State) (x : Twc) : (s.setTwc x).twt = s.twt := rfl
@[simp] theorem State.setTwc_otp (s : State) (x : Twc) : (s.setTwc x).otp = s.otp := rfl
@[simp] theorem State.setTwc_get (s : State) (x : Twc) (f : Field) : (s.setTwc x).get f = s.get f := rfl
@[simp] theorem State.setTwc_on (s : State) (x : Twc) (f : Field) : (s.setTwc x).on f = s.on f := rfl
@[simp] theorem State.setTwc_byte (s : State) (x : Twc) (adr : Nat) : (s.setTwc x).byte adr = s.byte adr := rfl

@[simp] theorem State.setTwt_pending (s : State) (x : Twt) : (s.setTwt x).pending = s.pending := rfl
@[simp] theorem State.setTwt_free (s : State) (x : Twt) : (s.setTwt x).free = s.free := rfl
@[simp] theorem State.setTwt_now (s : State) (x : Twt) : (s.setTwt x).now = s.now := rfl
@[simp] theorem State.setTwt_regs (s : State) (x : Twt) : (s.setTwt x).regs = s.regs := rfl
@[simp] theorem State.setTwt_mem (s : State) (x : Twt) : (s.setTwt x).mem = s.mem := rfl
@[simp] theorem State.setTwt_supply (s : State) (x : Twt) : (s.setTwt x).supply = s.supply := rfl
@[simp] theorem State.setTwt_path (s : State) (x : Twt) : (s.setTwt x).path = s.path := rfl
@[simp] theorem State.setTwt_charger (s : State) (x : Twt) : (s.setTwt x).charger = s.charger := rfl
@[simp] theorem State.setTwt_intc (s : State) (x : Twt) : (s.setTwt x).intc = s.intc := rfl
@[simp] theorem State.setTwt_fox (s : State) (x : Twt) : (s.setTwt x).fox = s.fox := rfl
@[simp] theorem State.setTwt_loops (s : State) (x : Twt) : (s.setTwt x).loops = s.loops := rfl
@[simp] theorem State.setTwt_phases (s : State) (x : Twt) : (s.setTwt x).phases = s.phases := rfl
@[simp] theorem State.setTwt_outs (s : State) (x : Twt) : (s.setTwt x).outs = s.outs := rfl
@[simp] theorem State.setTwt_vdrv (s : State) (x : Twt) : (s.setTwt x).vdrv = s.vdrv := rfl
@[simp] theorem State.setTwt_vcl (s : State) (x : Twt) : (s.setTwt x).vcl = s.vcl := rfl
@[simp] theorem State.setTwt_sup (s : State) (x : Twt) : (s.setTwt x).sup = s.sup := rfl
@[simp] theorem State.setTwt_engines (s : State) (x : Twt) : (s.setTwt x).engines = s.engines := rfl
@[simp] theorem State.setTwt_tasks (s : State) (x : Twt) : (s.setTwt x).tasks = s.tasks := rfl
@[simp] theorem State.setTwt_claims (s : State) (x : Twt) : (s.setTwt x).claims = s.claims := rfl
@[simp] theorem State.setTwt_ledger (s : State) (x : Twt) : (s.setTwt x).ledger = s.ledger := rfl
@[simp] theorem State.setTwt_adc (s : State) (x : Twt) : (s.setTwt x).adc = s.adc := rfl
@[simp] theorem State.setTwt_wear (s : State) (x : Twt) : (s.setTwt x).wear = s.wear := rfl
@[simp] theorem State.setTwt_sys (s : State) (x : Twt) : (s.setTwt x).sys = s.sys := rfl
@[simp] theorem State.setTwt_ring (s : State) (x : Twt) : (s.setTwt x).ring = s.ring := rfl
@[simp] theorem State.setTwt_thermal (s : State) (x : Twt) : (s.setTwt x).thermal = s.thermal := rfl
@[simp] theorem State.setTwt_hci (s : State) (x : Twt) : (s.setTwt x).hci = s.hci := rfl
@[simp] theorem State.setTwt_twc (s : State) (x : Twt) : (s.setTwt x).twc = s.twc := rfl
@[simp] theorem State.setTwt_otp (s : State) (x : Twt) : (s.setTwt x).otp = s.otp := rfl
@[simp] theorem State.setTwt_get (s : State) (x : Twt) (f : Field) : (s.setTwt x).get f = s.get f := rfl
@[simp] theorem State.setTwt_on (s : State) (x : Twt) (f : Field) : (s.setTwt x).on f = s.on f := rfl
@[simp] theorem State.setTwt_byte (s : State) (x : Twt) (adr : Nat) : (s.setTwt x).byte adr = s.byte adr := rfl

@[simp] theorem State.setOtp_pending (s : State) (x : Otp) : (s.setOtp x).pending = s.pending := rfl
@[simp] theorem State.setOtp_free (s : State) (x : Otp) : (s.setOtp x).free = s.free := rfl
@[simp] theorem State.setOtp_now (s : State) (x : Otp) : (s.setOtp x).now = s.now := rfl
@[simp] theorem State.setOtp_regs (s : State) (x : Otp) : (s.setOtp x).regs = s.regs := rfl
@[simp] theorem State.setOtp_mem (s : State) (x : Otp) : (s.setOtp x).mem = s.mem := rfl
@[simp] theorem State.setOtp_supply (s : State) (x : Otp) : (s.setOtp x).supply = s.supply := rfl
@[simp] theorem State.setOtp_path (s : State) (x : Otp) : (s.setOtp x).path = s.path := rfl
@[simp] theorem State.setOtp_charger (s : State) (x : Otp) : (s.setOtp x).charger = s.charger := rfl
@[simp] theorem State.setOtp_intc (s : State) (x : Otp) : (s.setOtp x).intc = s.intc := rfl
@[simp] theorem State.setOtp_fox (s : State) (x : Otp) : (s.setOtp x).fox = s.fox := rfl
@[simp] theorem State.setOtp_loops (s : State) (x : Otp) : (s.setOtp x).loops = s.loops := rfl
@[simp] theorem State.setOtp_phases (s : State) (x : Otp) : (s.setOtp x).phases = s.phases := rfl
@[simp] theorem State.setOtp_outs (s : State) (x : Otp) : (s.setOtp x).outs = s.outs := rfl
@[simp] theorem State.setOtp_vdrv (s : State) (x : Otp) : (s.setOtp x).vdrv = s.vdrv := rfl
@[simp] theorem State.setOtp_vcl (s : State) (x : Otp) : (s.setOtp x).vcl = s.vcl := rfl
@[simp] theorem State.setOtp_sup (s : State) (x : Otp) : (s.setOtp x).sup = s.sup := rfl
@[simp] theorem State.setOtp_engines (s : State) (x : Otp) : (s.setOtp x).engines = s.engines := rfl
@[simp] theorem State.setOtp_tasks (s : State) (x : Otp) : (s.setOtp x).tasks = s.tasks := rfl
@[simp] theorem State.setOtp_claims (s : State) (x : Otp) : (s.setOtp x).claims = s.claims := rfl
@[simp] theorem State.setOtp_ledger (s : State) (x : Otp) : (s.setOtp x).ledger = s.ledger := rfl
@[simp] theorem State.setOtp_adc (s : State) (x : Otp) : (s.setOtp x).adc = s.adc := rfl
@[simp] theorem State.setOtp_wear (s : State) (x : Otp) : (s.setOtp x).wear = s.wear := rfl
@[simp] theorem State.setOtp_sys (s : State) (x : Otp) : (s.setOtp x).sys = s.sys := rfl
@[simp] theorem State.setOtp_ring (s : State) (x : Otp) : (s.setOtp x).ring = s.ring := rfl
@[simp] theorem State.setOtp_thermal (s : State) (x : Otp) : (s.setOtp x).thermal = s.thermal := rfl
@[simp] theorem State.setOtp_hci (s : State) (x : Otp) : (s.setOtp x).hci = s.hci := rfl
@[simp] theorem State.setOtp_twt (s : State) (x : Otp) : (s.setOtp x).twt = s.twt := rfl
@[simp] theorem State.setOtp_twc (s : State) (x : Otp) : (s.setOtp x).twc = s.twc := rfl
@[simp] theorem State.setOtp_get (s : State) (x : Otp) (f : Field) : (s.setOtp x).get f = s.get f := rfl
@[simp] theorem State.setOtp_on (s : State) (x : Otp) (f : Field) : (s.setOtp x).on f = s.on f := rfl
@[simp] theorem State.setOtp_byte (s : State) (x : Otp) (adr : Nat) : (s.setOtp x).byte adr = s.byte adr := rfl

/-- The device time at an expiry, which passes only while TREF runs (R32). -/
theorem State.expire_now (s : State) (t : Nat) : (s.expire t).now = if trefRuns s then max s.now t else s.now := rfl

/-- An expiry never takes the device time back. -/
theorem State.le_expire (s : State) (t : Nat) : s.now ≤ (s.expire t).now := by
  rw [State.expire_now]; split <;> omega

end Sys2Proof.Machine
end

