-- ==== Sys2Proof/Laws/Effects.lean ====
section
/-! SUPPORT. What recording an event does: which fields, bytes and parts of the state a NOTICE can change, and that the
event bit of every raised event is set. -/

namespace Sys2Proof.Machine

/-! ### The log -/

@[simp] theorem State.setBytes_get (s : State) (a : Nat) (bs : List Byte) (f : Field) :
    (s.setBytes a bs).get f = s.get f := by
  induction bs generalizing s a with
  | nil => rfl
  | cons b bs ih => exact ih (s.setByte a b) (a + 1)

/-- A run of bytes written leaves every byte outside it. -/
theorem State.setBytes_byte (s : State) (a : Nat) (bs : List Byte) {i : Nat} (h : i < a ∨ a + bs.length ≤ i) :
    (s.setBytes a bs).byte i = s.byte i := by
  induction bs generalizing s a with
  | nil => rfl
  | cons b bs ih =>
    have e : (b :: bs).length = bs.length + 1 := rfl
    refine (ih (s.setByte a b) (a + 1) (by omega)).trans ?_
    exact NMap.get_put_ne 0#8 0#8 s.mem b (by omega)

theorem State.setBytes_rest (s : State) (a : Nat) (bs : List Byte) :
    s.setBytes a bs = { s with mem := (s.setBytes a bs).mem } := by
  induction bs generalizing s a with
  | nil => rfl
  | cons b bs ih => exact ih (s.setByte a b) (a + 1)

theorem length_wordsBytes (ws : List Nat) : (wordsBytes ws).length = 4 * ws.length := by
  induction ws with
  | nil => rfl
  | cons w ws ih => simp [wordsBytes, leBytes, ih]; omega

theorem logPut_get (s : State) (seq : Nat) (ws : List Nat) (f : Field) : (logPut s seq ws).get f = s.get f := by
  unfold logPut; split <;> simp

/-- A record written to log memory changes no byte outside it. -/
theorem logPut_byte (s : State) (seq : Nat) (ws : List Nat) (h : ws.length = 8) {i : Nat}
    (hi : i < 0x020000 ∨ 0x028000 ≤ i) : (logPut s seq ws).byte i = s.byte i := by
  unfold logPut
  split
  · refine State.setBytes_byte s _ _ ?_
    rw [length_wordsBytes, h, logAddr]
    omega
  · rfl

theorem logPut_rest (s : State) (seq : Nat) (ws : List Nat) : logPut s seq ws = { s with mem := (logPut s seq ws).mem } := by
  unfold logPut
  split
  · exact State.setBytes_rest s _ _
  · rfl

theorem logCount_get (s : State) (f : Field) (h : f.key ≠ FLT_LWR.COUNT.key) (k : f.key ≠ FLT_EVT.EVT.key) :
    (logCount s).get f = s.get f := by
  unfold logCount
  dsimp only
  split
  · exact State.get_set_ne s _ h
  · split
    · split
      · exact (State.get_set_ne _ _ k).trans (State.get_set_ne s _ h)
      · exact State.get_set_ne s _ h
    · exact State.get_set_ne s _ h

@[simp] theorem logCount_byte (s : State) (i : Nat) : (logCount s).byte i = s.byte i := by
  unfold logCount
  dsimp only
  split
  · rfl
  · split
    · split <;> rfl
    · rfl

theorem logCount_rest (s : State) : logCount s = { s with regs := (logCount s).regs, fox := (logCount s).fox } := by
  unfold logCount
  dsimp only
  split
  · rfl
  · split
    · split <;> rfl
    · rfl

/-! ### NOTICE -/

theorem noticeCount_get (s : State) (e : Ev) (f : Field) (hn : f.key ≠ FLT_NCNT.COUNT.key)
    (h : f.key ≠ FLT_LWR.COUNT.key) (k : f.key ≠ FLT_EVT.EVT.key) : (noticeCount s e).get f = s.get f := by
  unfold noticeCount
  dsimp only
  split
  · exact ((logPut_get _ _ _ f).trans (logCount_get _ f h k)).trans (State.get_set_ne s _ hn)
  · exact State.get_set_ne s _ hn

theorem noticeCount_byte (s : State) (e : Ev) {i : Nat} (hi : i < 0x020000 ∨ 0x028000 ≤ i) :
    (noticeCount s e).byte i = s.byte i := by
  unfold noticeCount
  dsimp only
  split
  · exact (logPut_byte _ _ _ rfl hi).trans (logCount_byte _ i)
  · rfl

theorem noticeCount_rest (s : State) (e : Ev) :
    noticeCount s e = { s with regs := (noticeCount s e).regs, mem := (noticeCount s e).mem, fox := (noticeCount s e).fox } := by
  unfold noticeCount
  dsimp only
  split
  · unfold logWrite
    dsimp only
    rw [logPut_rest, logCount_rest]
    rfl
  · rfl

/-- A NOTICE leaves every other field. -/
theorem notice_get (s : State) (e : Ev) (f : Field) (h : f.key ∉ (noticeFields e.evt).map Field.key) :
    (notice s e).get f = s.get f := by
  simp only [noticeFields, List.map_cons, List.map_nil, List.mem_cons, List.not_mem_nil, or_false, not_or] at h
  exact (State.get_set_ne _ _ h.1).trans (noticeCount_get s e f h.2.1 h.2.2.1 h.2.2.2)

/-- A NOTICE leaves every byte outside log memory. -/
theorem notice_byte (s : State) (e : Ev) {i : Nat} (hi : i < 0x020000 ∨ 0x028000 ≤ i) :
    (notice s e).byte i = s.byte i := noticeCount_byte s e hi

/-- A NOTICE changes registers, log memory and the collector, and nothing else. -/
theorem notice_rest (s : State) (e : Ev) :
    notice s e = { s with regs := (notice s e).regs, mem := (notice s e).mem, fox := (notice s e).fox } := by
  conv => lhs; unfold notice; rw [noticeCount_rest]
  rfl

/-! ### Event bits -/

theorem State.setBit_testBit (s : State) (f : Field) (i : Nat) (h : i < f.width) :
    ((s.setBit f i).get f).testBit i = true := by
  unfold State.setBit
  rw [State.get_set_same]
  simp [setBitNat, Nat.testBit_mod_two_pow, h, Nat.testBit_or, Nat.testBit_two_pow_self]

/-- A raised event sets its bit. -/
theorem raise_evt (s : State) (e : Ev) (h : e.bit < e.evt.width) : ((raise s e).get e.evt).testBit e.bit = true :=
  State.setBit_testBit _ _ _ h

/-- A NOTICE sets its bit. -/
theorem notice_evt (s : State) (e : Ev) (h : e.bit < e.evt.width) : ((notice s e).get e.evt).testBit e.bit = true :=
  State.setBit_testBit _ _ _ h

/-! ### FLT_OPMARK -/

/-- A mark of a multi-step operation changes no field but FLT_OPMARK's. -/
theorem opShow_get (s : State) (f : Field) (h : f.key ∉ [FLT_OPMARK.OP.key, FLT_OPMARK.DETAIL.key]) :
    (opShow s).get f = s.get f := by
  simp only [List.mem_cons, List.not_mem_nil, or_false, not_or] at h
  unfold opShow
  split
  all_goals exact (State.get_set_ne _ _ h.2).trans (State.get_set_ne _ _ h.1)

/-- A mark of a multi-step operation changes the registers alone. -/
theorem opShow_rest (s : State) : opShow s = { s with regs := (opShow s).regs } := by unfold opShow; split <;> rfl

theorem opMark_get (s : State) (c d : Nat) (f : Field) (h : f.key ∉ [FLT_OPMARK.OP.key, FLT_OPMARK.DETAIL.key]) :
    (opMark s c d).get f = s.get f := (opShow_get _ f h).trans rfl

theorem opEnd_get (s : State) (c : Nat) (f : Field) (h : f.key ∉ [FLT_OPMARK.OP.key, FLT_OPMARK.DETAIL.key]) :
    (opEnd s c).get f = s.get f := (opShow_get _ f h).trans rfl

end Sys2Proof.Machine
end

