-- ==== Sys2Proof/Laws/Wakes.lean ====
section
/-! SUPPORT. What the interrupt controller's notes and the waking of tasks leave alone: the register store. -/

namespace Sys2Proof.Machine

/-- A fold whose every step keeps the register store keeps it. -/
theorem State.each_regs {α : Type} (xs : List α) (f : State → α → State) (h : ∀ s a, (f s a).regs = s.regs)
    (s : State) : (State.each xs f s).regs = s.regs := by
  unfold State.each
  induction xs generalizing s with
  | nil => rfl
  | cons a l ih => rw [List.foldl_cons, ih, h]

/-- A field reads the register store alone. -/
theorem State.get_of_regs {s t : State} (h : s.regs = t.regs) (f : Field) : s.get f = t.get f := by
  simp [State.get, h]

theorem noteLines_regs (s : State) : (noteLines s).regs = s.regs :=
  State.each_regs _ _ (fun s a => by unfold noteLine; split <;> rfl) s

/-- Noting the lines changes the controller's own state and nothing else. -/
theorem noteLines_intc (s : State) : ∃ x, noteLines s = { s with intc := x } := by
  unfold noteLines State.each
  generalize claimTargets = l
  induction l generalizing s with
  | nil => exact ⟨s.intc, rfl⟩
  | cons t l ih =>
    rw [List.foldl_cons]
    unfold noteLine
    split
    · exact ih _
    · exact ih _

theorem noteLines_rest (s : State) : noteLines s = { s with intc := (noteLines s).intc } := by
  obtain ⟨x, h⟩ := noteLines_intc s
  rw [h]

/-- A new phase changes SYS_STATUS.PHASE and the controller's own state, and nothing else. -/
theorem toPhase_rest (s : State) (n : Nat) :
    toPhase s n = { s with regs := (s.set SYS_STATUS.PHASE n).regs, intc := (toPhase s n).intc } := by
  conv => lhs; unfold toPhase; rw [noteLines_rest]
  rfl

@[simp] theorem toPhase_byte (s : State) (n a : Nat) : (toPhase s n).byte a = s.byte a := by rw [toPhase_rest]; rfl

theorem wakeTasks_regs (s : State) (p : Wait → Bool) : (wakeTasks s p).regs = s.regs :=
  State.each_regs _ _
    (fun s a => by
      dsimp only
      split
      · split <;> rfl
      · rfl) s

theorem wakeIfRaised_regs (was : Bool) (s : State) (src : Nat) : (wakeIfRaised was s src).regs = s.regs := by
  unfold wakeIfRaised
  split
  · exact wakeTasks_regs _ _
  · rfl

@[simp] theorem noteLines_get (s : State) (f : Field) : (noteLines s).get f = s.get f :=
  State.get_of_regs (noteLines_regs s) f

@[simp] theorem wakeIfRaised_get (was : Bool) (s : State) (src : Nat) (f : Field) :
    (wakeIfRaised was s src).get f = s.get f :=
  State.get_of_regs (wakeIfRaised_regs was s src) f

/-- SYS_STATUS.PHASE reads the new phase. -/
@[simp] theorem toPhase_phase (s : State) (n : Nat) : (toPhase s n).get SYS_STATUS.PHASE = n % 2 ^ 4 :=
  (noteLines_get _ _).trans (State.get_set_same _ _ _)

/-- A new phase leaves every other field. -/
theorem toPhase_get (s : State) (n : Nat) {f : Field} (h : f.key ≠ SYS_STATUS.PHASE.key) :
    (toPhase s n).get f = s.get f := (noteLines_get _ _).trans (State.get_set_ne _ _ h)

end Sys2Proof.Machine
end

