-- ==== Sys2Proof/Laws/Books.lean ====
section
/-! SUPPORT. What the ledger's books, the phase pool and the charger's states leave alone as a drain ends: the fields
that each of their operations can change. -/

namespace Sys2Proof.Machine

/-- That a loop's limit has changed is noted in the books alone. -/
@[simp] theorem dirtyLimits_get (s : State) (f : Field) : (dirtyLimits s).get f = s.get f := rfl

/-- The fit set is kept with the claims, not in a register. -/
theorem formFit_regs (s : State) : (formFit s).regs = s.regs := by
  have h : ∀ (l : List Nat) (a : State × Nat), (l.foldl fitOne a).1.regs = a.1.regs := by
    intro l
    induction l with
    | nil => intro a; rfl
    | cons c l ih =>
      intro a
      rw [List.foldl_cons, ih]
      unfold fitOne; dsimp only; split <;> rfl
  exact h _ _

/-- A claim that leaves the books changes its own entry, NRG_LIMITED and the fit set, and no other field. -/
theorem dropClaim_get (s : State) (c : Nat) {f : Field} (h : ∀ w, w < 2 → f.key ≠ (NRG_LIMITED.MASK w).key) :
    (dropClaim s c).get f = s.get f := by
  unfold dropClaim
  rw [State.get_of_regs (formFit_regs _)]
  unfold freeClaim clearLimited; dsimp only
  split
  · exact State.get_set_ne _ _ (h _ (by omega))
  · rfl

/-- The ROM's claims that become FREE change NRG_LIMITED alone of the fields. -/
theorem romFree_get (s : State) {f : Field} (h : ∀ w, w < 2 → f.key ≠ (NRG_LIMITED.MASK w).key) :
    (romFree s).get f = s.get f := by
  unfold romFree State.each
  generalize (claimIds.filter _) = l
  induction l generalizing s with
  | nil => rfl
  | cons c l ih => rw [List.foldl_cons, ih, dropClaim_get _ _ h]

/-- The reservations of the phase pool change the state and the owner of phases alone. -/
theorem reservePhases_get (s : State) {f : Field}
    (h : ∀ k, k < 20 → f.key ≠ (PH_STATUS.STATE k).key ∧ f.key ≠ (PH_STATUS.OWNER k).key) :
    (reservePhases s).get f = s.get f := by
  unfold reservePhases State.each
  have set2 : ∀ (s : State) (k a b : Nat) (x : PhaseSt),
      (f.key ≠ (PH_STATUS.STATE k).key ∧ f.key ≠ (PH_STATUS.OWNER k).key) →
      (((s.set (PH_STATUS.STATE k) a).set (PH_STATUS.OWNER k) b).setPhase k x).get f = s.get f :=
    fun s k a b x h => by
      show ((s.set (PH_STATUS.STATE k) a).set (PH_STATUS.OWNER k) b).get f = s.get f
      exact (State.get_set_ne _ _ h.2).trans (State.get_set_ne _ _ h.1)
  have g : ∀ (l : List Nat), (∀ k ∈ l, k < 20) → ∀ s : State, (l.foldl (fun s k =>
      match s.get (PH_STATUS.STATE k), reserver s k with
      | 0, some n | 1, some n =>
        ((s.set (PH_STATUS.STATE k) 1).set (PH_STATUS.OWNER k) 6).setPhase k { reservedBy := some n }
      | 1, none => freePhase s k
      | _, _ => s) s).get f = s.get f := by
    intro l
    induction l with
    | nil => intro _ s; rfl
    | cons k l ih =>
      intro hl s
      have hk := h k (hl k (List.mem_cons_self ..))
      rw [List.foldl_cons, ih (fun x hx => hl x (List.mem_cons_of_mem _ hx))]
      split
      · exact set2 _ _ _ _ _ hk
      · exact set2 _ _ _ _ _ hk
      · exact set2 _ _ _ _ _ hk
      · rfl
  exact g _ (fun k hk => List.mem_range.mp hk) s
end Sys2Proof.Machine
end

