-- ==== Sys2Proof/Laws/Issue.lean ====
section
/-! SUPPORT. What the issue of an instruction comes to, once for every instruction. -/

namespace Sys2Proof.Machine

/-- An instruction that is executed has its effect on the issued state. -/
theorem issue_runs {i : Issue} {w : Nat} {s : State} {t : Nat} {x : Task} (h : Runs i w s t x)
    (body : State → Nat → Task → State) : issue i w s body = .next (body (issued i s t x) t x.advanced) := by
  obtain ⟨h1, h2, h3, h4⟩ := h
  simp [issue, h1, h2, Nat.not_le.mpr h3, h4, issued, Task.advanced]

/-- Without a running task there is no instruction to execute. -/
theorem issue_none {i : Issue} {w : Nat} {s : State} (h : running s i.eng = none) (body : State → Nat → Task → State) :
    issue i w s body = .next s := by simp [issue, h]

/-- A triple error halts the engine. -/
theorem issue_triple {i : Issue} {w : Nat} {s : State} {t : Nat} {x : Task} (h : running s i.eng = some (t, x))
    (hf : i.fetch = .triple) (body : State → Nat → Task → State) :
    issue i w s body = .next (memErr (issued i s t x) i.eng t) := by
  simp [issue, h, hf, issued, Task.advanced]

/-- Where program memory holds another word, the instruction is not the one to execute. -/
theorem issue_other {i : Issue} {w : Nat} {s : State} {t : Nat} {x : Task} (h : running s i.eng = some (t, x))
    (hf : i.fetch ≠ .triple) (hp : x.pc < s.get CAM_IMG_STATUS.CODE_LEN) (hw : s.word (progAddr x.pc) ≠ w)
    (body : State → Nat → Task → State) : issue i w s body = .next s := by
  simp [issue, h, hf, Nat.not_le.mpr hp, hw]

/-- An address beyond the code raises ILLEGAL. -/
theorem issue_beyond {i : Issue} {w : Nat} {s : State} {t : Nat} {x : Task} (h : running s i.eng = some (t, x))
    (hf : i.fetch ≠ .triple) (hp : s.get CAM_IMG_STATUS.CODE_LEN ≤ x.pc) (body : State → Nat → Task → State) :
    issue i w s body = .next (takeExc (issued i s t x) i.eng t 5) := by
  simp [issue, h, hf, hp, issued, Task.advanced]

theorem Task.reg_setReg (x : Task) (n v : Nat) : (x.setReg n v).reg n = v % 2 ^ 32 := by
  simp [Task.setReg, Task.reg, NMap.get_put_same]

theorem Task.reg_setReg_ne (x : Task) {n k : Nat} (v : Nat) (h : k ≠ n) : (x.setReg n v).reg k = x.reg k := by
  simp [Task.setReg, Task.reg, NMap.get_put_ne _ _ _ _ h]

/-- An instruction that writes a result writes it, with Z and N from it. -/
theorem wrote_result (x : Task) (wd v : Nat) (c : Bool) :
    Wrote x { x.advanced.result wd v with c := c } wd v := by
  refine ⟨Task.reg_setReg _ _ _, fun k h => Task.reg_setReg_ne _ _ h, rfl, ?_, rfl⟩
  show decide (v / 2 ^ 31 % 2 = 1) = decide (2 ^ 31 ≤ v % 2 ^ 32)
  exact decide_eq_decide.mpr (by omega)

end Sys2Proof.Machine
end

