-- ==== Sys2Proof/Laws/SlotBooks.lean ====
section
/-! SUPPORT. The moves of a command slot keep the books of R39: a submission, a start, a completion, a cancellation of a
QUEUED command, the passing of entries by the host, and a change of a slot that moves it nowhere. -/

namespace Sys2Proof.Machine

/-- A map reads at every key what was put there, or what it read before. -/
theorem NMap.get_put [DecidableEq α] (d : α) (m : NMap α) (k j : Nat) (v : α) :
    NMap.get d (NMap.put d m k v) j = if j = k then v else NMap.get d m j := by
  split
  · subst_vars; exact NMap.get_put_same ..
  · exact NMap.get_put_ne _ _ _ _ ‹_›

/-- An interface that was just cleared has its books right. -/
theorem Hci.booked_clear (e : Bool) (bs : List Byte) : ({ spiErr := e, spiOut := bs } : Hci).booked :=
  ⟨fun _ _ => rfl, fun _ => List.nodup_nil, fun _ _ => ⟨fun h => (List.not_mem_nil h).elim, fun h => nomatch h.1⟩,
    List.nodup_nil, fun _ => ⟨fun h => (List.not_mem_nil h).elim, fun h => nomatch h⟩⟩

/-- Books that are not right: a slot on a queue that is not QUEUED. -/
theorem Hci.not_booked : ¬ ({ queues := [(0, [0])] } : Hci).booked := fun h =>
  nomatch ((h.2.2.1 0 0).1 (List.mem_singleton.2 rfl)).1

/-- A change of a slot that moves it nowhere. -/
theorem Hci.booked_slot {h : Hci} (b : h.booked) (i : Nat) (x : Slot) (e : x.st = (NMap.get {} h.slots i).st)
    (e' : x.queue = (NMap.get {} h.slots i).queue) : ({ h with slots := NMap.put {} h.slots i x } : Hci).booked := by
  obtain ⟨b1, b2, b3, b4, b5⟩ := b
  refine ⟨b1, b2, fun q k => ?_, b4, fun k => ?_⟩ <;> simp only [NMap.get_put]
  · grind
  · grind

/-- A submission puts a FREE slot on a queue (R425). -/
theorem Hci.booked_submit {h : Hci} (b : h.booked) (q k : Nat) (x : Slot) (hq : q < 4)
    (hk : (NMap.get {} h.slots k).st = .free) (e : x.st = .queued) (e' : x.queue = q) :
    ({ h with queues := NMap.put [] h.queues q (NMap.get [] h.queues q ++ [k]),
              slots := NMap.put {} h.slots k x } : Hci).booked := by
  obtain ⟨b1, b2, b3, b4, b5⟩ := b
  refine ⟨fun r hr => ?_, fun r => ?_, fun r j => ?_, b4, fun j => ?_⟩ <;> simp only [NMap.get_put]
  · grind
  · have := b2 r; have := b3 r k; grind
  · have := b3 r j; have := b3 q j; grind
  · have := b5 j; grind

/-- A start takes the head of a queue, which becomes INFLIGHT (R426). -/
theorem Hci.booked_start {h : Hci} (b : h.booked) (q k : Nat) (rest : List Nat) (x : Slot)
    (hq : NMap.get [] h.queues q = k :: rest) (e : x.st = .inflight) :
    ({ h with queues := NMap.put [] h.queues q rest, slots := NMap.put {} h.slots k x } : Hci).booked := by
  obtain ⟨b1, b2, b3, b4, b5⟩ := b
  have hk := (b3 q k).1 (by rw [hq]; exact List.mem_cons_self ..)
  have n := b2 q
  rw [hq] at n
  refine ⟨fun r hr => ?_, fun r => ?_, fun r j => ?_, b4, fun j => ?_⟩ <;> simp only [NMap.get_put]
  · have := b1 r hr; grind
  · have := b2 r; grind
  · have := b3 r j; have := b3 q j; grind
  · have := b5 j; grind

/-- A completion is written for an INFLIGHT command (R431). -/
theorem Hci.booked_complete {h g : Hci} (b : h.booked) (k : Nat) (x : Slot) (hk : (NMap.get {} h.slots k).st = .inflight)
    (e : x.st = .unread) (eq : g.queues = h.queues) (es : g.slots = NMap.put {} h.slots k x)
    (ee : g.entries.map Entry.slot = h.entries.map Entry.slot ++ [k]) : g.booked := by
  obtain ⟨b1, b2, b3, b4, b5⟩ := b
  refine ⟨by rwa [eq], by rwa [eq], fun r j => ?_, ?_, fun j => ?_⟩
  · rw [eq, es, NMap.get_put]; have := b3 r j; grind
  · rw [ee]; have := b5 k; grind
  · rw [ee, es, NMap.get_put]; have := b5 j; grind

/-- A QUEUED command leaves its queue and completes CANCELLED (R440). -/
theorem Hci.booked_cancel {h g : Hci} (b : h.booked) (k : Nat) (x : Slot) (hk : (NMap.get {} h.slots k).st = .queued)
    (e : x.st = .unread)
    (eq : g.queues = NMap.put [] h.queues (NMap.get {} h.slots k).queue
      ((NMap.get [] h.queues (NMap.get {} h.slots k).queue).filter (· ≠ k)))
    (es : g.slots = NMap.put {} h.slots k x) (ee : g.entries.map Entry.slot = h.entries.map Entry.slot ++ [k]) :
    g.booked := by
  obtain ⟨b1, b2, b3, b4, b5⟩ := b
  refine ⟨fun r hr => ?_, fun r => ?_, fun r j => ?_, ?_, fun j => ?_⟩
  · rw [eq, NMap.get_put]; have := b1 r hr; grind
  · rw [eq, NMap.get_put]; have := b2 r; grind
  · rw [eq, es, NMap.get_put, NMap.get_put]; have := b3 r j; grind
  · rw [ee]; have := b5 k; grind
  · rw [ee, es, NMap.get_put]; have := b5 j; grind

/-- The slots that the host's head passes become FREE (R432). -/
theorem Hci.booked_pass {h g : Hci} (b : h.booked) (d : Nat) (eq : g.queues = h.queues)
    (es : ∀ k, NMap.get {} g.slots k =
      if k ∈ (h.entries.take d).map Entry.slot then {} else NMap.get {} h.slots k)
    (ee : g.entries = h.entries.drop d) : g.booked := by
  obtain ⟨b1, b2, b3, b4, b5⟩ := b
  have sp : h.entries.map Entry.slot = (h.entries.take d).map Entry.slot ++ (h.entries.drop d).map Entry.slot := by
    rw [← List.map_append, List.take_append_drop]
  refine ⟨by rwa [eq], by rwa [eq], fun r j => ?_, ?_, fun j => ?_⟩
  · rw [eq, es]; have := b3 r j; have := b5 j; grind
  · rw [ee]; grind
  · rw [ee, es]; have := b5 j; grind

end Sys2Proof.Machine
end

