-- ==== Sys2Proof/Laws/Keeps.lean ====
section
/-! SUPPORT. What every meaning keeps: the queue of waiting commands, the device time's order, the canonical form of
the register map and of memory, every blown fuse, the bounds of the two places for records, and the books of the command
slots and of the urgent conversions. `Keeps s t` says that `t` stands to `s` in this way, and the lemmas of this folder
say it of each operation. -/

namespace Sys2Proof.Machine

/-- A fuse that is blown in `m` is blown in `m'`. -/
def StaysBlown (m m' : NMap Nat) : Prop := ∀ p i, (NMap.get 0 m p).testBit i = true → (NMap.get 0 m' p).testBit i = true

/-- The parts of a state that stand to `s0` as they must. -/
def KeepsParts (s0 : State) (pending : List Instr) (now : Nat) (regs : NMap Nat) (mem : List Host.Cell) (otp : Otp)
    (fox : Fox) (hci : Hci) (adc : Adc) : Prop :=
  pending = s0.pending ∧ s0.now ≤ now ∧ (NMap.sorted s0.regs = true → NMap.sorted regs = true) ∧
    (NMap.wf 0#8 s0.mem = true → NMap.wf 0#8 mem = true) ∧
    StaysBlown s0.otp.fuses otp.fuses ∧ StaysBlown s0.otp.locks otp.locks ∧ (s0.fox.bounded = true → fox.bounded = true) ∧
    (s0.hci.booked → hci.booked) ∧ (s0.adc.booked → adc.booked)

/-- `t` has the queue of `s0`, no earlier device time, the canonical forms where `s0` has them, every fuse and lock fuse
that is blown in `s0`, its records within their places where those of `s0` are, and its books right where those of `s0`
are. -/
def Keeps (s0 t : State) : Prop := KeepsParts s0 t.pending t.now t.regs t.mem t.otp t.fox t.hci t.adc

/-- An outcome is a next state that keeps what `s0` holds. -/
def OutKeeps (s0 : State) : Host.Outcome State Fault Refusal → Prop
  | .next t => Keeps s0 t
  | .fault _ => False
  | .refused _ => False

theorem StaysBlown.refl (m : NMap Nat) : StaysBlown m m := fun _ _ h => h

theorem StaysBlown.trans {a b c : NMap Nat} (h : StaysBlown a b) (k : StaysBlown b c) : StaysBlown a c :=
  fun p i x => k p i (h p i x)

/-- A write that only adds fuses keeps those that are blown. -/
theorem StaysBlown.put {a b : NMap Nat} (h : StaysBlown a b) (p v : Nat)
    (hv : ∀ i, (NMap.get 0 b p).testBit i = true → v.testBit i = true) : StaysBlown a (NMap.put 0 b p v) := by
  intro q i x
  have y := h q i x
  by_cases hq : q = p
  · subst hq; rw [NMap.get_put_same]; exact hv i y
  · rw [NMap.get_put_ne 0 0 b v hq]; exact y

/-- Fuses that are added to a word keep every blown fuse. -/
theorem StaysBlown.put_or (m : NMap Nat) (p v : Nat) : StaysBlown m (NMap.put 0 m p (NMap.get 0 m p ||| v)) :=
  (StaysBlown.refl m).put p _ fun i x => by rw [Nat.testBit_or, x, Bool.true_or]

theorem Keeps.refl (s : State) : Keeps s s := 
  ⟨rfl, Nat.le_refl _, id, id, StaysBlown.refl _, StaysBlown.refl _, id, id, id⟩

theorem keeps_next {s0 t : State} (h : Keeps s0 t) : OutKeeps s0 (.next t) := h

/-- A state is kept when its parts are. -/
theorem keeps_mk {s0 : State} {pending free now regs mem supply path charger intc fox loops phases outs vdrv vcl sup engines
    tasks claims ledger adc wear sys ring thermal hci twt twc otp} (h : KeepsParts s0 pending now regs mem otp fox hci adc) :
    Keeps s0 ⟨pending, free, now, regs, mem, supply, path, charger, intc, fox, loops, phases, outs, vdrv, vcl, sup, engines,
      tasks, claims, ledger, adc, wear, sys, ring, thermal, hci, twt, twc, otp⟩ := h

theorem keeps_mk_iff {s0 : State} {pending free now regs mem supply path charger intc fox loops phases outs vdrv vcl sup engines
    tasks claims ledger adc wear sys ring thermal hci twt twc otp} :
    Keeps s0 ⟨pending, free, now, regs, mem, supply, path, charger, intc, fox, loops, phases, outs, vdrv, vcl, sup, engines,
      tasks, claims, ledger, adc, wear, sys, ring, thermal, hci, twt, twc, otp⟩ ↔
    KeepsParts s0 pending now regs mem otp fox hci adc :=
  Iff.rfl

/-- A change of the OTP manager that leaves its fuses alone. -/
theorem keeps_otp {s0 t : State} {o : Otp} (h : Keeps s0 t) (e : o.fuses = t.otp.fuses) (e' : o.locks = t.otp.locks) :
    KeepsParts s0 t.pending t.now t.regs t.mem o t.fox t.hci t.adc :=
  ⟨h.1, h.2.1, h.2.2.1, h.2.2.2.1, e ▸ h.2.2.2.2.1, e' ▸ h.2.2.2.2.2.1, h.2.2.2.2.2.2⟩

/-- A change of the collector that adds no record. -/
theorem keeps_fox {s0 t : State} {f : Fox} (h : Keeps s0 t) (e : f.hist.length = t.fox.hist.length)
    (e' : f.logHeld = t.fox.logHeld) : KeepsParts s0 t.pending t.now t.regs t.mem t.otp f t.hci t.adc :=
  ⟨h.1, h.2.1, h.2.2.1, h.2.2.2.1, h.2.2.2.2.1, h.2.2.2.2.2.1, fun k => by
    have := h.2.2.2.2.2.2.1 k; simpa only [Fox.bounded, e, e'] using this, h.2.2.2.2.2.2.2⟩

/-- A change of the collector that keeps its records within their places. -/
theorem keeps_fox_bounded {s0 t : State} {f : Fox} (h : Keeps s0 t)
    (e : t.fox.hist.length ≤ 32 → t.fox.logHeld ≤ 1024 → f.hist.length ≤ 32 ∧ f.logHeld ≤ 1024) :
    KeepsParts s0 t.pending t.now t.regs t.mem t.otp f t.hci t.adc :=
  ⟨h.1, h.2.1, h.2.2.1, h.2.2.2.1, h.2.2.2.2.1, h.2.2.2.2.2.1, fun k => by
    have := h.2.2.2.2.2.2.1 k
    simp only [Fox.bounded, Bool.and_eq_true, decide_eq_true_eq] at this ⊢
    exact e this.1 this.2, h.2.2.2.2.2.2.2⟩

theorem keeps_parts {s0 t : State} (h : Keeps s0 t) : KeepsParts s0 t.pending t.now t.regs t.mem t.otp t.fox t.hci t.adc := h

theorem keeps_of_snd {α : Type} {s0 t : State} {p : α × State} {a : α} (e : p = (a, t)) (h : Keeps s0 p.2) :
    Keeps s0 t := by subst e; exact h

theorem keeps_of_fst {α : Type} {s0 t : State} {p : State × α} {a : α} (e : p = (t, a)) (h : Keeps s0 p.1) :
    Keeps s0 t := by subst e; exact h

theorem each_keeps {α : Type} {s0 : State} (xs : List α) (f : State → α → State) (s : State) (h : Keeps s0 s)
    (hf : ∀ t x, Keeps s0 t → Keeps s0 (f t x)) : Keeps s0 (State.each xs f s) := by
  unfold State.each
  induction xs generalizing s with
  | nil => exact h
  | cons x xs ih => exact ih _ (hf s x h)

theorem State.set_keeps {s0 : State} (s : State) (f : Field) (v : Nat) (h : Keeps s0 s) : Keeps s0 (s.set f v) :=
  ⟨h.1, h.2.1, fun k => NMap.sorted_put _ _ _ _ (h.2.2.1 k), h.2.2.2⟩

theorem State.setByte_keeps {s0 : State} (s : State) (a : Nat) (b : Byte) (h : Keeps s0 s) : Keeps s0 (s.setByte a b) :=
  ⟨h.1, h.2.1, h.2.2.1, fun k => NMap.wf_put _ _ _ _ (h.2.2.2.1 k), h.2.2.2.2⟩

theorem State.setBytes_keeps {s0 : State} (s : State) (a : Nat) (bs : List Byte) (h : Keeps s0 s) :
    Keeps s0 (s.setBytes a bs) := by
  induction bs generalizing s a with
  | nil => exact h
  | cons b bs ih => exact ih _ _ (State.setByte_keeps s a b h)

theorem State.clearMem_keeps {s0 : State} (s : State) (lo hi : Nat) (h : Keeps s0 s) : Keeps s0 (s.clearMem lo hi) :=
  ⟨h.1, h.2.1, h.2.2.1, fun k => NMap.wf_filter _ _ _ (h.2.2.2.1 k), h.2.2.2.2⟩

theorem State.expire_keeps {s0 : State} (s : State) (t : Nat) (h : Keeps s0 s) : Keeps s0 (s.expire t) :=
  ⟨h.1, Nat.le_trans h.2.1 (State.le_expire s t), h.2.2⟩

/-- A change of the interface that keeps its books right. -/
theorem keeps_hci {s0 t : State} {x : Hci} (h : Keeps s0 t) (e : t.hci.booked → x.booked) :
    KeepsParts s0 t.pending t.now t.regs t.mem t.otp t.fox x t.adc :=
  ⟨h.1, h.2.1, h.2.2.1, h.2.2.2.1, h.2.2.2.2.1, h.2.2.2.2.2.1, h.2.2.2.2.2.2.1, fun k => e (h.2.2.2.2.2.2.2.1 k),
    h.2.2.2.2.2.2.2.2⟩

/-- A change of the ADC that keeps the books of its urgent conversions right. -/
theorem keeps_adc_booked {s0 t : State} {x : Adc} (h : Keeps s0 t) (e : t.adc.booked → x.booked) :
    KeepsParts s0 t.pending t.now t.regs t.mem t.otp t.fox t.hci x :=
  ⟨h.1, h.2.1, h.2.2.1, h.2.2.2.1, h.2.2.2.2.1, h.2.2.2.2.2.1, h.2.2.2.2.2.2.1, h.2.2.2.2.2.2.2.1, fun k =>
    e (h.2.2.2.2.2.2.2.2 k)⟩

/-- A change of the ADC that is none of its urgent conversions. -/
theorem keeps_adc {s0 t : State} {x : Adc} (h : Keeps s0 t) (ea : x.asked = t.adc.asked) (es : x.served = t.adc.served)
    (ed : x.dropped = t.adc.dropped) (eu : x.urgent = t.adc.urgent) :
    KeepsParts s0 t.pending t.now t.regs t.mem t.otp t.fox t.hci x :=
  keeps_adc_booked h fun k => by simpa only [Adc.booked, ea, es, ed, eu] using k

/-- A reset that replaces the registers and memory by canonical ones and clears the interface and the ADC keeps the
rest. -/
theorem keeps_off {s0 s : State} {regs : NMap Nat} {mem : List Host.Cell} {o : Otp} {f : Fox} {n : Nat} (h : Keeps s0 s)
    (hr : NMap.sorted s.regs = true → NMap.sorted regs = true)
    (hm : NMap.wf 0#8 s.mem = true → NMap.wf 0#8 mem = true) (hn : s.now ≤ n)
    (hf : StaysBlown s.otp.fuses o.fuses) (hl : StaysBlown s.otp.locks o.locks)
    (hx : s.fox.bounded = true → f.bounded = true) : KeepsParts s0 s.pending n regs mem o f {} {} :=
  ⟨h.1, Nat.le_trans h.2.1 hn, fun k => hr (h.2.2.1 k), fun k => hm (h.2.2.2.1 k), h.2.2.2.2.1.trans hf,
    h.2.2.2.2.2.1.trans hl, fun k => hx (h.2.2.2.2.2.2.1 k), fun _ => Hci.booked_clear _ _, fun _ => rfl⟩

/-- Time that passes keeps the rest. -/
theorem later_keeps {s0 s : State} (n : Nat) (h : Keeps s0 s) : KeepsParts s0 s.pending (s.now + n) s.regs s.mem s.otp s.fox s.hci s.adc :=
  ⟨h.1, Nat.le_trans h.2.1 (Nat.le_add_right _ _), h.2.2⟩

end Sys2Proof.Machine
end

