-- ==== Sys2Proof/Laws/KeepsShared.lean ====
section
/-! SUPPORT. `Keeps` of the operations that every family shares. -/

namespace Sys2Proof.Machine

/-! ### Ops -/

theorem State.setBit_keeps {s0 : State} (s : State) (f : Field) (i : Nat) (hk : Keeps s0 s) :
    Keeps s0 (State.setBit s f i) := by
  unfold State.setBit
  try dsimp only
  with_reducible repeat' (first
      | assumption | apply State.set_keeps)

theorem State.clearBits_keeps {s0 : State} (s : State) (f : Field) (mask : Nat) (hk : Keeps s0 s) :
    Keeps s0 (State.clearBits s f mask) := by
  unfold State.clearBits
  try dsimp only
  with_reducible repeat' (first
      | assumption | apply State.set_keeps)

theorem State.addWrap_keeps {s0 : State} (s : State) (f : Field) (n : Nat) (hk : Keeps s0 s) :
    Keeps s0 (State.addWrap s f n) := by
  unfold State.addWrap
  try dsimp only
  with_reducible repeat' (first
      | assumption | apply State.set_keeps)

theorem State.addSat_keeps {s0 : State} (s : State) (f : Field) (n : Nat) (hk : Keeps s0 s) :
    Keeps s0 (State.addSat s f n) := by
  unfold State.addSat
  try dsimp only
  with_reducible repeat' (first
      | assumption | apply State.set_keeps)

theorem State.resetField_keeps {s0 : State} (s : State) (f : Field) (hk : Keeps s0 s) :
    Keeps s0 (State.resetField s f) := by
  unfold State.resetField
  try dsimp only
  with_reducible repeat' (first
      | assumption | apply State.set_keeps)

theorem State.setLoop_keeps {s0 : State} (s : State) (n : Nat) (l : LoopSt) (hk : Keeps s0 s) :
    Keeps s0 (State.setLoop s n l) := by
  unfold State.setLoop
  try dsimp only
  with_reducible repeat' (first
      | assumption | simp only [keeps_mk_iff]
      | (refine keeps_adc ?_ ?_ ?_ ?_ ?_; rotate_left; (all_goals first | rfl | skip)))

theorem State.setPhase_keeps {s0 : State} (s : State) (k : Nat) (p : PhaseSt) (hk : Keeps s0 s) :
    Keeps s0 (State.setPhase s k p) := by
  unfold State.setPhase
  try dsimp only
  with_reducible repeat' (first
      | assumption | simp only [keeps_mk_iff]
      | (refine keeps_adc ?_ ?_ ?_ ?_ ?_; rotate_left; (all_goals first | rfl | skip)))

theorem State.setOut_keeps {s0 : State} (s : State) (c : Nat) (o : OutSt) (hk : Keeps s0 s) :
    Keeps s0 (State.setOut s c o) := by
  unfold State.setOut
  try dsimp only
  with_reducible repeat' (first
      | assumption | simp only [keeps_mk_iff]
      | (refine keeps_adc ?_ ?_ ?_ ?_ ?_; rotate_left; (all_goals first | rfl | skip)))

theorem State.setPort_keeps {s0 : State} (s : State) (p : Nat) (v : Vcl) (hk : Keeps s0 s) :
    Keeps s0 (State.setPort s p v) := by
  unfold State.setPort
  try dsimp only
  with_reducible repeat' (first
      | assumption | simp only [keeps_mk_iff]
      | (refine keeps_adc ?_ ?_ ?_ ?_ ?_; rotate_left; (all_goals first | rfl | skip)))

theorem State.setSup_keeps {s0 : State} (s : State) (n : Nat) (c : SupCh) (hk : Keeps s0 s) :
    Keeps s0 (State.setSup s n c) := by
  unfold State.setSup
  try dsimp only
  with_reducible repeat' (first
      | assumption | simp only [keeps_mk_iff]
      | (refine keeps_adc ?_ ?_ ?_ ?_ ?_; rotate_left; (all_goals first | rfl | skip)))

theorem State.setEngine_keeps {s0 : State} (s : State) (e : Nat) (x : EngineSt) (hk : Keeps s0 s) :
    Keeps s0 (State.setEngine s e x) := by
  unfold State.setEngine
  try dsimp only
  with_reducible repeat' (first
      | assumption | simp only [keeps_mk_iff]
      | (refine keeps_adc ?_ ?_ ?_ ?_ ?_; rotate_left; (all_goals first | rfl | skip)))

theorem State.setTask_keeps {s0 : State} (s : State) (e t : Nat) (x : Task) (hk : Keeps s0 s) :
    Keeps s0 (State.setTask s e t x) := by
  unfold State.setTask
  try dsimp only
  with_reducible repeat' (first
      | assumption | simp only [keeps_mk_iff]
      | (refine keeps_adc ?_ ?_ ?_ ?_ ?_; rotate_left; (all_goals first | rfl | skip)))

theorem State.setClaim_keeps {s0 : State} (s : State) (c : Nat) (x : Claim) (hk : Keeps s0 s) :
    Keeps s0 (State.setClaim s c x) := by
  unfold State.setClaim
  try dsimp only
  with_reducible repeat' (first
      | assumption | simp only [keeps_mk_iff]
      | (refine keeps_adc ?_ ?_ ?_ ?_ ?_; rotate_left; (all_goals first | rfl | skip)))

theorem State.fresh_keeps {s0 : State} (s : State) (hk : Keeps s0 s) :
    Keeps s0 (State.fresh s).2 := by
  unfold State.fresh
  try dsimp only
  with_reducible repeat' (first
      | assumption | simp only [keeps_mk_iff]
      | (refine keeps_adc ?_ ?_ ?_ ?_ ?_; rotate_left; (all_goals first | rfl | skip)))

/-! ### Events -/

theorem foxEvt_keeps {s0 : State} (s : State) (bit : Nat) (hk : Keeps s0 s) :
    Keeps s0 (foxEvt s bit) := by
  unfold foxEvt
  try dsimp only
  with_reducible repeat' (first
      | assumption | apply State.setBit_keeps)

theorem logCount_keeps {s0 : State} (s : State) (h : Keeps s0 s) : Keeps s0 (logCount s) := by
  have h1 := State.addWrap_keeps s FLT_LWR.COUNT 1 h
  unfold logCount
  dsimp only
  split
  · exact keeps_fox h1 rfl rfl
  · split
    · split
      · exact foxEvt_keeps _ 1 (keeps_fox h1 rfl rfl)
      · exact keeps_fox h1 rfl rfl
    · rename_i hn
      exact keeps_mk (keeps_fox_bounded h1 fun a _ => ⟨a, Nat.lt_of_not_le hn⟩)

theorem logPut_keeps {s0 : State} (s : State) (seq : Nat) (ws : List Nat) (hk : Keeps s0 s) :
    Keeps s0 (logPut s seq ws) := by
  unfold logPut
  try dsimp only
  with_reducible repeat' (first
      | assumption | apply State.setBytes_keeps | split)

theorem logWrite_keeps {s0 : State} (s : State) (ws : Nat → List Nat) (h : Keeps s0 s) : Keeps s0 (logWrite s ws) := by
  unfold logWrite
  try dsimp only
  with_reducible repeat' (first
      | exact h | apply logCount_keeps | apply logPut_keeps)

theorem histWrite_keeps {s0 : State} (s : State) (body : RecBody) (h : Keeps s0 s) : Keeps s0 (histWrite s body) := by
  unfold histWrite
  dsimp only
  refine keeps_mk (keeps_fox_bounded ?_ fun _ b => ⟨List.length_take_le _ _, b⟩)
  have h2 (r : HistRec) := State.addWrap_keeps _ FLT_HWR.COUNT 1 (logWrite_keeps s (fun _ => recWords r) h)
  split
  · split
    · exact foxEvt_keeps _ 1 (keeps_mk (keeps_fox (h2 _) rfl rfl))
    · exact keeps_mk (keeps_fox (h2 _) rfl rfl)
  · exact h2 _

theorem histUpdate_keeps {s0 : State} (s : State) (r : HistRec) (h : Keeps s0 s) : Keeps s0 (histUpdate s r) := by
  unfold histUpdate
  dsimp only
  split
  · exact logPut_keeps _ _ _ (keeps_mk (keeps_fox h (List.length_map _) rfl))
  · exact keeps_mk (keeps_fox h (List.length_map _) rfl)

theorem noticeCount_keeps {s0 : State} (s : State) (e : Ev) (inj : Bool) (hk : Keeps s0 s) :
    Keeps s0 (noticeCount s e inj) := by
  unfold noticeCount
  try dsimp only
  with_reducible repeat' (first
      | assumption | apply State.addWrap_keeps | apply logWrite_keeps | split)

theorem notice_keeps {s0 : State} (s : State) (e : Ev) (hk : Keeps s0 s) :
    Keeps s0 (notice s e) := by
  unfold notice
  try dsimp only
  with_reducible repeat' (first
      | assumption | apply State.setBit_keeps | apply noticeCount_keeps)

/-! ### Rails -/

theorem supLeave_keeps {s0 : State} (s : State) (n : Nat) (hk : Keeps s0 s) :
    Keeps s0 (supLeave s n) := by
  unfold supLeave
  try dsimp only
  with_reducible repeat' (first
      | assumption | apply State.set_keeps | apply State.setSup_keeps | apply notice_keeps | split)

theorem supLeaveAll_keeps {s0 : State} (s : State) (r : Rail) (hk : Keeps s0 s) :
    Keeps s0 (supLeaveAll s r) := by
  unfold supLeaveAll
  try dsimp only
  with_reducible repeat' (first
      | assumption | apply supLeave_keeps | apply each_keeps)

theorem noteLeft_keeps {s0 : State} (s : State) (r : Rail) (hk : Keeps s0 s) :
    Keeps s0 (noteLeft s r) := by
  unfold noteLeft
  try dsimp only
  with_reducible repeat' (first
      | assumption | apply State.setOut_keeps)

theorem railOff_keeps {s0 : State} (s : State) (r : Rail) (hk : Keeps s0 s) :
    Keeps s0 (railOff s r) := by
  unfold railOff
  try dsimp only
  with_reducible repeat' (first
      | assumption | apply State.set_keeps | apply supLeaveAll_keeps | apply noteLeft_keeps | split)

theorem railsOff_keeps {s0 : State} (s : State) (rs : List Rail) (hk : Keeps s0 s) :
    Keeps s0 (railsOff s rs) := by
  unfold railsOff
  try dsimp only
  with_reducible repeat' (first
      | assumption | apply railOff_keeps | apply each_keeps)

theorem engineDrain_keeps {s0 : State} (s : State) (e : Nat) (hk : Keeps s0 s) :
    Keeps s0 (engineDrain s e) := by
  unfold engineDrain
  try dsimp only
  with_reducible repeat' (first
      | assumption | apply State.set_keeps | apply State.setEngine_keeps | split)

theorem enginesDrain_keeps {s0 : State} (s : State) (hk : Keeps s0 s) :
    Keeps s0 (enginesDrain s) := by
  unfold enginesDrain
  try dsimp only
  with_reducible repeat' (first
      | assumption | apply engineDrain_keeps | apply each_keeps)

/-! ### Snapshot -/

/-- A change of the ADC that is none of its urgent conversions. -/
theorem State.setAdc_keeps {s0 : State} (s : State) (x : Adc) (h : Keeps s0 s) (ea : x.asked = s.adc.asked)
    (es : x.served = s.adc.served) (ed : x.dropped = s.adc.dropped) (eu : x.urgent = s.adc.urgent) :
    Keeps s0 (s.setAdc x) :=
  keeps_mk (keeps_adc h ea es ed eu)

/-- A change of the urgent conversions that keeps their books right. -/
theorem State.setAdc_booked {s0 : State} (s : State) (x : Adc) (h : Keeps s0 s) (e : s.adc.booked → x.booked) :
    Keeps s0 (s.setAdc x) :=
  keeps_mk (keeps_adc_booked h e)

theorem wearNotice_keeps {s0 : State} (s : State) (k : Nat) (hk : Keeps s0 s) :
    Keeps s0 (wearNotice s k) := by
  unfold wearNotice
  try dsimp only
  with_reducible repeat' (first
      | assumption | apply State.setBit_keeps | apply notice_keeps)

theorem putSamples_keeps {s0 : State} (s : State) (xs : List (BitVec 16)) (hk : Keeps s0 s) :
    Keeps s0 (putSamples s xs) := by
  unfold putSamples
  try dsimp only
  with_reducible repeat' (first
      | assumption | rfl | apply State.setBytes_keeps | apply State.setAdc_keeps | apply each_keeps | (intro _))

theorem captureSamples_keeps {s0 : State} (s : State) (xs : List (BitVec 16)) (hk : Keeps s0 s) :
    Keeps s0 (captureSamples s xs) := by
  unfold captureSamples
  try dsimp only
  with_reducible repeat' (first
      | assumption | apply putSamples_keeps | split)

theorem snapFreeze_keeps {s0 : State} (s : State) (len : Nat) (hk : Keeps s0 s) :
    Keeps s0 (snapFreeze s len) := by
  unfold snapFreeze
  try dsimp only
  with_reducible repeat' (first
      | assumption | apply State.set_keeps | apply notice_keeps)

theorem endFill_keeps {s0 : State} (s : State) (hk : Keeps s0 s) :
    Keeps s0 (endFill s) := by
  unfold endFill
  try dsimp only
  with_reducible repeat' (first
      | assumption | apply snapFreeze_keeps | split)

theorem stopBurst_keeps {s0 : State} (s : State) (hk : Keeps s0 s) :
    Keeps s0 (stopBurst s) := by
  unfold stopBurst
  try dsimp only
  with_reducible repeat' (first
      | assumption | rfl | apply State.set_keeps | apply State.setAdc_keeps | apply endFill_keeps | split)

theorem dropInjection_keeps {s0 : State} (s : State) (n : Nat) (hk : Keeps s0 s) :
    Keeps s0 (dropInjection s n) := by
  unfold dropInjection
  try dsimp only
  with_reducible repeat' (first
      | assumption | rfl | apply State.setLoop_keeps | apply State.setAdc_keeps | apply stopBurst_keeps | split)

theorem abortInjection_keeps {s0 : State} (s : State) (n cause : Nat) (hk : Keeps s0 s) :
    Keeps s0 (abortInjection s n cause) := by
  unfold abortInjection
  try dsimp only
  with_reducible repeat' (first
      | assumption | apply State.set_keeps | apply wearNotice_keeps | apply dropInjection_keeps)

theorem injectionTriggered_keeps {s0 : State} (s : State) (hk : Keeps s0 s) :
    Keeps s0 (injectionTriggered s) := by
  unfold injectionTriggered
  try dsimp only
  with_reducible repeat' (first
      | assumption | apply abortInjection_keeps | split)

theorem snapTake_keeps {s0 : State} (s : State) (trig code : Nat) (hk : Keeps s0 s) :
    Keeps s0 (snapTake s trig code) := by
  unfold snapTake
  try dsimp only
  with_reducible repeat' (first
      | assumption | apply State.set_keeps | apply State.addWrap_keeps | apply each_keeps | (intro _))

theorem snapStart_keeps {s0 : State} (s : State) (trig code : Nat) (hk : Keeps s0 s) :
    Keeps s0 (snapStart s trig code) := by
  unfold snapStart
  try dsimp only
  with_reducible repeat' (first
      | assumption | rfl | apply State.set_keeps | apply State.setAdc_keeps | apply snapFreeze_keeps
      | apply snapTake_keeps | split)

theorem snapTrigger_keeps {s0 : State} (s : State) (trig code : Nat) (critical : Bool) (hk : Keeps s0 s) :
    Keeps s0 (snapTrigger s trig code critical).2 := by
  unfold snapTrigger
  try dsimp only
  with_reducible repeat' (first
      | assumption | apply State.addSat_keeps | apply injectionTriggered_keeps | apply snapStart_keeps | split)

/-! ### Foxglove -/

theorem aliveHold_keeps {s0 : State} (s : State) (hk : Keeps s0 s) :
    Keeps s0 (aliveHold s) := by
  unfold aliveHold
  try dsimp only
  with_reducible repeat' (first
      | assumption | apply foxEvt_keeps | simp only [keeps_mk_iff]
      | (refine keeps_fox ?_ ?_ ?_; rotate_left; rfl; rfl) | split)

theorem markStatus_keeps {s0 : State} (s : State) (line : Nat) (cls : Cls) (hk : Keeps s0 s) :
    Keeps s0 (markStatus s line cls) := by
  unfold markStatus
  try dsimp only
  with_reducible repeat' (first
      | assumption | apply State.setBit_keeps | apply State.addSat_keeps | split)

theorem actPerLine_keeps {s0 : State} (s : State) (r line detail : Nat) (hk : Keeps s0 s) :
    Keeps s0 (actPerLine s r line detail) := by
  unfold actPerLine
  try dsimp only
  with_reducible repeat' (first
      | assumption | apply State.setBit_keeps | apply railsOff_keeps | split)

theorem actSeqAbort_keeps {s0 : State} (s : State) (r : Nat) (hk : Keeps s0 s) :
    Keeps s0 (actSeqAbort s r) := by
  unfold actSeqAbort
  try dsimp only
  with_reducible repeat' (first
      | assumption | apply enginesDrain_keeps | split)

theorem actStopAlive_keeps {s0 : State} (s : State) (r m : Nat) (hk : Keeps s0 s) :
    Keeps s0 (actStopAlive s r m) := by
  unfold actStopAlive
  try dsimp only
  with_reducible repeat' (first
      | assumption | apply aliveHold_keeps | simp only [keeps_mk_iff]
      | (refine keeps_fox ?_ ?_ ?_; rotate_left; rfl; rfl) | split)

theorem foxEvent_keeps {s0 : State} (n : Nat) (s : State) (e : Ev) (x : Nat) (inj : Bool) (h : Keeps s0 s) :
    Keeps s0 (foxEvent n s e x inj) := by
  induction n generalizing s e x inj with
  | zero => exact h
  | succ n ih =>
    unfold foxEvent
    try dsimp only
    with_reducible repeat' (first
        | exact h | apply ih | apply State.setBit_keeps | apply foxEvt_keeps | apply histWrite_keeps
        | apply histUpdate_keeps | apply noticeCount_keeps | apply snapTrigger_keeps | apply markStatus_keeps
        | apply actPerLine_keeps | apply actSeqAbort_keeps | apply actStopAlive_keeps | simp only [keeps_mk_iff]
        | (refine keeps_fox ?_ ?_ ?_; rotate_left; rfl; rfl) | split)

theorem raise_keeps {s0 : State} (s : State) (e : Ev) (hk : Keeps s0 s) :
    Keeps s0 (raise s e) := by
  unfold raise
  try dsimp only
  with_reducible repeat' (first
      | assumption | apply State.setBit_keeps | apply foxEvent_keeps)

theorem raiseBare_keeps {s0 : State} (s : State) (e : Ev) (hk : Keeps s0 s) :
    Keeps s0 (raiseBare s e) := by
  unfold raiseBare
  try dsimp only
  with_reducible repeat' (first
      | assumption | apply foxEvent_keeps)

theorem aliveLow_keeps {s0 : State} (s : State) (hk : Keeps s0 s) :
    Keeps s0 (aliveLow s) := by
  unfold aliveLow
  try dsimp only
  with_reducible repeat' (first
      | assumption | simp only [keeps_mk_iff] | (refine keeps_fox ?_ ?_ ?_; rotate_left; rfl; rfl))

theorem aliveRun_keeps {s0 : State} (s : State) (hk : Keeps s0 s) :
    Keeps s0 (aliveRun s) := by
  unfold aliveRun
  try dsimp only
  with_reducible repeat' (first
      | assumption | apply aliveHold_keeps | simp only [keeps_mk_iff]
      | (refine keeps_fox ?_ ?_ ?_; rotate_left; rfl; rfl))

/-! ### Wear -/

theorem wearLimit_keeps {s0 : State} (s : State) (hk : Keeps s0 s) :
    Keeps s0 (wearLimit s) := by
  unfold wearLimit
  try dsimp only
  with_reducible repeat' (first
      | assumption | apply State.setBit_keeps | apply raise_keeps)

theorem State.setWear_keeps {s0 : State} (s : State) (w : Wear) (hk : Keeps s0 s) :
    Keeps s0 (State.setWear s w) := by
  unfold State.setWear
  try dsimp only
  with_reducible repeat' (first
      | assumption | simp only [keeps_mk_iff]
      | (refine keeps_adc ?_ ?_ ?_ ?_ ?_; rotate_left; (all_goals first | rfl | skip)))

theorem notBlank_keeps {s0 : State} (s : State) (hk : Keeps s0 s) :
    Keeps s0 (notBlank s) := by
  unfold notBlank
  try dsimp only
  with_reducible repeat' (first
      | assumption | apply State.set_keeps)

theorem noteMeasure_keeps {s0 : State} (s : State) (k : Nat) (v : Int) (hk : Keeps s0 s) :
    Keeps s0 (noteMeasure s k v) := by
  unfold noteMeasure
  try dsimp only
  with_reducible repeat' (first
      | assumption | apply State.setWear_keeps)

theorem measure_keeps {s0 : State} (s : State) (k : Nat) (v : Int) (hk : Keeps s0 s) :
    Keeps s0 (measure s k v) := by
  unfold measure
  try dsimp only
  with_reducible repeat' (first
      | assumption | apply notBlank_keeps | apply noteMeasure_keeps)

theorem setQ_keeps {s0 : State} (s : State) (q : Int) (hk : Keeps s0 s) :
    Keeps s0 (setQ s q) := by
  unfold setQ
  try dsimp only
  with_reducible repeat' (first
      | assumption | apply State.setWear_keeps | apply notBlank_keeps)

theorem setQFrom_keeps {s0 : State} (s : State) (bkb : Nat) (hk : Keeps s0 s) :
    Keeps s0 (setQFrom s bkb) := by
  unfold setQFrom
  try dsimp only
  with_reducible repeat' (first
      | assumption | apply setQ_keeps | split)

theorem showBank_keeps {s0 : State} (s : State) (hk : Keeps s0 s) :
    Keeps s0 (showBank s) := by
  unfold showBank
  try dsimp only
  with_reducible repeat' (first
      | assumption | apply State.set_keeps | split)

theorem newSoh_keeps {s0 : State} (s : State) (soh : Nat) (hk : Keeps s0 s) :
    Keeps s0 (newSoh s soh) := by
  unfold newSoh
  try dsimp only
  with_reducible repeat' (first
      | assumption | apply State.setWear_keeps | apply measure_keeps | apply showBank_keeps)

theorem socFix_keeps {s0 : State} (s : State) (num den : Nat) (hk : Keeps s0 s) :
    Keeps s0 (socFix s num den) := by
  unfold socFix
  try dsimp only
  with_reducible repeat' (first
      | assumption | apply State.setWear_keeps | apply newSoh_keeps | split)

theorem bankFull_keeps {s0 : State} (s : State) (hk : Keeps s0 s) :
    Keeps s0 (bankFull s) := by
  unfold bankFull
  try dsimp only
  with_reducible repeat' (first
      | assumption | apply setQ_keeps | apply showBank_keeps | apply socFix_keeps)

theorem bankEmpty_keeps {s0 : State} (s : State) (hk : Keeps s0 s) :
    Keeps s0 (bankEmpty s) := by
  unfold bankEmpty
  try dsimp only
  with_reducible repeat' (first
      | assumption | apply setQ_keeps | apply showBank_keeps | apply socFix_keeps)

theorem followRest_keeps {s0 : State} (s : State) (iBank : Int) (hk : Keeps s0 s) :
    Keeps s0 (followRest s iBank) := by
  unfold followRest
  try dsimp only
  with_reducible repeat' (first
      | assumption | apply State.setWear_keeps)

theorem breakRest_keeps {s0 : State} (s : State) (hk : Keeps s0 s) :
    Keeps s0 (breakRest s) := by
  unfold breakRest
  try dsimp only
  with_reducible repeat' (first
      | assumption | apply State.setWear_keeps | split)

theorem restEnds_keeps {s0 : State} (s : State) (t bkb : Nat) (hk : Keeps s0 s) :
    Keeps s0 (restEnds s t bkb) := by
  unfold restEnds
  try dsimp only
  with_reducible repeat' (first
      | assumption | apply State.expire_keeps | simp only [keeps_mk_iff]
      | (refine keeps_adc ?_ ?_ ?_ ?_ ?_; rotate_left; (all_goals first | rfl | skip)))

theorem restReading_keeps {s0 : State} (s : State) (bkb : Nat) (hk : Keeps s0 s) :
    Keeps s0 (restReading s bkb) := by
  unfold restReading
  try dsimp only
  with_reducible repeat' (first
      | assumption | apply State.setWear_keeps | apply setQFrom_keeps | apply showBank_keeps | apply newSoh_keeps
      | apply socFix_keeps | split)

theorem execBankRest_keeps {s0 : State} (bkb : Nat) (s : State) (hk : Keeps s0 s) :
    OutKeeps s0 (execBankRest bkb s) := by
  unfold execBankRest
  try dsimp only
  with_reducible repeat' (first
      | assumption | apply keeps_next | apply restEnds_keeps | apply restReading_keeps | split)

theorem showEol_keeps {s0 : State} (s : State) (i : Nat) (hk : Keeps s0 s) :
    Keeps s0 (showEol s i) := by
  unfold showEol
  try dsimp only
  with_reducible repeat' (first
      | assumption | apply State.set_keeps | apply wearLimit_keeps | apply State.setWear_keeps | split)

theorem endTrend_keeps {s0 : State} (s : State) (k : Nat) (hk : Keeps s0 s) :
    Keeps s0 (endTrend s k) := by
  unfold endTrend
  try dsimp only
  with_reducible repeat' (first
      | assumption | apply State.setWear_keeps)

theorem endStage_keeps {s0 : State} (s : State) (k : Nat) (hk : Keeps s0 s) :
    Keeps s0 (endStage s k) := by
  unfold endStage
  try dsimp only
  with_reducible repeat' (first
      | assumption | apply State.setWear_keeps)

theorem execWearDay_keeps {s0 : State} (s : State) (hk : Keeps s0 s) :
    OutKeeps s0 (execWearDay s) := by
  unfold execWearDay
  try dsimp only
  with_reducible repeat' (first
      | assumption | apply keeps_next | apply State.expire_keeps | apply State.addSat_keeps | apply wearNotice_keeps
      | apply State.setWear_keeps | apply notBlank_keeps | apply showEol_keeps | apply endTrend_keeps
      | apply endStage_keeps | apply each_keeps | split)

theorem addDamage_keeps {s0 : State} (s : State) (k : Nat) (swings : List Nat) (hk : Keeps s0 s) :
    Keeps s0 (addDamage s k swings) := by
  unfold addDamage
  try dsimp only
  with_reducible repeat' (first
      | assumption | apply State.set_keeps | apply State.fresh_keeps | apply State.setWear_keeps
      | apply notBlank_keeps | apply each_keeps | (intro _))

theorem stageReading_keeps {s0 : State} (s : State) (k : Nat) (t : Int) (hk : Keeps s0 s) :
    Keeps s0 (stageReading s k t) := by
  unfold stageReading
  try dsimp only
  with_reducible repeat' (first
      | assumption | apply State.setWear_keeps | apply addDamage_keeps | split)

theorem ageingPoint_keeps {s0 : State} (s : State) (slow : Int) (hk : Keeps s0 s) :
    Keeps s0 (ageingPoint s slow) := by
  unfold ageingPoint
  try dsimp only
  with_reducible repeat' (first
      | assumption | apply State.set_keeps | apply measure_keeps)

theorem execAgeingCount_keeps {s0 : State} (stressed unstressed : Nat) (s : State) (hk : Keeps s0 s) :
    OutKeeps s0 (execAgeingCount stressed unstressed s) := by
  unfold execAgeingCount
  try dsimp only
  with_reducible repeat' (first
      | assumption | apply keeps_next | apply State.expire_keeps | apply ageingPoint_keeps | simp only [keeps_mk_iff]
      | (refine keeps_adc ?_ ?_ ?_ ?_ ?_; rotate_left; (all_goals first | rfl | skip)) | split)

theorem otpPoint_keeps {s0 : State} (s : State) (weak spares : Nat) (hk : Keeps s0 s) :
    Keeps s0 (otpPoint s weak spares) := by
  unfold otpPoint
  try dsimp only
  with_reducible repeat' (first
      | assumption | apply State.set_keeps | apply State.setWear_keeps | apply noteMeasure_keeps | split)

/-! ### Ledger -/

theorem fitOne_keeps {s0 : State} (acc : State × Nat) (c : Nat) (h : Keeps s0 acc.1) : Keeps s0 (fitOne acc c).1 := by
  unfold fitOne
  try dsimp only
  with_reducible repeat' (first
      | assumption | apply State.setClaim_keeps | split)

theorem fitOne_fold_keeps {s0 : State} (cs : List Nat) (acc : State × Nat) (h : Keeps s0 acc.1) :
    Keeps s0 (cs.foldl fitOne acc).1 := by
  induction cs generalizing acc with
  | nil => exact h
  | cons c cs ih => exact ih _ (fitOne_keeps acc c h)

theorem formFit_keeps {s0 : State} (s : State) (h : Keeps s0 s) : Keeps s0 (formFit s) := by
  unfold formFit
  exact fitOne_fold_keeps _ _ h

theorem clearLimited_keeps {s0 : State} (s : State) (c : Nat) (hk : Keeps s0 s) :
    Keeps s0 (clearLimited s c) := by
  unfold clearLimited
  try dsimp only
  with_reducible repeat' (first
      | exact hk | apply State.clearBits_keeps | split)

theorem evalCapacity_keeps {s0 : State} (s : State) (c : Nat) (hk : Keeps s0 s) :
    Keeps s0 (evalCapacity s c) := by
  unfold evalCapacity
  try dsimp only
  with_reducible repeat' (first
      | exact hk | apply State.setBit_keeps | apply raise_keeps | apply clearLimited_keeps | split)

theorem grant_keeps {s0 : State} (s : State) (c : Nat) (hk : Keeps s0 s) :
    Keeps s0 (grant s c) := by
  unfold grant
  try dsimp only
  with_reducible repeat' (first
      | exact hk | apply State.addWrap_keeps | apply State.setClaim_keeps | apply evalCapacity_keeps
      | simp only [keeps_mk_iff] | (refine keeps_adc ?_ ?_ ?_ ?_ ?_; rotate_left; (all_goals first | rfl | skip))
      | split)

theorem ledgerGrant_keeps {s0 : State} {s t : State} {c : Nat} (e : ledgerGrant s c = some t) (h : Keeps s0 s) :
    Keeps s0 t := by
  unfold ledgerGrant at e
  dsimp only at e
  split at e <;> split at e <;> simp only [Option.some.injEq, reduceCtorEq] at e
  all_goals subst e; exact grant_keeps s c h

theorem freeClaim_keeps {s0 : State} (s : State) (c : Nat) (hk : Keeps s0 s) :
    Keeps s0 (freeClaim s c) := by
  unfold freeClaim
  try dsimp only
  with_reducible repeat' (first
      | exact hk | apply State.setClaim_keeps | apply clearLimited_keeps)

theorem dropClaim_keeps {s0 : State} (s : State) (c : Nat) (hk : Keeps s0 s) :
    Keeps s0 (dropClaim s c) := by
  unfold dropClaim
  try dsimp only
  with_reducible repeat' (first
      | exact hk | apply formFit_keeps | apply freeClaim_keeps)

theorem releaseClaim_keeps {s0 : State} (s : State) (c : Nat) (hk : Keeps s0 s) :
    Keeps s0 (releaseClaim s c) := by
  unfold releaseClaim
  try dsimp only
  with_reducible repeat' (first
      | exact hk | apply railsOff_keeps | apply dropClaim_keeps)

theorem nextSeq_keeps {s0 : State} (s : State) (hk : Keeps s0 s) :
    Keeps s0 (nextSeq s).2 := by
  unfold nextSeq
  try dsimp only
  with_reducible repeat' (first
      | exact hk | simp only [keeps_mk_iff]
      | (refine keeps_adc ?_ ?_ ?_ ?_ ?_; rotate_left; (all_goals first | rfl | skip)))

theorem submitClaim_keeps {s0 : State} (s : State) (c e t cls : Nat) (hk : Keeps s0 s) :
    Keeps s0 (submitClaim s c e t cls) := by
  unfold submitClaim
  try dsimp only
  with_reducible repeat' (first
      | exact hk | apply State.setClaim_keeps | apply nextSeq_keeps)

theorem revokeTask_keeps {s0 : State} (s : State) (e t : Nat) (hk : Keeps s0 s) :
    Keeps s0 (revokeTask s e t) := by
  unfold revokeTask
  try dsimp only
  with_reducible repeat' (first
      | exact hk | apply State.setTask_keeps | apply freeClaim_keeps | split)

theorem revoke_keeps {s0 : State} (s : State) (c : Nat) (hk : Keeps s0 s) :
    Keeps s0 (revoke s c) := by
  unfold revoke
  try dsimp only
  with_reducible repeat' (first
      | exact hk | apply State.addWrap_keeps | apply State.setClaim_keeps | apply railsOff_keeps
      | apply freeClaim_keeps | apply revokeTask_keeps | split)

theorem revokeLoop_keeps {s0 : State} (n : Nat) (s : State) (h : Keeps s0 s) : Keeps s0 (revokeLoop n s) := by
  induction n generalizing s with
  | zero => exact h
  | succ n ih =>
    unfold revokeLoop
    try dsimp only
    with_reducible repeat' (first
        | assumption | apply ih | apply revoke_keeps | split)

theorem formBudget_keeps {s0 : State} (s : State) (hk : Keeps s0 s) :
    Keeps s0 (formBudget s) := by
  unfold formBudget
  try dsimp only
  with_reducible repeat' (first
      | exact hk | apply State.set_keeps | simp only [keeps_mk_iff]
      | (refine keeps_adc ?_ ?_ ?_ ?_ ?_; rotate_left; (all_goals first | rfl | skip)))

theorem formStale_keeps {s0 : State} (s : State) (hk : Keeps s0 s) :
    Keeps s0 (formStale s) := by
  unfold formStale
  try dsimp only
  with_reducible repeat' (first
      | exact hk | apply State.set_keeps | apply raise_keeps | split)

theorem shed_keeps {s0 : State} (s : State) (hk : Keeps s0 s) :
    Keeps s0 (shed s) := by
  unfold shed
  try dsimp only
  with_reducible repeat' (first
      | exact hk | apply notice_keeps | apply revokeLoop_keeps | split)

theorem formOver_keeps {s0 : State} (s : State) (hk : Keeps s0 s) :
    Keeps s0 (formOver s) := by
  unfold formOver
  try dsimp only
  with_reducible repeat' (first
      | exact hk | apply State.set_keeps | apply State.addWrap_keeps | apply raise_keeps | split)

theorem evalDirty_keeps {s0 : State} (s : State) (hk : Keeps s0 s) :
    Keeps s0 (evalDirty s) := by
  unfold evalDirty
  try dsimp only
  with_reducible repeat' (first
      | exact hk | apply evalCapacity_keeps | apply each_keeps | simp only [keeps_mk_iff]
      | (refine keeps_adc ?_ ?_ ?_ ?_ ?_; rotate_left; (all_goals first | rfl | skip)))

theorem formOverdraw_keeps {s0 : State} (s : State) (hk : Keeps s0 s) :
    Keeps s0 (formOverdraw s) := by
  unfold formOverdraw
  try dsimp only
  with_reducible repeat' (first
      | exact hk | apply State.set_keeps | apply raise_keeps | simp only [keeps_mk_iff]
      | (refine keeps_adc ?_ ?_ ?_ ?_ ?_; rotate_left; (all_goals first | rfl | skip)) | split)

theorem formHoldup_keeps {s0 : State} (s : State) (hk : Keeps s0 s) :
    Keeps s0 (formHoldup s) := by
  unfold formHoldup
  try dsimp only
  with_reducible repeat' (first
      | exact hk | apply State.set_keeps)

theorem ledgerUpdate_keeps {s0 : State} (s : State) (hk : Keeps s0 s) :
    Keeps s0 (ledgerUpdate s) := by
  unfold ledgerUpdate
  try dsimp only
  with_reducible repeat' (first
      | exact hk | apply formFit_keeps | apply formBudget_keeps | apply formStale_keeps | apply shed_keeps
      | apply formOver_keeps | apply evalDirty_keeps | apply formOverdraw_keeps | apply formHoldup_keeps
      | simp only [keeps_mk_iff] | (refine keeps_adc ?_ ?_ ?_ ?_ ?_; rotate_left; (all_goals first | rfl | skip)))

theorem execLedgerUpdate_keeps {s0 : State} (s : State) (hk : Keeps s0 s) :
    OutKeeps s0 (execLedgerUpdate s) := by
  unfold execLedgerUpdate
  try dsimp only
  with_reducible repeat' (first
      | exact hk | apply keeps_next | apply State.expire_keeps | apply ledgerUpdate_keeps | split)

theorem execLedgerDeadline_keeps {s0 : State} (s : State) (hk : Keeps s0 s) :
    OutKeeps s0 (execLedgerDeadline s) := by
  unfold execLedgerDeadline
  try dsimp only
  with_reducible repeat' (first
      | exact hk | apply keeps_next | apply State.expire_keeps | apply raise_keeps | apply ledgerUpdate_keeps | split)

theorem execDebitExpiry_keeps {s0 : State} (s : State) (hk : Keeps s0 s) :
    OutKeeps s0 (execDebitExpiry s) := by
  unfold execDebitExpiry
  try dsimp only
  with_reducible repeat' (first
      | exact hk | apply keeps_next | apply State.expire_keeps | simp only [keeps_mk_iff]
      | (refine keeps_adc ?_ ?_ ?_ ?_ ?_; rotate_left; (all_goals first | rfl | skip)) | split)

theorem execNrgFreeze_keeps {s0 : State} (freeze : Bool) (s : State) (hk : Keeps s0 s) :
    OutKeeps s0 (execNrgFreeze freeze s) := by
  unfold execNrgFreeze
  try dsimp only
  with_reducible repeat' (first
      | exact hk | apply keeps_next | apply State.set_keeps | apply formFit_keeps | split)

/-! ### Tasks -/

theorem runTask_keeps {s0 : State} (s : State) (e t : Nat) (hk : Keeps s0 s) :
    Keeps s0 (runTask s e t) := by
  unfold runTask
  try dsimp only
  with_reducible repeat' (first
      | assumption | apply State.set_keeps | apply State.setEngine_keeps | apply State.setTask_keeps)

theorem idleEngine_keeps {s0 : State} (s : State) (e : Nat) (hk : Keeps s0 s) :
    Keeps s0 (idleEngine s e) := by
  unfold idleEngine
  try dsimp only
  with_reducible repeat' (first
      | assumption | apply State.set_keeps | apply State.setEngine_keeps)

theorem dispatchLoop_keeps {s0 : State} (n : Nat) (s : State) (e : Nat) (cs : List Nat) (h : Keeps s0 s) :
    Keeps s0 (dispatchLoop n s e cs) := by
  induction n generalizing s cs with
  | zero => exact idleEngine_keeps s e h
  | succ n ih =>
    unfold dispatchLoop
    try dsimp only
    with_reducible repeat' (first
        | exact h | refine ledgerGrant_keeps (by assumption) ?_ | apply ih | apply State.setTask_keeps | apply State.setEngine_keeps
        | apply runTask_keeps | apply idleEngine_keeps | split)

theorem dispatch_keeps {s0 : State} (s : State) (e : Nat) (hk : Keeps s0 s) :
    Keeps s0 (dispatch s e) := by
  unfold dispatch
  try dsimp only
  with_reducible repeat' (first
      | assumption | apply State.setEngine_keeps | apply dispatchLoop_keeps | split)

theorem leaveClaim_keeps {s0 : State} (s : State) (c : Nat) (hk : Keeps s0 s) :
    Keeps s0 (leaveClaim s c) := by
  unfold leaveClaim
  try dsimp only
  with_reducible repeat' (first
      | assumption | apply dropClaim_keeps | apply releaseClaim_keeps | split)

theorem endTask_keeps {s0 : State} (s : State) (e t : Nat) (st : TaskState) (hk : Keeps s0 s) :
    Keeps s0 (endTask s e t st) := by
  unfold endTask
  try dsimp only
  with_reducible repeat' (first
      | assumption | apply State.setTask_keeps | apply leaveClaim_keeps | apply each_keeps)

theorem dispatchIf_keeps {s0 : State} (s : State) (e t : Nat) (hk : Keeps s0 s) :
    Keeps s0 (dispatchIf s e t) := by
  unfold dispatchIf
  try dsimp only
  with_reducible repeat' (first
      | assumption | apply dispatch_keeps | split)

theorem recordExc_keeps {s0 : State} (s : State) (e t cause : Nat) (hk : Keeps s0 s) :
    Keeps s0 (recordExc s e t cause) := by
  unfold recordExc
  try dsimp only
  with_reducible repeat' (first
      | assumption | apply State.set_keeps | apply State.setBit_keeps | apply State.addSat_keeps)

theorem raiseExc_keeps {s0 : State} (s : State) (e t cause : Nat) (hk : Keeps s0 s) :
    Keeps s0 (raiseExc s e t cause) := by
  unfold raiseExc
  try dsimp only
  with_reducible repeat' (first
      | assumption | apply raise_keeps | split)

theorem startTask_keeps {s0 : State} (s : State) (e t entry prio cls : Nat) (hk : Keeps s0 s) :
    Keeps s0 (startTask s e t entry prio cls) := by
  unfold startTask
  try dsimp only
  with_reducible repeat' (first
      | assumption | apply State.setTask_keeps)

theorem wipeTasks_keeps {s0 : State} (s : State) (e : Nat) (hk : Keeps s0 s) :
    Keeps s0 (wipeTasks s e) := by
  unfold wipeTasks
  try dsimp only
  with_reducible repeat' (first
      | assumption | apply State.setTask_keeps | apply each_keeps | (intro _))

theorem startEngine_keeps {s0 : State} (s : State) (e : Nat) (hk : Keeps s0 s) :
    Keeps s0 (startEngine s e) := by
  unfold startEngine
  try dsimp only
  with_reducible repeat' (first
      | assumption | apply State.set_keeps | apply dispatch_keeps | apply startTask_keeps | apply wipeTasks_keeps)

theorem loadEngineTable_keeps {s0 : State} (s : State) (e : Nat) (hk : Keeps s0 s) :
    Keeps s0 (loadEngineTable s e) := by
  unfold loadEngineTable
  try dsimp only
  with_reducible repeat' (first
      | assumption | apply State.set_keeps | split)

theorem takeOver_keeps {s0 : State} (s : State) (e : Nat) (hk : Keeps s0 s) :
    Keeps s0 (takeOver s e) := by
  unfold takeOver
  try dsimp only
  with_reducible repeat' (first
      | assumption | apply State.setEngine_keeps | apply wipeTasks_keeps | apply startEngine_keeps
      | apply loadEngineTable_keeps | split)

theorem finishHandover_keeps {s0 : State} (s : State) (e : Nat) (hk : Keeps s0 s) :
    Keeps s0 (finishHandover s e) := by
  unfold finishHandover
  try dsimp only
  with_reducible repeat' (first
      | assumption | apply takeOver_keeps | split)

theorem faultTask_keeps {s0 : State} (s : State) (e t : Nat) (hk : Keeps s0 s) :
    Keeps s0 (faultTask s e t) := by
  unfold faultTask
  try dsimp only
  with_reducible repeat' (first
      | assumption | apply raise_keeps | apply endTask_keeps | apply dispatchIf_keeps | apply takeOver_keeps | split)

theorem takeExc_keeps {s0 : State} (s : State) (e t cause : Nat) (hk : Keeps s0 s) :
    Keeps s0 (takeExc s e t cause) := by
  unfold takeExc
  try dsimp only
  with_reducible repeat' (first
      | assumption | apply State.setTask_keeps | apply recordExc_keeps | apply raiseExc_keeps | apply faultTask_keeps
      | split)

theorem deadlineExc_keeps {s0 : State} (s : State) (e t cause : Nat) (hk : Keeps s0 s) :
    Keeps s0 (deadlineExc s e t cause) := by
  unfold deadlineExc
  try dsimp only
  with_reducible repeat' (first
      | assumption | apply State.addSat_keeps | apply raiseExc_keeps | apply takeExc_keeps | split)

theorem makeReady_keeps {s0 : State} (s : State) (e t : Nat) (hk : Keeps s0 s) :
    Keeps s0 (makeReady s e t) := by
  unfold makeReady
  try dsimp only
  with_reducible repeat' (first
      | assumption | apply State.setTask_keeps)

theorem wakeTasks_keeps {s0 : State} (s : State) (p : Wait → Bool) (h : Keeps s0 s) : Keeps s0 (wakeTasks s p) := by
  unfold wakeTasks
  try dsimp only
  with_reducible repeat' (first
      | assumption | apply makeReady_keeps | apply each_keeps | (intro _) | split)

theorem wakePg_keeps {s0 : State} (s : State) (ch : Nat) (hk : Keeps s0 s) :
    Keeps s0 (wakePg s ch) := by
  unfold wakePg
  try dsimp only
  with_reducible repeat' (first
      | assumption | apply wakeTasks_keeps)

theorem wakeEvent_keeps {s0 : State} (s : State) (src : Nat) (hk : Keeps s0 s) :
    Keeps s0 (wakeEvent s src) := by
  unfold wakeEvent
  try dsimp only
  with_reducible repeat' (first
      | assumption | apply wakeTasks_keeps)

theorem wakeStep_keeps {s0 : State} (s : State) (n : Nat) (hk : Keeps s0 s) :
    Keeps s0 (wakeStep s n) := by
  unfold wakeStep
  try dsimp only
  with_reducible repeat' (first
      | assumption | apply wakeTasks_keeps)

theorem abortSteps_keeps {s0 : State} (s : State) (hk : Keeps s0 s) :
    Keeps s0 (abortSteps s) := by
  unfold abortSteps
  try dsimp only
  with_reducible repeat' (first
      | assumption | apply State.setTask_keeps | apply each_keeps | (intro _) | split)

theorem fetched_keeps {s0 : State} (s : State) (f : Fetch) (hk : Keeps s0 s) :
    Keeps s0 (fetched s f) := by
  unfold fetched
  try dsimp only
  with_reducible repeat' (first
      | assumption | apply State.addSat_keeps | split)

theorem memErr_keeps {s0 : State} (s : State) (e t : Nat) (hk : Keeps s0 s) :
    Keeps s0 (memErr s e t) := by
  unfold memErr
  try dsimp only
  with_reducible repeat' (first
      | assumption | apply State.setEngine_keeps | apply engineDrain_keeps | apply raise_keeps | apply recordExc_keeps)

theorem issue_keeps {s0 : State} (i : Issue) (w : Nat) (s : State) (body : State → Nat → Task → State) (h : Keeps s0 s)
    (hb : ∀ t n x, Keeps s0 t → Keeps s0 (body t n x)) : OutKeeps s0 (issue i w s body) := by
  unfold issue
  try dsimp only
  with_reducible repeat' (first
      | exact h | apply hb | apply keeps_next | apply State.setTask_keeps | apply takeExc_keeps | apply fetched_keeps
      | apply memErr_keeps | split)

theorem leaveRun_keeps {s0 : State} (s : State) (e t : Nat) (x : Task) (hk : Keeps s0 s) :
    Keeps s0 (leaveRun s e t x) := by
  unfold leaveRun
  try dsimp only
  with_reducible repeat' (first
      | assumption | apply State.setTask_keeps | apply dispatch_keeps)

/-! ### Channels -/

theorem forceDischarge_keeps {s0 : State} (s : State) (r : Rail) (hk : Keeps s0 s) :
    Keeps s0 (forceDischarge s r) := by
  unfold forceDischarge
  try dsimp only
  with_reducible repeat' (first
      | assumption | apply State.set_keeps | apply State.setOut_keeps | apply railOff_keeps | split)

theorem railFails_keeps {s0 : State} (s : State) (r : Rail) (hk : Keeps s0 s) :
    Keeps s0 (railFails s r) := by
  unfold railFails
  try dsimp only
  with_reducible repeat' (first
      | assumption | apply State.setBit_keeps | apply raise_keeps | apply forceDischarge_keeps | split)

theorem pgsReached_keeps {s0 : State} (s : State) (n : Nat) (hk : Keeps s0 s) :
    Keeps s0 (pgsReached s n) := by
  unfold pgsReached
  try dsimp only
  with_reducible repeat' (first
      | assumption | apply State.set_keeps | apply State.setSup_keeps | apply notice_keeps | apply wakePg_keeps
      | split)

theorem pgRise_keeps {s0 : State} (s : State) (n : Nat) (hk : Keeps s0 s) :
    Keeps s0 (pgRise s n) := by
  unfold pgRise
  try dsimp only
  with_reducible repeat' (first
      | assumption | apply State.set_keeps | apply State.setSup_keeps | apply pgsReached_keeps | split)

theorem pgFall_keeps {s0 : State} (s : State) (n : Nat) (hk : Keeps s0 s) :
    Keeps s0 (pgFall s n) := by
  unfold pgFall
  try dsimp only
  with_reducible repeat' (first
      | assumption | apply State.set_keeps | apply State.addSat_keeps | apply State.setSup_keeps | split)

theorem refreshPg_keeps {s0 : State} (s : State) (n : Nat) (hk : Keeps s0 s) :
    Keeps s0 (refreshPg s n) := by
  unfold refreshPg
  try dsimp only
  with_reducible repeat' (first
      | assumption | apply pgRise_keeps | apply pgFall_keeps | split)

theorem supEnterAll_keeps {s0 : State} (s : State) (r : Rail) (hk : Keeps s0 s) :
    Keeps s0 (supEnterAll s r) := by
  unfold supEnterAll
  try dsimp only
  with_reducible repeat' (first
      | assumption | apply refreshPg_keeps | apply each_keeps)

theorem supVerdict_keeps {s0 : State} (s : State) (r : Rail) (hk : Keeps s0 s) :
    Keeps s0 (supVerdict s r) := by
  unfold supVerdict
  try dsimp only
  with_reducible repeat' (first
      | assumption | apply State.set_keeps | apply State.setSup_keeps | apply each_keeps | (intro _))

theorem supRaise_keeps {s0 : State} (s : State) (n k : Nat) (cls : Cls) (hk : Keeps s0 s) :
    Keeps s0 (supRaise s n k cls) := by
  unfold supRaise
  try dsimp only
  with_reducible repeat' (first
      | assumption | apply raise_keeps | apply railFails_keeps | split)

/-! ### Targets -/

theorem startMotion_keeps {s0 : State} (s : State) (r : Rail) (start : Nat) (hk : Keeps s0 s) :
    Keeps s0 (startMotion s r start) := by
  unfold startMotion
  try dsimp only
  with_reducible repeat' (first
      | assumption | apply State.setOut_keeps)

theorem endFlight_keeps {s0 : State} (s : State) (p code : Nat) (hk : Keeps s0 s) :
    Keeps s0 (endFlight s p code) := by
  unfold endFlight
  try dsimp only
  with_reducible repeat' (first
      | assumption | apply State.addWrap_keeps | apply State.setPort_keeps | apply notice_keeps | split)

theorem endFlights_keeps {s0 : State} (s : State) (n code : Nat) (hk : Keeps s0 s) :
    Keeps s0 (endFlights s n code) := by
  unfold endFlights
  try dsimp only
  with_reducible repeat' (first
      | assumption | apply endFlight_keeps | apply each_keeps | (intro _))

theorem vclAlert_keeps {s0 : State} (s : State) (p b : Nat) (hk : Keeps s0 s) :
    Keeps s0 (vclAlert s p b) := by
  unfold vclAlert
  try dsimp only
  with_reducible repeat' (first
      | assumption | apply State.setBit_keeps | split)

theorem loopAlert_keeps {s0 : State} (s : State) (n b : Nat) (hk : Keeps s0 s) :
    Keeps s0 (loopAlert s n b) := by
  unfold loopAlert
  try dsimp only
  with_reducible repeat' (first
      | assumption | apply vclAlert_keeps | apply each_keeps | (intro _))

theorem setTarget_keeps {s0 : State} (s : State) (n vid rate : Nat) (hk : Keeps s0 s) :
    Keeps s0 (setTarget s n vid rate) := by
  unfold setTarget
  try dsimp only
  with_reducible repeat' (first
      | assumption | apply State.set_keeps | apply State.setLoop_keeps | apply endFlights_keeps)

theorem setVset_keeps {s0 : State} (s : State) (r : Rail) (f : Field) (v rate : Nat) (hk : Keeps s0 s) :
    Keeps s0 (setVset s r f v rate) := by
  unfold setVset
  try dsimp only
  with_reducible repeat' (first
      | assumption | apply State.set_keeps | apply State.setOut_keeps | split)

theorem dirtyRail_keeps {s0 : State} (s : State) (r : Rail) (hk : Keeps s0 s) :
    Keeps s0 (dirtyRail s r) := by
  unfold dirtyRail
  try dsimp only
  with_reducible repeat' (first
      | assumption | simp only [keeps_mk_iff]
      | (refine keeps_adc ?_ ?_ ?_ ?_ ?_; rotate_left; (all_goals first | rfl | skip)))

theorem dirtyLimits_keeps {s0 : State} (s : State) (hk : Keeps s0 s) :
    Keeps s0 (dirtyLimits s) := by
  unfold dirtyLimits
  try dsimp only
  with_reducible repeat' (first
      | assumption | simp only [keeps_mk_iff]
      | (refine keeps_adc ?_ ?_ ?_ ?_ ?_; rotate_left; (all_goals first | rfl | skip)))

/-! ### Enable -/

theorem freePhase_keeps {s0 : State} (s : State) (k : Nat) (hk : Keeps s0 s) :
    Keeps s0 (freePhase s k) := by
  unfold freePhase
  try dsimp only
  with_reducible repeat' (first
      | assumption | apply State.set_keeps | apply State.setPhase_keeps)

theorem reservePhases_keeps {s0 : State} (s : State) (hk : Keeps s0 s) :
    Keeps s0 (reservePhases s) := by
  unfold reservePhases
  try dsimp only
  with_reducible repeat' (first
      | assumption | apply State.set_keeps | apply State.setPhase_keeps | apply freePhase_keeps | apply each_keeps
      | (intro _) | split)

theorem assignPhases_keeps {s0 : State} (s : State) (n : Nat) (hk : Keeps s0 s) :
    Keeps s0 (assignPhases s n) := by
  unfold assignPhases
  try dsimp only
  with_reducible repeat' (first
      | assumption | apply State.set_keeps | apply State.setPhase_keeps | apply each_keeps | (intro _))

theorem startCheck_keeps {s0 : State} (s : State) (r : Rail) (hk : Keeps s0 s) :
    Keeps s0 (startCheck s r) := by
  unfold startCheck
  try dsimp only
  with_reducible repeat' (first
      | assumption | apply State.set_keeps | apply State.setLoop_keeps | apply State.setOut_keeps
      | apply reservePhases_keeps | split)

theorem endRailons_keeps {s0 : State} (s : State) (r : Rail) (code : State → Nat → Nat → Nat) (h : Keeps s0 s) :
    Keeps s0 (endRailons s r code) := by
  unfold endRailons
  try dsimp only
  with_reducible repeat' (first
      | assumption | apply State.setTask_keeps | apply finishHandover_keeps | apply each_keeps | (intro _) | split)

theorem completeRailon_keeps {s0 : State} (s : State) (r : Rail) (code : Nat) (hk : Keeps s0 s) :
    Keeps s0 (completeRailon s r code) := by
  unfold completeRailon
  try dsimp only
  with_reducible repeat' (first
      | assumption | apply endRailons_keeps)

theorem commitOrder_keeps {s0 : State} (s : State) (r : Rail) (hk : Keeps s0 s) :
    Keeps s0 (commitOrder s r) := by
  unfold commitOrder
  try dsimp only
  with_reducible repeat' (first
      | assumption | apply nextSeq_keeps | simp only [keeps_mk_iff]
      | (refine keeps_adc ?_ ?_ ?_ ?_ ?_; rotate_left; (all_goals first | rfl | skip)))

theorem refuseRail_keeps {s0 : State} (s : State) (r : Rail) (code : Nat) (hk : Keeps s0 s) :
    Keeps s0 (refuseRail s r code) := by
  unfold refuseRail
  try dsimp only
  with_reducible repeat' (first
      | assumption | apply State.set_keeps | apply notice_keeps | apply reservePhases_keeps | split)

theorem startLoop_keeps {s0 : State} (s : State) (n : Fin 6) (start : Nat) (hk : Keeps s0 s) :
    Keeps s0 (startLoop s n start) := by
  unfold startLoop
  try dsimp only
  with_reducible repeat' (first
      | assumption | apply State.set_keeps | apply State.setLoop_keeps | apply dirtyLimits_keeps
      | apply assignPhases_keeps)

theorem startOutput_keeps {s0 : State} (s : State) (r : Rail) (start : Nat) (hk : Keeps s0 s) :
    Keeps s0 (startOutput s r start) := by
  unfold startOutput
  try dsimp only
  with_reducible repeat' (first
      | assumption | apply State.set_keeps | apply State.setOut_keeps | apply startMotion_keeps | split)

theorem acceptRail_keeps {s0 : State} (s : State) (r : Rail) (start : Nat) (hk : Keeps s0 s) :
    Keeps s0 (acceptRail s r start) := by
  unfold acceptRail
  try dsimp only
  with_reducible repeat' (first
      | assumption | apply supVerdict_keeps | apply commitOrder_keeps | apply startLoop_keeps
      | apply startOutput_keeps | split)

end Sys2Proof.Machine
end

