-- ==== Sys2Proof/Laws/KeepsEngines.lean ====
section
/-! SUPPORT. `Keeps` of the charger and the instructions of the engines. -/

namespace Sys2Proof.Machine

/-! ### Charger -/

theorem State.setChg_keeps {s0 : State} (s : State) (c : Charger) (hk : Keeps s0 s) :
    Keeps s0 (State.setChg s c) := by
  unfold State.setChg
  try dsimp only
  with_reducible repeat' (first
      | assumption | simp only [keeps_mk_iff]
      | (refine keeps_adc ?_ ?_ ?_ ?_ ?_; rotate_left; (all_goals first | rfl | skip)))

theorem chgEnter_keeps {s0 : State} (s : State) (st : Nat) (hk : Keeps s0 s) :
    Keeps s0 (chgEnter s st) := by
  unfold chgEnter
  try dsimp only
  with_reducible repeat' (first
      | assumption | apply State.set_keeps | apply notice_keeps | apply bankFull_keeps | apply breakRest_keeps
      | apply State.setChg_keeps | split)

theorem followTemp_keeps {s0 : State} (s : State) (hk : Keeps s0 s) :
    Keeps s0 (followTemp s) := by
  unfold followTemp
  try dsimp only
  with_reducible repeat' (first
      | assumption | apply notice_keeps | apply State.setChg_keeps | split)

theorem followCauses_keeps {s0 : State} (s : State) (hk : Keeps s0 s) :
    Keeps s0 (followCauses s) := by
  unfold followCauses
  try dsimp only
  with_reducible repeat' (first
      | assumption | apply State.setChg_keeps | apply chgEnter_keeps | split)

theorem chgRefresh_keeps {s0 : State} (s : State) (hk : Keeps s0 s) :
    Keeps s0 (chgRefresh s) := by
  unfold chgRefresh
  try dsimp only
  with_reducible repeat' (first
      | assumption | apply followTemp_keeps | apply followCauses_keeps)

theorem chgGo_keeps {s0 : State} (s : State) (st : Nat) (hk : Keeps s0 s) :
    Keeps s0 (chgGo s st) := by
  unfold chgGo
  try dsimp only
  with_reducible repeat' (first
      | assumption | apply chgEnter_keeps | apply chgRefresh_keeps)

theorem chgStart_keeps {s0 : State} (s : State) (st : Nat) (hk : Keeps s0 s) :
    Keeps s0 (chgStart s st) := by
  unfold chgStart
  try dsimp only
  with_reducible repeat' (first
      | assumption | apply State.set_keeps | apply chgGo_keeps)

theorem chgMissing_keeps {s0 : State} (s : State) (hk : Keeps s0 s) :
    Keeps s0 (chgMissing s) := by
  unfold chgMissing
  try dsimp only
  with_reducible repeat' (first
      | assumption | apply raise_keeps | apply chgEnter_keeps)

theorem chgEnable_keeps {s0 : State} (s : State) (hk : Keeps s0 s) :
    Keeps s0 (chgEnable s) := by
  unfold chgEnable
  try dsimp only
  with_reducible repeat' (first
      | assumption | apply State.set_keeps | apply chgEnter_keeps | apply followTemp_keeps | split)

theorem execChgEnable_keeps {s0 : State} (s : State) (hk : Keeps s0 s) :
    OutKeeps s0 (execChgEnable s) := by
  unfold execChgEnable
  try dsimp only
  with_reducible repeat' (first
      | assumption | apply keeps_next | apply chgEnable_keeps | split)

theorem execChgDisable_keeps {s0 : State} (s : State) (hk : Keeps s0 s) :
    OutKeeps s0 (execChgDisable s) := by
  unfold execChgDisable
  try dsimp only
  with_reducible repeat' (first
      | assumption | apply keeps_next | apply State.setChg_keeps | split)

theorem chgDrained_keeps {s0 : State} (s : State) (hk : Keeps s0 s) :
    Keeps s0 (chgDrained s) := by
  unfold chgDrained
  try dsimp only
  with_reducible repeat' (first
      | assumption | apply State.set_keeps | apply State.setChg_keeps | apply chgEnter_keeps | split)

theorem execProbeStart_keeps {s0 : State} (s : State) (hk : Keeps s0 s) :
    OutKeeps s0 (execProbeStart s) := by
  unfold execProbeStart
  try dsimp only
  with_reducible repeat' (first
      | assumption | apply keeps_next | apply State.setChg_keeps | split)

theorem probeMissing_keeps {s0 : State} (s : State) (hk : Keeps s0 s) :
    Keeps s0 (probeMissing s) := by
  unfold probeMissing
  try dsimp only
  with_reducible repeat' (first
      | assumption | apply State.setWear_keeps | apply chgMissing_keeps)

theorem bankDetected_keeps {s0 : State} (s : State) (start : Nat) (hk : Keeps s0 s) :
    Keeps s0 (bankDetected s start) := by
  unfold bankDetected
  try dsimp only
  with_reducible repeat' (first
      | assumption | apply setQFrom_keeps | split)

theorem probePresent_keeps {s0 : State} (s : State) (start : Nat) (short : Bool) (term : Bool) (hk : Keeps s0 s) :
    Keeps s0 (probePresent s start short term) := by
  unfold probePresent
  try dsimp only
  with_reducible repeat' (first
      | assumption | apply State.setChg_keeps | apply chgEnter_keeps | apply chgRefresh_keeps | apply chgStart_keeps
      | apply bankDetected_keeps | split)

theorem execProbeEnd_keeps {s0 : State} (start drop : Nat) (s : State) (hk : Keeps s0 s) :
    OutKeeps s0 (execProbeEnd start drop s) := by
  unfold execProbeEnd
  try dsimp only
  with_reducible repeat' (first
      | assumption | apply keeps_next | apply State.expire_keeps | apply State.setChg_keeps | apply probeMissing_keeps
      | apply probePresent_keeps | split)

theorem afterInState_keeps {s0 : State} (s : State) (t : Nat) (hk : Keeps s0 s) :
    Keeps s0 (afterInState s t) := by
  unfold afterInState
  try dsimp only
  with_reducible repeat' (first
      | assumption | apply State.expire_keeps)

theorem enterAfter_keeps {s0 : State} (s : State) (t st : Nat) (hk : Keeps s0 s) :
    Keeps s0 (enterAfter s t st) := by
  unfold enterAfter
  try dsimp only
  with_reducible repeat' (first
      | assumption | apply chgEnter_keeps | apply afterInState_keeps)

theorem execPrechargeExit_keeps {s0 : State} (bkb : Nat) (s : State) (hk : Keeps s0 s) :
    OutKeeps s0 (execPrechargeExit bkb s) := by
  unfold execPrechargeExit
  try dsimp only
  with_reducible repeat' (first
      | assumption | apply keeps_next | apply chgGo_keeps | split)

theorem execBankShortDetect_keeps {s0 : State} (bkb : Nat) (s : State) (hk : Keeps s0 s) :
    OutKeeps s0 (execBankShortDetect bkb s) := by
  unfold execBankShortDetect
  try dsimp only
  with_reducible repeat' (first
      | assumption | apply keeps_next | apply raise_keeps | apply State.setChg_keeps | apply enterAfter_keeps | split)

theorem execChgCvEntry_keeps {s0 : State} (bkb : Nat) (s : State) (hk : Keeps s0 s) :
    OutKeeps s0 (execChgCvEntry bkb s) := by
  unfold execChgCvEntry
  try dsimp only
  with_reducible repeat' (first
      | assumption | apply keeps_next | apply chgGo_keeps | split)

theorem execChgTermination_keeps {s0 : State} (current : Nat) (s : State) (hk : Keeps s0 s) :
    OutKeeps s0 (execChgTermination current s) := by
  unfold execChgTermination
  try dsimp only
  with_reducible repeat' (first
      | assumption | apply keeps_next | apply State.expire_keeps | apply State.setChg_keeps | apply chgRefresh_keeps
      | split)

theorem execTopoffEnd_keeps {s0 : State} (s : State) (hk : Keeps s0 s) :
    OutKeeps s0 (execTopoffEnd s) := by
  unfold execTopoffEnd
  try dsimp only
  with_reducible repeat' (first
      | assumption | apply keeps_next | apply enterAfter_keeps | split)

theorem execRechargeStart_keeps {s0 : State} (bkb : Nat) (s : State) (hk : Keeps s0 s) :
    OutKeeps s0 (execRechargeStart bkb s) := by
  unfold execRechargeStart
  try dsimp only
  with_reducible repeat' (first
      | assumption | apply keeps_next | apply chgStart_keeps | split)

theorem execBankRemoval_keeps {s0 : State} (bkb rise current : Nat) (s : State) (hk : Keeps s0 s) :
    OutKeeps s0 (execBankRemoval bkb rise current s) := by
  unfold execBankRemoval
  try dsimp only
  with_reducible repeat' (first
      | assumption | apply keeps_next | apply State.setWear_keeps | apply chgMissing_keeps | split)

theorem execSafetyTimerTick_keeps {s0 : State} (actual cv : Nat) (s : State) (hk : Keeps s0 s) :
    OutKeeps s0 (execSafetyTimerTick actual cv s) := by
  unfold execSafetyTimerTick
  try dsimp only
  with_reducible repeat' (first
      | assumption | apply keeps_next | apply State.set_keeps | apply State.addSat_keeps | apply State.fresh_keeps
      | split)

theorem execChgTimeout_keeps {s0 : State} (s : State) (hk : Keeps s0 s) :
    OutKeeps s0 (execChgTimeout s) := by
  unfold execChgTimeout
  try dsimp only
  with_reducible repeat' (first
      | assumption | apply keeps_next | apply raise_keeps | apply State.setChg_keeps | apply chgEnter_keeps | split)

theorem execChgHostSuspend_keeps {s0 : State} (on : Bool) (s : State) (hk : Keeps s0 s) :
    OutKeeps s0 (execChgHostSuspend on s) := by
  unfold execChgHostSuspend
  try dsimp only
  with_reducible repeat' (first
      | assumption | apply keeps_next | apply State.set_keeps | apply chgRefresh_keeps | split)

theorem execChgClrflt_keeps {s0 : State} (s : State) (hk : Keeps s0 s) :
    OutKeeps s0 (execChgClrflt s) := by
  unfold execChgClrflt
  try dsimp only
  with_reducible repeat' (first
      | assumption | apply keeps_next | apply State.setChg_keeps | apply chgEnter_keeps | split)

theorem execChgTargetRecompute_keeps {s0 : State} (iVaux iChgIn vsys vBank cv : Nat) (s : State) (hk : Keeps s0 s) :
    OutKeeps s0 (execChgTargetRecompute iVaux iChgIn vsys vBank cv s) := by
  unfold execChgTargetRecompute
  try dsimp only
  with_reducible repeat' (first
      | assumption | apply keeps_next | apply State.set_keeps | apply State.fresh_keeps | apply notice_keeps
      | apply breakRest_keeps | apply State.setChg_keeps | split)

theorem execChgOv_keeps {s0 : State} (bkb : Nat) (s : State) (hk : Keeps s0 s) :
    OutKeeps s0 (execChgOv bkb s) := by
  unfold execChgOv
  try dsimp only
  with_reducible repeat' (first
      | assumption | apply keeps_next | apply raise_keeps | apply State.setChg_keeps | split)

theorem execChgDeadline_keeps {s0 : State} (s : State) (hk : Keeps s0 s) :
    OutKeeps s0 (execChgDeadline s) := by
  unfold execChgDeadline
  try dsimp only
  with_reducible repeat' (first
      | assumption | apply keeps_next | apply raise_keeps | split)

theorem State.setVdrv_keeps {s0 : State} (s : State) (v : Vdrv) (hk : Keeps s0 s) :
    Keeps s0 (State.setVdrv s v) := by
  unfold State.setVdrv
  try dsimp only
  with_reducible repeat' (first
      | assumption | simp only [keeps_mk_iff]
      | (refine keeps_adc ?_ ?_ ?_ ?_ ?_; rotate_left; (all_goals first | rfl | skip)))

theorem vdrvSwitch_keeps {s0 : State} (s : State) (on : Bool) (hk : Keeps s0 s) :
    Keeps s0 (vdrvSwitch s on) := by
  unfold vdrvSwitch
  try dsimp only
  with_reducible repeat' (first
      | assumption | apply State.set_keeps | apply State.setVdrv_keeps)

theorem execVdrvPowerGood_keeps {s0 : State} (good : Bool) (s : State) (hk : Keeps s0 s) :
    OutKeeps s0 (execVdrvPowerGood good s) := by
  unfold execVdrvPowerGood
  try dsimp only
  with_reducible repeat' (first
      | assumption | apply keeps_next | apply State.set_keeps | apply State.setChg_keeps | apply chgRefresh_keeps
      | apply State.setVdrv_keeps | split)

theorem loopsOff_keeps {s0 : State} (s : State) (hk : Keeps s0 s) :
    Keeps s0 (loopsOff s) := by
  unfold loopsOff
  try dsimp only
  with_reducible repeat' (first
      | assumption | apply railOff_keeps | apply each_keeps | (intro _))

theorem execVdrvUv_keeps {s0 : State} (s : State) (hk : Keeps s0 s) :
    OutKeeps s0 (execVdrvUv s) := by
  unfold execVdrvUv
  try dsimp only
  with_reducible repeat' (first
      | assumption | apply keeps_next | apply State.expire_keeps | apply State.set_keeps | apply raise_keeps
      | apply State.setChg_keeps | apply chgRefresh_keeps | apply loopsOff_keeps | split)

theorem execVdrvHiccup_keeps {s0 : State} (s : State) (hk : Keeps s0 s) :
    OutKeeps s0 (execVdrvHiccup s) := by
  unfold execVdrvHiccup
  try dsimp only
  with_reducible repeat' (first
      | assumption | apply keeps_next | apply State.expire_keeps | apply State.set_keeps | apply State.setVdrv_keeps
      | split)

theorem execVdrvRestart_keeps {s0 : State} (s : State) (hk : Keeps s0 s) :
    OutKeeps s0 (execVdrvRestart s) := by
  unfold execVdrvRestart
  try dsimp only
  with_reducible repeat' (first
      | assumption | apply keeps_next | apply State.expire_keeps | apply State.setVdrv_keeps | split)

theorem execVdrvIlim_keeps {s0 : State} (active : Bool) (s : State) (hk : Keeps s0 s) :
    OutKeeps s0 (execVdrvIlim active s) := by
  unfold execVdrvIlim
  try dsimp only
  with_reducible repeat' (first
      | assumption | apply keeps_next | apply State.set_keeps | apply raise_keeps | apply State.setVdrv_keeps | split)

theorem execAon18Ilim_keeps {s0 : State} (active : Bool) (s : State) (hk : Keeps s0 s) :
    OutKeeps s0 (execAon18Ilim active s) := by
  unfold execAon18Ilim
  try dsimp only
  with_reducible repeat' (first
      | assumption | apply keeps_next | apply State.set_keeps | apply raise_keeps | split)

/-! ### Power -/

theorem endPower_keeps {s0 : State} (s : State) (e t : Nat) (wd code : Nat) (hk : Keeps s0 s) :
    Keeps s0 (endPower s e t wd code) := by
  unfold endPower
  try dsimp only
  with_reducible repeat' (first
      | assumption | apply State.setTask_keeps)

theorem railonBody_keeps {s0 : State} (r : Rail) (wd e : Nat) (s : State) (t : Nat) (x : Task) (hk : Keeps s0 s) :
    Keeps s0 (railonBody r wd e s t x) := by
  unfold railonBody
  try dsimp only
  with_reducible repeat' (first
      | assumption | apply State.setTask_keeps | apply takeExc_keeps | apply startCheck_keeps | split)

theorem execRailon_keeps {s0 : State} (i : Issue) (rail : Rail) (wd : Fin 16) (s : State) (hk : Keeps s0 s) :
    OutKeeps s0 (execRailon i rail wd s) := by
  unfold execRailon
  try dsimp only
  with_reducible repeat' (first
      | assumption | apply issue_keeps | apply railonBody_keeps)

theorem execRailonVerdict_keeps {s0 : State} (rail : Rail) (vin start : Nat) (s : State) (hk : Keeps s0 s) :
    OutKeeps s0 (execRailonVerdict rail vin start s) := by
  unfold execRailonVerdict
  try dsimp only
  with_reducible repeat' (first
      | assumption | apply keeps_next | apply endRailons_keeps | apply completeRailon_keeps | apply refuseRail_keeps
      | apply acceptRail_keeps | split)

theorem execRailonAfterDrain_keeps {s0 : State} (e : Fin 4) (s : State) (hk : Keeps s0 s) :
    OutKeeps s0 (execRailonAfterDrain e s) := by
  unfold execRailonAfterDrain
  try dsimp only
  with_reducible repeat' (first
      | assumption | apply keeps_next | apply State.setTask_keeps | apply finishHandover_keeps
      | apply startCheck_keeps | split)

theorem execRailoff_keeps {s0 : State} (i : Issue) (rail : Rail) (s : State) (hk : Keeps s0 s) :
    OutKeeps s0 (execRailoff i rail s) := by
  unfold execRailoff
  try dsimp only
  with_reducible repeat' (first
      | assumption | apply State.setTask_keeps | apply railOff_keeps | apply issue_keeps | (intro _))

theorem commitSetv_keeps {s0 : State} (s : State) (r : Rail) (v slew : Nat) (hk : Keeps s0 s) :
    Keeps s0 (commitSetv s r v slew) := by
  unfold commitSetv
  try dsimp only
  with_reducible repeat' (first
      | assumption | apply State.set_keeps | apply setTarget_keeps | apply setVset_keeps | apply dirtyRail_keeps
      | split)

theorem execSetv_keeps {s0 : State} (i : Issue) (rail : Rail) (src : SetvSrc) (wd : Fin 16) (s : State) (hk : Keeps s0 s) :
    OutKeeps s0 (execSetv i rail src wd s) := by
  unfold execSetv
  try dsimp only
  with_reducible repeat' (first
      | assumption | apply State.setTask_keeps | apply issue_keeps | apply commitSetv_keeps | (intro _) | split)

theorem execSetslew_keeps {s0 : State} (i : Issue) (rail : Rail) (slew : BitVec 9) (wd : Fin 16) (s : State) (hk : Keeps s0 s) :
    OutKeeps s0 (execSetslew i rail slew wd s) := by
  unfold execSetslew
  try dsimp only
  with_reducible repeat' (first
      | assumption | apply State.set_keeps | apply State.setTask_keeps | apply issue_keeps | (intro _) | split)

theorem execPhases_keeps {s0 : State} (i : Issue) (rail : Rail) (ws wd : Fin 16) (s : State) (hk : Keeps s0 s) :
    OutKeeps s0 (execPhases i rail ws wd s) := by
  unfold execPhases
  try dsimp only
  with_reducible repeat' (first
      | assumption | apply State.set_keeps | apply State.setTask_keeps | apply issue_keeps | (intro _) | split)

/-! ### Waits -/

theorem enterWait_keeps {s0 : State} (s : State) (e t : Nat) (x : Task) (w : Wait) (hk : Keeps s0 s) :
    Keeps s0 (enterWait s e t x w) := by
  unfold enterWait
  try dsimp only
  with_reducible repeat' (first
      | assumption | apply leaveRun_keeps)

theorem execWaitpg_keeps {s0 : State} (i : Issue) (ch : Fin 64) (deadline : BitVec 16) (s : State) (hk : Keeps s0 s) :
    OutKeeps s0 (execWaitpg i ch deadline s) := by
  unfold execWaitpg
  try dsimp only
  with_reducible repeat' (first
      | assumption | apply State.setTask_keeps | apply issue_keeps | apply enterWait_keeps | (intro _) | split)

theorem execWaitt_keeps {s0 : State} (i : Issue) (duration : BitVec 16) (slack : BitVec 8) (s : State) (hk : Keeps s0 s) :
    OutKeeps s0 (execWaitt i duration slack s) := by
  unfold execWaitt
  try dsimp only
  with_reducible repeat' (first
      | assumption | apply issue_keeps | apply enterWait_keeps | (intro _))

theorem execWaittReady_keeps {s0 : State} (e : Fin 4) (t : Fin 16) (s : State) (hk : Keeps s0 s) :
    OutKeeps s0 (execWaittReady e t s) := by
  unfold execWaittReady
  try dsimp only
  with_reducible repeat' (first
      | assumption | apply keeps_next | apply State.expire_keeps | apply State.setTask_keeps | split)

theorem execWaitev_keeps {s0 : State} (i : Issue) (src : BitVec 9) (l : Bool) (deadline : BitVec 16) (s : State) (hk : Keeps s0 s) :
    OutKeeps s0 (execWaitev i src l deadline s) := by
  unfold execWaitev
  try dsimp only
  with_reducible repeat' (first
      | assumption | apply State.setTask_keeps | apply issue_keeps | apply enterWait_keeps | (intro _) | split)

theorem execWaitDeadline_keeps {s0 : State} (e : Fin 4) (t : Fin 16) (s : State) (hk : Keeps s0 s) :
    OutKeeps s0 (execWaitDeadline e t s) := by
  unfold execWaitDeadline
  try dsimp only
  with_reducible repeat' (first
      | assumption | apply keeps_next | apply State.expire_keeps | apply State.setTask_keeps | apply deadlineExc_keeps
      | split)

theorem execRunDeadline_keeps {s0 : State} (e : Fin 4) (s : State) (hk : Keeps s0 s) :
    OutKeeps s0 (execRunDeadline e s) := by
  unfold execRunDeadline
  try dsimp only
  with_reducible repeat' (first
      | assumption | apply keeps_next | apply State.expire_keeps | apply State.setTask_keeps | apply deadlineExc_keeps
      | split)

/-! ### Claims -/

theorem claimFree_keeps {s0 : State} (s : State) (e t c : Nat) (x : Task) (deadline : Option Nat) (hk : Keeps s0 s) :
    Keeps s0 (claimFree s e t c x deadline) := by
  unfold claimFree
  try dsimp only
  with_reducible repeat' (first
      | assumption | apply State.addWrap_keeps | apply State.setTask_keeps | apply grant_keeps
      | apply submitClaim_keeps | apply leaveRun_keeps | split)

theorem claimRevoked_keeps {s0 : State} (s : State) (e t : Nat) (x : Task) (hk : Keeps s0 s) :
    Keeps s0 (claimRevoked s e t x) := by
  unfold claimRevoked
  try dsimp only
  with_reducible repeat' (first
      | assumption | apply State.addWrap_keeps | apply leaveRun_keeps)

theorem claimBody_keeps {s0 : State} (s : State) (e t c : Nat) (x : Task) (deadline : Option Nat) (hk : Keeps s0 s) :
    Keeps s0 (claimBody s e t c x deadline) := by
  unfold claimBody
  try dsimp only
  with_reducible repeat' (first
      | assumption | apply State.addWrap_keeps | apply State.setTask_keeps | apply dropClaim_keeps
      | apply submitClaim_keeps | apply claimFree_keeps | apply claimRevoked_keeps | split)

theorem execClaim_keeps {s0 : State} (i : Issue) (id : Fin 64) (deadline : BitVec 16) (s : State) (hk : Keeps s0 s) :
    OutKeeps s0 (execClaim i id deadline s) := by
  unfold execClaim
  try dsimp only
  with_reducible repeat' (first
      | assumption | apply State.setTask_keeps | apply takeExc_keeps | apply issue_keeps | apply claimBody_keeps
      | (intro _) | split)

theorem execClaimDeadline_keeps {s0 : State} (e : Fin 4) (t : Fin 16) (s : State) (hk : Keeps s0 s) :
    OutKeeps s0 (execClaimDeadline e t s) := by
  unfold execClaimDeadline
  try dsimp only
  with_reducible repeat' (first
      | assumption | apply keeps_next | apply State.expire_keeps | apply State.setTask_keeps | apply dropClaim_keeps
      | apply deadlineExc_keeps | split)

theorem execRelease_keeps {s0 : State} (i : Issue) (id : Fin 64) (s : State) (hk : Keeps s0 s) :
    OutKeeps s0 (execRelease i id s) := by
  unfold execRelease
  try dsimp only
  with_reducible repeat' (first
      | assumption | apply State.setTask_keeps | apply dropClaim_keeps | apply releaseClaim_keeps
      | apply takeExc_keeps | apply issue_keeps | (intro _) | split)

theorem reclaimTo_keeps {s0 : State} (s : State) (c v : Nat) (hk : Keeps s0 s) :
    Keeps s0 (reclaimTo s c v).2 := by
  unfold reclaimTo
  try dsimp only
  with_reducible repeat' (first
      | assumption | apply State.setClaim_keeps | apply formFit_keeps | apply evalCapacity_keeps | split)

theorem execReclaim_keeps {s0 : State} (i : Issue) (id : Fin 64) (ws : Fin 16) (s : State) (hk : Keeps s0 s) :
    OutKeeps s0 (execReclaim i id ws s) := by
  unfold execReclaim
  try dsimp only
  with_reducible repeat' (first
      | assumption | apply State.setTask_keeps | apply takeExc_keeps | apply issue_keeps | apply reclaimTo_keeps
      | (intro _) | split)

/-! ### Arith -/

theorem onTask_keeps {s0 : State} (i : Issue) (w : Nat) (s : State) (f : Task → Task) (h : Keeps s0 s) :
    OutKeeps s0 (onTask i w s f) := by
  unfold onTask
  try dsimp only
  with_reducible repeat' (first
      | assumption | apply State.setTask_keeps | apply issue_keeps | (intro _))

theorem execMovReg_keeps {s0 : State} (i : Issue) (wd ws : Fin 16) (s : State) (hk : Keeps s0 s) :
    OutKeeps s0 (execMovReg i wd ws s) := by
  unfold execMovReg
  try dsimp only
  with_reducible repeat' (first
      | exact hk | apply onTask_keeps)

theorem execMovImm_keeps {s0 : State} (i : Issue) (wd : Fin 16) (imm : BitVec 22) (s : State) (hk : Keeps s0 s) :
    OutKeeps s0 (execMovImm i wd imm s) := by
  unfold execMovImm
  try dsimp only
  with_reducible repeat' (first
      | exact hk | apply onTask_keeps)

theorem execMovConst_keeps {s0 : State} (i : Issue) (wd : Fin 16) (k : BitVec 13) (read : Fetch) (s : State) (hk : Keeps s0 s) :
    OutKeeps s0 (execMovConst i wd k read s) := by
  unfold execMovConst
  try dsimp only
  with_reducible repeat' (first
      | assumption | apply State.setTask_keeps | apply fetched_keeps | apply memErr_keeps | apply issue_keeps
      | (intro _) | split)

theorem execAdd_keeps {s0 : State} (i : Issue) (wd ws : Fin 16) (src : AluSrc) (s : State) (hk : Keeps s0 s) :
    OutKeeps s0 (execAdd i wd ws src s) := by
  unfold execAdd
  try dsimp only
  with_reducible repeat' (first
      | exact hk | apply onTask_keeps)

theorem execSub_keeps {s0 : State} (i : Issue) (wd ws : Fin 16) (src : AluSrc) (s : State) (hk : Keeps s0 s) :
    OutKeeps s0 (execSub i wd ws src s) := by
  unfold execSub
  try dsimp only
  with_reducible repeat' (first
      | exact hk | apply onTask_keeps)

theorem execAnd_keeps {s0 : State} (i : Issue) (wd ws : Fin 16) (src : AluSrc) (s : State) (hk : Keeps s0 s) :
    OutKeeps s0 (execAnd i wd ws src s) := by
  unfold execAnd
  try dsimp only
  with_reducible repeat' (first
      | exact hk | apply onTask_keeps)

theorem execOr_keeps {s0 : State} (i : Issue) (wd ws : Fin 16) (src : AluSrc) (s : State) (hk : Keeps s0 s) :
    OutKeeps s0 (execOr i wd ws src s) := by
  unfold execOr
  try dsimp only
  with_reducible repeat' (first
      | exact hk | apply onTask_keeps)

theorem execCmp_keeps {s0 : State} (i : Issue) (ws : Fin 16) (src : AluSrc) (s : State) (hk : Keeps s0 s) :
    OutKeeps s0 (execCmp i ws src s) := by
  unfold execCmp
  try dsimp only
  with_reducible repeat' (first
      | exact hk | apply onTask_keeps)

theorem execShr_keeps {s0 : State} (i : Issue) (wd ws : Fin 16) (src : ShrSrc) (s : State) (hk : Keeps s0 s) :
    OutKeeps s0 (execShr i wd ws src s) := by
  unfold execShr
  try dsimp only
  with_reducible repeat' (first
      | exact hk | apply onTask_keeps)

/-! ### Flow -/

theorem execJmp_keeps {s0 : State} (i : Issue) (target : BitVec 13) (s : State) (hk : Keeps s0 s) :
    OutKeeps s0 (execJmp i target s) := by
  unfold execJmp
  try dsimp only
  with_reducible repeat' (first
      | assumption | apply State.setTask_keeps | apply issue_keeps | (intro _))

theorem execBcc_keeps {s0 : State} (i : Issue) (cond : Cond) (target : BitVec 13) (s : State) (hk : Keeps s0 s) :
    OutKeeps s0 (execBcc i cond target s) := by
  unfold execBcc
  try dsimp only
  with_reducible repeat' (first
      | assumption | apply State.setTask_keeps | apply issue_keeps | (intro _))

theorem execCall_keeps {s0 : State} (i : Issue) (target : BitVec 13) (s : State) (hk : Keeps s0 s) :
    OutKeeps s0 (execCall i target s) := by
  unfold execCall
  try dsimp only
  with_reducible repeat' (first
      | assumption | apply State.setTask_keeps | apply takeExc_keeps | apply issue_keeps | (intro _) | split)

theorem endRunning_keeps {s0 : State} (s : State) (e t : Nat) (hk : Keeps s0 s) :
    Keeps s0 (endRunning s e t) := by
  unfold endRunning
  try dsimp only
  with_reducible repeat' (first
      | assumption | apply engineDrain_keeps | apply dispatch_keeps | apply endTask_keeps | split)

theorem execRet_keeps {s0 : State} (i : Issue) (s : State) (hk : Keeps s0 s) :
    OutKeeps s0 (execRet i s) := by
  unfold execRet
  try dsimp only
  with_reducible repeat' (first
      | assumption | apply State.setTask_keeps | apply issue_keeps | apply endRunning_keeps | (intro _) | split)

theorem execTask_keeps {s0 : State} (i : Issue) (t : Fin 16) (prio cls : BitVec 3) (entry : BitVec 13) (s : State) (hk : Keeps s0 s) :
    OutKeeps s0 (execTask i t prio cls entry s) := by
  unfold execTask
  try dsimp only
  with_reducible repeat' (first
      | assumption | apply State.setTask_keeps | apply startTask_keeps | apply takeExc_keeps | apply issue_keeps
      | (intro _) | split)

theorem execYield_keeps {s0 : State} (i : Issue) (s : State) (hk : Keeps s0 s) :
    OutKeeps s0 (execYield i s) := by
  unfold execYield
  try dsimp only
  with_reducible repeat' (first
      | assumption | apply issue_keeps | apply leaveRun_keeps | (intro _))

theorem execEngineIdleWake_keeps {s0 : State} (e : Fin 4) (s : State) (hk : Keeps s0 s) :
    OutKeeps s0 (execEngineIdleWake e s) := by
  unfold execEngineIdleWake
  try dsimp only
  with_reducible repeat' (first
      | assumption | apply keeps_next | apply dispatch_keeps | split)

/-! ### ProgEvents -/

theorem showRaise_keeps {s0 : State} (s : State) (e : Nat) (hk : Keeps s0 s) :
    Keeps s0 (showRaise s e) := by
  unfold showRaise
  try dsimp only
  with_reducible repeat' (first
      | assumption | apply State.set_keeps)

theorem execRaise_keeps {s0 : State} (i : Issue) (code : BitVec 8) (s : State) (hk : Keeps s0 s) :
    OutKeeps s0 (execRaise i code s) := by
  unfold execRaise
  try dsimp only
  with_reducible repeat' (first
      | assumption | apply State.addSat_keeps | apply State.setEngine_keeps | apply State.setTask_keeps
      | apply raise_keeps | apply issue_keeps | apply showRaise_keeps | (intro _) | split)

theorem execRaisePop_keeps {s0 : State} (e : Fin 4) (s : State) (hk : Keeps s0 s) :
    OutKeeps s0 (execRaisePop e s) := by
  unfold execRaisePop
  try dsimp only
  with_reducible repeat' (first
      | assumption | apply keeps_next | apply State.setEngine_keeps | apply showRaise_keeps | split)

theorem execLog_keeps {s0 : State} (i : Issue) (code : BitVec 8) (ws : Fin 16) (s : State) (hk : Keeps s0 s) :
    OutKeeps s0 (execLog i code ws s) := by
  unfold execLog
  try dsimp only
  with_reducible repeat' (first
      | assumption | apply logWrite_keeps | apply issue_keeps | (intro _))

theorem snapRequest_keeps {s0 : State} (s : State) (trig code : Nat) (hk : Keeps s0 s) :
    Keeps s0 (snapRequest s trig code) := by
  unfold snapRequest
  try dsimp only
  with_reducible repeat' (first
      | assumption | apply snapTrigger_keeps | apply raise_keeps | split)

theorem execSnap_keeps {s0 : State} (i : Issue) (code : BitVec 8) (s : State) (hk : Keeps s0 s) :
    OutKeeps s0 (execSnap i code s) := by
  unfold execSnap
  try dsimp only
  with_reducible repeat' (first
      | assumption | apply issue_keeps | apply snapRequest_keeps | (intro _))

/-! ### Measure -/

theorem execRdadc_keeps {s0 : State} (i : Issue) (wd : Fin 16) (ch : BitVec 7) (s : State) (hk : Keeps s0 s) :
    OutKeeps s0 (execRdadc i wd ch s) := by
  unfold execRdadc
  try dsimp only
  with_reducible repeat' (first
      | assumption | apply State.setTask_keeps | apply issue_keeps | (intro _))

theorem execRdsup_keeps {s0 : State} (i : Issue) (wd : Fin 16) (ch : Fin 64) (s : State) (hk : Keeps s0 s) :
    OutKeeps s0 (execRdsup i wd ch s) := by
  unfold execRdsup
  try dsimp only
  with_reducible repeat' (first
      | assumption | apply State.setTask_keeps | apply issue_keeps | (intro _))

/-! ### EngineCtl -/

theorem enableEngine_keeps {s0 : State} (s : State) (e : Nat) (hk : Keeps s0 s) :
    Keeps s0 (enableEngine s e) := by
  unfold enableEngine
  try dsimp only
  with_reducible repeat' (first
      | assumption | apply State.set_keeps | apply State.setEngine_keeps | apply notice_keeps
      | apply startEngine_keeps | apply loadEngineTable_keeps | split)

theorem execCamEnable_keeps {s0 : State} (e : Fin 4) (s : State) (hk : Keeps s0 s) :
    OutKeeps s0 (execCamEnable e s) := by
  unfold execCamEnable
  try dsimp only
  with_reducible repeat' (first
      | assumption | apply keeps_next | apply enableEngine_keeps | split)

theorem execCamDisable_keeps {s0 : State} (e : Fin 4) (s : State) (hk : Keeps s0 s) :
    OutKeeps s0 (execCamDisable e s) := by
  unfold execCamDisable
  try dsimp only
  with_reducible repeat' (first
      | assumption | apply keeps_next | apply engineDrain_keeps)

theorem drainClaim_keeps {s0 : State} (s : State) (c : Nat) (hk : Keeps s0 s) :
    Keeps s0 (drainClaim s c) := by
  unfold drainClaim
  try dsimp only
  with_reducible repeat' (first
      | assumption | apply State.setClaim_keeps | apply dropClaim_keeps | split)

theorem romFree_keeps {s0 : State} (s : State) (hk : Keeps s0 s) :
    Keeps s0 (romFree s) := by
  unfold romFree
  try dsimp only
  with_reducible repeat' (first
      | assumption | apply dropClaim_keeps | apply each_keeps)

theorem engineDrained_keeps {s0 : State} (s : State) (e : Nat) (hk : Keeps s0 s) :
    Keeps s0 (engineDrained s e) := by
  unfold engineDrained
  try dsimp only
  with_reducible repeat' (first
      | assumption | apply State.set_keeps | apply State.setEngine_keeps | apply notice_keeps | apply wipeTasks_keeps
      | apply drainClaim_keeps | apply romFree_keeps | apply each_keeps)

theorem execRomRailOffStep_keeps {s0 : State} (s : State) (hk : Keeps s0 s) :
    OutKeeps s0 (execRomRailOffStep s) := by
  unfold execRomRailOffStep
  try dsimp only
  with_reducible repeat' (first
      | assumption | apply keeps_next | apply State.expire_keeps | apply railOff_keeps | apply romFree_keeps
      | simp only [keeps_mk_iff] | (refine keeps_adc ?_ ?_ ?_ ?_ ?_; rotate_left; (all_goals first | rfl | skip))
      | split)

end Sys2Proof.Machine
end

