-- ==== Sys2Proof/Laws/KeepsPower.lean ====
section
/-! SUPPORT. `Keeps` of the loops, the outputs, supervision, the VID ports, the interrupt controller and the command slots. -/

namespace Sys2Proof.Machine

/-! ### Loops -/

theorem execLoopSwitchingStart_keeps {s0 : State} (n : Fin 6) (s : State) (hk : Keeps s0 s) :
    OutKeeps s0 (execLoopSwitchingStart n s) := by
  unfold execLoopSwitchingStart
  try dsimp only
  with_reducible repeat' (first
      | assumption | apply keeps_next | apply State.expire_keeps | apply State.set_keeps | apply State.setLoop_keeps
      | split)

theorem execLoopRampEnd_keeps {s0 : State} (n : Fin 6) (s : State) (hk : Keeps s0 s) :
    OutKeeps s0 (execLoopRampEnd n s) := by
  unfold execLoopRampEnd
  try dsimp only
  with_reducible repeat' (first
      | assumption | apply keeps_next | apply State.expire_keeps | apply State.set_keeps | apply State.setLoop_keeps
      | apply notice_keeps | apply supEnterAll_keeps | split)

theorem compensate_keeps {s0 : State} (s : State) (n : Nat) (e0 : Int) (hk : Keeps s0 s) :
    Keeps s0 (compensate s n e0) := by
  unfold compensate
  try dsimp only
  with_reducible repeat' (first
      | assumption | apply State.setLoop_keeps | simp only [keeps_mk_iff]
      | (refine keeps_adc ?_ ?_ ?_ ?_ ?_; rotate_left; (all_goals first | rfl | skip)))

theorem notePeriod_keeps {s0 : State} (s : State) (n : Nat) (hk : Keeps s0 s) :
    Keeps s0 (notePeriod s n) := by
  unfold notePeriod
  try dsimp only
  with_reducible repeat' (first
      | assumption | rfl | apply State.setLoop_keeps | apply State.setAdc_keeps)

theorem inject_keeps {s0 : State} (s : State) (n : Nat) (e0 : Int) (hk : Keeps s0 s) :
    Keeps s0 (inject s n e0) := by
  unfold inject
  try dsimp only
  with_reducible repeat' (first
      | assumption | apply State.setLoop_keeps | apply compensate_keeps | simp only [keeps_mk_iff]
      | (refine keeps_adc ?_ ?_ ?_ ?_ ?_; rotate_left; (all_goals first | rfl | skip)))

theorem compensatePeriod_keeps {s0 : State} (s : State) (n : Nat) (e0 : Int) (hk : Keeps s0 s) :
    Keeps s0 (compensatePeriod s n e0) := by
  unfold compensatePeriod
  try dsimp only
  with_reducible repeat' (first
      | assumption | apply compensate_keeps | apply notePeriod_keeps | apply inject_keeps | split)

theorem countIlim_keeps {s0 : State} (s : State) (n : Nat) (hk : Keeps s0 s) :
    Keeps s0 (countIlim s n) := by
  unfold countIlim
  try dsimp only
  with_reducible repeat' (first
      | assumption | apply State.set_keeps | apply State.setLoop_keeps | apply raise_keeps | apply loopAlert_keeps
      | split)

theorem formSlots_keeps {s0 : State} (s : State) (n : Nat) (hk : Keeps s0 s) :
    Keeps s0 (formSlots s n) := by
  unfold formSlots
  try dsimp only
  with_reducible repeat' (first
      | assumption | apply State.setLoop_keeps)

theorem ackReached_keeps {s0 : State} (s : State) (n : Nat) (e0 : Int) (hk : Keeps s0 s) :
    Keeps s0 (ackReached s n e0) := by
  unfold ackReached
  try dsimp only
  with_reducible repeat' (first
      | assumption | apply endFlight_keeps | apply each_keeps | (intro _) | split)

theorem newPeriod_keeps {s0 : State} (s : State) (n : Nat) (hk : Keeps s0 s) :
    Keeps s0 (newPeriod s n) := by
  unfold newPeriod
  try dsimp only
  with_reducible repeat' (first
      | assumption | apply State.setPhase_keeps | apply each_keeps | (intro _))

theorem execLoopPeriodStart_keeps {s0 : State} (n : Fin 6) (vsns : Int) (s : State) (hk : Keeps s0 s) :
    OutKeeps s0 (execLoopPeriodStart n vsns s) := by
  unfold execLoopPeriodStart
  try dsimp only
  with_reducible repeat' (first
      | assumption | apply keeps_next | apply compensatePeriod_keeps | apply countIlim_keeps | apply formSlots_keeps
      | apply ackReached_keeps | apply newPeriod_keeps | simp only [keeps_mk_iff]
      | (refine keeps_adc ?_ ?_ ?_ ?_ ?_; rotate_left; (all_goals first | rfl | skip)) | split)

theorem execCompDeadline_keeps {s0 : State} (n : Fin 6) (s : State) (hk : Keeps s0 s) :
    OutKeeps s0 (execCompDeadline n s) := by
  unfold execCompDeadline
  try dsimp only
  with_reducible repeat' (first
      | assumption | apply keeps_next | apply State.addSat_keeps | apply State.setLoop_keeps | apply raise_keeps
      | split)

theorem execPhaseTurnOn_keeps {s0 : State} (k : Fin 20) (s : State) (hk : Keeps s0 s) :
    OutKeeps s0 (execPhaseTurnOn k s) := by
  unfold execPhaseTurnOn
  try dsimp only
  with_reducible repeat' (first
      | assumption | apply keeps_next | apply State.expire_keeps | apply State.setPhase_keeps | split)

theorem checkNmin_keeps {s0 : State} (s : State) (n before : Nat) (hk : Keeps s0 s) :
    Keeps s0 (checkNmin s n before) := by
  unfold checkNmin
  try dsimp only
  with_reducible repeat' (first
      | assumption | apply State.set_keeps | apply raise_keeps | apply loopAlert_keeps | split)

theorem checkNoPhase_keeps {s0 : State} (s : State) (n : Nat) (hk : Keeps s0 s) :
    Keeps s0 (checkNoPhase s n) := by
  unfold checkNoPhase
  try dsimp only
  with_reducible repeat' (first
      | assumption | apply State.set_keeps | apply railOff_keeps | apply raise_keeps | split)

theorem dropPhase_keeps {s0 : State} (s : State) (n k m : Nat) (hk : Keeps s0 s) :
    Keeps s0 (dropPhase s n k m) := by
  unfold dropPhase
  try dsimp only
  with_reducible repeat' (first
      | assumption | apply State.set_keeps | apply State.setLoop_keeps | apply State.setPhase_keeps
      | apply raise_keeps | apply dirtyLimits_keeps | apply checkNmin_keeps | apply checkNoPhase_keeps)

theorem dropDuePhases_keeps {s0 : State} (s : State) (n : Nat) (hk : Keeps s0 s) :
    Keeps s0 (dropDuePhases s n) := by
  unfold dropDuePhases
  try dsimp only
  with_reducible repeat' (first
      | assumption | apply dropPhase_keeps | apply each_keeps | (intro _) | split)

theorem dropsAtEnd_keeps {s0 : State} (s : State) (n : Nat) (hk : Keeps s0 s) :
    Keeps s0 (dropsAtEnd s n) := by
  unfold dropsAtEnd
  try dsimp only
  with_reducible repeat' (first
      | assumption | apply dropPhase_keeps | apply each_keeps | (intro _) | split)

theorem countFailures_keeps {s0 : State} (s : State) (n k m : Nat) (hk : Keeps s0 s) :
    Keeps s0 (countFailures s n k m) := by
  unfold countFailures
  try dsimp only
  with_reducible repeat' (first
      | assumption | apply State.set_keeps | apply State.setPhase_keeps | split)

theorem addCharge_keeps {s0 : State} (s : State) (n i ton : Nat) (hk : Keeps s0 s) :
    Keeps s0 (addCharge s n i ton) := by
  unfold addCharge
  try dsimp only
  with_reducible repeat' (first
      | assumption | apply State.setLoop_keeps)

theorem execPhaseTurnOff_keeps {s0 : State} (k : Fin 20) (vOn vOff : Int) (ton : Nat) (ended : PulseEnd) (s : State) (hk : Keeps s0 s) :
    OutKeeps s0 (execPhaseTurnOff k vOn vOff ton ended s) := by
  unfold execPhaseTurnOff
  try dsimp only
  with_reducible repeat' (first
      | assumption | apply keeps_next | apply State.set_keeps | apply State.setPhase_keeps | apply dropDuePhases_keeps
      | apply countFailures_keeps | apply addCharge_keeps | simp only [keeps_mk_iff]
      | (refine keeps_adc ?_ ?_ ?_ ?_ ?_; rotate_left; (all_goals first | rfl | skip)) | split)

theorem execNegativeCurrentLimit_keeps {s0 : State} (k : Fin 20) (v : Int) (s : State) (hk : Keeps s0 s) :
    OutKeeps s0 (execNegativeCurrentLimit k v s) := by
  unfold execNegativeCurrentLimit
  try dsimp only
  with_reducible repeat' (first
      | assumption | apply keeps_next | apply State.setPhase_keeps | split)

theorem execOstStart_keeps {s0 : State} (n : Fin 6) (vsns : Int) (s : State) (hk : Keeps s0 s) :
    OutKeeps s0 (execOstStart n vsns s) := by
  unfold execOstStart
  try dsimp only
  with_reducible repeat' (first
      | assumption | apply keeps_next | apply State.set_keeps | apply State.setLoop_keeps | apply State.setPhase_keeps
      | apply abortInjection_keeps | apply each_keeps | (intro _) | split)

theorem execOstRelease_keeps {s0 : State} (n : Fin 6) (vsns : Int) (s : State) (hk : Keeps s0 s) :
    OutKeeps s0 (execOstRelease n vsns s) := by
  unfold execOstRelease
  try dsimp only
  with_reducible repeat' (first
      | assumption | apply keeps_next | apply State.set_keeps | apply State.setLoop_keeps | split)

theorem execOstTimeout_keeps {s0 : State} (n : Fin 6) (s : State) (hk : Keeps s0 s) :
    OutKeeps s0 (execOstTimeout n s) := by
  unfold execOstTimeout
  try dsimp only
  with_reducible repeat' (first
      | assumption | apply keeps_next | apply State.expire_keeps | apply State.setLoop_keeps | apply raise_keeps
      | apply loopAlert_keeps | split)

theorem execLoopEstimateWindow_keeps {s0 : State} (n : Fin 6) (s : State) (hk : Keeps s0 s) :
    OutKeeps s0 (execLoopEstimateWindow n s) := by
  unfold execLoopEstimateWindow
  try dsimp only
  with_reducible repeat' (first
      | assumption | apply keeps_next | apply State.expire_keeps | apply State.set_keeps | apply State.setLoop_keeps
      | split)

/-! ### Outputs -/

theorem execOutputStartEnd_keeps {s0 : State} (rail : Rail) (s : State) (hk : Keeps s0 s) :
    OutKeeps s0 (execOutputStartEnd rail s) := by
  unfold execOutputStartEnd
  try dsimp only
  with_reducible repeat' (first
      | assumption | apply keeps_next | apply State.expire_keeps | apply State.set_keeps | apply notice_keeps
      | apply supEnterAll_keeps | split)

theorem enterIlim_keeps {s0 : State} (s : State) (r : Rail) (hk : Keeps s0 s) :
    Keeps s0 (enterIlim s r) := by
  unfold enterIlim
  try dsimp only
  with_reducible repeat' (first
      | assumption | apply State.set_keeps | apply raise_keeps | split)

theorem execBkIlim_keeps {s0 : State} (n : Fin 6) (s : State) (hk : Keeps s0 s) :
    OutKeeps s0 (execBkIlim n s) := by
  unfold execBkIlim
  try dsimp only
  with_reducible repeat' (first
      | assumption | apply keeps_next | apply enterIlim_keeps)

theorem execBkIlimEnd_keeps {s0 : State} (n : Fin 6) (s : State) (hk : Keeps s0 s) :
    OutKeeps s0 (execBkIlimEnd n s) := by
  unfold execBkIlimEnd
  try dsimp only
  with_reducible repeat' (first
      | assumption | apply keeps_next | apply State.set_keeps)

theorem execLdoSwIlim_keeps {s0 : State} (rail : Rail) (s : State) (hk : Keeps s0 s) :
    OutKeeps s0 (execLdoSwIlim rail s) := by
  unfold execLdoSwIlim
  try dsimp only
  with_reducible repeat' (first
      | assumption | apply keeps_next | apply enterIlim_keeps | split)

theorem execLdoSwIlimEnd_keeps {s0 : State} (rail : Rail) (s : State) (hk : Keeps s0 s) :
    OutKeeps s0 (execLdoSwIlimEnd rail s) := by
  unfold execLdoSwIlimEnd
  try dsimp only
  with_reducible repeat' (first
      | assumption | apply keeps_next | apply State.set_keeps | split)

theorem setShortl_keeps {s0 : State} (s : State) (r : Rail) (v : Nat) (hk : Keeps s0 s) :
    Keeps s0 (setShortl s r v) := by
  unfold setShortl
  try dsimp only
  with_reducible repeat' (first
      | assumption | apply State.set_keeps | split)

theorem execOutputShort_keeps {s0 : State} (rail : Rail) (s : State) (hk : Keeps s0 s) :
    OutKeeps s0 (execOutputShort rail s) := by
  unfold execOutputShort
  try dsimp only
  with_reducible repeat' (first
      | assumption | apply keeps_next | apply State.expire_keeps | apply railOff_keeps | apply raise_keeps
      | apply railFails_keeps | apply setShortl_keeps | split)

theorem execOutputClrflt_keeps {s0 : State} (rail : Rail) (s : State) (hk : Keeps s0 s) :
    OutKeeps s0 (execOutputClrflt rail s) := by
  unfold execOutputClrflt
  try dsimp only
  with_reducible repeat' (first
      | assumption | apply keeps_next | apply setShortl_keeps)

theorem execBkVinUv_keeps {s0 : State} (n : Fin 6) (s : State) (hk : Keeps s0 s) :
    OutKeeps s0 (execBkVinUv n s) := by
  unfold execBkVinUv
  try dsimp only
  with_reducible repeat' (first
      | assumption | apply keeps_next | apply State.set_keeps | apply supLeaveAll_keeps | apply raise_keeps | split)

theorem execBkVinRestore_keeps {s0 : State} (n : Fin 6) (start : Nat) (s : State) (hk : Keeps s0 s) :
    OutKeeps s0 (execBkVinRestore n start s) := by
  unfold execBkVinRestore
  try dsimp only
  with_reducible repeat' (first
      | assumption | apply keeps_next | apply State.set_keeps | apply startMotion_keeps | split)

theorem execDischargeEnd_keeps {s0 : State} (rail : Rail) (s : State) (hk : Keeps s0 s) :
    OutKeeps s0 (execDischargeEnd rail s) := by
  unfold execDischargeEnd
  try dsimp only
  with_reducible repeat' (first
      | assumption | apply keeps_next | apply State.set_keeps | apply State.setOut_keeps | split)

theorem outputDrained_keeps {s0 : State} (s : State) (r : Rail) (hk : Keeps s0 s) :
    Keeps s0 (outputDrained s r) := by
  unfold outputDrained
  try dsimp only
  with_reducible repeat' (first
      | assumption | apply State.set_keeps | apply State.setOut_keeps | apply notice_keeps)

theorem loopDrained_keeps {s0 : State} (s : State) (n : Fin 6) (hk : Keeps s0 s) :
    Keeps s0 (loopDrained s n) := by
  unfold loopDrained
  try dsimp only
  with_reducible repeat' (first
      | assumption | apply State.set_keeps | apply State.setLoop_keeps | apply notice_keeps | apply endFlights_keeps
      | apply loopAlert_keeps | apply dirtyLimits_keeps | apply freePhase_keeps | apply reservePhases_keeps
      | apply each_keeps)

theorem endResetDischarge_keeps {s0 : State} (measured : List Nat) (s : State) (r : Rail) (hk : Keeps s0 s) :
    Keeps s0 (endResetDischarge measured s r) := by
  unfold endResetDischarge
  try dsimp only
  with_reducible repeat' (first
      | assumption | apply State.setOut_keeps | apply startMotion_keeps | split)

theorem execResetDischargeEnd_keeps {s0 : State} (measured : List Nat) (s : State) (hk : Keeps s0 s) :
    OutKeeps s0 (execResetDischargeEnd measured s) := by
  unfold execResetDischargeEnd
  try dsimp only
  with_reducible repeat' (first
      | assumption | apply keeps_next | apply State.expire_keeps | apply endResetDischarge_keeps | apply each_keeps
      | simp only [keeps_mk_iff] | (refine keeps_adc ?_ ?_ ?_ ?_ ?_; rotate_left; (all_goals first | rfl | skip))
      | split)

/-! ### Supervision -/

theorem ktFlag_keeps {s0 : State} (s : State) (n : Nat) (cls : Cls) (hk : Keeps s0 s) :
    Keeps s0 (ktFlag s n cls) := by
  unfold ktFlag
  try dsimp only
  with_reducible repeat' (first
      | assumption | simp only [keeps_mk_iff]
      | (refine keeps_adc ?_ ?_ ?_ ?_ ?_; rotate_left; (all_goals first | rfl | skip)))

theorem showCondition_keeps {s0 : State} (n : Nat) (s : State) (c : LevelCond) (hk : Keeps s0 s) :
    Keeps s0 (showCondition n s c) := by
  unfold showCondition
  try dsimp only
  with_reducible repeat' (first
      | assumption | apply State.set_keeps | apply ktFlag_keeps | split)

theorem raiseCondition_keeps {s0 : State} (n : Nat) (armed : Bool) (s : State) (c : LevelCond) (hk : Keeps s0 s) :
    Keeps s0 (raiseCondition n armed s c) := by
  unfold raiseCondition
  try dsimp only
  with_reducible repeat' (first
      | assumption | apply supRaise_keeps | split)

theorem applySample_keeps {s0 : State} (s : State) (n : Nat) (x : Samp) (hk : Keeps s0 s) :
    Keeps s0 (applySample s n x) := by
  unfold applySample
  try dsimp only
  with_reducible repeat' (first
      | assumption | apply State.set_keeps | apply State.setSup_keeps | apply refreshPg_keeps
      | apply showCondition_keeps | apply raiseCondition_keeps | apply each_keeps | split)

theorem execSupSample_keeps {s0 : State} (n : Fin 64) (uv : Nat) (s : State) (hk : Keeps s0 s) :
    OutKeeps s0 (execSupSample n uv s) := by
  unfold execSupSample
  try dsimp only
  with_reducible repeat' (first
      | assumption | apply keeps_next | apply applySample_keeps | split)

theorem execSupSettleEnd_keeps {s0 : State} (n : Fin 64) (s : State) (hk : Keeps s0 s) :
    OutKeeps s0 (execSupSettleEnd n s) := by
  unfold execSupSettleEnd
  try dsimp only
  with_reducible repeat' (first
      | assumption | apply keeps_next | apply State.expire_keeps | apply pgsReached_keeps | split)

theorem execSupTrackRefresh_keeps {s0 : State} (n : Fin 64) (s : State) (hk : Keeps s0 s) :
    OutKeeps s0 (execSupTrackRefresh n s) := by
  unfold execSupTrackRefresh
  try dsimp only
  with_reducible repeat' (first
      | assumption | apply keeps_next | apply State.setSup_keeps | split)

theorem clearSupStat_keeps {s0 : State} (s : State) (n : Nat) (hk : Keeps s0 s) :
    Keeps s0 (clearSupStat s n) := by
  unfold clearSupStat
  try dsimp only
  with_reducible repeat' (first
      | assumption | apply State.set_keeps | apply each_keeps | (intro _))

theorem supStart_keeps {s0 : State} (s : State) (n : Nat) (hk : Keeps s0 s) :
    Keeps s0 (supStart s n) := by
  unfold supStart
  try dsimp only
  with_reducible repeat' (first
      | assumption | apply State.set_keeps | apply State.setSup_keeps | apply refreshPg_keeps
      | apply clearSupStat_keeps | split)

theorem execSupEnable_keeps {s0 : State} (n : Fin 64) (s : State) (hk : Keeps s0 s) :
    OutKeeps s0 (execSupEnable n s) := by
  unfold execSupEnable
  try dsimp only
  with_reducible repeat' (first
      | assumption | apply keeps_next | apply State.set_keeps | apply supStart_keeps | split)

theorem execSupDisable_keeps {s0 : State} (n : Fin 64) (s : State) (hk : Keeps s0 s) :
    OutKeeps s0 (execSupDisable n s) := by
  unfold execSupDisable
  try dsimp only
  with_reducible repeat' (first
      | assumption | apply keeps_next | apply State.setSup_keeps | apply raise_keeps | apply clearSupStat_keeps
      | split)

theorem supDrained_keeps {s0 : State} (s : State) (n : Nat) (hk : Keeps s0 s) :
    Keeps s0 (supDrained s n) := by
  unfold supDrained
  try dsimp only
  with_reducible repeat' (first
      | assumption | apply State.set_keeps | apply State.setSup_keeps | split)

theorem cmpFails_keeps {s0 : State} (s : State) (k : Nat) (hk : Keeps s0 s) :
    Keeps s0 (cmpFails s k) := by
  unfold cmpFails
  try dsimp only
  with_reducible repeat' (first
      | assumption | apply State.setBit_keeps | apply raiseBare_keeps)

theorem supChecked_keeps {s0 : State} (s : State) (n : Nat) (pass : Bool) (hk : Keeps s0 s) :
    Keeps s0 (supChecked s n pass) := by
  unfold supChecked
  try dsimp only
  with_reducible repeat' (first
      | assumption | apply State.set_keeps | apply State.addSat_keeps | apply refreshPg_keeps | apply supRaise_keeps
      | split)

theorem execSupSelfCheck_keeps {s0 : State} (pass : Bool) (freeFail : BitVec 20) (s : State) (hk : Keeps s0 s) :
    OutKeeps s0 (execSupSelfCheck pass freeFail s) := by
  unfold execSupSelfCheck
  try dsimp only
  with_reducible repeat' (first
      | assumption | apply keeps_next | apply cmpFails_keeps | apply supChecked_keeps | apply each_keeps | split)

theorem execCmpSelfCheck_keeps {s0 : State} (k : Fin 20) (pass : Bool) (s : State) (hk : Keeps s0 s) :
    OutKeeps s0 (execCmpSelfCheck k pass s) := by
  unfold execCmpSelfCheck
  try dsimp only
  with_reducible repeat' (first
      | assumption | apply keeps_next | apply cmpFails_keeps | split)

/-! ### Vcl -/

theorem releaseAck_keeps {s0 : State} (s : State) (p : Nat) (rack : Bool) (hk : Keeps s0 s) :
    Keeps s0 (releaseAck s p rack) := by
  unfold releaseAck
  try dsimp only
  with_reducible repeat' (first
      | assumption | apply State.clearBits_keeps | apply State.setPort_keeps | split)

theorem endTransaction_keeps {s0 : State} (s : State) (p tag : Nat) (r : Response) (hk : Keeps s0 s) :
    Keeps s0 (endTransaction s p tag r) := by
  unfold endTransaction
  try dsimp only
  with_reducible repeat' (first
      | assumption | apply State.setPort_keeps | simp only [keeps_mk_iff]
      | (refine keeps_adc ?_ ?_ ?_ ?_ ?_; rotate_left; (all_goals first | rfl | skip)))

theorem refuseFrame_keeps {s0 : State} (s : State) (p code : Nat) (hk : Keeps s0 s) :
    Keeps s0 (refuseFrame s p code) := by
  unfold refuseFrame
  try dsimp only
  with_reducible repeat' (first
      | assumption | apply State.set_keeps | apply State.addWrap_keeps | apply notice_keeps)

theorem transact_keeps {s0 : State} (p : Nat) (rack : Bool) (tag : Nat) (s : State)
    (body : State → State × Response) (h : Keeps s0 s) (hb : ∀ t, Keeps s0 t → Keeps s0 (body t).1) :
    OutKeeps s0 (transact p rack tag s body) := by
  unfold transact
  refine keeps_next ?_
  split
  · exact endTransaction_keeps _ p tag _ (hb _ (releaseAck_keeps s p rack h))
  · exact h

theorem unlessRefused_keeps {s0 : State} (s : State) (p code : Nat) (body : State → State × Response)
    (h : Keeps s0 s) (hb : ∀ t, Keeps s0 t → Keeps s0 (body t).1) :
    Keeps s0 (unlessRefused s p code body).1 := by
  unfold unlessRefused
  try dsimp only
  with_reducible repeat' (first
      | exact h | apply hb | apply refuseFrame_keeps | split)

theorem acceptTarget_keeps {s0 : State} (s : State) (p tag vid slew : Nat) (hk : Keeps s0 s) :
    Keeps s0 (acceptTarget s p tag vid slew).1 := by
  unfold acceptTarget
  try dsimp only
  with_reducible repeat' (first
      | assumption | apply State.addWrap_keeps | apply State.setPort_keeps | apply setTarget_keeps
      | apply dirtyRail_keeps)

theorem newTarget_keeps {s0 : State} (s : State) (p tag vid slew : Nat) (argBad unset : Bool) (hk : Keeps s0 s) :
    Keeps s0 (newTarget s p tag vid slew argBad unset).1 := by
  unfold newTarget
  try dsimp only
  with_reducible repeat' (first
      | assumption | apply raise_keeps | apply refuseFrame_keeps | apply unlessRefused_keeps
      | apply acceptTarget_keeps | (intro _) | split)

theorem execVclSetv_keeps {s0 : State} (p : Fin 2) (rack : Bool) (tag : BitVec 2) (vid : BitVec 12) (slew : BitVec 9) (s : State) (hk : Keeps s0 s) :
    OutKeeps s0 (execVclSetv p rack tag vid slew s) := by
  unfold execVclSetv
  try dsimp only
  with_reducible repeat' (first
      | assumption | apply transact_keeps | apply newTarget_keeps | (intro _))

theorem execVclSetslew_keeps {s0 : State} (p : Fin 2) (rack : Bool) (tag : BitVec 2) (slew : BitVec 9) (unused : BitVec 12) (s : State) (hk : Keeps s0 s) :
    OutKeeps s0 (execVclSetslew p rack tag slew unused s) := by
  unfold execVclSetslew
  try dsimp only
  with_reducible repeat' (first
      | assumption | apply State.set_keeps | apply transact_keeps | apply unlessRefused_keeps | (intro _))

theorem execVclPstate_keeps {s0 : State} (p : Fin 2) (rack : Bool) (tag : BitVec 2) (q : Fin 4) (unused : BitVec 19) (s : State) (hk : Keeps s0 s) :
    OutKeeps s0 (execVclPstate p rack tag q unused s) := by
  unfold execVclPstate
  try dsimp only
  with_reducible repeat' (first
      | assumption | apply transact_keeps | apply newTarget_keeps | (intro _))

theorem execVclGetv_keeps {s0 : State} (p : Fin 2) (rack : Bool) (tag : BitVec 2) (unused : BitVec 21) (vsns : Int) (s : State) (hk : Keeps s0 s) :
    OutKeeps s0 (execVclGetv p rack tag unused vsns s) := by
  unfold execVclGetv
  try dsimp only
  with_reducible repeat' (first
      | assumption | apply transact_keeps | apply unlessRefused_keeps | (intro _))

theorem execVclGeti_keeps {s0 : State} (p : Fin 2) (rack : Bool) (tag : BitVec 2) (unused : BitVec 21) (s : State) (hk : Keeps s0 s) :
    OutKeeps s0 (execVclGeti p rack tag unused s) := by
  unfold execVclGeti
  try dsimp only
  with_reducible repeat' (first
      | assumption | apply transact_keeps | apply unlessRefused_keeps | (intro _))

theorem execVclBadCmd_keeps {s0 : State} (p : Fin 2) (rack : Bool) (tag : BitVec 2) (s : State) (hk : Keeps s0 s) :
    OutKeeps s0 (execVclBadCmd p rack tag s) := by
  unfold execVclBadCmd
  try dsimp only
  with_reducible repeat' (first
      | assumption | apply refuseFrame_keeps | apply transact_keeps | (intro _))

theorem execVclCrcError_keeps {s0 : State} (p : Fin 2) (s : State) (hk : Keeps s0 s) :
    OutKeeps s0 (execVclCrcError p s) := by
  unfold execVclCrcError
  try dsimp only
  with_reducible repeat' (first
      | assumption | apply State.addWrap_keeps | apply notice_keeps | apply transact_keeps | (intro _))

theorem execVclStall_keeps {s0 : State} (p : Fin 2) (late : Bool) (s : State) (hk : Keeps s0 s) :
    OutKeeps s0 (execVclStall p late s) := by
  unfold execVclStall
  try dsimp only
  with_reducible repeat' (first
      | assumption | apply keeps_next | apply State.addWrap_keeps | apply State.setPort_keeps | apply notice_keeps
      | split)

theorem execVclDeadline_keeps {s0 : State} (p : Fin 2) (s : State) (hk : Keeps s0 s) :
    OutKeeps s0 (execVclDeadline p s) := by
  unfold execVclDeadline
  try dsimp only
  with_reducible repeat' (first
      | assumption | apply keeps_next | apply State.expire_keeps | apply State.addWrap_keeps
      | apply State.setPort_keeps | apply raise_keeps | split)

theorem execVclPortEnable_keeps {s0 : State} (p : Fin 2) (s : State) (hk : Keeps s0 s) :
    OutKeeps s0 (execVclPortEnable p s) := by
  unfold execVclPortEnable
  try dsimp only
  with_reducible repeat' (first
      | assumption | apply keeps_next | apply State.set_keeps | apply State.setPort_keeps | apply notice_keeps
      | apply vclAlert_keeps | split)

theorem execVclPortDisable_keeps {s0 : State} (p : Fin 2) (s : State) (hk : Keeps s0 s) :
    OutKeeps s0 (execVclPortDisable p s) := by
  unfold execVclPortDisable
  try dsimp only
  with_reducible repeat' (first
      | assumption | apply keeps_next | apply State.setPort_keeps | split)

theorem portDrained_keeps {s0 : State} (s : State) (p : Nat) (hk : Keeps s0 s) :
    Keeps s0 (portDrained s p) := by
  unfold portDrained
  try dsimp only
  with_reducible repeat' (first
      | assumption | apply State.set_keeps | apply State.setPort_keeps | apply notice_keeps | apply endFlight_keeps
      | split)

theorem execVclHold_keeps {s0 : State} (p : Fin 2) (hold : Bool) (s : State) (hk : Keeps s0 s) :
    OutKeeps s0 (execVclHold p hold s) := by
  unfold execVclHold
  try dsimp only
  with_reducible repeat' (first
      | assumption | apply keeps_next | apply State.set_keeps | apply vclAlert_keeps | split)

/-! ### OpMark -/

theorem opShow_keeps {s0 : State} (s : State) (hk : Keeps s0 s) :
    Keeps s0 (opShow s) := by
  unfold opShow
  try dsimp only
  with_reducible repeat' (first
      | assumption | apply State.set_keeps | split)

theorem opMark_keeps {s0 : State} (s : State) (code detail : Nat) (hk : Keeps s0 s) :
    Keeps s0 (opMark s code detail) := by
  unfold opMark
  try dsimp only
  with_reducible repeat' (first
      | assumption | apply opShow_keeps | simp only [keeps_mk_iff]
      | (refine keeps_adc ?_ ?_ ?_ ?_ ?_; rotate_left; (all_goals first | rfl | skip)))

theorem opEnd_keeps {s0 : State} (s : State) (code : Nat) (hk : Keeps s0 s) :
    Keeps s0 (opEnd s code) := by
  unfold opEnd
  try dsimp only
  with_reducible repeat' (first
      | assumption | apply opShow_keeps | simp only [keeps_mk_iff]
      | (refine keeps_adc ?_ ?_ ?_ ?_ ?_; rotate_left; (all_goals first | rfl | skip)))

/-! ### Intc -/

theorem noteLine_keeps {s0 : State} (s : State) (t : Nat) (hk : Keeps s0 s) :
    Keeps s0 (noteLine s t) := by
  unfold noteLine
  try dsimp only
  with_reducible repeat' (first
      | assumption | simp only [keeps_mk_iff]
      | (refine keeps_adc ?_ ?_ ?_ ?_ ?_; rotate_left; (all_goals first | rfl | skip)) | split)

theorem noteLines_keeps {s0 : State} (s : State) (hk : Keeps s0 s) :
    Keeps s0 (noteLines s) := by
  unfold noteLines
  try dsimp only
  with_reducible repeat' (first
      | assumption | apply noteLine_keeps | apply each_keeps)

theorem toPhase_keeps {s0 : State} (s : State) (n : Nat) (hk : Keeps s0 s) :
    Keeps s0 (toPhase s n) := by
  unfold toPhase
  try dsimp only
  with_reducible repeat' (first
      | assumption | apply State.set_keeps | apply noteLines_keeps)

theorem wakeIfRaised_keeps {s0 : State} (was : Bool) (s : State) (src : Nat) (hk : Keeps s0 s) :
    Keeps s0 (wakeIfRaised was s src) := by
  unfold wakeIfRaised
  try dsimp only
  with_reducible repeat' (first
      | assumption | apply wakeEvent_keeps | split)

theorem requestState_keeps {s0 : State} (s : State) (src : Nat) (req : Bool) (hk : Keeps s0 s) :
    Keeps s0 (requestState s src req) := by
  unfold requestState
  try dsimp only
  with_reducible repeat' (first
      | assumption | apply State.set_keeps | split)

theorem takeRequest_keeps {s0 : State} (s : State) (src : Nat) (hk : Keeps s0 s) :
    Keeps s0 (takeRequest s src) := by
  unfold takeRequest
  try dsimp only
  with_reducible repeat' (first
      | assumption | apply State.set_keeps | apply noteLines_keeps | apply wakeIfRaised_keeps
      | apply requestState_keeps)

theorem execIntcRequestChange_keeps {s0 : State} (src : BitVec 9) (s : State) (hk : Keeps s0 s) :
    OutKeeps s0 (execIntcRequestChange src s) := by
  unfold execIntcRequestChange
  try dsimp only
  with_reducible repeat' (first
      | assumption | apply keeps_next | apply takeRequest_keeps | split)

theorem claimResult_keeps {s0 : State} (s : State) (t id : Nat) (hk : Keeps s0 s) :
    Keeps s0 (claimResult s t id) := by
  unfold claimResult
  try dsimp only
  with_reducible repeat' (first
      | assumption | apply State.set_keeps | apply noteLines_keeps | simp only [keeps_mk_iff]
      | (refine keeps_adc ?_ ?_ ?_ ?_ ?_; rotate_left; (all_goals first | rfl | skip)))

theorem claimBy_keeps {s0 : State} (s : State) (t : Nat) (hk : Keeps s0 s) :
    Keeps s0 (claimBy s t) := by
  unfold claimBy
  try dsimp only
  with_reducible repeat' (first
      | assumption | apply State.set_keeps | apply State.addWrap_keeps | apply State.addSat_keeps
      | apply claimResult_keeps | split)

theorem execIntcClaim_keeps {s0 : State} (t : Fin 8) (s : State) (hk : Keeps s0 s) :
    OutKeeps s0 (execIntcClaim t s) := by
  unfold execIntcClaim
  try dsimp only
  with_reducible repeat' (first
      | assumption | apply keeps_next | apply claimBy_keeps | split)

theorem completeBy_keeps {s0 : State} (s : State) (id : Nat) (hk : Keeps s0 s) :
    Keeps s0 (completeBy s id) := by
  unfold completeBy
  try dsimp only
  with_reducible repeat' (first
      | assumption | apply State.set_keeps | apply noteLines_keeps | apply wakeIfRaised_keeps | split)

theorem execIntcComplete_keeps {s0 : State} (t : Fin 8) (id : BitVec 9) (s : State) (hk : Keeps s0 s) :
    OutKeeps s0 (execIntcComplete t id s) := by
  unfold execIntcComplete
  try dsimp only
  with_reducible repeat' (first
      | assumption | apply keeps_next | apply State.set_keeps | apply State.addWrap_keeps | apply noticeCount_keeps
      | apply completeBy_keeps | split)

theorem execIntcDbellSet_keeps {s0 : State} (s : State) (hk : Keeps s0 s) :
    OutKeeps s0 (execIntcDbellSet s) := by
  unfold execIntcDbellSet
  try dsimp only
  with_reducible repeat' (first
      | assumption | apply keeps_next | apply State.set_keeps | split)

theorem execIntcDbellClr_keeps {s0 : State} (s : State) (hk : Keeps s0 s) :
    OutKeeps s0 (execIntcDbellClr s) := by
  unfold execIntcDbellClr
  try dsimp only
  with_reducible repeat' (first
      | assumption | apply keeps_next | apply State.set_keeps | apply takeRequest_keeps | split)

/-! ### Slots -/

/-- A change of a slot that moves it nowhere. -/
theorem State.setSlot_keeps {s0 : State} (s : State) (i : Nat) (x : Slot) (h : Keeps s0 s)
    (e : x.st = (s.slot i).st) (e' : x.queue = (s.slot i).queue) : Keeps s0 (s.setSlot i x) :=
  keeps_mk (keeps_hci h fun b => Hci.booked_slot b i x e e')

theorem endMark_keeps {s0 : State} (s : State) (op : Nat) (hk : Keeps s0 s) :
    Keeps s0 (endMark s op) := by
  unfold endMark
  try dsimp only
  with_reducible repeat' (first
      | assumption | apply opEnd_keeps | split)

theorem endBootLoad_keeps {s0 : State} (s : State) (hk : Keeps s0 s) :
    Keeps s0 (endBootLoad s) := by
  unfold endBootLoad
  try dsimp only
  with_reducible repeat' (first
      | assumption | apply opEnd_keeps | split)

theorem endCommand_keeps {s0 : State} (s : State) (i : Nat) (c : Completion) (hk : Keeps s0 s) :
    Keeps s0 (endCommand s i c) := by
  unfold endCommand
  try dsimp only
  with_reducible repeat' (first
      | assumption | rfl | apply State.setSlot_keeps | apply endMark_keeps | split)

theorem refuseCommand_keeps {s0 : State} (s : State) (i space reason : Nat) (r0 : Nat) (hk : Keeps s0 s) :
    Keeps s0 (refuseCommand s i space reason r0) := by
  unfold refuseCommand
  try dsimp only
  with_reducible repeat' (first
      | assumption | apply endCommand_keeps)

theorem commitSlot_keeps {s0 : State} (s : State) (i : Nat) (hk : Keeps s0 s) :
    Keeps s0 (commitSlot s i) := by
  unfold commitSlot
  try dsimp only
  with_reducible repeat' (first
      | assumption | rfl | apply State.setSlot_keeps)

theorem writeData_keeps {s0 : State} (s : State) (off : Nat) (bs : List Byte) (hk : Keeps s0 s) :
    Keeps s0 (writeData s off bs) := by
  unfold writeData
  try dsimp only
  with_reducible repeat' (first
      | assumption | apply State.setBytes_keeps)

theorem hciClear_keeps {s0 : State} (s : State) (h : Keeps s0 s) : Keeps s0 (hciClear s) :=
  State.set_keeps _ _ _ (State.set_keeps _ _ _ (State.set_keeps _ _ _ (keeps_mk
    (keeps_hci (State.clearMem_keeps _ _ _ h) fun _ => Hci.booked_clear _ _))))

theorem State.setTwc_keeps {s0 : State} (s : State) (x : Twc) (hk : Keeps s0 s) :
    Keeps s0 (State.setTwc s x) := by
  unfold State.setTwc
  try dsimp only
  with_reducible repeat' (first
      | assumption | simp only [keeps_mk_iff]
      | (refine keeps_adc ?_ ?_ ?_ ?_ ?_; rotate_left; (all_goals first | rfl | skip)))

theorem twcEnter_keeps {s0 : State} (s : State) (st : Nat) (hk : Keeps s0 s) :
    Keeps s0 (twcEnter s st) := by
  unfold twcEnter
  try dsimp only
  with_reducible repeat' (first
      | assumption | apply State.set_keeps | split)

theorem twcStart_keeps {s0 : State} (s : State) (x : Xfer) (bs : List Byte) (hk : Keeps s0 s) :
    Keeps s0 (twcStart s x bs) := by
  unfold twcStart
  try dsimp only
  with_reducible repeat' (first
      | assumption | apply State.set_keeps | apply State.setTwc_keeps | apply twcEnter_keeps)

theorem twcNext_keeps {s0 : State} (s : State) (hk : Keeps s0 s) :
    Keeps s0 (twcNext s) := by
  unfold twcNext
  try dsimp only
  with_reducible repeat' (first
      | assumption | apply State.setTwc_keeps | apply twcEnter_keeps | apply twcStart_keeps | split)

theorem startPass_keeps {s0 : State} (s : State) (hk : Keeps s0 s) :
    Keeps s0 (startPass s) := by
  unfold startPass
  try dsimp only
  with_reducible repeat' (first
      | assumption | apply State.set_keeps | apply State.setTwc_keeps | apply twcNext_keeps | apply each_keeps
      | (intro _) | split)

/-! ### Sequence -/

theorem State.setSys_keeps {s0 : State} (s : State) (x : Sys) (hk : Keeps s0 s) :
    Keeps s0 (State.setSys s x) := by
  unfold State.setSys
  try dsimp only
  with_reducible repeat' (first
      | assumption | simp only [keeps_mk_iff]
      | (refine keeps_adc ?_ ?_ ?_ ?_ ?_; rotate_left; (all_goals first | rfl | skip)))

theorem freezeTask_keeps {s0 : State} (s : State) (e t : Nat) (hk : Keeps s0 s) :
    Keeps s0 (freezeTask s e t) := by
  unfold freezeTask
  try dsimp only
  with_reducible repeat' (first
      | assumption | apply State.setTask_keeps | split)

theorem pdEngine_keeps {s0 : State} (k : State) (e : Nat) (hk : Keeps s0 k) :
    Keeps s0 (pdEngine k e) := by
  unfold pdEngine
  try dsimp only
  with_reducible repeat' (first
      | assumption | apply State.set_keeps | apply State.setEngine_keeps | apply engineDrain_keeps
      | apply dispatch_keeps | apply startTask_keeps | apply finishHandover_keeps | apply freezeTask_keeps
      | apply each_keeps | (intro _) | split)

theorem pdStart_keeps {s0 : State} (k : State) (trig : Nat) (hk : Keeps s0 k) :
    Keeps s0 (pdStart k trig) := by
  unfold pdStart
  try dsimp only
  with_reducible repeat' (first
      | assumption | apply State.set_keeps | apply formFit_keeps | apply opMark_keeps | apply toPhase_keeps
      | apply endBootLoad_keeps | apply State.setSys_keeps | apply pdEngine_keeps | apply each_keeps | split)

/-! ### OtpWords -/

theorem blowFuses_fuses (o : Otp) (fs : List (Nat × Nat)) : StaysBlown o.fuses (blowFuses o fs).fuses := by
  induction fs generalizing o with
  | nil => exact StaysBlown.refl _
  | cons f fs ih => exact ih { o with locks := NMap.put 0 o.locks f.1 (NMap.get 0 o.locks f.1 ||| 2 ^ f.2) }

theorem blowFuses_keeps (o : Otp) (fs : List (Nat × Nat)) : StaysBlown o.locks (blowFuses o fs).locks := by
  induction fs generalizing o with
  | nil => exact StaysBlown.refl _
  | cons f fs ih =>
    exact (StaysBlown.put_or o.locks f.1 (2 ^ f.2)).trans
      (ih { o with locks := NMap.put 0 o.locks f.1 (NMap.get 0 o.locks f.1 ||| 2 ^ f.2) })

theorem cutOp_keeps (o : Otp) (n weak : Nat) (op : ProgOp) :
    StaysBlown o.fuses (cutOp o n weak op).fuses ∧ StaysBlown o.locks (cutOp o n weak op).locks := by
  unfold cutOp
  split
  · exact ⟨blowFuses_fuses _ _, blowFuses_keeps _ _⟩
  · split
    · exact ⟨StaysBlown.refl _, StaysBlown.refl _⟩
    · dsimp only
      split <;> exact ⟨StaysBlown.put_or _ _ _, StaysBlown.refl _⟩

theorem otpCfgReset_keeps {s0 : State} (s : State) (hk : Keeps s0 s) :
    Keeps s0 (otpCfgReset s) := by
  unfold otpCfgReset
  try dsimp only
  with_reducible repeat' (first
      | assumption | apply State.set_keeps)

end Sys2Proof.Machine
end

