-- ==== Sys2Proof/Laws/KeepsPath.lean ====
section
/-! SUPPORT. `Keeps` of the ring, the resets, the power path and the thermal ladder. -/

namespace Sys2Proof.Machine

/-! ### Ring -/

theorem State.setRing_keeps {s0 : State} (s : State) (r : Ring) (hk : Keeps s0 s) :
    Keeps s0 (State.setRing s r) := by
  unfold State.setRing
  try dsimp only
  with_reducible repeat' (first
      | assumption | simp only [keeps_mk_iff]
      | (refine keeps_adc ?_ ?_ ?_ ?_ ?_; rotate_left; (all_goals first | rfl | skip)))

theorem ringSend_keeps {s0 : State} (s : State) (bodies : List Nat) (hk : Keeps s0 s) :
    Keeps s0 (ringSend s bodies) := by
  unfold ringSend
  try dsimp only
  with_reducible repeat' (first
      | assumption | apply State.setRing_keeps)

theorem ringQuiet_keeps {s0 : State} (s : State) (hk : Keeps s0 s) :
    Keeps s0 (ringQuiet s) := by
  unfold ringQuiet
  try dsimp only
  with_reducible repeat' (first
      | assumption | apply State.setRing_keeps)

theorem ringSendAcked_keeps {s0 : State} (s : State) (body : Nat) (hk : Keeps s0 s) :
    Keeps s0 (ringSendAcked s body) := by
  unfold ringSendAcked
  try dsimp only
  with_reducible repeat' (first
      | assumption | apply State.setRing_keeps)

theorem ringAck_keeps {s0 : State} (s : State) (body : Nat) (hk : Keeps s0 s) :
    Keeps s0 (ringAck s body) := by
  unfold ringAck
  try dsimp only
  with_reducible repeat' (first
      | assumption | apply State.setRing_keeps)

theorem enterRingState_keeps {s0 : State} (s : State) (n : Nat) (hk : Keeps s0 s) :
    Keeps s0 (enterRingState s n) := by
  unfold enterRingState
  try dsimp only
  with_reducible repeat' (first
      | assumption | apply State.set_keeps | apply opMark_keeps | apply State.setRing_keeps)

theorem agree_keeps {s0 : State} (s : State) (hk : Keeps s0 s) :
    Keeps s0 (agree s) := by
  unfold agree
  try dsimp only
  with_reducible repeat' (first
      | assumption | apply State.setRing_keeps)

theorem seeLine_keeps {s0 : State} (s : State) (line : Bool) (hk : Keeps s0 s) :
    Keeps s0 (seeLine s line) := by
  unfold seeLine
  try dsimp only
  with_reducible repeat' (first
      | assumption | apply State.set_keeps)

theorem takeHold_keeps {s0 : State} (s : State) (hk : Keeps s0 s) :
    Keeps s0 (takeHold s) := by
  unfold takeHold
  try dsimp only
  with_reducible repeat' (first
      | assumption | apply State.set_keeps | apply State.setRing_keeps)

theorem useRemembered_keeps {s0 : State} (s : State) (hk : Keeps s0 s) :
    Keeps s0 (useRemembered s) := by
  unfold useRemembered
  try dsimp only
  with_reducible repeat' (first
      | assumption | apply State.set_keeps | apply State.setRing_keeps | split)

theorem joinRing_keeps {s0 : State} (s : State) (n : Nat) (hk : Keeps s0 s) :
    Keeps s0 (joinRing s n) := by
  unfold joinRing
  try dsimp only
  with_reducible repeat' (first
      | assumption | apply State.set_keeps | apply wakeStep_keeps | apply enterRingState_keeps | apply agree_keeps
      | apply takeHold_keeps | apply useRemembered_keeps | split)

theorem setPresent_keeps {s0 : State} (s : State) (a : Nat) (hk : Keeps s0 s) :
    Keeps s0 (setPresent s a) := by
  unfold setPresent
  try dsimp only
  with_reducible repeat' (first
      | assumption | apply State.setBit_keeps)

theorem clearPresent_keeps {s0 : State} (s : State) (a : Nat) (hk : Keeps s0 s) :
    Keeps s0 (clearPresent s a) := by
  unfold clearPresent
  try dsimp only
  with_reducible repeat' (first
      | assumption | apply State.clearBits_keeps)

theorem ringAbortTask_keeps {s0 : State} (s : State) (hk : Keeps s0 s) :
    Keeps s0 (ringAbortTask s) := by
  unfold ringAbortTask
  try dsimp only
  with_reducible repeat' (first
      | assumption | apply State.setTask_keeps | apply takeExc_keeps | split)

theorem offRing_keeps {s0 : State} (s : State) (hk : Keeps s0 s) :
    Keeps s0 (offRing s) := by
  unfold offRing
  try dsimp only
  with_reducible repeat' (first
      | assumption | apply State.set_keeps | apply abortSteps_keeps | apply opEnd_keeps | apply State.setRing_keeps
      | apply ringAbortTask_keeps | apply each_keeps | (intro _))

theorem leaveRing_keeps {s0 : State} (s : State) (hk : Keeps s0 s) :
    Keeps s0 (leaveRing s) := by
  unfold leaveRing
  try dsimp only
  with_reducible repeat' (first
      | assumption | apply State.set_keeps | apply offRing_keeps | split)

theorem ringDrained_keeps {s0 : State} (s : State) (hk : Keeps s0 s) :
    Keeps s0 (ringDrained s) := by
  unfold ringDrained
  try dsimp only
  with_reducible repeat' (first
      | assumption | apply State.set_keeps | split)

theorem enableRing_keeps {s0 : State} (s : State) (hk : Keeps s0 s) :
    Keeps s0 (enableRing s) := by
  unfold enableRing
  try dsimp only
  with_reducible repeat' (first
      | assumption | apply State.set_keeps | apply State.setRing_keeps | apply each_keeps | (intro _) | split)

theorem execRingEnable_keeps {s0 : State} (s : State) (hk : Keeps s0 s) :
    OutKeeps s0 (execRingEnable s) := by
  unfold execRingEnable
  try dsimp only
  with_reducible repeat' (first
      | assumption | apply keeps_next | apply enableRing_keeps | split)

theorem insertNode_keeps {s0 : State} (s : State) (hk : Keeps s0 s) :
    Keeps s0 (insertNode s) := by
  unfold insertNode
  try dsimp only
  with_reducible repeat' (first
      | assumption | apply State.setRing_keeps | split)

theorem execRingInsert_keeps {s0 : State} (s : State) (hk : Keeps s0 s) :
    OutKeeps s0 (execRingInsert s) := by
  unfold execRingInsert
  try dsimp only
  with_reducible repeat' (first
      | assumption | apply keeps_next | apply insertNode_keeps | split)

theorem execRingMasterStart_keeps {s0 : State} (afterLoss : Bool) (s : State) (hk : Keeps s0 s) :
    OutKeeps s0 (execRingMasterStart afterLoss s) := by
  unfold execRingMasterStart
  try dsimp only
  with_reducible repeat' (first
      | assumption | apply keeps_next | apply State.expire_keeps | apply State.set_keeps | apply State.setRing_keeps
      | apply joinRing_keeps | apply setPresent_keeps | split)

theorem execRingLeave_keeps {s0 : State} (s : State) (hk : Keeps s0 s) :
    OutKeeps s0 (execRingLeave s) := by
  unfold execRingLeave
  try dsimp only
  with_reducible repeat' (first
      | assumption | apply keeps_next | apply leaveRing_keeps | split)

theorem execMstepAdvance_keeps {s0 : State} (s : State) (hk : Keeps s0 s) :
    OutKeeps s0 (execMstepAdvance s) := by
  unfold execMstepAdvance
  try dsimp only
  with_reducible repeat' (first
      | assumption | apply keeps_next | apply State.addWrap_keeps | apply notice_keeps | apply wakeStep_keeps
      | apply State.setRing_keeps | apply enterRingState_keeps | apply seeLine_keeps | split)

theorem execHoldRetake_keeps {s0 : State} (s : State) (hk : Keeps s0 s) :
    OutKeeps s0 (execHoldRetake s) := by
  unfold execHoldRetake
  try dsimp only
  with_reducible repeat' (first
      | assumption | apply keeps_next | apply State.expire_keeps | apply takeHold_keeps | split)

theorem beginAbort_keeps {s0 : State} (s : State) (hk : Keeps s0 s) :
    Keeps s0 (beginAbort s) := by
  unfold beginAbort
  try dsimp only
  with_reducible repeat' (first
      | assumption | apply State.setRing_keeps | apply takeHold_keeps | split)

theorem requestAbort_keeps {s0 : State} (s : State) (q : AbortReq) (hk : Keeps s0 s) :
    Keeps s0 (requestAbort s q) := by
  unfold requestAbort
  try dsimp only
  with_reducible repeat' (first
      | assumption | apply State.setRing_keeps | apply beginAbort_keeps)

theorem wantAbort_keeps {s0 : State} (s : State) (n : Nat) (hk : Keeps s0 s) :
    Keeps s0 (wantAbort s n) := by
  unfold wantAbort
  try dsimp only
  with_reducible repeat' (first
      | assumption | apply State.setRing_keeps | apply requestAbort_keeps | split)

theorem holderPolls_keeps {s0 : State} (s : State) (hk : Keeps s0 s) :
    Keeps s0 (holderPolls s) := by
  unfold holderPolls
  try dsimp only
  with_reducible repeat' (first
      | assumption | apply State.setRing_keeps)

theorem isolatePolls_keeps {s0 : State} (s : State) (hk : Keeps s0 s) :
    Keeps s0 (isolatePolls s) := by
  unfold isolatePolls
  try dsimp only
  with_reducible repeat' (first
      | assumption | apply State.setRing_keeps | apply holderPolls_keeps | split)

theorem sendIsolate_keeps {s0 : State} (s : State) (a : Nat) (hk : Keeps s0 s) :
    Keeps s0 (sendIsolate s a) := by
  unfold sendIsolate
  try dsimp only
  with_reducible repeat' (first
      | assumption | apply State.setRing_keeps | apply ringSendAcked_keeps | split)

theorem ringReturned_keeps {s0 : State} (s : State) (hk : Keeps s0 s) :
    Keeps s0 (ringReturned s) := by
  unfold ringReturned
  try dsimp only
  with_reducible repeat' (first
      | assumption | apply State.set_keeps | apply State.setRing_keeps | apply beginAbort_keeps
      | apply isolatePolls_keeps | apply sendIsolate_keeps | apply each_keeps | split)

theorem execAbortHoldWaitEnd_keeps {s0 : State} (s : State) (hk : Keeps s0 s) :
    OutKeeps s0 (execAbortHoldWaitEnd s) := by
  unfold execAbortHoldWaitEnd
  try dsimp only
  with_reducible repeat' (first
      | assumption | apply keeps_next | apply State.expire_keeps | apply State.setRing_keeps
      | apply ringSendAcked_keeps | split)

theorem applyAbort_keeps {s0 : State} (s : State) (target node seq : Nat) (hk : Keeps s0 s) :
    Keeps s0 (applyAbort s target node seq) := by
  unfold applyAbort
  try dsimp only
  with_reducible repeat' (first
      | assumption | apply State.set_keeps | apply State.addSat_keeps | apply notice_keeps | apply abortSteps_keeps
      | apply State.setRing_keeps | apply enterRingState_keeps | apply agree_keeps | apply takeHold_keeps
      | apply ringAbortTask_keeps | split)

theorem stateSent_keeps {s0 : State} (s : State) (hk : Keeps s0 s) :
    Keeps s0 (stateSent s) := by
  unfold stateSent
  try dsimp only
  with_reducible repeat' (first
      | assumption | apply State.setRing_keeps)

theorem masterAborted_keeps {s0 : State} (s : State) (target node seq : Nat) (hk : Keeps s0 s) :
    Keeps s0 (masterAborted s target node seq) := by
  unfold masterAborted
  try dsimp only
  with_reducible repeat' (first
      | assumption | apply State.setRing_keeps | apply ringAck_keeps | apply beginAbort_keeps
      | apply sendIsolate_keeps | apply ringReturned_keeps | apply applyAbort_keeps | apply stateSent_keeps
      | apply each_keeps | split)

theorem execRingAbortFrame_keeps {s0 : State} (target : BitVec 8) (node : BitVec 7) (seq : BitVec 4) (s : State) (hk : Keeps s0 s) :
    OutKeeps s0 (execRingAbortFrame target node seq s) := by
  unfold execRingAbortFrame
  try dsimp only
  with_reducible repeat' (first
      | assumption | apply keeps_next | apply ringSend_keeps | apply applyAbort_keeps | apply masterAborted_keeps
      | split)

theorem giveUp_keeps {s0 : State} (s : State) (hk : Keeps s0 s) :
    Keeps s0 (giveUp s) := by
  unfold giveUp
  try dsimp only
  with_reducible repeat' (first
      | assumption | apply State.setRing_keeps | apply beginAbort_keeps | split)

theorem execRingCycle_keeps {s0 : State} (s : State) (hk : Keeps s0 s) :
    OutKeeps s0 (execRingCycle s) := by
  unfold execRingCycle
  try dsimp only
  with_reducible repeat' (first
      | assumption | apply keeps_next | apply State.expire_keeps | apply State.setRing_keeps | apply ringSend_keeps
      | apply ringSendAcked_keeps | apply stateSent_keeps | apply giveUp_keeps | split)

theorem stopMaster_keeps {s0 : State} (s : State) (hk : Keeps s0 s) :
    Keeps s0 (stopMaster s) := by
  unfold stopMaster
  try dsimp only
  with_reducible repeat' (first
      | assumption | apply State.set_keeps | apply State.setRing_keeps)

theorem masterSawState_keeps {s0 : State} (s : State) (f : StateFrame) (hk : Keeps s0 s) :
    Keeps s0 (masterSawState s f) := by
  unfold masterSawState
  try dsimp only
  with_reducible repeat' (first
      | assumption | apply State.set_keeps | apply raise_keeps | apply State.setRing_keeps | apply requestAbort_keeps
      | apply ringReturned_keeps | apply stopMaster_keeps | split)

theorem fillAreq_keeps {s0 : State} (s : State) (f : StateFrame) (hk : Keeps s0 s) :
    Keeps s0 (fillAreq s f) := by
  unfold fillAreq
  try dsimp only
  with_reducible repeat' (first
      | assumption | apply State.setRing_keeps | apply ringSend_keeps | split)

theorem checkState_keeps {s0 : State} (s : State) (n : Nat) (hk : Keeps s0 s) :
    Keeps s0 (checkState s n) := by
  unfold checkState
  try dsimp only
  with_reducible repeat' (first
      | assumption | apply raise_keeps | apply wakeStep_keeps | apply State.setRing_keeps | apply enterRingState_keeps
      | apply agree_keeps | split)

theorem execRingStateFrame_keeps {s0 : State} (f : StateFrame) (k : State) (hk : Keeps s0 k) :
    OutKeeps s0 (execRingStateFrame f k) := by
  unfold execRingStateFrame
  try dsimp only
  with_reducible repeat' (first
      | assumption | apply keeps_next | apply State.set_keeps | apply raise_keeps | apply State.setRing_keeps
      | apply seeLine_keeps | apply joinRing_keeps | apply leaveRing_keeps | apply masterSawState_keeps
      | apply fillAreq_keeps | apply checkState_keeps | split)

theorem dropAddresses_keeps {s0 : State} (s : State) (hk : Keeps s0 s) :
    Keeps s0 (dropAddresses s) := by
  unfold dropAddresses
  try dsimp only
  with_reducible repeat' (first
      | assumption | apply State.set_keeps | apply each_keeps | (intro _))

theorem execRingEnumFrame_keeps {s0 : State} (offered : BitVec 7) (taken clr : Bool) (s : State) (hk : Keeps s0 s) :
    OutKeeps s0 (execRingEnumFrame offered taken clr s) := by
  unfold execRingEnumFrame
  try dsimp only
  with_reducible repeat' (first
      | assumption | apply keeps_next | apply State.set_keeps | apply ringSend_keeps | apply setPresent_keeps
      | apply dropAddresses_keeps | split)

theorem execRingEnumReturn_keeps {s0 : State} (offered : BitVec 7) (taken clr : Bool) (s : State) (hk : Keeps s0 s) :
    OutKeeps s0 (execRingEnumReturn offered taken clr s) := by
  unfold execRingEnumReturn
  try dsimp only
  with_reducible repeat' (first
      | assumption | apply keeps_next | apply notice_keeps | apply ringAck_keeps | apply useRemembered_keeps
      | apply setPresent_keeps | apply ringReturned_keeps | split)

theorem execRingPollFrame_keeps {s0 : State} (holders : Bool) (group : BitVec 2) (bits : Word) (s : State) (hk : Keeps s0 s) :
    OutKeeps s0 (execRingPollFrame holders group bits s) := by
  unfold execRingPollFrame
  try dsimp only
  with_reducible repeat' (first
      | assumption | apply keeps_next | apply State.set_keeps | apply ringSend_keeps | split)

theorem presencePoll_keeps {s0 : State} (s : State) (g bits : Nat) (hk : Keeps s0 s) :
    Keeps s0 (presencePoll s g bits) := by
  unfold presencePoll
  try dsimp only
  with_reducible repeat' (first
      | assumption | apply State.setRing_keeps | apply ringSendAcked_keeps | apply each_keeps | (intro _) | split)

theorem execRingPollReturn_keeps {s0 : State} (holders : Bool) (group : BitVec 2) (bits : Word) (s : State) (hk : Keeps s0 s) :
    OutKeeps s0 (execRingPollReturn holders group bits s) := by
  unfold execRingPollReturn
  try dsimp only
  with_reducible repeat' (first
      | assumption | apply keeps_next | apply State.set_keeps | apply State.setRing_keeps | apply requestAbort_keeps
      | apply ringReturned_keeps | apply presencePoll_keeps | split)

theorem execRingNodeLostFrame_keeps {s0 : State} (addr : BitVec 7) (s : State) (hk : Keeps s0 s) :
    OutKeeps s0 (execRingNodeLostFrame addr s) := by
  unfold execRingNodeLostFrame
  try dsimp only
  with_reducible repeat' (first
      | assumption | apply keeps_next | apply raise_keeps | apply ringSend_keeps | apply ringAck_keeps
      | apply clearPresent_keeps | apply requestAbort_keeps | apply ringReturned_keeps | split)

theorem execRingIsolateFrame_keeps {s0 : State} (addr : BitVec 7) (s : State) (hk : Keeps s0 s) :
    OutKeeps s0 (execRingIsolateFrame addr s) := by
  unfold execRingIsolateFrame
  try dsimp only
  with_reducible repeat' (first
      | assumption | apply keeps_next | apply State.set_keeps | apply raise_keeps | apply ringSend_keeps
      | apply ringSendAcked_keeps | apply ringAck_keeps | apply offRing_keeps | apply ringReturned_keeps | split)

theorem execRingFrameCrcError_keeps {s0 : State} (body : BitVec 40) (s : State) (hk : Keeps s0 s) :
    OutKeeps s0 (execRingFrameCrcError body s) := by
  unfold execRingFrameCrcError
  try dsimp only
  with_reducible repeat' (first
      | assumption | apply keeps_next | apply State.addSat_keeps | apply State.setRing_keeps | split)

theorem execRingFrameResend_keeps {s0 : State} (s : State) (hk : Keeps s0 s) :
    OutKeeps s0 (execRingFrameResend s) := by
  unfold execRingFrameResend
  try dsimp only
  with_reducible repeat' (first
      | assumption | apply keeps_next | apply State.expire_keeps | apply State.setRing_keeps | split)

theorem execRingSilent_keeps {s0 : State} (s : State) (hk : Keeps s0 s) :
    OutKeeps s0 (execRingSilent s) := by
  unfold execRingSilent
  try dsimp only
  with_reducible repeat' (first
      | assumption | apply keeps_next | apply State.expire_keeps | apply State.set_keeps | apply raise_keeps | split)

theorem execRingOpen_keeps {s0 : State} (s : State) (hk : Keeps s0 s) :
    OutKeeps s0 (execRingOpen s) := by
  unfold execRingOpen
  try dsimp only
  with_reducible repeat' (first
      | assumption | apply keeps_next | apply State.expire_keeps | apply State.set_keeps | apply raise_keeps | split)

theorem execMstepDeadline_keeps {s0 : State} (line : Bool) (s : State) (hk : Keeps s0 s) :
    OutKeeps s0 (execMstepDeadline line s) := by
  unfold execMstepDeadline
  try dsimp only
  with_reducible repeat' (first
      | assumption | apply keeps_next | apply State.expire_keeps | apply raise_keeps | apply State.setRing_keeps
      | apply ringQuiet_keeps | apply seeLine_keeps | apply isolatePolls_keeps | split)

theorem execMstepStuck_keeps {s0 : State} (line : Bool) (s : State) (hk : Keeps s0 s) :
    OutKeeps s0 (execMstepStuck line s) := by
  unfold execMstepStuck
  try dsimp only
  with_reducible repeat' (first
      | assumption | apply keeps_next | apply State.expire_keeps | apply raise_keeps | apply State.setRing_keeps
      | apply ringQuiet_keeps | apply seeLine_keeps | apply holderPolls_keeps | split)

theorem execMngCmdAbort_keeps {s0 : State} (arg : BitVec 8) (s : State) (hk : Keeps s0 s) :
    OutKeeps s0 (execMngCmdAbort arg s) := by
  unfold execMngCmdAbort
  try dsimp only
  with_reducible repeat' (first
      | assumption | apply keeps_next | apply wantAbort_keeps | split)

theorem execMngCmdIsolate_keeps {s0 : State} (arg : BitVec 8) (s : State) (hk : Keeps s0 s) :
    OutKeeps s0 (execMngCmdIsolate arg s) := by
  unfold execMngCmdIsolate
  try dsimp only
  with_reducible repeat' (first
      | assumption | apply keeps_next | apply ringQuiet_keeps | apply sendIsolate_keeps | split)

theorem execMngCmdPoll_keeps {s0 : State} (s : State) (hk : Keeps s0 s) :
    OutKeeps s0 (execMngCmdPoll s) := by
  unfold execMngCmdPoll
  try dsimp only
  with_reducible repeat' (first
      | assumption | apply keeps_next | apply State.setRing_keeps | apply ringQuiet_keeps | apply holderPolls_keeps
      | split)

theorem stepResult_keeps {s0 : State} (s : State) (e t : Nat) (x : Task) (z : Bool) (hk : Keeps s0 s) :
    Keeps s0 (stepResult s e t x z) := by
  unfold stepResult
  try dsimp only
  with_reducible repeat' (first
      | assumption | apply State.setTask_keeps)

theorem execStep_keeps {s0 : State} (i : Issue) (n : BitVec 8) (s : State) (hk : Keeps s0 s) :
    OutKeeps s0 (execStep i n s) := by
  unfold execStep
  try dsimp only
  with_reducible repeat' (first
      | assumption | apply takeExc_keeps | apply issue_keeps | apply State.setRing_keeps | apply useRemembered_keeps
      | apply stepResult_keeps | (intro _) | split)

theorem execStepAbort_keeps {s0 : State} (i : Issue) (n : BitVec 8) (s : State) (hk : Keeps s0 s) :
    OutKeeps s0 (execStepAbort i n s) := by
  unfold execStepAbort
  try dsimp only
  with_reducible repeat' (first
      | assumption | apply takeExc_keeps | apply issue_keeps | apply wantAbort_keeps | apply stepResult_keeps
      | (intro _) | split)

theorem execWaitstep_keeps {s0 : State} (i : Issue) (n : BitVec 8) (deadline : BitVec 16) (s : State) (hk : Keeps s0 s) :
    OutKeeps s0 (execWaitstep i n deadline s) := by
  unfold execWaitstep
  try dsimp only
  with_reducible repeat' (first
      | assumption | apply State.setTask_keeps | apply issue_keeps | apply enterWait_keeps | (intro _) | split)

/-! ### Resets -/

theorem State.setPath_keeps {s0 : State} (s : State) (p : Path) (hk : Keeps s0 s) :
    Keeps s0 (State.setPath s p) := by
  unfold State.setPath
  try dsimp only
  with_reducible repeat' (first
      | assumption | simp only [keeps_mk_iff]
      | (refine keeps_adc ?_ ?_ ?_ ?_ ?_; rotate_left; (all_goals first | rfl | skip)))

theorem otpCut_keeps (s : State) :
    StaysBlown s.otp.fuses (otpCut s).fuses ∧ StaysBlown s.otp.locks (otpCut s).locks := by
  unfold otpCut
  dsimp only
  split
  · exact ⟨StaysBlown.refl _, StaysBlown.refl _⟩
  · exact cutOp_keeps _ _ _ _

theorem otpThroughReset_blown (s : State) :
    StaysBlown s.otp.fuses (otpThroughReset s).fuses ∧ StaysBlown s.otp.locks (otpThroughReset s).locks := otpCut_keeps s

/-- A start-up without a reset keeps every blown fuse. -/
theorem otpThroughRestart_keeps {s0 s : State} (h : Keeps s0 s) :
    KeepsParts s0 s.pending s.now s.regs s.mem (otpThroughRestart s) s.fox s.hci s.adc :=
  ⟨h.1, h.2.1, h.2.2.1, h.2.2.2.1, h.2.2.2.2.1.trans (otpCut_keeps s).1, h.2.2.2.2.2.1.trans (otpCut_keeps s).2,
    h.2.2.2.2.2.2⟩

theorem systemReset_keeps {s0 : State} (s : State) (keepPair : Bool) (h : Keeps s0 s) :
    Keeps s0 (systemReset s keepPair) := by
  have e := keeps_off (o := otpThroughReset s)
    (f := { hist := s.fox.hist, histOver := s.fox.histOver, readMark := s.fox.readMark, logOver := s.fox.logOver,
            logHeld := s.fox.logHeld, logLost := s.fox.logLost })
    h (NMap.sorted_filter (fun e => porKey e.1 || wearKey e.1) s.regs)
    (NMap.wf_filter 0#8 (fun e => !clearedMemory e.1) s.mem) (Nat.le_refl _) (otpCut_keeps s).1 (otpCut_keeps s).2 id
  unfold systemReset
  try dsimp only
  with_reducible repeat' (first
      | assumption | apply State.set_keeps | apply otpCfgReset_keeps | apply State.setPath_keeps
      | simp only [keeps_mk_iff] | (refine keeps_adc ?_ ?_ ?_ ?_ ?_; rotate_left; (all_goals first | rfl | skip))
      | split)

theorem railsDown_keeps {s0 : State} (s : State) (h : Keeps s0 s) : Keeps s0 (railsDown s) := by
  unfold railsDown
  refine State.set_keeps _ _ _ (keeps_mk ⟨h.1, h.2.1, h.2.2.1, fun _ => rfl, h.2.2.2.2.1, h.2.2.2.2.2.1, fun k => ?_,
    h.2.2.2.2.2.2.2⟩)
  have := h.2.2.2.2.2.2.1 k
  simp only [Fox.bounded, Bool.and_eq_true, decide_eq_true_eq] at this ⊢
  exact ⟨this.1, Nat.zero_le _⟩

theorem setStored_keeps {s0 : State} (s : State) (v : Option Stored) (hk : Keeps s0 s) :
    Keeps s0 (setStored s v) := by
  unfold setStored
  try dsimp only
  with_reducible repeat' (first
      | assumption | apply State.set_keeps | apply State.setSys_keeps)

theorem beginStartup_keeps {s0 : State} (s : State) (h : Keeps s0 s) : Keeps s0 (beginStartup s) := by
  have e := keeps_fox (f := { s.fox with logOver := s.fox.logOver + s.fox.logLost, logLost := 0 })
    (State.setAdc_keeps s { s.adc with sinceStart := 0 } h rfl rfl rfl rfl) rfl rfl
  unfold beginStartup
  dsimp only
  exact State.set_keeps _ _ _ (State.set_keeps _ _ _ (State.set_keeps _ _ _ (hciClear_keeps _ (keeps_mk e))))

theorem startIfReleased_keeps {s0 : State} (s : State) (hk : Keeps s0 s) :
    Keeps s0 (startIfReleased s) := by
  unfold startIfReleased
  try dsimp only
  with_reducible repeat' (first
      | assumption | apply State.setPath_keeps | apply beginStartup_keeps | split)

theorem comparatorOff_keeps {s0 : State} (s : State) (hk : Keeps s0 s) :
    Keeps s0 (comparatorOff s) := by
  unfold comparatorOff
  try dsimp only
  with_reducible repeat' (first
      | assumption | apply State.set_keeps | apply State.setPath_keeps)

theorem pathOff_keeps {s0 : State} (s : State) (mode : OffMode) (hk : Keeps s0 s) :
    Keeps s0 (pathOff s mode) := by
  unfold pathOff
  try dsimp only
  with_reducible repeat' (first
      | assumption | apply State.setPath_keeps | apply systemReset_keeps | apply railsDown_keeps
      | apply setStored_keeps | apply comparatorOff_keeps | split)

theorem powerLoss_keeps {s0 : State} (s : State) (hk : Keeps s0 s) :
    Keeps s0 (powerLoss s) := by
  unfold powerLoss
  try dsimp only
  with_reducible repeat' (first
      | assumption | apply State.set_keeps | apply startIfReleased_keeps | apply pathOff_keeps)

theorem snowdrop_keeps {s0 : State} (s : State) (hk : Keeps s0 s) :
    Keeps s0 (snowdrop s) := by
  unfold snowdrop
  try dsimp only
  with_reducible repeat' (first
      | assumption | apply pathOff_keeps)

theorem strapAddresses_keeps {s0 : State} (s : State) (hk : Keeps s0 s) :
    Keeps s0 (strapAddresses s) := by
  unfold strapAddresses
  try dsimp only
  with_reducible repeat' (first
      | assumption | apply State.set_keeps)

theorem xrefLost_keeps {s0 : State} (s : State) (hk : Keeps s0 s) :
    Keeps s0 (xrefLost s) := by
  unfold xrefLost
  try dsimp only
  with_reducible repeat' (first
      | assumption | apply raiseBare_keeps | simp only [keeps_mk_iff]
      | (refine keeps_adc ?_ ?_ ?_ ?_ ?_; rotate_left; (all_goals first | rfl | skip)) | split)

theorem seeBalls_keeps {s0 : State} (s : State) (vio vioVcl testEn : Bool) (hk : Keeps s0 s) :
    Keeps s0 (seeBalls s vio vioVcl testEn) := by
  unfold seeBalls
  try dsimp only
  with_reducible repeat' (first
      | assumption | apply xrefLost_keeps | simp only [keeps_mk_iff]
      | (refine keeps_adc ?_ ?_ ?_ ?_ ?_; rotate_left; (all_goals first | rfl | skip)) | split)

theorem execPorRelease_keeps {s0 : State} (straps : BitVec 4) (vaux vio vioVcl testEn : Bool) (s : State) (hk : Keeps s0 s) :
    OutKeeps s0 (execPorRelease straps vaux vio vioVcl testEn s) := by
  unfold execPorRelease
  try dsimp only
  with_reducible repeat' (first
      | assumption | apply keeps_next | apply State.setPath_keeps | apply startIfReleased_keeps
      | apply strapAddresses_keeps | simp only [keeps_mk_iff]
      | (refine keeps_adc ?_ ?_ ?_ ?_ ?_; rotate_left; (all_goals first | rfl | skip)) | split)

theorem execNresetAssert_keeps {s0 : State} (s : State) (hk : Keeps s0 s) :
    OutKeeps s0 (execNresetAssert s) := by
  unfold execNresetAssert
  try dsimp only
  with_reducible repeat' (first
      | assumption | apply keeps_next | apply State.set_keeps | apply systemReset_keeps | simp only [keeps_mk_iff]
      | (refine keeps_adc ?_ ?_ ?_ ?_ ?_; rotate_left; (all_goals first | rfl | skip)) | split)

theorem execNresetRelease_keeps {s0 : State} (vio vioVcl testEn : Bool) (s : State) (hk : Keeps s0 s) :
    OutKeeps s0 (execNresetRelease vio vioVcl testEn s) := by
  unfold execNresetRelease
  try dsimp only
  with_reducible repeat' (first
      | assumption | apply keeps_next | apply beginStartup_keeps | apply seeBalls_keeps | simp only [keeps_mk_iff]
      | (refine keeps_adc ?_ ?_ ?_ ?_ ?_; rotate_left; (all_goals first | rfl | skip)) | split)

theorem execSysImmediate_keeps {s0 : State} (s : State) (hk : Keeps s0 s) :
    OutKeeps s0 (execSysImmediate s) := by
  unfold execSysImmediate
  try dsimp only
  with_reducible repeat' (first
      | assumption | apply keeps_next | apply State.set_keeps | apply systemReset_keeps | apply beginStartup_keeps
      | split)

theorem longReset_keeps {s0 : State} (s : State) (h : Keeps s0 s) : Keeps s0 (longReset s) := by
  have e := keeps_off (o := otpThroughReset s) (f := {}) (regs := []) (mem := []) h (fun _ => rfl) (fun _ => rfl) (Nat.le_refl _)
    (otpCut_keeps s).1 (otpCut_keeps s).2 (fun _ => rfl)
  unfold longReset
  try dsimp only
  with_reducible repeat' (first
      | assumption | apply State.set_keeps | apply otpCfgReset_keeps | apply strapAddresses_keeps
      | simp only [keeps_mk_iff] | split)

theorem execLongPress_keeps {s0 : State} (held : Nat) (s : State) (hk : Keeps s0 s) :
    OutKeeps s0 (execLongPress held s) := by
  unfold execLongPress
  try dsimp only
  with_reducible repeat' (first
      | assumption | apply keeps_next | apply longReset_keeps | split)

theorem execLongPressOpenEnd_keeps {s0 : State} (s : State) (hk : Keeps s0 s) :
    OutKeeps s0 (execLongPressOpenEnd s) := by
  unfold execLongPressOpenEnd
  try dsimp only
  with_reducible repeat' (first
      | assumption | apply keeps_next | apply State.setSys_keeps | apply startIfReleased_keeps | split)

theorem execXrefLock_keeps {s0 : State} (s : State) (hk : Keeps s0 s) :
    OutKeeps s0 (execXrefLock s) := by
  unfold execXrefLock
  try dsimp only
  with_reducible repeat' (first
      | assumption | apply keeps_next | simp only [keeps_mk_iff]
      | (refine keeps_adc ?_ ?_ ?_ ?_ ?_; rotate_left; (all_goals first | rfl | skip)) | split)

theorem execXrefLoss_keeps {s0 : State} (s : State) (hk : Keeps s0 s) :
    OutKeeps s0 (execXrefLoss s) := by
  unfold execXrefLoss
  try dsimp only
  with_reducible repeat' (first
      | assumption | apply keeps_next | apply xrefLost_keeps)

/-! ### PowerPath -/

theorem ppEnter_keeps {s0 : State} (s : State) (st : Nat) (hk : Keeps s0 s) :
    Keeps s0 (ppEnter s st) := by
  unfold ppEnter
  try dsimp only
  with_reducible repeat' (first
      | assumption | apply State.set_keeps | apply chgRefresh_keeps)

theorem srcChange_keeps {s0 : State} (s : State) (hk : Keeps s0 s) :
    Keeps s0 (srcChange s) := by
  unfold srcChange
  try dsimp only
  with_reducible repeat' (first
      | assumption | apply notice_keeps | split)

theorem ontoBank_keeps {s0 : State} (s : State) (st bkb vsys : Nat) (hk : Keeps s0 s) :
    Keeps s0 (ontoBank s st bkb vsys) := by
  unfold ontoBank
  try dsimp only
  with_reducible repeat' (first
      | assumption | apply State.set_keeps | apply State.setPath_keeps | apply ppEnter_keeps | apply srcChange_keeps)

theorem enterShutdown_keeps {s0 : State} (s : State) (trig : Nat) (hk : Keeps s0 s) :
    Keeps s0 (enterShutdown s trig) := by
  unfold enterShutdown
  try dsimp only
  with_reducible repeat' (first
      | assumption | apply pdStart_keeps | apply State.setPath_keeps | apply ppEnter_keeps)

theorem bankTemp_keeps {s0 : State} (s : State) (cls : Cls) (hk : Keeps s0 s) :
    Keeps s0 (bankTemp s cls) := by
  unfold bankTemp
  try dsimp only
  with_reducible repeat' (first
      | assumption | apply raise_keeps | apply State.setPath_keeps)

theorem bankEntered_keeps {s0 : State} (s : State) (hk : Keeps s0 s) :
    Keeps s0 (bankEntered s) := by
  unfold bankEntered
  try dsimp only
  with_reducible repeat' (first
      | assumption | apply enterShutdown_keeps | apply bankTemp_keeps | split)

theorem enterBank_keeps {s0 : State} (s : State) (bkb vsys : Nat) (hk : Keeps s0 s) :
    Keeps s0 (enterBank s bkb vsys) := by
  unfold enterBank
  try dsimp only
  with_reducible repeat' (first
      | assumption | apply ontoBank_keeps | apply bankEntered_keeps)

theorem backToBank_keeps {s0 : State} (s : State) (hk : Keeps s0 s) :
    Keeps s0 (backToBank s) := by
  unfold backToBank
  try dsimp only
  with_reducible repeat' (first
      | assumption | apply State.set_keeps | apply State.setPath_keeps | apply ppEnter_keeps | apply bankEntered_keeps)

theorem enterAux_keeps {s0 : State} (s : State) (hk : Keeps s0 s) :
    Keeps s0 (enterAux s) := by
  unfold enterAux
  try dsimp only
  with_reducible repeat' (first
      | assumption | apply State.setPath_keeps | apply ppEnter_keeps | apply srcChange_keeps)

theorem enterReturn_keeps {s0 : State} (s : State) (hk : Keeps s0 s) :
    Keeps s0 (enterReturn s) := by
  unfold enterReturn
  try dsimp only
  with_reducible repeat' (first
      | assumption | apply State.setPath_keeps | apply ppEnter_keeps)

theorem auxFails_keeps {s0 : State} (s : State) (bkb vsys : Nat) (hk : Keeps s0 s) :
    Keeps s0 (auxFails s bkb vsys) := by
  unfold auxFails
  try dsimp only
  with_reducible repeat' (first
      | assumption | apply powerLoss_keeps | apply ontoBank_keeps | apply enterShutdown_keeps | apply enterBank_keeps
      | split)

theorem vauxOut_keeps {s0 : State} (s : State) (above : Bool) (hk : Keeps s0 s) :
    Keeps s0 (vauxOut s above) := by
  unfold vauxOut
  try dsimp only
  with_reducible repeat' (first
      | assumption | apply State.set_keeps | apply State.setPath_keeps)

theorem vauxLossEvent_keeps {s0 : State} (s : State) (cause : VauxCause) (hk : Keeps s0 s) :
    Keeps s0 (vauxLossEvent s cause) := by
  unfold vauxLossEvent
  try dsimp only
  with_reducible repeat' (first
      | assumption | apply raise_keeps | split)

theorem execVauxLoss_keeps {s0 : State} (cause : VauxCause) (bkb vsys : Nat) (s : State) (hk : Keeps s0 s) :
    OutKeeps s0 (execVauxLoss cause bkb vsys s) := by
  unfold execVauxLoss
  try dsimp only
  with_reducible repeat' (first
      | assumption | apply keeps_next | apply State.setPath_keeps | apply powerLoss_keeps | apply backToBank_keeps
      | apply auxFails_keeps | apply vauxOut_keeps | apply vauxLossEvent_keeps | split)

theorem execVauxRise_keeps {s0 : State} (s : State) (hk : Keeps s0 s) :
    OutKeeps s0 (execVauxRise s) := by
  unfold execVauxRise
  try dsimp only
  with_reducible repeat' (first
      | assumption | apply keeps_next | apply State.set_keeps | apply State.setPath_keeps | split)

theorem execVsysUv_keeps {s0 : State} (vsys : Nat) (s : State) (hk : Keeps s0 s) :
    OutKeeps s0 (execVsysUv vsys s) := by
  unfold execVsysUv
  try dsimp only
  with_reducible repeat' (first
      | assumption | apply keeps_next | apply raise_keeps | apply powerLoss_keeps | split)

theorem returnIfAllowed_keeps {s0 : State} (s : State) (hk : Keeps s0 s) :
    Keeps s0 (returnIfAllowed s) := by
  unfold returnIfAllowed
  try dsimp only
  with_reducible repeat' (first
      | assumption | apply enterReturn_keeps | split)

theorem execVauxQualified_keeps {s0 : State} (s : State) (hk : Keeps s0 s) :
    OutKeeps s0 (execVauxQualified s) := by
  unfold execVauxQualified
  try dsimp only
  with_reducible repeat' (first
      | assumption | apply keeps_next | apply State.expire_keeps | apply notice_keeps | apply State.setPath_keeps
      | apply returnIfAllowed_keeps | split)

theorem execReturnOverlapEnd_keeps {s0 : State} (s : State) (hk : Keeps s0 s) :
    OutKeeps s0 (execReturnOverlapEnd s) := by
  unfold execReturnOverlapEnd
  try dsimp only
  with_reducible repeat' (first
      | assumption | apply keeps_next | apply State.expire_keeps | apply enterAux_keeps | split)

theorem setPair_keeps {s0 : State} (s : State) (p : FetPair) (x : Pair) (hk : Keeps s0 s) :
    Keeps s0 (setPair s p x) := by
  unfold setPair
  try dsimp only
  with_reducible repeat' (first
      | assumption | apply State.setPath_keeps)

theorem execPairReverseBlock_keeps {s0 : State} (p : FetPair) (s : State) (hk : Keeps s0 s) :
    OutKeeps s0 (execPairReverseBlock p s) := by
  unfold execPairReverseBlock
  try dsimp only
  with_reducible repeat' (first
      | assumption | apply keeps_next | apply setPair_keeps | split)

theorem execPairForwardOn_keeps {s0 : State} (p : FetPair) (s : State) (hk : Keeps s0 s) :
    OutKeeps s0 (execPairForwardOn p s) := by
  unfold execPairForwardOn
  try dsimp only
  with_reducible repeat' (first
      | assumption | apply keeps_next | apply setPair_keeps | split)

theorem execBankPairFullEnhance_keeps {s0 : State} (s : State) (hk : Keeps s0 s) :
    OutKeeps s0 (execBankPairFullEnhance s) := by
  unfold execBankPairFullEnhance
  try dsimp only
  with_reducible repeat' (first
      | assumption | apply keeps_next | apply setPair_keeps | split)

theorem execIlimAct_keeps {s0 : State} (s : State) (hk : Keeps s0 s) :
    OutKeeps s0 (execIlimAct s) := by
  unfold execIlimAct
  try dsimp only
  with_reducible repeat' (first
      | assumption | apply keeps_next | apply State.set_keeps | apply notice_keeps | apply State.setPath_keeps | split)

theorem execIlimEnd_keeps {s0 : State} (s : State) (hk : Keeps s0 s) :
    OutKeeps s0 (execIlimEnd s) := by
  unfold execIlimEnd
  try dsimp only
  with_reducible repeat' (first
      | assumption | apply keeps_next | apply State.set_keeps | apply State.setPath_keeps)

theorem countTrip_keeps {s0 : State} (s : State) (hk : Keeps s0 s) :
    Keeps s0 (countTrip s) := by
  unfold countTrip
  try dsimp only
  with_reducible repeat' (first
      | assumption | apply State.set_keeps | apply raise_keeps | apply State.setPath_keeps | split)

theorem execIlimSoa_keeps {s0 : State} (bkb vsys : Nat) (s : State) (hk : Keeps s0 s) :
    OutKeeps s0 (execIlimSoa bkb vsys s) := by
  unfold execIlimSoa
  try dsimp only
  with_reducible repeat' (first
      | assumption | apply keeps_next | apply State.expire_keeps | apply raise_keeps | apply State.setPath_keeps
      | apply auxFails_keeps | apply countTrip_keeps | split)

theorem ppCommit_keeps {s0 : State} (s : State) (hk : Keeps s0 s) :
    Keeps s0 (ppCommit s) := by
  unfold ppCommit
  try dsimp only
  with_reducible repeat' (first
      | assumption | apply State.set_keeps | apply State.setPath_keeps | split)

theorem execPpApply_keeps {s0 : State} (s : State) (hk : Keeps s0 s) :
    OutKeeps s0 (execPpApply s) := by
  unfold execPpApply
  try dsimp only
  with_reducible repeat' (first
      | assumption | apply keeps_next | apply ppCommit_keeps | split)

theorem execPpClrflt_keeps {s0 : State} (s : State) (hk : Keeps s0 s) :
    OutKeeps s0 (execPpClrflt s) := by
  unfold execPpClrflt
  try dsimp only
  with_reducible repeat' (first
      | assumption | apply keeps_next | apply State.set_keeps | apply State.setPath_keeps
      | apply returnIfAllowed_keeps | split)

theorem execBkbOc_keeps {s0 : State} (s : State) (hk : Keeps s0 s) :
    OutKeeps s0 (execBkbOc s) := by
  unfold execBkbOc
  try dsimp only
  with_reducible repeat' (first
      | assumption | apply keeps_next | apply State.set_keeps | apply raise_keeps | apply powerLoss_keeps
      | apply enterAux_keeps | split)

theorem bankAt_keeps {s0 : State} (s : State) (bkb : Nat) (hk : Keeps s0 s) :
    Keeps s0 (bankAt s bkb) := by
  unfold bankAt
  try dsimp only
  with_reducible repeat' (first
      | assumption | apply State.setPath_keeps)

theorem execBankLow_keeps {s0 : State} (bkb : Nat) (s : State) (hk : Keeps s0 s) :
    OutKeeps s0 (execBankLow bkb s) := by
  unfold execBankLow
  try dsimp only
  with_reducible repeat' (first
      | assumption | apply keeps_next | apply raise_keeps | apply State.setPath_keeps | apply bankAt_keeps | split)

theorem execBankCutoff_keeps {s0 : State} (bkb : Nat) (s : State) (hk : Keeps s0 s) :
    OutKeeps s0 (execBankCutoff bkb s) := by
  unfold execBankCutoff
  try dsimp only
  with_reducible repeat' (first
      | assumption | apply keeps_next | apply raise_keeps | apply bankEmpty_keeps | apply enterShutdown_keeps
      | apply bankAt_keeps | split)

theorem dischargeRule_keeps {s0 : State} (s : State) (hk : Keeps s0 s) :
    Keeps s0 (dischargeRule s) := by
  unfold dischargeRule
  try dsimp only
  with_reducible repeat' (first
      | assumption | apply State.setPath_keeps | apply enterShutdown_keeps | apply bankTemp_keeps | split)

theorem execBtnPress_keeps {s0 : State} (s : State) (hk : Keeps s0 s) :
    OutKeeps s0 (execBtnPress s) := by
  unfold execBtnPress
  try dsimp only
  with_reducible repeat' (first
      | assumption | apply keeps_next | apply State.setPath_keeps | split)

theorem execBtnRelease_keeps {s0 : State} (held : Nat) (s : State) (hk : Keeps s0 s) :
    OutKeeps s0 (execBtnRelease held s) := by
  unfold execBtnRelease
  try dsimp only
  with_reducible repeat' (first
      | assumption | apply keeps_next | apply notice_keeps | apply State.setPath_keeps | split)

theorem execBtnLongWarn_keeps {s0 : State} (held : Nat) (s : State) (hk : Keeps s0 s) :
    OutKeeps s0 (execBtnLongWarn held s) := by
  unfold execBtnLongWarn
  try dsimp only
  with_reducible repeat' (first
      | assumption | apply keeps_next | apply notice_keeps | apply State.setPath_keeps | split)

theorem execSnowdropWake_keeps {s0 : State} (press : Option Nat) (s : State) (hk : Keeps s0 s) :
    OutKeeps s0 (execSnowdropWake press s) := by
  unfold execSnowdropWake
  try dsimp only
  with_reducible repeat' (first
      | assumption | apply keeps_next | apply State.set_keeps | apply State.setSys_keeps | apply startIfReleased_keeps
      | simp only [keeps_mk_iff] | (refine keeps_adc ?_ ?_ ?_ ?_ ?_; rotate_left; (all_goals first | rfl | skip))
      | split)

theorem execSnowdropEnter_keeps {s0 : State} (s : State) (hk : Keeps s0 s) :
    OutKeeps s0 (execSnowdropEnter s) := by
  unfold execSnowdropEnter
  try dsimp only
  with_reducible repeat' (first
      | assumption | apply keeps_next | apply State.set_keeps | apply State.setPath_keeps | apply enterShutdown_keeps
      | split)

theorem execShutdownTimeout_keeps {s0 : State} (s : State) (hk : Keeps s0 s) :
    OutKeeps s0 (execShutdownTimeout s) := by
  unfold execShutdownTimeout
  try dsimp only
  with_reducible repeat' (first
      | assumption | apply keeps_next | apply State.expire_keeps | apply snowdrop_keeps | split)

/-! ### Thermal -/

theorem State.setThermal_keeps {s0 : State} (s : State) (x : Thermal) (hk : Keeps s0 s) :
    Keeps s0 (State.setThermal s x) := by
  unfold State.setThermal
  try dsimp only
  with_reducible repeat' (first
      | assumption | simp only [keeps_mk_iff]
      | (refine keeps_adc ?_ ?_ ?_ ?_ ?_; rotate_left; (all_goals first | rfl | skip)))

theorem judgeSensor_keeps {s0 : State} (m : Int) (s : State) (x : Nat × Int) (hk : Keeps s0 s) :
    Keeps s0 (judgeSensor m s x) := by
  unfold judgeSensor
  try dsimp only
  with_reducible repeat' (first
      | assumption | apply State.setBit_keeps | apply raise_keeps | apply State.setThermal_keeps | split)

theorem judgeSensors_keeps {s0 : State} (s : State) (hk : Keeps s0 s) :
    Keeps s0 (judgeSensors s) := by
  unfold judgeSensors
  try dsimp only
  with_reducible repeat' (first
      | assumption | apply judgeSensor_keeps | apply each_keeps | split)

theorem formOtpOk_keeps {s0 : State} (s : State) (hk : Keeps s0 s) :
    Keeps s0 (formOtpOk s) := by
  unfold formOtpOk
  try dsimp only
  with_reducible repeat' (first
      | assumption | apply State.set_keeps)

theorem takeLadder_keeps {s0 : State} (s : State) (hk : Keeps s0 s) :
    Keeps s0 (takeLadder s) := by
  unfold takeLadder
  try dsimp only
  with_reducible repeat' (first
      | assumption | apply State.set_keeps | apply State.setThermal_keeps | split)

theorem toRung_keeps {s0 : State} (s : State) (r : Nat) (hk : Keeps s0 s) :
    Keeps s0 (toRung s r) := by
  unfold toRung
  try dsimp only
  with_reducible repeat' (first
      | assumption | apply State.set_keeps | apply notice_keeps | apply dirtyLimits_keeps
      | apply State.setThermal_keeps)

theorem stepLadder_keeps {s0 : State} (s : State) (tj : Int) (hk : Keeps s0 s) :
    Keeps s0 (stepLadder s tj) := by
  unfold stepLadder
  try dsimp only
  with_reducible repeat' (first
      | assumption | apply State.setThermal_keeps | apply toRung_keeps | split)

theorem warnTj_keeps {s0 : State} (s : State) (tj : Int) (hk : Keeps s0 s) :
    Keeps s0 (warnTj s tj) := by
  unfold warnTj
  try dsimp only
  with_reducible repeat' (first
      | assumption | apply raise_keeps | apply State.setThermal_keeps | split)

theorem ladderRound_keeps {s0 : State} (s : State) (hk : Keeps s0 s) :
    Keeps s0 (ladderRound s) := by
  unfold ladderRound
  try dsimp only
  with_reducible repeat' (first
      | assumption | apply State.set_keeps | apply judgeSensors_keeps | apply formOtpOk_keeps | apply takeLadder_keeps
      | apply toRung_keeps | apply stepLadder_keeps | apply warnTj_keeps | split)

theorem ntcRound_keeps {s0 : State} (s : State) (k : Nat) (hk : Keeps s0 s) :
    Keeps s0 (ntcRound s k) := by
  unfold ntcRound
  try dsimp only
  with_reducible repeat' (first
      | assumption | apply State.setThermal_keeps | split)

theorem ntcFaults_keeps {s0 : State} (s : State) (was : Nat) (hk : Keeps s0 s) :
    Keeps s0 (ntcFaults s was) := by
  unfold ntcFaults
  try dsimp only
  with_reducible repeat' (first
      | assumption | apply raise_keeps | apply each_keeps | (intro _))

theorem tmonRound_keeps {s0 : State} (s : State) (k : Nat) (hk : Keeps s0 s) :
    Keeps s0 (tmonRound s k) := by
  unfold tmonRound
  try dsimp only
  with_reducible repeat' (first
      | assumption | apply raise_keeps | apply stageReading_keeps | apply State.setThermal_keeps | split)

theorem thermalRound_keeps {s0 : State} (s : State) (hk : Keeps s0 s) :
    Keeps s0 (thermalRound s) := by
  unfold thermalRound
  try dsimp only
  with_reducible repeat' (first
      | assumption | apply chgRefresh_keeps | apply dischargeRule_keeps | apply ladderRound_keeps
      | apply ntcRound_keeps | apply ntcFaults_keeps | apply tmonRound_keeps | apply each_keeps)

theorem forceOff_keeps {s0 : State} (s : State) (r : Rail) (hk : Keeps s0 s) :
    Keeps s0 (forceOff s r) := by
  unfold forceOff
  try dsimp only
  with_reducible repeat' (first
      | assumption | apply State.setOut_keeps | apply railOff_keeps | split)

theorem tsdActs_keeps {s0 : State} (s : State) (hk : Keeps s0 s) :
    Keeps s0 (tsdActs s) := by
  unfold tsdActs
  try dsimp only
  with_reducible repeat' (first
      | assumption | apply State.set_keeps | apply enginesDrain_keeps | apply aliveRun_keeps
      | apply State.setChg_keeps | apply chgRefresh_keeps | apply vdrvSwitch_keeps | apply opEnd_keeps
      | apply toPhase_keeps | apply endBootLoad_keeps | apply State.setSys_keeps | apply leaveRing_keeps
      | apply setStored_keeps | apply forceOff_keeps | apply each_keeps | split)

theorem execThermalShutdown_keeps {s0 : State} (n : Fin 8) (s : State) (hk : Keeps s0 s) :
    OutKeeps s0 (execThermalShutdown n s) := by
  unfold execThermalShutdown
  try dsimp only
  with_reducible repeat' (first
      | assumption | apply keeps_next | apply State.set_keeps | apply raise_keeps | apply tsdActs_keeps | split)

end Sys2Proof.Machine
end

