-- ==== Sys2Proof/Laws/KeepsAdc.lean ====
section
/-! SUPPORT. `Keeps` of the measurement complex. -/

namespace Sys2Proof.Machine

/-! ### Adc -/

theorem startSeq_keeps {s0 : State} (s : State) (k : Nat) (hk : Keeps s0 s) :
    Keeps s0 (startSeq s k) := by
  unfold startSeq
  try dsimp only
  with_reducible repeat' (first
      | assumption | apply State.setAdc_keeps | (dsimp only))

theorem stopSeq_keeps {s0 : State} (s : State) (k : Nat) (hk : Keeps s0 s) :
    Keeps s0 (stopSeq s k) := by
  unfold stopSeq
  try dsimp only
  with_reducible repeat' (first
      | assumption | apply State.setAdc_keeps | (dsimp only))

theorem adcRefuse_keeps {s0 : State} (s : State) (code src : Nat) (hk : Keeps s0 s) :
    Keeps s0 (adcRefuse s code src) := by
  unfold adcRefuse
  try dsimp only
  with_reducible repeat' (first
      | assumption | apply State.set_keeps)

theorem enableSlice_keeps {s0 : State} (s : State) (k : Nat) (hk : Keeps s0 s) :
    Keeps s0 (enableSlice s k) := by
  unfold enableSlice
  try dsimp only
  with_reducible repeat' (first
      | assumption | apply State.set_keeps | apply notice_keeps | apply State.setAdc_keeps | apply startSeq_keeps
      | apply adcRefuse_keeps | (dsimp only) | split)

theorem execAdcSliceEnable_keeps {s0 : State} (k : Fin 4) (s : State) (hk : Keeps s0 s) :
    OutKeeps s0 (execAdcSliceEnable k s) := by
  unfold execAdcSliceEnable
  try dsimp only
  with_reducible repeat' (first
      | assumption | apply keeps_next | apply enableSlice_keeps | split)

theorem execAdcSliceDisable_keeps {s0 : State} (k : Fin 4) (s : State) (hk : Keeps s0 s) :
    OutKeeps s0 (execAdcSliceDisable k s) := by
  unfold execAdcSliceDisable
  try dsimp only
  with_reducible repeat' (first
      | assumption | apply keeps_next | apply State.set_keeps | apply State.fresh_keeps | apply State.setAdc_keeps
      | apply stopSeq_keeps | (dsimp only) | split)

theorem sliceDrained_keeps {s0 : State} (s : State) (k : Nat) (hk : Keeps s0 s) :
    Keeps s0 (sliceDrained s k) := by
  unfold sliceDrained
  try dsimp only
  with_reducible repeat' (first
      | assumption | apply State.set_keeps | apply notice_keeps | apply State.setAdc_keeps | (dsimp only) | split)

theorem execAdcSeqPeriod_keeps {s0 : State} (k : Fin 4) (s : State) (hk : Keeps s0 s) :
    OutKeeps s0 (execAdcSeqPeriod k s) := by
  unfold execAdcSeqPeriod
  try dsimp only
  with_reducible repeat' (first
      | assumption | apply keeps_next | apply State.expire_keeps | apply State.addSat_keeps | apply State.setAdc_keeps
      | apply startSeq_keeps | (dsimp only) | split)

theorem setLatest_keeps {s0 : State} (s : State) (c reading : Nat) (hk : Keeps s0 s) :
    Keeps s0 (setLatest s c reading) := by
  unfold setLatest
  try dsimp only
  with_reducible repeat' (first
      | assumption | apply State.setAdc_keeps | (dsimp only))

theorem nextEntry_keeps {s0 : State} (s : State) (k e : Nat) (hk : Keeps s0 s) :
    Keeps s0 (nextEntry s k e) := by
  unfold nextEntry
  try dsimp only
  with_reducible repeat' (first
      | assumption | apply State.setAdc_keeps | apply startSeq_keeps | apply stopSeq_keeps | (dsimp only) | split)

theorem seqEntryDone_keeps {s0 : State} (s : State) (k : Nat) (codes : List (BitVec 12)) (hk : Keeps s0 s) :
    Keeps s0 (seqEntryDone s k codes) := by
  unfold seqEntryDone
  try dsimp only
  with_reducible repeat' (first
      | assumption | apply State.set_keeps | apply notice_keeps | apply setLatest_keeps | apply nextEntry_keeps
      | simp only [keeps_mk_iff] | (refine keeps_adc ?_ ?_ ?_ ?_ ?_; rotate_left; (all_goals first | rfl | skip))
      | split)

theorem baseDone_keeps {s0 : State} (s : State) (c reading : Nat) (hk : Keeps s0 s) :
    Keeps s0 (baseDone s c reading) := by
  unfold baseDone
  try dsimp only
  with_reducible repeat' (first
      | assumption | apply State.setAdc_keeps | apply setLatest_keeps | simp only [keeps_mk_iff]
      | (refine keeps_adc ?_ ?_ ?_ ?_ ?_; rotate_left; (all_goals first | rfl | skip)) | split)

theorem baseEntry_keeps {s0 : State} (s : State) (c : Nat) (codes : List (BitVec 12)) (hk : Keeps s0 s) :
    Keeps s0 (baseEntry s c codes) := by
  unfold baseEntry
  try dsimp only
  with_reducible repeat' (first
      | assumption | apply baseDone_keeps | split)

theorem execAdcEntryDone_keeps {s0 : State} (e : AdcEntry) (s : State) (hk : Keeps s0 s) :
    OutKeeps s0 (execAdcEntryDone e s) := by
  unfold execAdcEntryDone
  try dsimp only
  with_reducible repeat' (first
      | assumption | apply keeps_next | apply captureSamples_keeps | apply seqEntryDone_keeps | apply baseDone_keeps
      | apply baseEntry_keeps | split)

theorem startRound_keeps {s0 : State} (s : State) (hk : Keeps s0 s) :
    Keeps s0 (startRound s) := by
  unfold startRound
  try dsimp only
  with_reducible repeat' (first
      | assumption | apply State.setAdc_keeps | apply startPass_keeps | apply startSeq_keeps | apply each_keeps
      | (dsimp only))

theorem readIntegrators_keeps {s0 : State} (s : State) (iVaux iBank iChgIn : Nat) (hk : Keeps s0 s) :
    Keeps s0 (readIntegrators s iVaux iBank iChgIn) := by
  unfold readIntegrators
  try dsimp only
  with_reducible repeat' (first
      | assumption | apply State.setAdc_keeps | apply State.setWear_keeps | apply followRest_keeps
      | apply setLatest_keeps | (dsimp only) | split)

theorem copyTable_keeps {s0 : State} (s : State) (hk : Keeps s0 s) :
    Keeps s0 (copyTable s) := by
  unfold copyTable
  try dsimp only
  with_reducible repeat' (first
      | assumption | apply State.set_keeps | apply each_keeps | (intro _))

theorem powerEstimate_keeps {s0 : State} (s : State) (hk : Keeps s0 s) :
    Keeps s0 (powerEstimate s) := by
  unfold powerEstimate
  try dsimp only
  with_reducible repeat' (first
      | assumption | apply State.set_keeps)

theorem feedLedger_keeps {s0 : State} (s : State) (hk : Keeps s0 s) :
    Keeps s0 (feedLedger s) := by
  unfold feedLedger
  try dsimp only
  with_reducible repeat' (first
      | assumption | apply State.fresh_keeps | simp only [keeps_mk_iff]
      | (refine keeps_adc ?_ ?_ ?_ ?_ ?_; rotate_left; (all_goals first | rfl | skip)))

theorem mismatch_keeps {s0 : State} (s : State) (hk : Keeps s0 s) :
    Keeps s0 (mismatch s) := by
  unfold mismatch
  try dsimp only
  with_reducible repeat' (first
      | assumption | apply State.set_keeps | apply State.setAdc_keeps | apply raise_keeps | (dsimp only))

theorem completeRound_keeps {s0 : State} (s : State) (iVaux iBank iChgIn : Nat) (hk : Keeps s0 s) :
    Keeps s0 (completeRound s iVaux iBank iChgIn) := by
  unfold completeRound
  try dsimp only
  with_reducible repeat' (first
      | assumption | apply State.addWrap_keeps | apply notice_keeps | apply State.setAdc_keeps | apply showBank_keeps
      | apply State.setPath_keeps | apply thermalRound_keeps | apply readIntegrators_keeps | apply copyTable_keeps
      | apply powerEstimate_keeps | apply feedLedger_keeps | apply mismatch_keeps | (dsimp only) | split)

theorem execHkRoundStart_keeps {s0 : State} (iVaux iBank iChgIn : BitVec 16) (s : State) (hk : Keeps s0 s) :
    OutKeeps s0 (execHkRoundStart iVaux iBank iChgIn s) := by
  unfold execHkRoundStart
  try dsimp only
  with_reducible repeat' (first
      | assumption | apply keeps_next | apply State.expire_keeps | apply startRound_keeps | apply completeRound_keeps
      | split)

theorem execHkDeadline_keeps {s0 : State} (s : State) (hk : Keeps s0 s) :
    OutKeeps s0 (execHkDeadline s) := by
  unfold execHkDeadline
  try dsimp only
  with_reducible repeat' (first
      | assumption | apply keeps_next | apply State.expire_keeps | apply raise_keeps | apply startRound_keeps | split)

theorem execHkRoundComplete_keeps {s0 : State} (iVaux iBank iChgIn : BitVec 16) (s : State) (hk : Keeps s0 s) :
    OutKeeps s0 (execHkRoundComplete iVaux iBank iChgIn s) := by
  unfold execHkRoundComplete
  try dsimp only
  with_reducible repeat' (first
      | assumption | apply keeps_next | apply completeRound_keeps | split)

/-- A request is dropped: the books stand as if it had been under conversion before. -/
theorem urgentDropped_keeps {s0 : State} (s : State) (h : Keeps s0 s)
    (e : s.adc.booked → ({ s.adc with dropped := wrapAt 16 (s.adc.dropped + 1) } : Adc).booked) :
    Keeps s0 (urgentDropped s) :=
  notice_keeps _ _ (State.setAdc_booked _ _ h e)

theorem urgentRequest_keeps {s0 : State} (s : State) (who : Requester) (c : Nat) (h : Keeps s0 s) :
    Keeps s0 (urgentRequest s who c).2 := by
  unfold urgentRequest
  dsimp only
  split
  · refine notice_keeps _ _ (State.setAdc_booked s _ h fun b => ?_)
    simp only [Adc.booked, State.setAdc, wrapAt] at b ⊢
    have g : ∀ n, s.adc.asked % 65536 = (s.adc.served + s.adc.dropped + n) % 65536 →
        (s.adc.asked + 1) % 2 ^ 16 % 65536 = (s.adc.served + (s.adc.dropped + 1) % 2 ^ 16 + n) % 65536 := by
      intro n; omega
    exact g _ b
  · refine State.setAdc_booked s _ h fun b => ?_
    rename_i hn
    have : s.adc.urgent.isSome = false := by simp only [Bool.or_eq_true, not_or] at hn; simpa using hn.1.1
    simp only [Adc.booked, State.setAdc, wrapAt, this, Option.isSome_some, if_true, Bool.false_eq_true, if_false] at b ⊢
    omega

theorem execRdadcUrgent_keeps {s0 : State} (i : Issue) (wd : Fin 16) (ch : BitVec 7) (s : State) (hk : Keeps s0 s) :
    OutKeeps s0 (execRdadcUrgent i wd ch s) := by
  unfold execRdadcUrgent
  try dsimp only
  with_reducible repeat' (first
      | assumption | apply State.setTask_keeps | apply issue_keeps | apply urgentRequest_keeps | (intro _) | split)

theorem deliver_keeps {s0 : State} (s : State) (who : Requester) (c v : Nat) (hk : Keeps s0 s) :
    Keeps s0 (deliver s who c v) := by
  unfold deliver
  try dsimp only
  with_reducible repeat' (first
      | assumption | apply State.setTask_keeps | apply finishHandover_keeps | apply endCommand_keeps | split)

theorem execUrgentConversionDone_keeps {s0 : State} (reading : BitVec 16) (s : State) (h : Keeps s0 s) :
    OutKeeps s0 (execUrgentConversionDone reading s) := by
  unfold execUrgentConversionDone
  split
  · exact h
  · rename_i hu
    refine keeps_next (deliver_keeps _ _ _ _ (State.setAdc_booked _ _ h fun b => ?_))
    simp only [Adc.booked, hu, wrapAt, Option.isSome_some, if_true, Option.isSome_none, Bool.false_eq_true,
      if_false] at b ⊢
    omega

theorem execAdcClrcnt_keeps {s0 : State} (s : State) (h : Keeps s0 s) : OutKeeps s0 (execAdcClrcnt s) := by
  unfold execAdcClrcnt
  dsimp only
  refine keeps_next ?_
  split
  · refine State.set_keeps _ _ _ (State.set_keeps _ _ _ (State.setAdc_booked _ _ h fun _ => ?_))
    simp only [Adc.booked]; split <;> rfl
  · exact h

theorem startBurst_keeps {s0 : State} (s : State) (b : Burst) (hk : Keeps s0 s) :
    Keeps s0 (startBurst s b) := by
  unfold startBurst
  try dsimp only
  with_reducible repeat' (first
      | assumption | apply State.set_keeps | apply State.setAdc_keeps | (dsimp only))

theorem execAdcBurstGo_keeps {s0 : State} (s : State) (hk : Keeps s0 s) :
    OutKeeps s0 (execAdcBurstGo s) := by
  unfold execAdcBurstGo
  try dsimp only
  with_reducible repeat' (first
      | assumption | apply keeps_next | apply adcRefuse_keeps | apply startBurst_keeps | split)

theorem burstEnds_keeps {s0 : State} (s : State) (b : Burst) (converged limit : Bool) (hk : Keeps s0 s) :
    Keeps s0 (burstEnds s b converged limit) := by
  unfold burstEnds
  try dsimp only
  with_reducible repeat' (first
      | assumption | apply State.expire_keeps | apply State.set_keeps | apply stopBurst_keeps | apply mismatch_keeps
      | split)

theorem execBurstEnd_keeps {s0 : State} (converged limit : Bool) (s : State) (hk : Keeps s0 s) :
    OutKeeps s0 (execBurstEnd converged limit s) := by
  unfold execBurstEnd
  try dsimp only
  with_reducible repeat' (first
      | assumption | apply keeps_next | apply burstEnds_keeps | split)

theorem execMismClr_keeps {s0 : State} (s : State) (hk : Keeps s0 s) :
    OutKeeps s0 (execMismClr s) := by
  unfold execMismClr
  try dsimp only
  with_reducible repeat' (first
      | assumption | apply keeps_next | apply State.set_keeps | apply State.setAdc_keeps | (dsimp only) | split)

theorem startCapture_keeps {s0 : State} (s : State) (hk : Keeps s0 s) :
    Keeps s0 (startCapture s) := by
  unfold startCapture
  try dsimp only
  repeat' (first
      | with_reducible assumption | rfl | with_reducible apply State.set_keeps
      | with_reducible apply State.setAdc_keeps | simp only [keeps_mk_iff]
      | (with_reducible refine keeps_adc ?_ ?_ ?_ ?_ ?_; rotate_left; (all_goals first | with_reducible rfl | skip)))

theorem execCaptureEnable_keeps {s0 : State} (s : State) (hk : Keeps s0 s) :
    OutKeeps s0 (execCaptureEnable s) := by
  unfold execCaptureEnable
  try dsimp only
  with_reducible repeat' (first
      | assumption | apply keeps_next | apply adcRefuse_keeps | apply startCapture_keeps | split)

theorem execAdcCtrlSnap_keeps {s0 : State} (s : State) (hk : Keeps s0 s) :
    OutKeeps s0 (execAdcCtrlSnap s) := by
  unfold execAdcCtrlSnap
  try dsimp only
  with_reducible repeat' (first
      | assumption | apply keeps_next | apply snapRequest_keeps | split)

theorem execSnapshotFreeze_keeps {s0 : State} (samples : List (BitVec 16)) (s : State) (hk : Keeps s0 s) :
    OutKeeps s0 (execSnapshotFreeze samples s) := by
  unfold execSnapshotFreeze
  try dsimp only
  with_reducible repeat' (first
      | assumption | apply keeps_next | apply State.expire_keeps | apply captureSamples_keeps | apply endFill_keeps
      | split)

theorem execSnapshotDigestDone_keeps {s0 : State} (s : State) (hk : Keeps s0 s) :
    OutKeeps s0 (execSnapshotDigestDone s) := by
  unfold execSnapshotDigestDone
  try dsimp only
  with_reducible repeat' (first
      | assumption | apply keeps_next | apply State.set_keeps | apply notice_keeps | apply each_keeps | (intro _)
      | split)

theorem snapRelease_keeps {s0 : State} (s : State) (hk : Keeps s0 s) :
    Keeps s0 (snapRelease s) := by
  unfold snapRelease
  try dsimp only
  with_reducible repeat' (first
      | assumption | apply State.set_keeps | apply State.setAdc_keeps | (dsimp only) | split)

theorem execSnapshotRelease_keeps {s0 : State} (s : State) (hk : Keeps s0 s) :
    OutKeeps s0 (execSnapshotRelease s) := by
  unfold execSnapshotRelease
  try dsimp only
  with_reducible repeat' (first
      | assumption | apply keeps_next | apply snapRelease_keeps | split)

theorem awaitInjection_keeps {s0 : State} (s : State) (n t : Nat) (hk : Keeps s0 s) :
    Keeps s0 (awaitInjection s n t) := by
  unfold awaitInjection
  try dsimp only
  with_reducible repeat' (first
      | assumption | apply State.expire_keeps | apply State.setAdc_keeps | (dsimp only))

theorem dropDisabledWait_keeps {s0 : State} (s : State) (hk : Keeps s0 s) :
    Keeps s0 (dropDisabledWait s) := by
  unfold dropDisabledWait
  try dsimp only
  with_reducible repeat' (first
      | assumption | apply State.setAdc_keeps | (dsimp only))

theorem execInjectionDue_keeps {s0 : State} (s : State) (hk : Keeps s0 s) :
    OutKeeps s0 (execInjectionDue s) := by
  unfold execInjectionDue
  try dsimp only
  with_reducible repeat' (first
      | assumption | apply keeps_next | apply awaitInjection_keeps | split)

theorem execInjectionStart_keeps {s0 : State} (s : State) (hk : Keeps s0 s) :
    OutKeeps s0 (execInjectionStart s) := by
  unfold execInjectionStart
  try dsimp only
  with_reducible repeat' (first
      | assumption | apply keeps_next | apply State.setAdc_keeps | apply adcRefuse_keeps | apply startBurst_keeps
      | (dsimp only) | split)

theorem fitInjection_keeps {s0 : State} (s : State) (n : Nat) (b : Burst) (codes : List (BitVec 12)) (hk : Keeps s0 s) :
    Keeps s0 (fitInjection s n b codes) := by
  unfold fitInjection
  try dsimp only
  with_reducible repeat' (first
      | assumption | apply State.set_keeps | apply measure_keeps | simp only [keeps_mk_iff]
      | (refine keeps_adc ?_ ?_ ?_ ?_ ?_; rotate_left; (all_goals first | rfl | skip)) | split)

theorem execInjectionDone_keeps {s0 : State} (codes : List (BitVec 12)) (converged limit : Bool) (s : State) (hk : Keeps s0 s) :
    OutKeeps s0 (execInjectionDone codes converged limit s) := by
  unfold execInjectionDone
  try dsimp only
  with_reducible repeat' (first
      | assumption | apply keeps_next | apply State.setLoop_keeps | apply burstEnds_keeps | apply fitInjection_keeps
      | split)

theorem execInjAbort_keeps {s0 : State} (s : State) (hk : Keeps s0 s) :
    OutKeeps s0 (execInjAbort s) := by
  unfold execInjAbort
  try dsimp only
  with_reducible repeat' (first
      | assumption | apply keeps_next | apply State.expire_keeps | apply abortInjection_keeps | split)

end Sys2Proof.Machine
end

