-- ==== Sys2Proof/Laws/KeepsOtp.lean ====
section
/-! SUPPORT. `Keeps` of OTP, the fault record and the sequencing image. -/

namespace Sys2Proof.Machine

/-! ### Otp -/

theorem State.setOtp_keeps {s0 : State} (s : State) (o : Otp) (h : Keeps s0 s) (hf : StaysBlown s.otp.fuses o.fuses)
    (hl : StaysBlown s.otp.locks o.locks) : Keeps s0 (s.setOtp o) :=
  ⟨h.1, h.2.1, h.2.2.1, h.2.2.2.1, h.2.2.2.2.1.trans hf, h.2.2.2.2.2.1.trans hl, h.2.2.2.2.2.2⟩

theorem showOtp_keeps {s0 : State} (s : State) (dead : Bool) (hk : Keeps s0 s) :
    Keeps s0 (showOtp s dead) := by
  unfold showOtp
  try dsimp only
  with_reducible repeat' (first
      | assumption | apply State.set_keeps | apply each_keeps | (intro _))

theorem refreshOtp_keeps {s0 : State} (s : State) (hk : Keeps s0 s) :
    Keeps s0 (refreshOtp s) := by
  unfold refreshOtp
  try dsimp only
  with_reducible repeat' (first
      | assumption | apply showOtp_keeps)

theorem voidWord_keeps {s0 : State} (s : State) (r p : Nat) (hk : Keeps s0 s) :
    Keeps s0 (voidWord s r p) := by
  unfold voidWord
  try dsimp only
  repeat' (first
      | with_reducible assumption | with_reducible apply raise_keeps | with_reducible apply State.setOtp_keeps
      | with_reducible exact StaysBlown.refl _ | exact StaysBlown.put_or _ _ _ | split)

theorem countWeak_keeps {s0 : State} (s : State) (hk : Keeps s0 s) :
    Keeps s0 (countWeak s) := by
  unfold countWeak
  try dsimp only
  with_reducible repeat' (first
      | assumption | apply State.set_keeps | apply raise_keeps | split)

theorem bootVoids_keeps {s0 : State} (ok : Bool) (r n : Nat) (b : Boot) (h : Keeps s0 b.s) :
    Keeps s0 (bootVoids ok r n b).s := by
  induction n generalizing b with
  | zero => exact h
  | succ n ih =>
    unfold bootVoids
    split
    · apply ih
      unfold bootVoid
      split
      · exact voidWord_keeps _ _ _ h
      · exact State.setOtp_keeps _ _ h (StaysBlown.refl _) (StaysBlown.refl _)
    · exact h

theorem bootLock_keeps {s0 : State} (ok : Bool) (b : Boot) (k : Nat) (h : Keeps s0 b.s) :
    Keeps s0 (bootLock ok b k).s := by
  unfold bootLock
  split
  · refine State.setOtp_keeps _ _ h (StaysBlown.refl _) (StaysBlown.put_or _ _ _)
  · exact h

theorem bootReburn_keeps {s0 : State} (ok : Bool) (b : Boot) (p : Nat) (h : Keeps s0 b.s) :
    Keeps s0 (bootReburn ok b p).s := by
  unfold bootReburn
  split
  · exact notice_keeps _ _ (State.setOtp_keeps _ _ h (StaysBlown.put_or _ _ _) (StaysBlown.refl _))
  · exact h

theorem boot_fold_keeps {α : Type} {s0 : State} (f : Boot → α → Boot) (hf : ∀ b x, Keeps s0 b.s → Keeps s0 (f b x).s)
    (xs : List α) (b : Boot) (h : Keeps s0 b.s) : Keeps s0 (xs.foldl f b).s := by
  induction xs generalizing b with
  | nil => exact h
  | cons x xs ih => exact ih _ (hf b x h)

theorem bootOperations_keeps {s0 : State} (s : State) (ok : Bool) (h : Keeps s0 s) : Keeps s0 (bootOperations s ok) := by
  unfold bootOperations
  refine State.set_keeps _ _ _ (State.set_keeps _ _ _ ?_)
  refine boot_fold_keeps _ (bootReburn_keeps ok) _ _ (boot_fold_keeps _ (bootLock_keeps ok) _ _ ?_)
  exact boot_fold_keeps _ (fun b r hb => bootVoids_keeps ok r _ b hb) _ _
    (State.setOtp_keeps _ _ h (StaysBlown.refl _) (StaysBlown.refl _))

theorem reportRegions_keeps {s0 : State} (s : State) (hk : Keeps s0 s) :
    Keeps s0 (reportRegions s) := by
  unfold reportRegions
  try dsimp only
  with_reducible repeat' (first
      | assumption | apply raise_keeps | apply each_keeps | (intro _) | split)

theorem showPub_keeps {s0 : State} (s : State) (q : Nat × Nat) (hk : Keeps s0 s) :
    Keeps s0 (showPub s q) := by
  unfold showPub
  try dsimp only
  with_reducible repeat' (first
      | assumption | apply State.set_keeps | apply each_keeps | (intro _))

theorem showIdent_keeps {s0 : State} (s : State) (hk : Keeps s0 s) :
    Keeps s0 (showIdent s) := by
  unfold showIdent
  try dsimp only
  with_reducible repeat' (first
      | assumption | apply State.set_keeps | apply State.setOtp_keeps | apply showPub_keeps | exact StaysBlown.refl _
      | split)

theorem loadKey_keeps {s0 : State} (s : State) (hk : Keeps s0 s) :
    Keeps s0 (loadKey s) := by
  unfold loadKey
  try dsimp only
  with_reducible repeat' (first
      | assumption | apply State.setOtp_keeps | exact StaysBlown.refl _ | split)

theorem checkIdentity_keeps {s0 : State} (s : State) (hk : Keeps s0 s) :
    Keeps s0 (checkIdentity s) := by
  unfold checkIdentity
  try dsimp only
  with_reducible repeat' (first
      | assumption | apply State.set_keeps | apply raise_keeps | split)

theorem countPatches_keeps {s0 : State} (s : State) (hk : Keeps s0 s) :
    Keeps s0 (countPatches s) := by
  unfold countPatches
  try dsimp only
  with_reducible repeat' (first
      | assumption | apply State.set_keeps | split)

theorem bootOtp_keeps {s0 : State} (s : State) (dead progOk : Bool) (hk : Keeps s0 s) :
    Keeps s0 (bootOtp s dead progOk) := by
  unfold bootOtp
  try dsimp only
  with_reducible repeat' (first
      | assumption | apply State.set_keeps | apply otpPoint_keeps | apply State.setOtp_keeps | apply showOtp_keeps
      | apply countWeak_keeps | apply bootOperations_keeps | apply reportRegions_keeps | apply showIdent_keeps
      | apply loadKey_keeps | apply checkIdentity_keeps | apply countPatches_keeps | exact StaysBlown.refl _ | split)

theorem otpRefuse_keeps {s0 : State} (s : State) (k code : Nat) (r0 : Nat) (hk : Keeps s0 s) :
    Keeps s0 (otpRefuse s k code r0) := by
  unfold otpRefuse
  try dsimp only
  with_reducible repeat' (first
      | assumption | apply State.set_keeps | apply refuseCommand_keeps)

theorem commitEnds_keeps {s0 : State} (s : State) (j : OtpJob) (c : Completion) (hk : Keeps s0 s) :
    Keeps s0 (commitEnds s j c) := by
  unfold commitEnds
  try dsimp only
  with_reducible repeat' (first
      | assumption | apply opEnd_keeps | apply endCommand_keeps | apply State.setOtp_keeps | apply refreshOtp_keeps
      | exact StaysBlown.refl _)

theorem commitFails_keeps {s0 : State} (s : State) (j : OtpJob) (code : Nat) (hk : Keeps s0 s) :
    Keeps s0 (commitFails s j code) := by
  unfold commitFails
  try dsimp only
  with_reducible repeat' (first
      | assumption | apply State.set_keeps | apply commitEnds_keeps)

theorem commitOk_keeps {s0 : State} (s : State) (j : OtpJob) (hk : Keeps s0 s) :
    Keeps s0 (commitOk s j) := by
  unfold commitOk
  try dsimp only
  with_reducible repeat' (first
      | assumption | apply commitEnds_keeps)

theorem commitLocked_keeps {s0 : State} (s : State) (j : OtpJob) (hk : Keeps s0 s) :
    Keeps s0 (commitLocked s j) := by
  unfold commitLocked
  try dsimp only
  with_reducible repeat' (first
      | assumption | apply blowFuses_keeps | apply State.setOtp_keeps | apply commitOk_keeps
      | exact blowFuses_fuses _ _)

theorem commitStarts_keeps {s0 : State} (s : State) (j : OtpJob) (go : State → State) (h : Keeps s0 s)
    (hb : ∀ t, Keeps s0 t → Keeps s0 (go t)) : Keeps s0 (commitStarts s j go) := by
  unfold commitStarts
  try dsimp only
  with_reducible repeat' (first
      | exact h | apply hb | apply commitFails_keeps | simp only [keeps_mk_iff]
      | (refine keeps_adc ?_ ?_ ?_ ?_ ?_; rotate_left; (all_goals first | rfl | skip)) | split)

theorem commitDone_keeps {s0 : State} (s : State) (j : OtpJob) (hk : Keeps s0 s) :
    Keeps s0 (commitDone s j) := by
  unfold commitDone
  try dsimp only
  with_reducible repeat' (first
      | assumption | apply commitSlot_keeps | apply State.setOtp_keeps | apply commitOk_keeps
      | apply commitStarts_keeps | exact StaysBlown.refl _ | (intro _) | split)

theorem endLocking_keeps {s0 : State} (s : State) (k : Nat) (hk : Keeps s0 s) :
    Keeps s0 (endLocking s k) := by
  unfold endLocking
  try dsimp only
  with_reducible repeat' (first
      | assumption | apply commitLocked_keeps | split)

theorem programWord_keeps {s0 : State} (s : State) (j : OtpJob) (p data : Nat) (hk : Keeps s0 s) :
    Keeps s0 (programWord s j p data) := by
  unfold programWord
  try dsimp only
  with_reducible repeat' (first
      | assumption | apply opMark_keeps | apply State.setOtp_keeps | apply commitStarts_keeps
      | exact StaysBlown.refl _ | (intro _))

theorem programSeal_keeps {s0 : State} (n : Nat) (s : State) (j : OtpJob) (h : Keeps s0 s) :
    Keeps s0 (programSeal n s j) := by
  induction n generalizing s with
  | zero => exact commitFails_keeps _ _ _ h
  | succ n ih =>
    unfold programSeal
    try dsimp only
    with_reducible repeat' (first
        | exact h | apply ih | apply voidWord_keeps | apply commitFails_keeps | apply programWord_keeps | split)

theorem sealRun_keeps {s0 : State} (s : State) (j : OtpJob) (hk : Keeps s0 s) :
    Keeps s0 (sealRun s j) := by
  unfold sealRun
  try dsimp only
  with_reducible repeat' (first
      | assumption | apply programSeal_keeps)

theorem commitNext_keeps {s0 : State} (s : State) (j : OtpJob) (ds : List Nat) (h : Keeps s0 s) :
    Keeps s0 (commitNext s j ds) := by
  induction ds generalizing s j with
  | nil =>
    unfold commitNext
    try dsimp only
    with_reducible repeat' (first
        | exact h | apply ih | apply commitFails_keeps | apply commitDone_keeps | apply programWord_keeps
        | apply sealRun_keeps | split)
  | cons d ds ih =>
    unfold commitNext
    try dsimp only
    with_reducible repeat' (first
        | exact h | apply ih | apply commitFails_keeps | apply commitDone_keeps | apply programWord_keeps
        | apply sealRun_keeps | split)

theorem pendingVoids_keeps {s0 : State} (s : State) (r : Nat) (hk : Keeps s0 s) :
    Keeps s0 (pendingVoids s r) := by
  unfold pendingVoids
  try dsimp only
  with_reducible repeat' (first
      | assumption | apply State.set_keeps | apply voidWord_keeps | apply each_keeps | (intro _))

theorem startCommit_keeps {s0 : State} (s : State) (k : Nat) (a : CommitArgs) (hk : Keeps s0 s) :
    Keeps s0 (startCommit s k a) := by
  unfold startCommit
  try dsimp only
  with_reducible repeat' (first
      | assumption | apply voidWord_keeps | apply commitNext_keeps | apply pendingVoids_keeps | split)

theorem execOtpCommit_keeps {s0 : State} (k : BitVec 8) (s : State) (hk : Keeps s0 s) :
    OutKeeps s0 (execOtpCommit k s) := by
  unfold execOtpCommit
  try dsimp only
  with_reducible repeat' (first
      | assumption | apply keeps_next | apply otpRefuse_keeps | apply commitDone_keeps | apply startCommit_keeps
      | split)

theorem blowWord_keeps {s0 : State} (s : State) (p fuses weak : Nat) (hk : Keeps s0 s) :
    Keeps s0 (blowWord s p fuses weak) := by
  unfold blowWord
  try dsimp only
  repeat' (first
      | with_reducible assumption | with_reducible apply State.setOtp_keeps | with_reducible exact StaysBlown.refl _
      | exact StaysBlown.put_or _ _ _)

theorem failWord_keeps {s0 : State} (s : State) (r p fuses : Nat) (hk : Keeps s0 s) :
    Keeps s0 (failWord s r p fuses) := by
  unfold failWord
  try dsimp only
  repeat' (first
      | with_reducible assumption | with_reducible apply State.fresh_keeps | with_reducible apply State.setOtp_keeps
      | with_reducible apply voidWord_keeps | with_reducible exact StaysBlown.refl _ | exact StaysBlown.put_or _ _ _)

theorem wordWritten_keeps {s0 : State} (s : State) (j : OtpJob) (weak : Nat) (hk : Keeps s0 s) :
    Keeps s0 (wordWritten s j weak) := by
  unfold wordWritten
  try dsimp only
  with_reducible repeat' (first
      | assumption | apply blowWord_keeps)

theorem wordFailed_keeps {s0 : State} (s : State) (j : OtpJob) (hk : Keeps s0 s) :
    Keeps s0 (wordFailed s j) := by
  unfold wordFailed
  try dsimp only
  with_reducible repeat' (first
      | assumption | apply failWord_keeps)

theorem commitGoesOn_keeps {s0 : State} (s : State) (j : OtpJob) (go : State) (h : Keeps s0 s) (hg : Keeps s0 go) :
    Keeps s0 (commitGoesOn s j go) := by
  unfold commitGoesOn
  try dsimp only
  with_reducible repeat' (first
      | assumption | apply commitEnds_keeps | split)

theorem commitWordDone_keeps {s0 : State} (s : State) (j : OtpJob) (ok : Bool) (weak : Nat) (hk : Keeps s0 s) :
    Keeps s0 (commitWordDone s j ok weak) := by
  unfold commitWordDone
  try dsimp only
  with_reducible repeat' (first
      | assumption | apply commitSlot_keeps | apply commitDone_keeps | apply sealRun_keeps | apply commitNext_keeps
      | apply wordWritten_keeps | apply wordFailed_keeps | apply commitGoesOn_keeps | split)

theorem execOtpRead_keeps {s0 : State} (k : BitVec 8) (s : State) (hk : Keeps s0 s) :
    OutKeeps s0 (execOtpRead k s) := by
  unfold execOtpRead
  try dsimp only
  with_reducible repeat' (first
      | assumption | apply keeps_next | apply endCommand_keeps | apply commitSlot_keeps | apply writeData_keeps
      | apply otpRefuse_keeps | simp only [keeps_mk_iff]
      | (refine keeps_adc ?_ ?_ ?_ ?_ ?_; rotate_left; (all_goals first | rfl | skip)) | split)

theorem rawBegin_keeps {s0 : State} (s : State) (ops : List ProgOp) (hk : Keeps s0 s) :
    Keeps s0 (rawBegin s ops) := by
  unfold rawBegin
  try dsimp only
  with_reducible repeat' (first
      | assumption | simp only [keeps_mk_iff] | (refine keeps_otp ?_ ?_ ?_; rotate_left; rfl; rfl))

theorem rawWord_keeps {s0 : State} (s : State) (p : Nat) (op : Nat → List ProgOp) (h : Keeps s0 s) :
    Keeps s0 (rawWord s p op) := by
  unfold rawWord
  try dsimp only
  with_reducible repeat' (first
      | exact h | apply State.set_keeps | apply rawBegin_keeps | split)

theorem execRawProgramWord_keeps {s0 : State} (s : State) (hk : Keeps s0 s) :
    OutKeeps s0 (execRawProgramWord s) := by
  unfold execRawProgramWord
  try dsimp only
  with_reducible repeat' (first
      | assumption | apply keeps_next | apply rawWord_keeps)

theorem execRawVoidWord_keeps {s0 : State} (s : State) (hk : Keeps s0 s) :
    OutKeeps s0 (execRawVoidWord s) := by
  unfold execRawVoidWord
  try dsimp only
  with_reducible repeat' (first
      | assumption | apply keeps_next | apply rawWord_keeps)

theorem execRawBlowLock_keeps {s0 : State} (s : State) (hk : Keeps s0 s) :
    OutKeeps s0 (execRawBlowLock s) := by
  unfold execRawBlowLock
  try dsimp only
  with_reducible repeat' (first
      | assumption | apply keeps_next | apply State.set_keeps | apply rawBegin_keeps | split)

theorem execKeygen_keeps {s0 : State} (s : State) (hk : Keeps s0 s) :
    OutKeeps s0 (execKeygen s) := by
  unfold execKeygen
  try dsimp only
  with_reducible repeat' (first
      | assumption | apply keeps_next | apply State.set_keeps | apply State.fresh_keeps | apply State.setOtp_keeps
      | apply rawBegin_keeps | exact StaysBlown.refl _ | split)

theorem rawEnds_keeps {s0 : State} (s : State) (hk : Keeps s0 s) :
    Keeps s0 (rawEnds s) := by
  unfold rawEnds
  try dsimp only
  with_reducible repeat' (first
      | assumption | apply State.setOtp_keeps | apply refreshOtp_keeps | apply showPub_keeps | exact StaysBlown.refl _
      | split)

theorem rawStops_keeps {s0 : State} (s : State) (code : Nat) (hk : Keeps s0 s) :
    Keeps s0 (rawStops s code) := by
  unfold rawStops
  try dsimp only
  with_reducible repeat' (first
      | assumption | apply State.set_keeps | apply State.setOtp_keeps | apply refreshOtp_keeps
      | exact StaysBlown.refl _)

theorem rawNext_keeps {s0 : State} (s : State) (ops : List ProgOp) (hk : Keeps s0 s) :
    Keeps s0 (rawNext s ops) := by
  unfold rawNext
  try dsimp only
  with_reducible repeat' (first
      | assumption | apply rawBegin_keeps | apply rawEnds_keeps | apply rawStops_keeps | split)

theorem rawCut_keeps {s0 : State} (s : State) (op : ProgOp) (hk : Keeps s0 s) : Keeps s0 (rawCut s op) := by
  have h := cutOp_keeps s.otp (Config.partialBlow s.free) (Config.partialBlow (s.free + 1)) op
  exact refreshOtp_keeps _ (State.setOtp_keeps ({ s with free := s.free + 2 } : State) _ hk h.1 h.2)

theorem rawWordDone_keeps {s0 : State} (s : State) (op : ProgOp) (rest : List ProgOp) (ok : Bool) (weak : Nat) (hk : Keeps s0 s) :
    Keeps s0 (rawWordDone s op rest ok weak) := by
  unfold rawWordDone
  try dsimp only
  with_reducible repeat' (first
      | assumption | apply blowFuses_keeps | apply State.setOtp_keeps | apply voidWord_keeps | apply blowWord_keeps
      | apply failWord_keeps | apply rawStops_keeps | apply rawNext_keeps | apply rawCut_keeps
      | exact blowFuses_fuses _ _ | split)

theorem execOtpWordProgramDone_keeps {s0 : State} (ok : Bool) (weak : BitVec 148) (s : State) (hk : Keeps s0 s) :
    OutKeeps s0 (execOtpWordProgramDone ok weak s) := by
  unfold execOtpWordProgramDone
  try dsimp only
  with_reducible repeat' (first
      | assumption | apply keeps_next | apply commitWordDone_keeps | apply rawWordDone_keeps | split)

/-! ### Records -/

theorem closeRecord_keeps {s0 : State} (s : State) (h : HistRec) (x : EventRec) (t0 : Nat) (hk : Keeps s0 s) :
    Keeps s0 (closeRecord s h x t0) := by
  unfold closeRecord
  try dsimp only
  with_reducible repeat' (first
      | assumption | apply foxEvt_keeps | apply histUpdate_keeps | simp only [keeps_mk_iff]
      | (refine keeps_fox ?_ ?_ ?_; rotate_left; rfl; rfl) | split)

theorem execRecordClose_keeps {s0 : State} (s : State) (hk : Keeps s0 s) :
    OutKeeps s0 (execRecordClose s) := by
  unfold execRecordClose
  try dsimp only
  with_reducible repeat' (first
      | assumption | apply keeps_next | apply State.expire_keeps | apply closeRecord_keeps | split)

theorem execKeeperHang_keeps {s0 : State} (s : State) (hk : Keeps s0 s) :
    OutKeeps s0 (execKeeperHang s) := by
  unfold execKeeperHang
  try dsimp only
  with_reducible repeat' (first
      | assumption | apply keeps_next | apply foxEvent_keeps | split)

theorem execFltStatusClear_keeps {s0 : State} (q : Fin 2) (bits : Word) (s : State) (hk : Keeps s0 s) :
    OutKeeps s0 (execFltStatusClear q bits s) := by
  unfold execFltStatusClear
  try dsimp only
  with_reducible repeat' (first
      | assumption | apply keeps_next | apply State.clearBits_keeps | simp only [keeps_mk_iff]
      | (refine keeps_fox ?_ ?_ ?_; rotate_left; rfl; rfl) | split)

theorem execAliveResume_keeps {s0 : State} (s : State) (hk : Keeps s0 s) :
    OutKeeps s0 (execAliveResume s) := by
  unfold execAliveResume
  try dsimp only
  with_reducible repeat' (first
      | assumption | apply keeps_next | apply State.expire_keeps | apply foxEvt_keeps | simp only [keeps_mk_iff]
      | (refine keeps_fox ?_ ?_ ?_; rotate_left; rfl; rfl) | split)

theorem execFltMarkread_keeps {s0 : State} (s : State) (hk : Keeps s0 s) :
    OutKeeps s0 (execFltMarkread s) := by
  unfold execFltMarkread
  try dsimp only
  with_reducible repeat' (first
      | assumption | apply keeps_next | simp only [keeps_mk_iff] | (refine keeps_fox ?_ ?_ ?_; rotate_left; rfl; rfl)
      | split)

theorem execTestEntry_keeps {s0 : State} (s : State) (hk : Keeps s0 s) :
    OutKeeps s0 (execTestEntry s) := by
  unfold execTestEntry
  try dsimp only
  with_reducible repeat' (first
      | assumption | apply keeps_next | apply State.set_keeps | apply foxEvt_keeps | apply raiseBare_keeps | split)

theorem execFaultInjection_keeps {s0 : State} (line : BitVec 6) (cls : BitVec 2) (s : State) (hk : Keeps s0 s) :
    OutKeeps s0 (execFaultInjection line cls s) := by
  unfold execFaultInjection
  try dsimp only
  with_reducible repeat' (first
      | assumption | apply keeps_next | apply State.set_keeps | apply foxEvent_keeps | split)

/-! ### Image -/

theorem keepRomClaim_keeps {s0 : State} (s : State) (c : Nat) (hk : Keeps s0 s) :
    Keeps s0 (keepRomClaim s c) := by
  unfold keepRomClaim
  try dsimp only
  with_reducible repeat' (first
      | assumption | apply State.setClaim_keeps | apply releaseClaim_keeps | split)

theorem keepRomClaims_keeps {s0 : State} (s : State) (hk : Keeps s0 s) :
    Keeps s0 (keepRomClaims s) := by
  unfold keepRomClaims
  try dsimp only
  with_reducible repeat' (first
      | assumption | apply keepRomClaim_keeps | apply each_keeps)

theorem loadClaims_keeps {s0 : State} (img : List Byte) (h : ImgHead) (s : State) (hk : Keeps s0 s) :
    Keeps s0 (loadClaims img h s) := by
  unfold loadClaims
  try dsimp only
  with_reducible repeat' (first
      | assumption | apply State.setClaim_keeps | apply formFit_keeps | apply clearLimited_keeps
      | apply keepRomClaims_keeps | apply each_keeps | (intro _) | split)

theorem handEngine_keeps {s0 : State} (img : List Byte) (s : State) (e : Nat) (hk : Keeps s0 s) :
    Keeps s0 (handEngine img s e) := by
  unfold handEngine
  try dsimp only
  with_reducible repeat' (first
      | assumption | apply State.setEngine_keeps | apply State.setTask_keeps | apply wipeTasks_keeps
      | apply takeOver_keeps | split)

theorem showImage_keeps {s0 : State} (img : List Byte) (h : ImgHead) (source : Nat) (s : State) (hk : Keeps s0 s) :
    Keeps s0 (showImage img h source s) := by
  unfold showImage
  try dsimp only
  with_reducible repeat' (first
      | assumption | apply State.set_keeps | apply each_keeps | (intro _))

theorem acceptImage_keeps {s0 : State} (img : List Byte) (source : Nat) (s : State) (hk : Keeps s0 s) :
    Keeps s0 (acceptImage img source s) := by
  unfold acceptImage
  try dsimp only
  with_reducible repeat' (first
      | assumption | apply State.setBytes_keeps | apply loadClaims_keeps | apply handEngine_keeps
      | apply showImage_keeps | apply each_keeps)

theorem loadImage_keeps {s0 : State} (img : List Byte) (given source : Nat) (s : State) (hk : Keeps s0 s) :
    Keeps s0 (loadImage img given source s).2 := by
  unfold loadImage
  try dsimp only
  with_reducible repeat' (first
      | assumption | apply State.set_keeps | apply acceptImage_keeps | split)

theorem loadBootImage_keeps {s0 : State} (s : State) (hk : Keeps s0 s) :
    Keeps s0 (loadBootImage s).2 := by
  unfold loadBootImage
  try dsimp only
  with_reducible repeat' (first
      | assumption | apply loadImage_keeps | split)

theorem enableEngines_keeps {s0 : State} (s : State) (hk : Keeps s0 s) :
    Keeps s0 (enableEngines s) := by
  unfold enableEngines
  try dsimp only
  with_reducible repeat' (first
      | assumption | apply enableEngine_keeps | apply each_keeps | (intro _) | split)

end Sys2Proof.Machine
end

