-- ==== Sys2Proof/Laws/KeepsHost.lean ====
section
/-! SUPPORT. `Keeps` of the host command interface, the two-wire controller and reads with side effects. -/

namespace Sys2Proof.Machine

/-! ### Hci -/

/-- A change of the interface that keeps its books right. -/
theorem State.setHci_keeps {s0 : State} (s : State) (x : Hci) (h : Keeps s0 s) (e : s.hci.booked → x.booked) :
    Keeps s0 (s.setHci x) :=
  keeps_mk (keeps_hci h e)

/-- What a state keeps beside the books of the slots, shown on one that has none, and those books. -/
theorem keeps_slots {s0 t : State} (h : Keeps { s0 with hci := { queues := [(0, [0])] } } t)
    (e : s0.hci.booked → t.hci.booked) : Keeps s0 t :=
  ⟨h.1, h.2.1, h.2.2.1, h.2.2.2.1, h.2.2.2.2.1, h.2.2.2.2.2.1, h.2.2.2.2.2.2.1, e, h.2.2.2.2.2.2.2.2⟩

/-- The books of the slots play no part against a state that has none. -/
theorem keeps_unbooked {s0 t : State} (h : Keeps s0 t) : Keeps { s0 with hci := { queues := [(0, [0])] } } t :=
  ⟨h.1, h.2.1, h.2.2.1, h.2.2.2.1, h.2.2.2.2.1, h.2.2.2.2.2.1, h.2.2.2.2.2.2.1, fun k => (Hci.not_booked k).elim,
    h.2.2.2.2.2.2.2.2⟩

theorem keeps_hci_free {s0 t : State} {x : Hci} (h : Keeps { s0 with hci := { queues := [(0, [0])] } } t) :
    KeepsParts { s0 with hci := { queues := [(0, [0])] } } t.pending t.now t.regs t.mem t.otp t.fox x t.adc :=
  ⟨h.1, h.2.1, h.2.2.1, h.2.2.2.1, h.2.2.2.2.1, h.2.2.2.2.2.1, h.2.2.2.2.2.2.1, fun k => (Hci.not_booked k).elim,
    h.2.2.2.2.2.2.2.2⟩

theorem setHci_free {s0 : State} (s : State) (x : Hci) (h : Keeps { s0 with hci := { queues := [(0, [0])] } } s) :
    Keeps { s0 with hci := { queues := [(0, [0])] } } (s.setHci x) := keeps_mk (keeps_hci_free h)

theorem setSlot_free {s0 : State} (s : State) (i : Nat) (x : Slot)
    (h : Keeps { s0 with hci := { queues := [(0, [0])] } } s) :
    Keeps { s0 with hci := { queues := [(0, [0])] } } (s.setSlot i x) := keeps_mk (keeps_hci_free h)

theorem State.setQueue_free {s0 : State} (s : State) (q : Nat) (l : List Nat)
    (h : Keeps { s0 with hci := { queues := [(0, [0])] } } s) :
    Keeps { s0 with hci := { queues := [(0, [0])] } } (s.setQueue q l) := keeps_mk (keeps_hci_free h)

theorem showSignal_keeps {s0 : State} (s : State) (hk : Keeps s0 s) :
    Keeps s0 (showSignal s) := by
  unfold showSignal
  try dsimp only
  with_reducible repeat' (first
      | assumption | apply State.set_keeps)

theorem signalAll_hci (s : State) : (signalAll s).hci.queues = s.hci.queues ∧ (signalAll s).hci.slots = s.hci.slots ∧
    (signalAll s).hci.entries.map Entry.slot = s.hci.entries.map Entry.slot := by
  refine ⟨rfl, rfl, ?_⟩
  show (s.hci.entries.map fun e => { e with signalled := true : Entry }).map Entry.slot = _
  rw [List.map_map]; rfl

theorem signalAll_keeps {s0 : State} (s : State) (h : Keeps s0 s) : Keeps s0 (signalAll s) := by
  refine State.set_keeps _ _ _ (State.setHci_keeps s _ h fun b => ?_)
  have e := signalAll_hci s
  refine ⟨b.1, b.2.1, b.2.2.1, ?_, fun k => ?_⟩
  · exact e.2.2 ▸ b.2.2.2.1
  · exact e.2.2 ▸ b.2.2.2.2 k

/-- Moderation counts an entry: the ring's entries are one more, and no slot moves. -/
theorem countEntry_hci (s : State) (k : Nat) (u : Bool) : (countEntry s k u).hci.queues = s.hci.queues ∧
    (countEntry s k u).hci.slots = s.hci.slots ∧
    (countEntry s k u).hci.entries.map Entry.slot = s.hci.entries.map Entry.slot ++ [k] := by
  suffices g : ∀ (x : State) (b : Bool), x.hci.queues = s.hci.queues → x.hci.slots = s.hci.slots →
      x.hci.entries = s.hci.entries ++ [{ slot := k, urgent := u }] →
      let t := if b then signalAll x else x
      t.hci.queues = s.hci.queues ∧ t.hci.slots = s.hci.slots ∧
        t.hci.entries.map Entry.slot = s.hci.entries.map Entry.slot ++ [k] from g _ _ rfl rfl rfl
  intro x b eq es ee
  have en : x.hci.entries.map Entry.slot = s.hci.entries.map Entry.slot ++ [k] := by rw [ee, List.map_append]; rfl
  cases b
  · exact ⟨eq, es, en⟩
  · exact ⟨eq, es, (signalAll_hci x).2.2.trans en⟩

theorem countEntry_free {s0 : State} (s : State) (k : Nat) (u : Bool)
    (h : Keeps { s0 with hci := { queues := [(0, [0])] } } s) :
    Keeps { s0 with hci := { queues := [(0, [0])] } } (countEntry s k u) := by
  suffices g : ∀ (x : Hci) (b : Bool),
      Keeps { s0 with hci := { queues := [(0, [0])] } } (if b then signalAll (s.setHci x) else s.setHci x) from g _ _
  intro x b
  cases b
  · exact setHci_free _ _ h
  · exact signalAll_keeps _ (setHci_free _ _ h)

theorem execModerationTimer_keeps {s0 : State} (s : State) (hk : Keeps s0 s) :
    OutKeeps s0 (execModerationTimer s) := by
  unfold execModerationTimer
  try dsimp only
  with_reducible repeat' (first
      | assumption | apply keeps_next | apply State.expire_keeps | apply signalAll_keeps | split)

theorem countCompletion_keeps {s0 : State} (s : State) (late : Bool) (c : Completion) (hk : Keeps s0 s) :
    Keeps s0 (countCompletion s late c) := by
  unfold countCompletion
  try dsimp only
  with_reducible repeat' (first
      | assumption | apply State.addWrap_keeps | apply State.addSat_keeps | split)

/-- A completion adds the entry of its slot, which becomes UNREAD. -/
theorem writeCompletion_hci (s : State) (k : Nat) (c : Completion) : (writeCompletion s k c).hci.queues = s.hci.queues ∧
    (writeCompletion s k c).hci.slots = NMap.put {} s.hci.slots k { s.slot k with st := .unread, outcome := none } ∧
    (writeCompletion s k c).hci.entries.map Entry.slot = s.hci.entries.map Entry.slot ++ [k] := by
  have r : ∀ (a : Nat) (bs : List Byte), (s.setBytes a bs).hci = s.hci := fun a bs =>
    (congrArg State.hci (State.setBytes_rest s a bs)).trans rfl
  have q : ∀ (t : State) (l : Bool), (countCompletion t l c).hci = t.hci := fun t l => by
    unfold countCompletion; dsimp only; split <;> split <;> rfl
  unfold writeCompletion
  dsimp only
  obtain ⟨a, b, d⟩ := countEntry_hci (countCompletion (((s.setBytes (0x012000 + 16 * (s.get HCI_CQ_TAIL.TAIL % 256))
    (wordsBytes (completionWords s k (s.get HCI_CQ_TAIL.TAIL) (s.slot k).late c))).setSlot k
      { s.slot k with st := .unread, outcome := none }).set HCI_CQ_TAIL.TAIL (s.get HCI_CQ_TAIL.TAIL + 1))
    (s.slot k).late c) k (slotUrgent s k)
  rw [a, b, d, q]
  simp only [State.set, State.setSlot, r]
  exact ⟨trivial, trivial, trivial⟩

theorem writeCompletion_free {s0 : State} (s : State) (k : Nat) (c : Completion)
    (h : Keeps { s0 with hci := { queues := [(0, [0])] } } s) :
    Keeps { s0 with hci := { queues := [(0, [0])] } } (writeCompletion s k c) := by
  unfold writeCompletion
  exact countEntry_free _ _ _ (countCompletion_keeps _ _ _ (State.set_keeps _ _ _ (setSlot_free _ _ _
    (State.setBytes_keeps _ _ _ h))))

/-- A completion is written for an INFLIGHT command. -/
theorem writeCompletion_keeps {s0 : State} (s : State) (k : Nat) (c : Completion) (h : Keeps s0 s)
    (hk : (s.slot k).st = .inflight) : Keeps s0 (writeCompletion s k c) :=
  keeps_slots (writeCompletion_free s k c (keeps_unbooked h)) fun b =>
    have e := writeCompletion_hci s k c
    Hci.booked_complete (h.2.2.2.2.2.2.2.1 b) k _ hk rfl e.1 e.2.1 e.2.2

theorem execCommandComplete_keeps {s0 : State} (k : BitVec 8) (s : State) (h : Keeps s0 s) :
    OutKeeps s0 (execCommandComplete k s) := by
  unfold execCommandComplete
  dsimp only
  refine keeps_next ?_
  split
  · exact h
  · split
    · exact writeCompletion_keeps _ _ _ (endLocking_keeps _ _ h) ‹_›
    · exact h

theorem execHciDoorbell_keeps {s0 : State} (queue : BitVec 2) (slot : BitVec 8) (s : State) (h : Keeps s0 s) :
    OutKeeps s0 (execHciDoorbell queue slot s) := by
  unfold execHciDoorbell
  dsimp only
  refine keeps_next ?_
  have h1 : Keeps s0 ((s.set HCI_DB.QUEUE queue.toNat).set HCI_DB.SLOT slot.toNat) :=
    State.set_keeps _ _ _ (State.set_keeps _ _ _ h)
  split
  · exact h
  split
  · exact h1
  split
  · exact keeps_slots (setSlot_free _ _ _ (State.setQueue_free _ _ _ (keeps_unbooked h1))) fun b =>
      Hci.booked_submit (h1.2.2.2.2.2.2.2.1 b) queue.toNat slot.toNat _ queue.isLt ‹_› rfl rfl
  · exact notice_keeps _ _ (State.addSat_keeps _ _ _ h1)

/-- Freed slots are FREE, and the others as before. -/
theorem freeSlots_hci (l : List Entry) (s : State) :
    let t := State.each l (fun s e => s.setSlot e.slot {}) s
    t.hci.queues = s.hci.queues ∧ t.hci.entries = s.hci.entries ∧
      ∀ k, NMap.get {} t.hci.slots k = if k ∈ l.map Entry.slot then {} else NMap.get {} s.hci.slots k := by
  unfold State.each
  induction l generalizing s with
  | nil => exact ⟨rfl, rfl, fun k => by simp⟩
  | cons e l ih =>
    obtain ⟨a, b, c⟩ := ih (s.setSlot e.slot {})
    refine ⟨a, b, fun k => ?_⟩
    rw [List.foldl_cons, c k]
    rw [show NMap.get ({} : Slot) (s.setSlot e.slot {}).hci.slots k = _ from
      NMap.get_put ({} : Slot) s.hci.slots e.slot k {}]
    grind

theorem passEntries_keeps {s0 : State} (s : State) (d : Nat) (h : Keeps s0 s) : Keeps s0 (passEntries s d) := by
  have e := freeSlots_hci (s.hci.entries.take d) s
  refine keeps_slots (State.set_keeps _ _ _ (setHci_free _ _ (each_keeps _ _ _ (keeps_unbooked h) fun t x k =>
    setSlot_free _ _ _ k))) fun b => ?_
  exact Hci.booked_pass (h.2.2.2.2.2.2.2.1 b) d e.1 e.2.2 (congrArg (List.drop d) e.2.1)

theorem execHciCqHeadWrite_keeps {s0 : State} (head : BitVec 9) (s : State) (hk : Keeps s0 s) :
    OutKeeps s0 (execHciCqHeadWrite head s) := by
  unfold execHciCqHeadWrite
  try dsimp only
  with_reducible repeat' (first
      | assumption | apply keeps_next | apply State.set_keeps | apply State.addSat_keeps | apply notice_keeps
      | apply passEntries_keeps | split)

theorem startCommand_keeps {s0 : State} (s : State) (l q : Nat) (h : Keeps s0 s) : Keeps s0 (startCommand s l q) := by
  unfold startCommand
  split
  · exact h
  · rename_i k rest hq
    have h3 : Keeps s0 (((s.setQueue q rest).setHci { (s.setQueue q rest).hci with lastQueue := some q }).setSlot k
        { st := .inflight, queue := q, lane := l, since := s.now, input := commandInput s k }) :=
      keeps_slots (setSlot_free _ _ _ (setHci_free _ _ (State.setQueue_free _ _ _ (keeps_unbooked h)))) fun b =>
        Hci.booked_start (h.2.2.2.2.2.2.2.1 b) q k rest _ hq rfl
    dsimp only
    split
    · exact refuseCommand_keeps _ _ _ _ _ h3
    split
    · exact opMark_keeps _ _ _ h3
    split
    · exact opMark_keeps _ _ _ h3
    · exact h3

theorem execCommandStart_keeps {s0 : State} (lane : Fin 2) (s : State) (hk : Keeps s0 s) :
    OutKeeps s0 (execCommandStart lane s) := by
  unfold execCommandStart
  try dsimp only
  with_reducible repeat' (first
      | assumption | apply keeps_next | apply startCommand_keeps | split)

theorem execCmdDeadline_keeps {s0 : State} (k : BitVec 8) (s : State) (hk : Keeps s0 s) :
    OutKeeps s0 (execCmdDeadline k s) := by
  unfold execCmdDeadline
  try dsimp only
  repeat' (first
      | with_reducible assumption | rfl | with_reducible apply keeps_next | with_reducible apply State.expire_keeps
      | with_reducible apply raise_keeps | with_reducible apply State.setSlot_keeps | split)

theorem spoilOutput_hci (s : State) (k : Nat) : (spoilOutput s k).hci = s.hci := by
  unfold spoilOutput
  split
  · split
    · rfl
    · exact (congrArg State.hci (State.setBytes_rest _ _ _)).trans rfl
  · rfl

theorem spoilOutput_keeps {s0 : State} (s : State) (k : Nat) (h : Keeps s0 s) : Keeps s0 (spoilOutput s k) := by
  unfold spoilOutput
  split
  · split
    · exact h
    · exact State.setBytes_keeps _ _ _ (keeps_mk h)
  · exact h

theorem stopCommand_keeps {s0 : State} (s : State) (k : Nat) (h : Keeps s0 s) : Keeps s0 (stopCommand s k) := by
  unfold stopCommand
  refine endCommand_keeps _ _ _ (State.setSlot_keeps _ _ _ (spoilOutput_keeps _ _ h) ?_ ?_) <;>
    rw [show (spoilOutput s k).slot k = s.slot k from congrArg (fun x : Hci => NMap.get ({} : Slot) x.slots k) (spoilOutput_hci s k)]

theorem cancelInflight_keeps {s0 : State} (s : State) (k : Nat) (hk : Keeps s0 s) :
    Keeps s0 (cancelInflight s k) := by
  unfold cancelInflight
  try dsimp only
  with_reducible repeat' (first
      | assumption | apply State.setOtp_keeps | apply stopCommand_keeps | exact StaysBlown.refl _ | split)

/-- The slots that a cancellation of slot `k` leaves alone. -/
theorem cancelQueued_slot (s : State) (k j : Nat) (hj : j ≠ k) : (cancelQueued s k).slot j = s.slot j := by
  unfold cancelQueued State.slot
  dsimp only
  rw [(writeCompletion_hci _ _ _).2.1, NMap.get_put_ne _ _ _ _ hj]
  show NMap.get {} (spoilOutput s k).hci.slots j = _
  rw [spoilOutput_hci]

theorem cancelQueued_keeps {s0 : State} (s : State) (k : Nat) (h : Keeps s0 s) (hk : (s.slot k).st = .queued) :
    Keeps s0 (cancelQueued s k) := by
  have h1 := spoilOutput_keeps s k h
  unfold cancelQueued
  dsimp only
  refine keeps_slots (writeCompletion_free _ _ _ (State.setQueue_free _ _ _ (keeps_unbooked h1))) fun b => ?_
  have b1 := h.2.2.2.2.2.2.2.1 b
  obtain ⟨e1, e2, e3⟩ := writeCompletion_hci ((spoilOutput s k).setQueue (s.slot k).queue
    (((spoilOutput s k).queue (s.slot k).queue).filter (· ≠ k))) k { status := 2 }
  have x := spoilOutput_hci s k
  refine Hci.booked_cancel b1 k { s.slot k with st := .unread, outcome := none } hk rfl ?_ ?_ ?_
  · rw [e1]; show NMap.put [] (spoilOutput s k).hci.queues _ (List.filter _ (NMap.get [] (spoilOutput s k).hci.queues _)) = _
    rw [x]; rfl
  · rw [e2]
    show NMap.put {} (spoilOutput s k).hci.slots k
      { NMap.get ({} : Slot) (spoilOutput s k).hci.slots k with st := .unread, outcome := none } = _
    rw [x]; rfl
  · rw [e3]; show (spoilOutput s k).hci.entries.map _ ++ _ = _
    rw [x]

theorem cancelSlot_keeps {s0 : State} (s : State) (k tag : Nat) (h : Keeps s0 s) : Keeps s0 (cancelSlot s k tag).2 := by
  unfold cancelSlot
  dsimp only
  split
  · exact h
  split
  · exact cancelQueued_keeps _ _ h ‹_›
  · split
    · exact cancelInflight_keeps _ _ h
    · exact h
  · exact h

theorem enableHci_keeps {s0 : State} (s : State) (bad : Bool) (hk : Keeps s0 s) :
    Keeps s0 (enableHci s bad) := by
  unfold enableHci
  try dsimp only
  with_reducible repeat' (first
      | assumption | apply State.set_keeps | apply notice_keeps | split)

theorem execHciEnable_keeps {s0 : State} (s : State) (hk : Keeps s0 s) :
    OutKeeps s0 (execHciEnable s) := by
  unfold execHciEnable
  try dsimp only
  with_reducible repeat' (first
      | assumption | apply keeps_next | apply enableHci_keeps | split)

/-- Every command of a list of QUEUED slots is cancelled. -/
theorem cancelAll_keeps {s0 : State} (l : List Nat) (s : State) (h : Keeps s0 s) (n : s.hci.booked → l.Nodup)
    (q : s.hci.booked → ∀ k ∈ l, (s.slot k).st = .queued) : Keeps s0 (State.each l cancelQueued s) := by
  unfold State.each
  by_cases hb : s0.hci.booked
  · have b := h.2.2.2.2.2.2.2.1 hb
    have n := n b
    have q := q b
    clear b
    induction l generalizing s with
    | nil => exact h
    | cons k l ih =>
      have n' := List.nodup_cons.1 n
      refine ih _ (cancelQueued_keeps s k h (q k (List.mem_cons_self ..))) (fun _ => n'.2) (fun _ j hj => ?_) n'.2 fun j hj => ?_
      all_goals
        rw [cancelQueued_slot s k j fun e => n'.1 (e ▸ hj)]
        exact q j (List.mem_cons_of_mem _ hj)
  · refine keeps_slots ?_ fun b => (hb b).elim
    have h' := keeps_unbooked h
    clear h n q
    induction l generalizing s with
    | nil => exact h'
    | cons k l ih =>
      exact ih _ (writeCompletion_free _ _ _ (State.setQueue_free _ _ _ (spoilOutput_keeps _ _ h')))

/-- The four queues hold no slot twice. -/
theorem Hci.booked.queued {s : State} (b : s.hci.booked) : ((List.range 4).flatMap s.queue).Nodup ∧
    ∀ k ∈ (List.range 4).flatMap s.queue, (s.slot k).st = .queued := by
  refine ⟨List.pairwise_flatMap.2 ⟨fun q _ => b.2.1 q, ?_⟩, fun k hk => ?_⟩
  · refine List.Pairwise.imp ?_ (List.nodup_range (n := 4))
    intro a c hac x hx y hy exy
    subst exy
    exact hac (((b.2.2.1 a x).1 hx).2.symm.trans ((b.2.2.1 c x).1 hy).2)
  · obtain ⟨q, -, hq⟩ := List.mem_flatMap.1 hk
    exact ((b.2.2.1 q k).1 hq).1

theorem hciDrain_keeps {s0 : State} (s : State) (h : Keeps s0 s) : Keeps s0 (hciDrain s) := by
  unfold hciDrain
  dsimp only
  split
  · exact h
  · refine each_keeps _ _ _ (cancelAll_keeps _ _ (State.set_keeps _ _ _ h) (fun b => ?_) fun b => ?_)
      fun t k ht => cancelInflight_keeps _ _ ht
    · exact (Hci.booked.queued b).1
    · exact (Hci.booked.queued b).2

theorem execHciDisable_keeps {s0 : State} (s : State) (hk : Keeps s0 s) :
    OutKeeps s0 (execHciDisable s) := by
  unfold execHciDisable
  try dsimp only
  with_reducible repeat' (first
      | assumption | apply keeps_next | apply hciDrain_keeps | split)

/-- Every command of a list of INFLIGHT slots completes. -/
theorem completeAll_keeps {s0 : State} (l : List Nat) (s : State) (h : Keeps s0 s) (n : l.Nodup)
    (q : ∀ k ∈ l, (s.slot k).st = .inflight) :
    Keeps s0 (State.each l (fun s k => writeCompletion s k ((s.slot k).outcome.getD { status := 2 })) s) := by
  unfold State.each
  induction l generalizing s with
  | nil => exact h
  | cons k l ih =>
    have n' := List.nodup_cons.1 n
    refine ih _ (writeCompletion_keeps s k _ h (q k (List.mem_cons_self ..))) n'.2 fun j hj => ?_
    have := q j (List.mem_cons_of_mem _ hj)
    rw [← this]
    show (NMap.get {} (writeCompletion s k _).hci.slots j).st = _
    rw [(writeCompletion_hci _ _ _).2.1, NMap.get_put_ne _ _ _ _ fun e => n'.1 (by rw [← e]; exact hj)]; rfl

theorem hciDrained_keeps {s0 : State} (s : State) (h : Keeps s0 s) : Keeps s0 (hciDrained s) := by
  unfold hciDrained
  dsimp only
  split
  · refine notice_keeps _ _ (State.set_keeps _ _ _ (State.set_keeps _ _ _ (completeAll_keeps _ _ h ?_ fun k hk => ?_)))
    · exact List.nodup_range.filter _
    · simpa using (List.mem_filter.1 hk).2
  · exact h

theorem hciRestore_keeps {s0 : State} (s : State) (hk : Keeps s0 s) :
    Keeps s0 (hciRestore s) := by
  unfold hciRestore
  try dsimp only
  with_reducible repeat' (first
      | assumption | apply hciClear_keeps | apply enableHci_keeps)

/-! ### HostCommands -/

theorem onCommand_keeps {s0 : State} (k : BitVec 8) (op : Nat) (s : State) (body : Nat → State) (h : Keeps s0 s)
    (hb : ∀ n, Keeps s0 (body n)) : OutKeeps s0 (onCommand k op s body) := by
  unfold onCommand
  try dsimp only
  with_reducible repeat' (first
      | assumption | apply hb | apply keeps_next | split)

theorem endOk_keeps {s0 : State} (s : State) (n : Nat) (r0 : Nat) (r1 : Nat) (hk : Keeps s0 s) :
    Keeps s0 (endOk s n r0 r1) := by
  unfold endOk
  try dsimp only
  with_reducible repeat' (first
      | exact hk | apply endCommand_keeps | apply commitSlot_keeps)

theorem execNop_keeps {s0 : State} (k : BitVec 8) (s : State) (hk : Keeps s0 s) :
    OutKeeps s0 (execNop k s) := by
  unfold execNop
  try dsimp only
  with_reducible repeat' (first
      | exact hk | apply endCommand_keeps | apply onCommand_keeps | (intro _))

theorem execGetInfo_keeps {s0 : State} (k : BitVec 8) (s : State) (hk : Keeps s0 s) :
    OutKeeps s0 (execGetInfo k s) := by
  unfold execGetInfo
  try dsimp only
  with_reducible repeat' (first
      | exact hk | apply endCommand_keeps | apply onCommand_keeps | (intro _))

theorem execDoorbell_keeps {s0 : State} (k : BitVec 8) (s : State) (hk : Keeps s0 s) :
    OutKeeps s0 (execDoorbell k s) := by
  unfold execDoorbell
  try dsimp only
  with_reducible repeat' (first
      | exact hk | apply State.set_keeps | apply onCommand_keeps | apply endOk_keeps | (intro _))

theorem execCancel_keeps {s0 : State} (k : BitVec 8) (s : State) (hk : Keeps s0 s) :
    OutKeeps s0 (execCancel k s) := by
  unfold execCancel
  try dsimp only
  with_reducible repeat' (first
      | exact hk | apply cancelSlot_keeps | apply onCommand_keeps | apply endOk_keeps | (intro _))

theorem execImgLoad_keeps {s0 : State} (k : BitVec 8) (s : State) (hk : Keeps s0 s) :
    OutKeeps s0 (execImgLoad k s) := by
  unfold execImgLoad
  try dsimp only
  with_reducible repeat' (first
      | exact hk | apply refuseCommand_keeps | apply loadImage_keeps | apply onCommand_keeps | apply endOk_keeps
      | (intro _) | split)

theorem execAdcConvert_keeps {s0 : State} (k : BitVec 8) (s : State) (hk : Keeps s0 s) :
    OutKeeps s0 (execAdcConvert k s) := by
  unfold execAdcConvert
  try dsimp only
  with_reducible repeat' (first
      | exact hk | apply endCommand_keeps | apply commitSlot_keeps | apply urgentRequest_keeps | apply onCommand_keeps
      | (intro _) | split)

theorem endSnapshot_keeps {s0 : State} (s : State) (n : Nat) (hk : Keeps s0 s) :
    Keeps s0 (endSnapshot s n) := by
  unfold endSnapshot
  try dsimp only
  with_reducible repeat' (first
      | exact hk | apply endOk_keeps)

theorem execSnapshotCmdTrigger_keeps {s0 : State} (k : BitVec 8) (s : State) (hk : Keeps s0 s) :
    OutKeeps s0 (execSnapshotCmdTrigger k s) := by
  unfold execSnapshotCmdTrigger
  try dsimp only
  with_reducible repeat' (first
      | exact hk | apply snapRequest_keeps | apply onCommand_keeps | apply endSnapshot_keeps | (intro _) | split)

theorem execSnapshotCmdRelease_keeps {s0 : State} (k : BitVec 8) (s : State) (hk : Keeps s0 s) :
    OutKeeps s0 (execSnapshotCmdRelease k s) := by
  unfold execSnapshotCmdRelease
  try dsimp only
  with_reducible repeat' (first
      | exact hk | apply snapRelease_keeps | apply onCommand_keeps | apply endSnapshot_keeps | (intro _) | split)

theorem execAttest_keeps {s0 : State} (k : BitVec 8) (s : State) (hk : Keeps s0 s) :
    OutKeeps s0 (execAttest k s) := by
  unfold execAttest
  try dsimp only
  with_reducible repeat' (first
      | exact hk | apply writeData_keeps | apply onCommand_keeps | apply endOk_keeps | simp only [keeps_mk_iff]
      | (refine keeps_adc ?_ ?_ ?_ ?_ ?_; rotate_left; (all_goals first | rfl | skip)) | (intro _))

theorem execGetCert_keeps {s0 : State} (k : BitVec 8) (s : State) (hk : Keeps s0 s) :
    OutKeeps s0 (execGetCert k s) := by
  unfold execGetCert
  try dsimp only
  with_reducible repeat' (first
      | exact hk | apply writeData_keeps | apply onCommand_keeps | apply endOk_keeps | (intro _))

theorem execWearExport_keeps {s0 : State} (k : BitVec 8) (s : State) (hk : Keeps s0 s) :
    OutKeeps s0 (execWearExport k s) := by
  unfold execWearExport
  try dsimp only
  with_reducible repeat' (first
      | exact hk | apply writeData_keeps | apply onCommand_keeps | apply endOk_keeps | (intro _))

theorem importWear_keeps {s0 : State} (s : State) (bs : List Byte) (days : Nat) (hk : Keeps s0 s) :
    Keeps s0 (importWear s bs days) := by
  unfold importWear
  try dsimp only
  with_reducible repeat' (first
      | assumption | apply State.set_keeps | apply State.setWear_keeps | apply each_keeps | (intro _))

theorem execWearImport_keeps {s0 : State} (k : BitVec 8) (s : State) (hk : Keeps s0 s) :
    OutKeeps s0 (execWearImport k s) := by
  unfold execWearImport
  try dsimp only
  with_reducible repeat' (first
      | exact hk | apply State.set_keeps | apply wearNotice_keeps | apply refuseCommand_keeps | apply onCommand_keeps
      | apply endOk_keeps | apply importWear_keeps | (intro _) | split)

/-! ### Twc -/

theorem enableTwc_keeps {s0 : State} (s : State) (hk : Keeps s0 s) :
    Keeps s0 (enableTwc s) := by
  unfold enableTwc
  try dsimp only
  with_reducible repeat' (first
      | assumption | apply State.set_keeps | apply notice_keeps | apply State.setTwc_keeps | apply each_keeps
      | (intro _) | split)

theorem execTwcEnable_keeps {s0 : State} (s : State) (hk : Keeps s0 s) :
    OutKeeps s0 (execTwcEnable s) := by
  unfold execTwcEnable
  try dsimp only
  with_reducible repeat' (first
      | assumption | apply keeps_next | apply enableTwc_keeps | split)

theorem execTwcDisable_keeps {s0 : State} (s : State) (hk : Keeps s0 s) :
    OutKeeps s0 (execTwcDisable s) := by
  unfold execTwcDisable
  try dsimp only
  with_reducible repeat' (first
      | assumption | apply keeps_next | apply State.set_keeps | split)

theorem putData_keeps {s0 : State} (s : State) (i : Nat) (b : Byte) (hk : Keeps s0 s) :
    Keeps s0 (putData s i b) := by
  unfold putData
  try dsimp only
  with_reducible repeat' (first
      | assumption | apply State.set_keeps)

theorem putRead_keeps {s0 : State} (s : State) (bs : List Byte) (hk : Keeps s0 s) :
    Keeps s0 (putRead s bs) := by
  unfold putRead
  try dsimp only
  with_reducible repeat' (first
      | assumption | apply putData_keeps | apply each_keeps | (intro _))

theorem hostResult_keeps {s0 : State} (s : State) (status wdone rdone : Nat) (hk : Keeps s0 s) :
    Keeps s0 (hostResult s status wdone rdone) := by
  unfold hostResult
  try dsimp only
  with_reducible repeat' (first
      | assumption | apply State.set_keeps | apply notice_keeps | apply raise_keeps | split)

theorem endTransfer_keeps {s0 : State} (s : State) (status wdone : Nat) (data : List Byte) (hk : Keeps s0 s) :
    Keeps s0 (endTransfer s status wdone data) := by
  unfold endTransfer
  try dsimp only
  with_reducible repeat' (first
      | assumption | apply State.set_keeps | apply raise_keeps | apply State.setTwc_keeps | apply putRead_keeps
      | apply hostResult_keeps | split)

theorem countNack_keeps {s0 : State} (s : State) (e : XferEnd) (hk : Keeps s0 s) :
    Keeps s0 (countNack s e) := by
  unfold countNack
  try dsimp only
  with_reducible repeat' (first
      | assumption | apply State.addSat_keeps | split)

theorem execTwcTransfer_keeps {s0 : State} (s : State) (hk : Keeps s0 s) :
    OutKeeps s0 (execTwcTransfer s) := by
  unfold execTwcTransfer
  try dsimp only
  with_reducible repeat' (first
      | assumption | apply keeps_next | apply State.set_keeps | apply State.setTwc_keeps | apply twcNext_keeps
      | apply hostResult_keeps | split)

theorem execTwcTransferEnd_keeps {s0 : State} (e : XferEnd) (wdone : BitVec 6) (data : List Byte) (s : State) (hk : Keeps s0 s) :
    OutKeeps s0 (execTwcTransferEnd e wdone data s) := by
  unfold execTwcTransferEnd
  try dsimp only
  with_reducible repeat' (first
      | assumption | apply keeps_next | apply twcNext_keeps | apply endTransfer_keeps | apply countNack_keeps | split)

theorem partRead_keeps {s0 : State} (s : State) (data : List Byte) (hk : Keeps s0 s) :
    Keeps s0 (partRead s data) := by
  unfold partRead
  try dsimp only
  with_reducible repeat' (first
      | assumption | apply putRead_keeps | split)

theorem execTwcArbLost_keeps {s0 : State} (wdone : BitVec 6) (data : List Byte) (s : State) (hk : Keeps s0 s) :
    OutKeeps s0 (execTwcArbLost wdone data s) := by
  unfold execTwcArbLost
  try dsimp only
  with_reducible repeat' (first
      | assumption | apply keeps_next | apply State.set_keeps | apply State.addWrap_keeps | apply State.addSat_keeps
      | apply State.setTwc_keeps | apply twcNext_keeps | apply endTransfer_keeps | apply partRead_keeps | split)

theorem resend_keeps {s0 : State} (s : State) (hk : Keeps s0 s) :
    Keeps s0 (resend s) := by
  unfold resend
  try dsimp only
  with_reducible repeat' (first
      | assumption | apply State.setTwc_keeps | split)

theorem execTwcBusFree_keeps {s0 : State} (e : BusEdge) (s : State) (hk : Keeps s0 s) :
    OutKeeps s0 (execTwcBusFree e s) := by
  unfold execTwcBusFree
  try dsimp only
  with_reducible repeat' (first
      | assumption | apply keeps_next | apply State.set_keeps | apply State.setTwc_keeps | apply resend_keeps | split)

theorem recoveryEnds_keeps {s0 : State} (s : State) (busy : Bool) (hk : Keeps s0 s) :
    Keeps s0 (recoveryEnds s busy) := by
  unfold recoveryEnds
  try dsimp only
  with_reducible repeat' (first
      | assumption | apply State.set_keeps | apply State.setTwc_keeps | apply twcNext_keeps)

theorem execTwcBusRecover_keeps {s0 : State} (r : Recovery) (s : State) (hk : Keeps s0 s) :
    OutKeeps s0 (execTwcBusRecover r s) := by
  unfold execTwcBusRecover
  try dsimp only
  with_reducible repeat' (first
      | assumption | apply keeps_next | apply State.set_keeps | apply State.addSat_keeps | apply raise_keeps
      | apply endTransfer_keeps | apply recoveryEnds_keeps | split)

theorem execTwcSclTimeout_keeps {s0 : State} (wdone : BitVec 6) (data : List Byte) (s : State) (hk : Keeps s0 s) :
    OutKeeps s0 (execTwcSclTimeout wdone data s) := by
  unfold execTwcSclTimeout
  try dsimp only
  with_reducible repeat' (first
      | assumption | apply keeps_next | apply State.setTwc_keeps | apply twcNext_keeps | apply endTransfer_keeps
      | split)

theorem execTwcPollEntryEnd_keeps {s0 : State} (e : XferEnd) (data : List Byte) (s : State) (hk : Keeps s0 s) :
    OutKeeps s0 (execTwcPollEntryEnd e data s) := by
  unfold execTwcPollEntryEnd
  try dsimp only
  with_reducible repeat' (first
      | assumption | apply keeps_next | apply twcNext_keeps | apply endTransfer_keeps | apply countNack_keeps | split)

theorem twcDrained_keeps {s0 : State} (s : State) (wdone : Nat) (data : List Byte) (hk : Keeps s0 s) :
    Keeps s0 (twcDrained s wdone data) := by
  unfold twcDrained
  try dsimp only
  with_reducible repeat' (first
      | assumption | apply State.set_keeps | apply notice_keeps | apply State.setTwc_keeps | apply hostResult_keeps
      | apply endTransfer_keeps | split)

/-! ### Access -/

theorem latchTime_keeps {s0 : State} (s : State) (hk : Keeps s0 s) :
    Keeps s0 (latchTime s) := by
  unfold latchTime
  try dsimp only
  with_reducible repeat' (first
      | assumption | apply State.set_keeps)

theorem latchSerial_keeps {s0 : State} (s : State) (hk : Keeps s0 s) :
    Keeps s0 (latchSerial s) := by
  unfold latchSerial
  try dsimp only
  with_reducible repeat' (first
      | assumption | apply State.set_keeps)

theorem latchDrop_keeps {s0 : State} (s : State) (hk : Keeps s0 s) :
    Keeps s0 (latchDrop s) := by
  unfold latchDrop
  try dsimp only
  with_reducible repeat' (first
      | assumption | apply State.set_keeps)

theorem latchHistory_keeps {s0 : State} (s : State) (hk : Keeps s0 s) :
    Keeps s0 (latchHistory s) := by
  unfold latchHistory
  try dsimp only
  with_reducible repeat' (first
      | assumption | apply State.set_keeps)

theorem latchLog_keeps {s0 : State} (s : State) (hk : Keeps s0 s) :
    Keeps s0 (latchLog s) := by
  unfold latchLog
  try dsimp only
  with_reducible repeat' (first
      | assumption | apply State.set_keeps)

theorem latchRecord_keeps {s0 : State} (s : State) (hk : Keeps s0 s) :
    Keeps s0 (latchRecord s) := by
  unfold latchRecord
  try dsimp only
  with_reducible repeat' (first
      | assumption | apply State.set_keeps | apply each_keeps | (intro _))

theorem latchCredit_keeps {s0 : State} (s : State) (hk : Keeps s0 s) :
    Keeps s0 (latchCredit s) := by
  unfold latchCredit
  try dsimp only
  with_reducible repeat' (first
      | assumption | apply State.set_keeps)

theorem readEffect_keeps {s0 : State} (s : State) (a : Nat) (hk : Keeps s0 s) :
    Keeps s0 (readEffect s a) := by
  unfold readEffect
  try dsimp only
  with_reducible repeat' (first
      | assumption | apply claimBy_keeps | apply latchTime_keeps | apply latchSerial_keeps | apply latchDrop_keeps
      | apply latchHistory_keeps | apply latchLog_keeps | apply latchRecord_keeps | apply latchCredit_keeps | split)

theorem hostRead_keeps {s0 : State} (s : State) (a : Nat) (hk : Keeps s0 s) :
    Keeps s0 (hostRead s a).2 := by
  unfold hostRead
  try dsimp only
  with_reducible repeat' (first
      | assumption | apply readEffect_keeps)

theorem execSysTimeLoRead_keeps {s0 : State} (s : State) (hk : Keeps s0 s) :
    OutKeeps s0 (execSysTimeLoRead s) := by
  unfold execSysTimeLoRead
  try dsimp only
  with_reducible repeat' (first
      | assumption | apply keeps_next | apply latchTime_keeps | split)

theorem execIdSerialLoRead_keeps {s0 : State} (s : State) (hk : Keeps s0 s) :
    OutKeeps s0 (execIdSerialLoRead s) := by
  unfold execIdSerialLoRead
  try dsimp only
  with_reducible repeat' (first
      | assumption | apply keeps_next | apply latchSerial_keeps | split)

theorem execAdcUrgreqRead_keeps {s0 : State} (s : State) (hk : Keeps s0 s) :
    OutKeeps s0 (execAdcUrgreqRead s) := by
  unfold execAdcUrgreqRead
  try dsimp only
  with_reducible repeat' (first
      | assumption | apply keeps_next | apply latchDrop_keeps | split)

theorem execFltHwrRead_keeps {s0 : State} (s : State) (hk : Keeps s0 s) :
    OutKeeps s0 (execFltHwrRead s) := by
  unfold execFltHwrRead
  try dsimp only
  with_reducible repeat' (first
      | assumption | apply keeps_next | apply latchHistory_keeps | split)

theorem execFltLwrRead_keeps {s0 : State} (s : State) (hk : Keeps s0 s) :
    OutKeeps s0 (execFltLwrRead s) := by
  unfold execFltLwrRead
  try dsimp only
  with_reducible repeat' (first
      | assumption | apply keeps_next | apply latchLog_keeps | split)

theorem execFltRec0Read_keeps {s0 : State} (s : State) (hk : Keeps s0 s) :
    OutKeeps s0 (execFltRec0Read s) := by
  unfold execFltRec0Read
  try dsimp only
  with_reducible repeat' (first
      | assumption | apply keeps_next | apply latchRecord_keeps | split)

theorem execHciCredit0Read_keeps {s0 : State} (s : State) (hk : Keeps s0 s) :
    OutKeeps s0 (execHciCredit0Read s) := by
  unfold execHciCredit0Read
  try dsimp only
  with_reducible repeat' (first
      | assumption | apply keeps_next | apply latchCredit_keeps | split)

end Sys2Proof.Machine
end

