-- ==== Sys2Proof/Laws/KeepsBuses.lean ====
section
/-! SUPPORT. `Keeps` of shutdown, drains, host writes and the two host buses. -/

namespace Sys2Proof.Machine

/-! ### Halt -/

theorem stopCharger_keeps {s0 : State} (s : State) (hk : Keeps s0 s) :
    Keeps s0 (stopCharger s) := by
  unfold stopCharger
  try dsimp only
  with_reducible repeat' (first
      | assumption | apply State.setChg_keeps | apply chgDrained_keeps | split)

theorem stopRing_keeps {s0 : State} (s : State) (hk : Keeps s0 s) :
    Keeps s0 (stopRing s) := by
  unfold stopRing
  try dsimp only
  with_reducible repeat' (first
      | assumption | apply leaveRing_keeps | apply ringDrained_keeps | split)

theorem stopChannel_keeps {s0 : State} (s : State) (n : Nat) (hk : Keeps s0 s) :
    Keeps s0 (stopChannel s n) := by
  unfold stopChannel
  try dsimp only
  with_reducible repeat' (first
      | assumption | apply State.set_keeps | apply State.setSup_keeps | apply each_keeps | (intro _) | split)

theorem stopSlice_keeps {s0 : State} (s : State) (k : Nat) (hk : Keeps s0 s) :
    Keeps s0 (stopSlice s k) := by
  unfold stopSlice
  try dsimp only
  with_reducible repeat' (first
      | assumption | rfl | apply State.setAdc_keeps | apply sliceDrained_keeps | split)

theorem stopAnyBurst_keeps {s0 : State} (s : State) (hk : Keeps s0 s) :
    Keeps s0 (stopAnyBurst s) := by
  unfold stopAnyBurst
  try dsimp only
  with_reducible repeat' (first
      | assumption | apply stopBurst_keeps | apply dropInjection_keeps | split)

theorem cutUrgent_keeps {s0 : State} (s : State) (h : Keeps s0 s) : Keeps s0 (cutUrgent s) := by
  unfold cutUrgent
  split
  · rename_i hu
    refine notice_keeps _ _ (State.setAdc_booked s _ h fun b => ?_)
    simp only [Adc.booked, State.setAdc, wrapAt, hu, if_true, Option.isSome_none, Bool.false_eq_true, if_false] at b ⊢
    omega
  · exact h

theorem stopAdc_keeps {s0 : State} (s : State) (hk : Keeps s0 s) :
    Keeps s0 (stopAdc s) := by
  unfold stopAdc
  try dsimp only
  with_reducible repeat' (first
      | assumption | rfl | apply State.set_keeps | apply State.setAdc_keeps | apply endFill_keeps
      | apply stopSlice_keeps | apply stopAnyBurst_keeps | apply cutUrgent_keeps | apply each_keeps)

theorem stopTwc_keeps {s0 : State} (s : State) (hk : Keeps s0 s) :
    Keeps s0 (stopTwc s) := by
  unfold stopTwc
  try dsimp only
  with_reducible repeat' (first
      | assumption | apply State.set_keeps | apply twcDrained_keeps | split)

theorem stopPort_keeps {s0 : State} (s : State) (p : Nat) (hk : Keeps s0 s) :
    Keeps s0 (stopPort s p) := by
  unfold stopPort
  try dsimp only
  with_reducible repeat' (first
      | assumption | apply State.setPort_keeps | apply portDrained_keeps | split)

theorem stopUnits_keeps {s0 : State} (s : State) (hk : Keeps s0 s) :
    Keeps s0 (stopUnits s) := by
  unfold stopUnits
  try dsimp only
  with_reducible repeat' (first
      | assumption | apply vdrvSwitch_keeps | apply stopCharger_keeps | apply stopRing_keeps | apply stopChannel_keeps
      | apply stopAdc_keeps | apply stopTwc_keeps | apply stopPort_keeps | apply each_keeps)

/-! ### Shutdown -/

theorem execSysShutdown_keeps {s0 : State} (s : State) (hk : Keeps s0 s) :
    OutKeeps s0 (execSysShutdown s) := by
  unfold execSysShutdown
  try dsimp only
  with_reducible repeat' (first
      | assumption | apply keeps_next | apply pdStart_keeps | split)

theorem execSysOrderly_keeps {s0 : State} (s : State) (hk : Keeps s0 s) :
    OutKeeps s0 (execSysOrderly s) := by
  unfold execSysOrderly
  try dsimp only
  with_reducible repeat' (first
      | assumption | apply keeps_next | apply pdStart_keeps | split)

theorem execSysRestart_keeps {s0 : State} (s : State) (hk : Keeps s0 s) :
    OutKeeps s0 (execSysRestart s) := by
  unfold execSysRestart
  try dsimp only
  with_reducible repeat' (first
      | assumption | apply keeps_next | apply State.setSys_keeps | apply otpThroughRestart_keeps
      | apply beginStartup_keeps | simp only [keeps_mk_iff] | split)

theorem execSysStandby_keeps {s0 : State} (s : State) (hk : Keeps s0 s) :
    OutKeeps s0 (execSysStandby s) := by
  unfold execSysStandby
  try dsimp only
  with_reducible repeat' (first
      | assumption | apply keeps_next | apply State.set_keeps | apply pathOff_keeps | split)

theorem narrowPort_keeps {s0 : State} (s : State) (hk : Keeps s0 s) :
    Keeps s0 (narrowPort s) := by
  unfold narrowPort
  try dsimp only
  with_reducible repeat' (first
      | assumption | simp only [keeps_mk_iff]
      | (refine keeps_adc ?_ ?_ ?_ ?_ ?_; rotate_left; (all_goals first | rfl | skip)))

theorem execStandbyWake_keeps {s0 : State} (cause : WakeCause) (ticks : Nat) (s : State) (hk : Keeps s0 s) :
    OutKeeps s0 (execStandbyWake cause ticks s) := by
  unfold execStandbyWake
  try dsimp only
  with_reducible repeat' (first
      | assumption | apply keeps_next | apply State.set_keeps | apply State.setSys_keeps | apply startIfReleased_keeps
      | apply narrowPort_keeps | simp only [keeps_mk_iff] | apply later_keeps | split)

theorem pdStep_keeps {s0 : State} (s : State) (x : Pd) (n : Nat) (hk : Keeps s0 s) :
    Keeps s0 (pdStep s x n) := by
  unfold pdStep
  try dsimp only
  with_reducible repeat' (first
      | assumption | apply opMark_keeps | apply State.setSys_keeps)

theorem execPdEnginesDrained_keeps {s0 : State} (s : State) (hk : Keeps s0 s) :
    OutKeeps s0 (execPdEnginesDrained s) := by
  unfold execPdEnginesDrained
  try dsimp only
  with_reducible repeat' (first
      | assumption | apply keeps_next | apply pdStep_keeps | split)

theorem execPdTmax_keeps {s0 : State} (s : State) (hk : Keeps s0 s) :
    OutKeeps s0 (execPdTmax s) := by
  unfold execPdTmax
  try dsimp only
  with_reducible repeat' (first
      | assumption | apply keeps_next | apply State.expire_keeps | apply State.set_keeps | apply enginesDrain_keeps
      | apply raise_keeps | apply pdStep_keeps | split)

theorem distmoFails_keeps {s0 : State} (s : State) (r : Rail) (hk : Keeps s0 s) :
    Keeps s0 (distmoFails s r) := by
  unfold distmoFails
  try dsimp only
  with_reducible repeat' (first
      | assumption | apply State.expire_keeps | apply railFails_keeps)

theorem endDischarges_keeps {s0 : State} (s : State) (hk : Keeps s0 s) :
    Keeps s0 (endDischarges s) := by
  unfold endDischarges
  try dsimp only
  with_reducible repeat' (first
      | assumption | apply State.set_keeps | apply State.setOut_keeps | apply each_keeps | (intro _) | split)

theorem beginSelfTest_keeps {s0 : State} (s : State) (x : Pd) (hk : Keeps s0 s) :
    Keeps s0 (beginSelfTest s x) := by
  unfold beginSelfTest
  try dsimp only
  with_reducible repeat' (first
      | assumption | apply aliveLow_keeps | apply opMark_keeps | apply toPhase_keeps | apply hciClear_keeps
      | apply stopUnits_keeps | apply pdStep_keeps | apply endDischarges_keeps)

theorem execPdDischargeWaitEnd_keeps {s0 : State} (above : Word) (s : State) (hk : Keeps s0 s) :
    OutKeeps s0 (execPdDischargeWaitEnd above s) := by
  unfold execPdDischargeWaitEnd
  try dsimp only
  with_reducible repeat' (first
      | assumption | apply keeps_next | apply hciDrain_keeps | apply hciDrained_keeps | apply pdStep_keeps
      | apply distmoFails_keeps | apply beginSelfTest_keeps | apply each_keeps | split)

theorem storeVerdict_keeps {s0 : State} (s : State) (x : Pd) (v : Verdict) (hk : Keeps s0 s) :
    Keeps s0 (storeVerdict s x v) := by
  unfold storeVerdict
  try dsimp only
  with_reducible repeat' (first
      | assumption | apply State.set_keeps | apply opEnd_keeps | apply State.setSys_keeps | apply setStored_keeps)

theorem enterHalted_keeps {s0 : State} (s : State) (hk : Keeps s0 s) :
    Keeps s0 (enterHalted s) := by
  unfold enterHalted
  try dsimp only
  with_reducible repeat' (first
      | assumption | apply State.set_keeps | apply aliveRun_keeps | apply toPhase_keeps | apply State.setSys_keeps
      | apply hciRestore_keeps)

theorem afterSelfTest_keeps {s0 : State} (s : State) (trig : Nat) (hk : Keeps s0 s) :
    Keeps s0 (afterSelfTest s trig) := by
  unfold afterSelfTest
  try dsimp only
  with_reducible repeat' (first
      | assumption | apply State.set_keeps | apply aliveRun_keeps | apply otpThroughRestart_keeps
      | apply systemReset_keeps | apply setStored_keeps | apply beginStartup_keeps | apply snowdrop_keeps
      | apply enterHalted_keeps | simp only [keeps_mk_iff] | split)

theorem execShutdownBistDone_keeps {s0 : State} (tests : List BistTest) (s : State) (hk : Keeps s0 s) :
    OutKeeps s0 (execShutdownBistDone tests s) := by
  unfold execShutdownBistDone
  try dsimp only
  with_reducible repeat' (first
      | assumption | apply keeps_next | apply storeVerdict_keeps | apply afterSelfTest_keeps | split)

/-! ### Drain -/

theorem railDrained_keeps {s0 : State} (s : State) (r : Rail) (hk : Keeps s0 s) :
    Keeps s0 (railDrained s r) := by
  unfold railDrained
  try dsimp only
  with_reducible repeat' (first
      | assumption | apply romFree_keeps | apply dropsAtEnd_keeps | apply outputDrained_keeps
      | apply loopDrained_keeps | split)

theorem execBlockDrainEnd_keeps {s0 : State} (u : DrainUnit) (s : State) (hk : Keeps s0 s) :
    OutKeeps s0 (execBlockDrainEnd u s) := by
  unfold execBlockDrainEnd
  try dsimp only
  with_reducible repeat' (first
      | assumption | apply keeps_next | apply chgDrained_keeps | apply engineDrained_keeps | apply supDrained_keeps
      | apply portDrained_keeps | apply ringDrained_keeps | apply sliceDrained_keeps | apply hciDrained_keeps
      | apply twcDrained_keeps | apply railDrained_keeps | split)

theorem resetUnitState_keeps {s0 : State} (s : State) (u : Nat) (hk : Keeps s0 s) :
    Keeps s0 (resetUnitState s u) := by
  unfold resetUnitState
  try dsimp only
  with_reducible repeat' (first
      | assumption | apply State.setLoop_keeps | apply State.setPort_keeps | apply State.setSup_keeps
      | apply State.setEngine_keeps | apply State.setChg_keeps | apply State.setTwc_keeps | simp only [keeps_mk_iff]
      | (refine keeps_adc ?_ ?_ ?_ ?_ ?_; rotate_left; (all_goals first | rfl | skip)) | split)

theorem blockReset_keeps {s0 : State} (s : State) (u : Nat) (hk : Keeps s0 s) :
    Keeps s0 (blockReset s u) := by
  unfold blockReset
  try dsimp only
  with_reducible repeat' (first
      | assumption | apply State.set_keeps | apply State.resetField_keeps | apply resetUnitState_keeps
      | apply each_keeps | split)

theorem execBlockReset_keeps {s0 : State} (unit : BitVec 8) (s : State) (hk : Keeps s0 s) :
    OutKeeps s0 (execBlockReset unit s) := by
  unfold execBlockReset
  try dsimp only
  with_reducible repeat' (first
      | assumption | apply keeps_next | apply State.set_keeps | apply blockReset_keeps | split)

/-! ### HostWrite -/

theorem storeField_keeps {s0 : State} (v m : Nat) (s : State) (f : Field) (hk : Keeps s0 s) :
    Keeps s0 (storeField v m s f) := by
  unfold storeField
  try dsimp only
  with_reducible repeat' (first
      | assumption | apply State.set_keeps | apply State.clearBits_keeps | split)

theorem storeFields_keeps {s0 : State} (s : State) (a v m : Nat) (hk : Keeps s0 s) :
    Keeps s0 (storeFields s a v m) := by
  unfold storeFields
  try dsimp only
  with_reducible repeat' (first
      | assumption | apply storeField_keeps | apply each_keeps)

theorem clearAll_keeps {s0 : State} (s : State) (fs : List Field) (hk : Keeps s0 s) :
    Keeps s0 (clearAll s fs) := by
  unfold clearAll
  try dsimp only
  with_reducible repeat' (first
      | assumption | apply State.set_keeps | apply each_keeps | (intro _))

theorem clearAccepted_keeps {s0 : State} (a v m : Nat) (s : State) (p : Nat) (hk : Keeps s0 s) :
    Keeps s0 (clearAccepted a v m s p) := by
  unfold clearAccepted
  try dsimp only
  with_reducible repeat' (first
      | assumption | apply State.set_keeps | split)

theorem clearCounters_keeps {s0 : State} (s : State) (a v m : Nat) (hk : Keeps s0 s) :
    Keeps s0 (clearCounters s a v m) := by
  unfold clearCounters
  try dsimp only
  with_reducible repeat' (first
      | assumption | apply clearAll_keeps | apply clearAccepted_keeps | apply each_keeps | (intro _) | split)

theorem writeMasks_keeps {s0 : State} (s : State) (a v m : Nat) (hk : Keeps s0 s) :
    Keeps s0 (writeMasks s a v m) := by
  unfold writeMasks
  try dsimp only
  with_reducible repeat' (first
      | assumption | apply State.set_keeps | apply each_keeps | (intro _) | split)

theorem followBankEn_keeps {s0 : State} (s : State) (hk : Keeps s0 s) :
    Keeps s0 (followBankEn s) := by
  unfold followBankEn
  try dsimp only
  with_reducible repeat' (first
      | assumption | apply State.setPath_keeps | split)

theorem ktUnmapped_keeps {s0 : State} (s : State) (hk : Keeps s0 s) :
    Keeps s0 (ktUnmapped s) := by
  unfold ktUnmapped
  try dsimp only
  with_reducible repeat' (first
      | assumption | simp only [keeps_mk_iff]
      | (refine keeps_adc ?_ ?_ ?_ ?_ ?_; rotate_left; (all_goals first | rfl | skip)))

theorem afterStore_keeps {s0 : State} (s : State) (a : Nat) (hk : Keeps s0 s) :
    Keeps s0 (afterStore s a) := by
  unfold afterStore
  try dsimp only
  with_reducible repeat' (first
      | assumption | apply noteLines_keeps | apply dropDisabledWait_keeps | apply followBankEn_keeps
      | apply ktUnmapped_keeps | split)

theorem rebind_keeps {s0 : State} (old : State) (a : Nat) (s : State) (hk : Keeps s0 s) :
    Keeps s0 (rebind old a s) := by
  unfold rebind
  try dsimp only
  with_reducible repeat' (first
      | assumption | apply State.setSup_keeps | apply each_keeps | (intro _))

theorem plainWrite_keeps {s0 : State} (s : State) (a v m : Nat) (hk : Keeps s0 s) :
    Keeps s0 (plainWrite s a v m) := by
  unfold plainWrite
  try dsimp only
  with_reducible repeat' (first
      | assumption | apply storeFields_keeps | apply clearCounters_keeps | apply writeMasks_keeps
      | apply afterStore_keeps | apply rebind_keeps)

theorem captureOff_keeps {s0 : State} (s : State) (hk : Keeps s0 s) :
    OutKeeps s0 (captureOff s) := by
  unfold captureOff
  try dsimp only
  with_reducible repeat' (first
      | assumption | apply keeps_next | apply State.set_keeps | apply endFill_keeps)

theorem execRegisterWrite_keeps {s0 : State} (addr : BitVec 24) (value : Word) (lanes : BitVec 4) (s : State) (hk : Keeps s0 s) :
    OutKeeps s0 (execRegisterWrite addr value lanes s) := by
  unfold execRegisterWrite
  try dsimp only
  with_reducible repeat' (first
      | assumption | apply keeps_next | apply State.set_keeps | apply endFill_keeps | apply plainWrite_keeps | split)

theorem stateOf_keeps {s0 : State} (r : Host.Outcome State Fault Refusal) (s : State) (h : Keeps s0 s)
    (hr : OutKeeps s0 r) : Keeps s0 (stateOf r s) := by
  unfold stateOf
  split
  · exact hr
  · exact h

theorem act_keeps {s0 : State} (c : Bool) (f : State → Host.Outcome State Fault Refusal) (s : State) (h : Keeps s0 s)
    (hf : ∀ t, Keeps s0 t → OutKeeps s0 (f t)) : Keeps s0 (act c f s) := by
  unfold act
  split
  · exact stateOf_keeps _ s h (hf s h)
  · exact h

theorem actBit_keeps {s0 : State} (v m i : Nat) (one zero : State → Host.Outcome State Fault Refusal) (s : State)
    (h : Keeps s0 s) (h1 : ∀ t, Keeps s0 t → OutKeeps s0 (one t)) (h2 : ∀ t, Keeps s0 t → OutKeeps s0 (zero t)) :
    Keeps s0 (actBit v m i one zero s) := by
  unfold actBit
  exact act_keeps _ _ _ (act_keeps _ _ _ h h1) h2

theorem sysActions_keeps {s0 : State} (s : State) (a v m : Nat) (hk : Keeps s0 s) :
    Keeps s0 (sysActions s a v m) := by
  unfold sysActions
  try dsimp only
  with_reducible repeat' (first
      | assumption | apply execSysImmediate_keeps | apply execSysShutdown_keeps | apply execSysOrderly_keeps
      | apply execSysRestart_keeps | apply execSysStandby_keeps | apply execBlockReset_keeps | apply act_keeps | split)

theorem powerActions_keeps {s0 : State} (s : State) (a v m : Nat) (hk : Keeps s0 s) :
    Keeps s0 (powerActions s a v m) := by
  unfold powerActions
  try dsimp only
  with_reducible repeat' (first
      | assumption | apply execChgEnable_keeps | apply execChgDisable_keeps | apply execChgHostSuspend_keeps
      | apply execChgClrflt_keeps | apply execPpApply_keeps | apply execPpClrflt_keeps | apply execSnowdropEnter_keeps
      | apply act_keeps | apply actBit_keeps | split)

theorem outputActions_keeps {s0 : State} (s : State) (a v m : Nat) (hk : Keeps s0 s) :
    Keeps s0 (outputActions s a v m) := by
  unfold outputActions
  try dsimp only
  with_reducible repeat' (first
      | assumption | apply execOutputClrflt_keeps | apply execSupEnable_keeps | apply execSupDisable_keeps
      | apply execVclPortEnable_keeps | apply execVclPortDisable_keeps | apply execVclHold_keeps | apply act_keeps
      | apply actBit_keeps | apply each_keeps | (intro _) | split)

theorem plantActions_keeps {s0 : State} (s : State) (a v m : Nat) (hk : Keeps s0 s) :
    Keeps s0 (plantActions s a v m) := by
  unfold plantActions
  try dsimp only
  with_reducible repeat' (first
      | assumption | apply execNrgFreeze_keeps | apply execRaisePop_keeps | apply execCamEnable_keeps
      | apply execCamDisable_keeps | apply execRingEnable_keeps | apply execRingLeave_keeps
      | apply execMngCmdAbort_keeps | apply execMngCmdIsolate_keeps | apply execMngCmdPoll_keeps | apply act_keeps
      | apply actBit_keeps | apply each_keeps | (intro _) | split)

theorem adcActions_keeps {s0 : State} (s : State) (a v m : Nat) (hk : Keeps s0 s) :
    Keeps s0 (adcActions s a v m) := by
  unfold adcActions
  try dsimp only
  with_reducible repeat' (first
      | assumption | apply execAdcSliceEnable_keeps | apply execAdcSliceDisable_keeps | apply execAdcClrcnt_keeps
      | apply execAdcBurstGo_keeps | apply execMismClr_keeps | apply execCaptureEnable_keeps
      | apply execAdcCtrlSnap_keeps | apply execSnapshotRelease_keeps | apply captureOff_keeps | apply act_keeps
      | apply actBit_keeps | apply each_keeps | (intro _) | split)

theorem faultActions_keeps {s0 : State} (s : State) (a v m : Nat) (hk : Keeps s0 s) :
    Keeps s0 (faultActions s a v m) := by
  unfold faultActions
  try dsimp only
  with_reducible repeat' (first
      | assumption | apply execFltStatusClear_keeps | apply execFltMarkread_keeps | apply execTestEntry_keeps
      | apply execFaultInjection_keeps | apply act_keeps | split)

theorem hostActions_keeps {s0 : State} (s : State) (a v m : Nat) (hk : Keeps s0 s) :
    Keeps s0 (hostActions s a v m) := by
  unfold hostActions
  try dsimp only
  with_reducible repeat' (first
      | assumption | apply execIntcComplete_keeps | apply execIntcDbellSet_keeps | apply execIntcDbellClr_keeps
      | apply execRawProgramWord_keeps | apply execRawVoidWord_keeps | apply execRawBlowLock_keeps
      | apply execKeygen_keeps | apply execHciDoorbell_keeps | apply execHciCqHeadWrite_keeps
      | apply execHciEnable_keeps | apply execHciDisable_keeps | apply execTwcEnable_keeps
      | apply execTwcDisable_keeps | apply execTwcTransfer_keeps | apply act_keeps | apply actBit_keeps | split)

theorem hostWrite_keeps {s0 : State} (s : State) (a v m : Nat) (hk : Keeps s0 s) :
    Keeps s0 (hostWrite s a v m) := by
  unfold hostWrite
  try dsimp only
  with_reducible repeat' (first
      | assumption | apply plainWrite_keeps | apply sysActions_keeps | apply powerActions_keeps
      | apply outputActions_keeps | apply plantActions_keeps | apply adcActions_keeps | apply faultActions_keeps
      | apply hostActions_keeps)

theorem writeByte_keeps {s0 : State} (s : State) (a : Nat) (b : Byte) (hk : Keeps s0 s) :
    Keeps s0 (writeByte s a b) := by
  unfold writeByte
  try dsimp only
  with_reducible repeat' (first
      | assumption | apply State.setByte_keeps | split)

/-! ### Spi -/

theorem writeWindow_keeps {s0 : State} (s : State) (a : Nat) (w : List Byte) (hk : Keeps s0 s) :
    Keeps s0 (writeWindow s a w) := by
  unfold writeWindow
  try dsimp only
  with_reducible repeat' (first
      | assumption | apply writeByte_keeps | apply each_keeps | (intro _))

theorem spiPut_keeps {s0 : State} (s : State) (a : Nat) (w : List Byte) (hk : Keeps s0 s) :
    Keeps s0 (spiPut s a w) := by
  unfold spiPut
  try dsimp only
  with_reducible repeat' (first
      | assumption | apply hostWrite_keeps | apply writeWindow_keeps | split)

theorem spiWriteWords_keeps {s0 : State} (n : Nat) (s : State) (a : Nat) (bs : List Byte) (h : Keeps s0 s) :
    Keeps s0 (spiWriteWords n s a bs).1 := by
  induction n generalizing s a bs with
  | zero => exact h
  | succ n ih =>
    unfold spiWriteWords
    try dsimp only
    with_reducible repeat' (first
        | exact h | apply ih | apply writeWindow_keeps | apply spiPut_keeps | split)

theorem spiEnd_keeps {s0 : State} (s : State) (out : List Byte) (err : Bool) (hk : Keeps s0 s) :
    Keeps s0 (spiEnd s out err) := by
  unfold spiEnd
  try dsimp only
  repeat' (first
      | with_reducible assumption | exact id | with_reducible apply State.addSat_keeps
      | with_reducible apply notice_keeps | with_reducible apply State.setHci_keeps | split)

theorem execSpiWrite_keeps {s0 : State} (op : BitVec 8) (addr : BitVec 24) (data : List Byte) (s : State) (hk : Keeps s0 s) :
    OutKeeps s0 (execSpiWrite op addr data s) := by
  unfold execSpiWrite
  try dsimp only
  with_reducible repeat' (first
      | assumption | apply keeps_next | apply spiWriteWords_keeps | apply spiEnd_keeps | split)

theorem spiGet_keeps {s0 : State} (s : State) (a : Nat) (hk : Keeps s0 s) :
    Keeps s0 (spiGet s a).2 := by
  unfold spiGet
  try dsimp only
  with_reducible repeat' (first
      | assumption | apply hostRead_keeps | split)

theorem spiReadWords_keeps {s0 : State} (n : Nat) (s : State) (a k : Nat) (h : Keeps s0 s) :
    Keeps s0 (spiReadWords n s a k).2 := by
  induction n generalizing s a k with
  | zero => exact h
  | succ n ih =>
    unfold spiReadWords
    try dsimp only
    with_reducible repeat' (first
        | exact h | apply ih | apply spiGet_keeps | split)

theorem execSpiRead_keeps {s0 : State} (op : BitVec 8) (addr : BitVec 24) (n : Nat) (s : State) (hk : Keeps s0 s) :
    OutKeeps s0 (execSpiRead op addr n s) := by
  unfold execSpiRead
  try dsimp only
  with_reducible repeat' (first
      | assumption | apply keeps_next | apply spiEnd_keeps | apply spiReadWords_keeps | split)

/-! ### TwoWire -/

theorem State.setTwt_keeps {s0 : State} (s : State) (x : Twt) (hk : Keeps s0 s) :
    Keeps s0 (State.setTwt s x) := by
  unfold State.setTwt
  try dsimp only
  with_reducible repeat' (first
      | assumption | simp only [keeps_mk_iff]
      | (refine keeps_adc ?_ ?_ ?_ ?_ ?_; rotate_left; (all_goals first | rfl | skip)))

theorem flushWord_keeps {s0 : State} (s : State) (buf : List (Nat × Byte)) (hk : Keeps s0 s) :
    Keeps s0 (flushWord s buf) := by
  unfold flushWord
  try dsimp only
  with_reducible repeat' (first
      | assumption | apply hostWrite_keeps | apply writeByte_keeps | apply each_keeps | (intro _) | split)

theorem twtPut_keeps {s0 : State} (ends : Bool) (s : State) (p : Nat) (last buf : List (Nat × Byte)) (bs : List Byte)
    (h : Keeps s0 s) : Keeps s0 (twtPut ends s p last buf bs) := by
  induction bs generalizing s p last buf with
  | nil =>
    unfold twtPut
    split
    · exact flushWord_keeps _ buf (flushWord_keeps s last h)
    · exact h
  | cons b bs ih =>
    unfold twtPut
    try dsimp only
    with_reducible repeat' (first
        | exact h | apply ih | apply State.setTwt_keeps | apply flushWord_keeps | split)

theorem putPage_keeps {s0 : State} (s : State) (bs : List Byte) (h : Keeps s0 s) : Keeps s0 (putPage s bs) := by
  unfold putPage
  try dsimp only
  with_reducible repeat' (first
      | exact h | apply State.set_keeps | split)

theorem twtApply_keeps {s0 : State} (ends : Bool) (s : State) (p : Nat) (bs : List Byte) (hk : Keeps s0 s) :
    Keeps s0 (twtApply ends s p bs) := by
  unfold twtApply
  try dsimp only
  with_reducible repeat' (first
      | assumption | apply State.setTwt_keeps | apply twtPut_keeps | apply putPage_keeps | split)

theorem twtNack_keeps {s0 : State} (s : State) (hk : Keeps s0 s) :
    Keeps s0 (twtNack s) := by
  unfold twtNack
  try dsimp only
  with_reducible repeat' (first
      | assumption | apply State.addSat_keeps)

theorem twtCount_keeps {s0 : State} (s : State) (n m : Nat) (lead : List Byte) (hk : Keeps s0 s) :
    Keeps s0 (twtCount s n m lead) := by
  unfold twtCount
  try dsimp only
  with_reducible repeat' (first
      | assumption | apply State.setTwt_keeps | apply twtNack_keeps | split)

theorem pecError_keeps {s0 : State} (s : State) (hk : Keeps s0 s) :
    Keeps s0 (pecError s) := by
  unfold pecError
  try dsimp only
  with_reducible repeat' (first
      | assumption | apply State.addSat_keeps | apply notice_keeps)

theorem pecWrite_keeps {s0 : State} (s : State) (a : Nat) (data : List Byte) (restart : Bool)
    (app : State → List Byte → State) (h : Keeps s0 s) (ha : ∀ t bs, Keeps s0 t → Keeps s0 (app t bs)) :
    Keeps s0 (pecWrite s a data restart app) := by
  unfold pecWrite
  try dsimp only
  with_reducible repeat' (first
      | exact h | apply ha | apply twtCount_keeps | apply pecError_keeps | split)

theorem mainPut_keeps {s0 : State} (ends : Bool) (s : State) (bs : List Byte) (h : Keeps s0 s) :
    Keeps s0 (mainPut ends s bs) := by
  unfold mainPut
  try dsimp only
  with_reducible repeat' (first
      | exact h | apply twtApply_keeps | split)

theorem mainApply_keeps {s0 : State} (s : State) (bs : List Byte) (h : Keeps s0 s) : Keeps s0 (mainApply s bs) :=
  mainPut_keeps true s bs h

theorem mainCount_keeps {s0 : State} (s : State) (data : List Byte) (hk : Keeps s0 s) :
    Keeps s0 (mainCount s data) := by
  unfold mainCount
  try dsimp only
  with_reducible repeat' (first
      | assumption | apply twtCount_keeps)

theorem execTwtWrite_keeps {s0 : State} (data : List Byte) (restart : Bool) (s : State) (hk : Keeps s0 s) :
    OutKeeps s0 (execTwtWrite data restart s) := by
  unfold execTwtWrite
  try dsimp only
  with_reducible repeat' (first
      | assumption | apply keeps_next | apply pecWrite_keeps | apply mainApply_keeps | apply mainCount_keeps | split)

theorem latchWord_keeps {s0 : State} (s : State) (a : Nat) (hk : Keeps s0 s) :
    Keeps s0 (latchWord s a).2 := by
  unfold latchWord
  try dsimp only
  with_reducible repeat' (first
      | assumption | apply hostRead_keeps | split)

theorem twtGet_keeps {s0 : State} (n : Nat) (s : State) (p : Nat) (l : Option (Nat × Nat)) (h : Keeps s0 s) :
    Keeps s0 (twtGet n s p l).2 := by
  induction n generalizing s p l with
  | zero => exact State.setTwt_keeps s _ h
  | succ n ih =>
    unfold twtGet
    try dsimp only
    with_reducible repeat' (first
        | exact h | apply ih | apply latchWord_keeps | split)

theorem twtData_keeps {s0 : State} (s : State) (n : Nat) (hk : Keeps s0 s) :
    Keeps s0 (twtData s n).2 := by
  unfold twtData
  try dsimp only
  with_reducible repeat' (first
      | assumption | apply twtGet_keeps | split)

theorem twtSent_keeps {s0 : State} (s : State) (bs : List Byte) (hk : Keeps s0 s) :
    Keeps s0 (twtSent s bs) := by
  unfold twtSent
  try dsimp only
  with_reducible repeat' (first
      | assumption | apply State.set_keeps | apply State.setTwt_keeps)

theorem sendRead_keeps {s0 : State} (s : State) (a n : Nat) (data : State → Nat → List Byte × State) (h : Keeps s0 s)
    (hd : ∀ t n, Keeps s0 t → Keeps s0 (data t n).2) : Keeps s0 (sendRead s a n data) := by
  unfold sendRead
  dsimp only
  split
  · exact twtSent_keeps _ _ (hd _ _ (State.set_keeps _ _ _ h))
  · exact twtSent_keeps _ _ (hd _ _ (State.set_keeps _ _ _ h))

theorem execTwtRead_keeps {s0 : State} (n : Nat) (s : State) (hk : Keeps s0 s) : OutKeeps s0 (execTwtRead n s) := by
  unfold execTwtRead
  refine keeps_next ?_
  split
  · exact hk
  · exact sendRead_keeps _ _ _ _ hk fun t n h => twtData_keeps t n h

theorem ktPut_keeps {s0 : State} (s : State) (p : Nat) (b : Byte) (hk : Keeps s0 s) :
    Keeps s0 (ktPut s p b) := by
  unfold ktPut
  try dsimp only
  with_reducible repeat' (first
      | assumption | apply State.addSat_keeps | apply notice_keeps | apply State.setTwt_keeps | split)

theorem ktStep_keeps {s0 : State} (s : State) (b : Byte) (hk : Keeps s0 s) :
    Keeps s0 (ktStep s b) := by
  unfold ktStep
  try dsimp only
  with_reducible repeat' (first
      | assumption | apply State.setTwt_keeps | apply ktPut_keeps)

theorem ktApply_keeps {s0 : State} (s : State) (bs : List Byte) (h : Keeps s0 s) : Keeps s0 (ktApply s bs) := by
  unfold ktApply
  try dsimp only
  with_reducible repeat' (first
      | exact h | apply State.setTwt_keeps | apply ktStep_keeps | apply each_keeps | split)

theorem execKtWindowWrite_keeps {s0 : State} (data : List Byte) (restart : Bool) (s : State) (hk : Keeps s0 s) :
    OutKeeps s0 (execKtWindowWrite data restart s) := by
  unfold execKtWindowWrite
  try dsimp only
  with_reducible repeat' (first
      | assumption | apply keeps_next | apply twtCount_keeps | apply pecWrite_keeps | apply ktApply_keeps | split)

theorem ktData_keeps {s0 : State} (s : State) (n : Nat) (h : Keeps s0 s) : Keeps s0 (ktData s n).2 := by
  induction n with
  | zero => exact h
  | succ n ih => exact State.setTwt_keeps _ _ ih

theorem execKtChHRead_keeps {s0 : State} (n : Nat) (s : State) (hk : Keeps s0 s) : OutKeeps s0 (execKtChHRead n s) := by
  unfold execKtChHRead
  refine keeps_next ?_
  split
  · exact sendRead_keeps _ _ _ _ hk fun t n h => ktData_keeps t n h
  · exact hk

theorem abandoned_keeps {s0 : State} (s : State) (a : Abandoned) (h : Keeps s0 s) : Keeps s0 (abandoned s a) := by
  cases a with
  | idle => exact h
  | write data =>
    unfold abandoned
    dsimp only
    split
    · exact twtCount_keeps _ _ _ _ h
    · exact mainPut_keeps _ _ _ (mainCount_keeps _ _ h)
  | read n => exact sendRead_keeps _ _ _ _ h fun t n h => twtData_keeps t n h
  | ktWrite data =>
    unfold abandoned
    dsimp only
    split
    · exact h
    split
    · exact twtCount_keeps _ _ _ _ h
    · exact ktApply_keeps _ _ (twtCount_keeps _ _ _ _ h)
  | ktRead n =>
    unfold abandoned
    dsimp only
    split
    · exact sendRead_keeps _ _ _ _ h fun t n h => ktData_keeps t n h
    · exact h

theorem execTwtStuck_keeps {s0 : State} (t : Abandoned) (s : State) (hk : Keeps s0 s) :
    OutKeeps s0 (execTwtStuck t s) := by
  unfold execTwtStuck
  try dsimp only
  with_reducible repeat' (first
      | assumption | apply keeps_next | apply State.addSat_keeps | apply raise_keeps | apply State.setTwt_keeps
      | apply abandoned_keeps | split)

end Sys2Proof.Machine
end

