-- ==== Sys2Proof/Laws/KeepsStep.lean ====
section
/-! SUPPORT. `Keeps` of start-up and, with it, every command but `POR`. -/

namespace Sys2Proof.Machine

/-! ### Startup -/

theorem closeAux_keeps {s0 : State} (s : State) (hk : Keeps s0 s) :
    Keeps s0 (closeAux s) := by
  unfold closeAux
  try dsimp only
  with_reducible repeat' (first
      | assumption | apply State.setPath_keeps | apply enterAux_keeps)

theorem toSupply_keeps {s0 : State} (s : State) (hk : Keeps s0 s) :
    Keeps s0 (toSupply s) := by
  unfold toSupply
  try dsimp only
  with_reducible repeat' (first
      | assumption | apply toPhase_keeps | apply State.setSys_keeps | simp only [keeps_mk_iff]
      | (refine keeps_adc ?_ ?_ ?_ ?_ ?_; rotate_left; (all_goals first | rfl | skip)) | split)

theorem execPhaseWaitEnd_keeps {s0 : State} (bkb : Nat) (s : State) (hk : Keeps s0 s) :
    OutKeeps s0 (execPhaseWaitEnd bkb s) := by
  unfold execPhaseWaitEnd
  try dsimp only
  with_reducible repeat' (first
      | assumption | apply keeps_next | apply State.setPath_keeps | apply enterBank_keeps | apply closeAux_keeps
      | apply toSupply_keeps | split)

theorem execPhaseSupplyEnd_keeps {s0 : State} (vio vioVcl : Bool) (s : State) (hk : Keeps s0 s) :
    OutKeeps s0 (execPhaseSupplyEnd vio vioVcl s) := by
  unfold execPhaseSupplyEnd
  try dsimp only
  with_reducible repeat' (first
      | assumption | apply keeps_next | apply toPhase_keeps | apply seeBalls_keeps | split)

theorem aliveFirst_keeps {s0 : State} (s : State) (hk : Keeps s0 s) :
    Keeps s0 (aliveFirst s) := by
  unfold aliveFirst
  try dsimp only
  with_reducible repeat' (first
      | assumption | apply aliveRun_keeps | split)

theorem useVerdict_keeps {s0 : State} (s : State) (v : Verdict) (n : Nat) (hk : Keeps s0 s) :
    Keeps s0 (useVerdict s v n) := by
  unfold useVerdict
  try dsimp only
  with_reducible repeat' (first
      | assumption | apply State.setSys_keeps)

theorem toSelfTest_keeps {s0 : State} (s : State) (hk : Keeps s0 s) :
    Keeps s0 (toSelfTest s) := by
  unfold toSelfTest
  try dsimp only
  with_reducible repeat' (first
      | assumption | apply toPhase_keeps | apply stopUnits_keeps)

theorem execPhaseRomEnd_keeps {s0 : State} (crcOk : Bool) (s : State) (hk : Keeps s0 s) :
    OutKeeps s0 (execPhaseRomEnd crcOk s) := by
  unfold execPhaseRomEnd
  try dsimp only
  with_reducible repeat' (first
      | assumption | apply keeps_next | apply toPhase_keeps | apply State.setSys_keeps | apply aliveFirst_keeps
      | apply useVerdict_keeps | apply toSelfTest_keeps | split)

theorem showVerdict_keeps {s0 : State} (s : State) (words : List Nat) (hk : Keeps s0 s) :
    Keeps s0 (showVerdict s words) := by
  unfold showVerdict
  try dsimp only
  with_reducible repeat' (first
      | assumption | apply State.set_keeps | apply each_keeps | (intro _))

theorem execPhaseBistEnd_keeps {s0 : State} (tests : List BistTest) (s : State) (hk : Keeps s0 s) :
    OutKeeps s0 (execPhaseBistEnd tests s) := by
  unfold execPhaseBistEnd
  try dsimp only
  with_reducible repeat' (first
      | assumption | apply keeps_next | apply State.set_keeps | apply notice_keeps | apply toPhase_keeps
      | apply aliveFirst_keeps | apply useVerdict_keeps | apply showVerdict_keeps | split)

theorem applyEntry_keeps {s0 : State} (s : State) (e : Nat × Nat) (hk : Keeps s0 s) :
    Keeps s0 (applyEntry s e) := by
  unfold applyEntry
  try dsimp only
  with_reducible repeat' (first
      | assumption | apply State.addSat_keeps | apply State.setSys_keeps | apply hostWrite_keeps | split)

theorem applyConfig_keeps {s0 : State} (s : State) (hk : Keeps s0 s) :
    Keeps s0 (applyConfig s) := by
  unfold applyConfig
  try dsimp only
  with_reducible repeat' (first
      | assumption | apply State.set_keeps | apply State.setSys_keeps | apply applyEntry_keeps | apply each_keeps
      | split)

theorem maskKeepers_keeps {s0 : State} (s : State) (hk : Keeps s0 s) :
    Keeps s0 (maskKeepers s) := by
  unfold maskKeepers
  try dsimp only
  with_reducible repeat' (first
      | assumption | apply State.set_keeps)

theorem execPhaseOtpEnd_keeps {s0 : State} (progOk : Bool) (s : State) (hk : Keeps s0 s) :
    OutKeeps s0 (execPhaseOtpEnd progOk s) := by
  unfold execPhaseOtpEnd
  try dsimp only
  with_reducible repeat' (first
      | assumption | apply keeps_next | apply State.set_keeps | apply toPhase_keeps | apply bootOtp_keeps
      | apply applyConfig_keeps | apply maskKeepers_keeps | split)

theorem applyVerdict_keeps {s0 : State} (s : State) (hk : Keeps s0 s) :
    Keeps s0 (applyVerdict s) := by
  unfold applyVerdict
  try dsimp only
  with_reducible repeat' (first
      | assumption | apply State.set_keeps | apply showVerdict_keeps)

theorem applyPhases_keeps {s0 : State} (s : State) (hk : Keeps s0 s) :
    Keeps s0 (applyPhases s) := by
  unfold applyPhases
  try dsimp only
  with_reducible repeat' (first
      | assumption | apply State.set_keeps | apply each_keeps | (intro _) | split)

theorem applySlices_keeps {s0 : State} (s : State) (hk : Keeps s0 s) :
    Keeps s0 (applySlices s) := by
  unfold applySlices
  try dsimp only
  with_reducible repeat' (first
      | assumption | apply State.set_keeps | simp only [keeps_mk_iff]
      | (refine keeps_adc ?_ ?_ ?_ ?_ ?_; rotate_left; (all_goals first | rfl | skip)) | split)

theorem applyLevel_keeps {s0 : State} (s : State) (hk : Keeps s0 s) :
    Keeps s0 (applyLevel s) := by
  unfold applyLevel
  try dsimp only
  with_reducible repeat' (first
      | assumption | apply State.set_keeps | apply raise_keeps | split)

theorem resetRecord_keeps {s0 : State} (s : State) (hk : Keeps s0 s) :
    Keeps s0 (resetRecord s) := by
  unfold resetRecord
  try dsimp only
  with_reducible repeat' (first
      | assumption | apply histWrite_keeps | apply opShow_keeps | apply State.setSys_keeps)

theorem stopAtLatch_keeps {s0 : State} (s : State) (hk : Keeps s0 s) :
    Keeps s0 (stopAtLatch s) := by
  unfold stopAtLatch
  try dsimp only
  with_reducible repeat' (first
      | assumption | apply raise_keeps | apply toPhase_keeps | apply State.setSys_keeps)

theorem execPhaseLevelEnd_keeps {s0 : State} (s : State) (hk : Keeps s0 s) :
    OutKeeps s0 (execPhaseLevelEnd s) := by
  unfold execPhaseLevelEnd
  try dsimp only
  with_reducible repeat' (first
      | assumption | apply keeps_next | apply toPhase_keeps | apply setStored_keeps | apply enableHci_keeps
      | apply applyVerdict_keeps | apply applyPhases_keeps | apply applySlices_keeps | apply applyLevel_keeps
      | apply resetRecord_keeps | apply stopAtLatch_keeps | simp only [keeps_mk_iff]
      | (refine keeps_adc ?_ ?_ ?_ ?_ ?_; rotate_left; (all_goals first | rfl | skip)) | split)

theorem bringUp_keeps {s0 : State} (s : State) (p : Nat → Bool) (h : Keeps s0 s) : Keeps s0 (bringUp s p) := by
  unfold bringUp
  try dsimp only
  with_reducible repeat' (first
      | exact h | apply hostWrite_keeps | apply each_keeps | (intro _))

theorem beginBootImage_keeps {s0 : State} (s : State) (hk : Keeps s0 s) :
    Keeps s0 (beginBootImage s) := by
  unfold beginBootImage
  try dsimp only
  with_reducible repeat' (first
      | assumption | apply opMark_keeps | split)

theorem bringUpImage_keeps {s0 : State} (s : State) (hk : Keeps s0 s) :
    Keeps s0 (bringUpImage s) := by
  unfold bringUpImage
  try dsimp only
  with_reducible repeat' (first
      | assumption | apply endMark_keeps | apply State.setSys_keeps | apply loadBootImage_keeps)

theorem bringUpRing_keeps {s0 : State} (s : State) (hk : Keeps s0 s) :
    Keeps s0 (bringUpRing s) := by
  unfold bringUpRing
  try dsimp only
  with_reducible repeat' (first
      | assumption | apply insertNode_keeps | apply bringUp_keeps)

theorem bringUpEngines_keeps {s0 : State} (s : State) (hk : Keeps s0 s) :
    Keeps s0 (bringUpEngines s) := by
  unfold bringUpEngines
  try dsimp only
  with_reducible repeat' (first
      | assumption | apply enableEngines_keeps | apply bringUp_keeps | split)

/-- Every step of phase 6 keeps what `s0` holds. -/
theorem bringUpStep_keeps {s0 : State} {n l : Nat} {f : State → State} (e : bringUpSteps[n]? = some (l, f)) (s : State)
    (h : Keeps s0 s) : Keeps s0 (f s) := by
  have m := List.mem_of_getElem? e
  simp only [bringUpSteps, List.mem_cons, Prod.mk.injEq, List.not_mem_nil, or_false] at m
  obtain ⟨-, rfl⟩ | ⟨-, rfl⟩ | ⟨-, rfl⟩ | ⟨-, rfl⟩ | ⟨-, rfl⟩ | ⟨-, rfl⟩ | ⟨-, rfl⟩ | ⟨-, rfl⟩ | ⟨-, rfl⟩ := m
  · exact ppCommit_keeps s h
  · exact vdrvSwitch_keeps s _ h
  · exact bringUp_keeps s _ h
  · exact bringUp_keeps s _ h
  · exact beginBootImage_keeps s h
  · exact bringUpImage_keeps s h
  · exact bringUp_keeps s _ h
  · exact bringUpRing_keeps s h
  · exact bringUpEngines_keeps s h

theorem bringUpNext_keeps {s0 : State} (s : State) (h : Keeps s0 s) : Keeps s0 (bringUpNext s) := by
  unfold bringUpNext
  dsimp only
  split
  · exact h
  split
  · split
    · exact bringUpStep_keeps ‹_› _ (State.setSys_keeps _ _ h)
    · exact State.setSys_keeps _ _ h
  · exact h

theorem bringUpAll_keeps {s0 : State} (s : State) (hk : Keeps s0 s) :
    Keeps s0 (bringUpAll s) := by
  unfold bringUpAll
  try dsimp only
  with_reducible repeat' (first
      | assumption | apply bringUpNext_keeps | apply each_keeps | (intro _))

theorem execPhaseBringupEnd_keeps {s0 : State} (s : State) (hk : Keeps s0 s) :
    OutKeeps s0 (execPhaseBringupEnd s) := by
  unfold execPhaseBringupEnd
  try dsimp only
  with_reducible repeat' (first
      | assumption | apply keeps_next | apply notice_keeps | apply toPhase_keeps | apply State.setSys_keeps
      | apply bringUpAll_keeps | split)

theorem romUnit_keeps {s0 : State} (s : State) (hk : Keeps s0 s) :
    Keeps s0 (romUnit s) := by
  unfold romUnit
  try dsimp only
  with_reducible repeat' (first
      | assumption | apply opMark_keeps | apply pdStep_keeps | split)

theorem tick_keeps {s0 : State} (s : State) (hk : Keeps s0 s) :
    Keeps s0 (tick s) := by
  unfold tick
  try dsimp only
  with_reducible repeat' (first
      | assumption | apply opMark_keeps | apply bringUpNext_keeps | apply romUnit_keeps | simp only [keeps_mk_iff]
      | apply later_keeps | split)

/-! ### Dispatch -/

theorem exec_keeps {s0 : State} (i : Instr) (s : State) (hp : i ≠ .por) (h : Keeps s0 s) : OutKeeps s0 (exec i s) :=
  match i with
  | .registerWrite addr value lanes => execRegisterWrite_keeps addr value lanes s h
  | .blockReset unit => execBlockReset_keeps unit s h
  | .blockDrainEnd u => execBlockDrainEnd_keeps u s h
  | .por => (hp rfl).elim
  | .nresetAssert => execNresetAssert_keeps s h
  | .nresetRelease vio vioVcl testEn => execNresetRelease_keeps vio vioVcl testEn s h
  | .xrefLock => execXrefLock_keeps s h
  | .xrefLoss => execXrefLoss_keeps s h
  | .ledgerUpdate => execLedgerUpdate_keeps s h
  | .ledgerDeadline => execLedgerDeadline_keeps s h
  | .debitExpiry => execDebitExpiry_keeps s h
  | .nrgFreeze freeze => execNrgFreeze_keeps freeze s h
  | .vauxLoss cause bkb vsys => execVauxLoss_keeps cause bkb vsys s h
  | .vsysUv vsys => execVsysUv_keeps vsys s h
  | .vauxQualified => execVauxQualified_keeps s h
  | .returnOverlapEnd => execReturnOverlapEnd_keeps s h
  | .pairReverseBlock pair => execPairReverseBlock_keeps pair s h
  | .pairForwardOn pair => execPairForwardOn_keeps pair s h
  | .bankPairFullEnhance => execBankPairFullEnhance_keeps s h
  | .ilimAct => execIlimAct_keeps s h
  | .ilimEnd => execIlimEnd_keeps s h
  | .ilimSoa bkb vsys => execIlimSoa_keeps bkb vsys s h
  | .ppApply => execPpApply_keeps s h
  | .ppClrflt => execPpClrflt_keeps s h
  | .bkbOc => execBkbOc_keeps s h
  | .bankLow bkb => execBankLow_keeps bkb s h
  | .bankCutoff bkb => execBankCutoff_keeps bkb s h
  | .btnPress => execBtnPress_keeps s h
  | .btnRelease held => execBtnRelease_keeps held s h
  | .btnLongWarn held => execBtnLongWarn_keeps held s h
  | .longPress held => execLongPress_keeps held s h
  | .longPressOpenEnd => execLongPressOpenEnd_keeps s h
  | .snowdropWake press => execSnowdropWake_keeps press s h
  | .snowdropEnter => execSnowdropEnter_keeps s h
  | .shutdownTimeout => execShutdownTimeout_keeps s h
  | .chgEnable => execChgEnable_keeps s h
  | .chgDisable => execChgDisable_keeps s h
  | .probeStart => execProbeStart_keeps s h
  | .probeEnd start drop => execProbeEnd_keeps start drop s h
  | .prechargeExit bkb => execPrechargeExit_keeps bkb s h
  | .bankShortDetect bkb => execBankShortDetect_keeps bkb s h
  | .chgCvEntry bkb => execChgCvEntry_keeps bkb s h
  | .chgTermination current => execChgTermination_keeps current s h
  | .topoffEnd => execTopoffEnd_keeps s h
  | .rechargeStart bkb => execRechargeStart_keeps bkb s h
  | .bankRemoval bkb rise current => execBankRemoval_keeps bkb rise current s h
  | .safetyTimerTick actual cv => execSafetyTimerTick_keeps actual cv s h
  | .chgTimeout => execChgTimeout_keeps s h
  | .chgHostSuspend on => execChgHostSuspend_keeps on s h
  | .chgClrflt => execChgClrflt_keeps s h
  | .chgTargetRecompute iVaux iChgIn vsys vBank cv => execChgTargetRecompute_keeps iVaux iChgIn vsys vBank cv s h
  | .chgOv bkb => execChgOv_keeps bkb s h
  | .chgDeadline => execChgDeadline_keeps s h
  | .railonVerdict rail vin start => execRailonVerdict_keeps rail vin start s h
  | .loopSwitchingStart n => execLoopSwitchingStart_keeps n s h
  | .loopRampEnd n => execLoopRampEnd_keeps n s h
  | .loopPeriodStart n vsns => execLoopPeriodStart_keeps n vsns s h
  | .compDeadline n => execCompDeadline_keeps n s h
  | .phaseTurnOn k => execPhaseTurnOn_keeps k s h
  | .phaseTurnOff k vOn vOff ton ended => execPhaseTurnOff_keeps k vOn vOff ton ended s h
  | .negativeCurrentLimit k v => execNegativeCurrentLimit_keeps k v s h
  | .ostStart n vsns => execOstStart_keeps n vsns s h
  | .ostRelease n vsns => execOstRelease_keeps n vsns s h
  | .ostTimeout n => execOstTimeout_keeps n s h
  | .loopEstimateWindow n => execLoopEstimateWindow_keeps n s h
  | .vclSetv p rack tag vid slew => execVclSetv_keeps p rack tag vid slew s h
  | .vclSetslew p rack tag slew unused => execVclSetslew_keeps p rack tag slew unused s h
  | .vclPstate p rack tag q unused => execVclPstate_keeps p rack tag q unused s h
  | .vclGetv p rack tag unused vsns => execVclGetv_keeps p rack tag unused vsns s h
  | .vclGeti p rack tag unused => execVclGeti_keeps p rack tag unused s h
  | .vclBadCmd p rack tag => execVclBadCmd_keeps p rack tag s h
  | .vclCrcError p => execVclCrcError_keeps p s h
  | .vclStall p late => execVclStall_keeps p late s h
  | .vclDeadline p => execVclDeadline_keeps p s h
  | .vclPortEnable p => execVclPortEnable_keeps p s h
  | .vclPortDisable p => execVclPortDisable_keeps p s h
  | .vclHold p hold => execVclHold_keeps p hold s h
  | .outputStartEnd rail => execOutputStartEnd_keeps rail s h
  | .bkIlim n => execBkIlim_keeps n s h
  | .ldoSwIlim rail => execLdoSwIlim_keeps rail s h
  | .outputShort rail => execOutputShort_keeps rail s h
  | .outputClrflt rail => execOutputClrflt_keeps rail s h
  | .bkVinUv n => execBkVinUv_keeps n s h
  | .bkVinRestore n start => execBkVinRestore_keeps n start s h
  | .dischargeEnd rail => execDischargeEnd_keeps rail s h
  | .resetDischargeEnd measured => execResetDischargeEnd_keeps measured s h
  | .vdrvUv => execVdrvUv_keeps s h
  | .vdrvHiccup => execVdrvHiccup_keeps s h
  | .vdrvRestart => execVdrvRestart_keeps s h
  | .supSample n uv => execSupSample_keeps n uv s h
  | .supSettleEnd n => execSupSettleEnd_keeps n s h
  | .supTrackRefresh n => execSupTrackRefresh_keeps n s h
  | .supEnable n => execSupEnable_keeps n s h
  | .supDisable n => execSupDisable_keeps n s h
  | .supSelfCheck pass freeFail => execSupSelfCheck_keeps pass freeFail s h
  | .cmpSelfCheck k pass => execCmpSelfCheck_keeps k pass s h
  | .railon iss rail wd => execRailon_keeps iss rail wd s h
  | .railonAfterDrain e => execRailonAfterDrain_keeps e s h
  | .railoff iss rail => execRailoff_keeps iss rail s h
  | .setv iss rail src wd => execSetv_keeps iss rail src wd s h
  | .setslew iss rail slew wd => execSetslew_keeps iss rail slew wd s h
  | .phases iss rail ws wd => execPhases_keeps iss rail ws wd s h
  | .waitpg iss ch deadline => execWaitpg_keeps iss ch deadline s h
  | .waitt iss duration slack => execWaitt_keeps iss duration slack s h
  | .waittReady e t => execWaittReady_keeps e t s h
  | .waitev iss src l deadline => execWaitev_keeps iss src l deadline s h
  | .waitstep iss n deadline => execWaitstep_keeps iss n deadline s h
  | .waitDeadline e t => execWaitDeadline_keeps e t s h
  | .claim iss id deadline => execClaim_keeps iss id deadline s h
  | .claimDeadline e t => execClaimDeadline_keeps e t s h
  | .release iss id => execRelease_keeps iss id s h
  | .reclaim iss id ws => execReclaim_keeps iss id ws s h
  | .step iss n => execStep_keeps iss n s h
  | .stepAbort iss n => execStepAbort_keeps iss n s h
  | .rdadc iss wd ch => execRdadc_keeps iss wd ch s h
  | .rdadcUrgent iss wd ch => execRdadcUrgent_keeps iss wd ch s h
  | .rdsup iss wd ch => execRdsup_keeps iss wd ch s h
  | .movReg iss wd ws => execMovReg_keeps iss wd ws s h
  | .movImm iss wd imm => execMovImm_keeps iss wd imm s h
  | .movConst iss wd k read => execMovConst_keeps iss wd k read s h
  | .add iss wd ws src => execAdd_keeps iss wd ws src s h
  | .sub iss wd ws src => execSub_keeps iss wd ws src s h
  | .and iss wd ws src => execAnd_keeps iss wd ws src s h
  | .or iss wd ws src => execOr_keeps iss wd ws src s h
  | .cmp iss ws src => execCmp_keeps iss ws src s h
  | .shr iss wd ws src => execShr_keeps iss wd ws src s h
  | .jmp iss target => execJmp_keeps iss target s h
  | .bcc iss cond target => execBcc_keeps iss cond target s h
  | .call iss target => execCall_keeps iss target s h
  | .ret iss => execRet_keeps iss s h
  | .task iss t prio cls entry => execTask_keeps iss t prio cls entry s h
  | .yield iss => execYield_keeps iss s h
  | .engineIdleWake e => execEngineIdleWake_keeps e s h
  | .runDeadline e => execRunDeadline_keeps e s h
  | .raise iss code => execRaise_keeps iss code s h
  | .log iss code ws => execLog_keeps iss code ws s h
  | .snap iss code => execSnap_keeps iss code s h
  | .raisePop e => execRaisePop_keeps e s h
  | .camEnable e => execCamEnable_keeps e s h
  | .camDisable e => execCamDisable_keeps e s h
  | .romRailOffStep => execRomRailOffStep_keeps s h
  | .ringEnable => execRingEnable_keeps s h
  | .ringInsert => execRingInsert_keeps s h
  | .ringMasterStart afterLoss => execRingMasterStart_keeps afterLoss s h
  | .ringLeave => execRingLeave_keeps s h
  | .mstepAdvance => execMstepAdvance_keeps s h
  | .holdRetake => execHoldRetake_keeps s h
  | .ringCycle => execRingCycle_keeps s h
  | .ringStateFrame f => execRingStateFrame_keeps f s h
  | .ringEnumFrame offered taken clr => execRingEnumFrame_keeps offered taken clr s h
  | .ringEnumReturn offered taken clr => execRingEnumReturn_keeps offered taken clr s h
  | .abortHoldWaitEnd => execAbortHoldWaitEnd_keeps s h
  | .ringAbortFrame target node seq => execRingAbortFrame_keeps target node seq s h
  | .ringPollFrame holders group bits => execRingPollFrame_keeps holders group bits s h
  | .ringPollReturn holders group bits => execRingPollReturn_keeps holders group bits s h
  | .ringNodeLostFrame addr => execRingNodeLostFrame_keeps addr s h
  | .ringIsolateFrame addr => execRingIsolateFrame_keeps addr s h
  | .ringFrameCrcError body => execRingFrameCrcError_keeps body s h
  | .ringFrameResend => execRingFrameResend_keeps s h
  | .ringSilent => execRingSilent_keeps s h
  | .ringOpen => execRingOpen_keeps s h
  | .mstepDeadline line => execMstepDeadline_keeps line s h
  | .mstepStuck line => execMstepStuck_keeps line s h
  | .mngCmdAbort arg => execMngCmdAbort_keeps arg s h
  | .mngCmdIsolate arg => execMngCmdIsolate_keeps arg s h
  | .mngCmdPoll => execMngCmdPoll_keeps s h
  | .phaseWaitEnd bkb => execPhaseWaitEnd_keeps bkb s h
  | .phaseSupplyEnd vio vioVcl => execPhaseSupplyEnd_keeps vio vioVcl s h
  | .phaseRomEnd crcOk => execPhaseRomEnd_keeps crcOk s h
  | .phaseBistEnd tests => execPhaseBistEnd_keeps tests s h
  | .phaseOtpEnd progOk => execPhaseOtpEnd_keeps progOk s h
  | .phaseLevelEnd => execPhaseLevelEnd_keeps s h
  | .phaseBringupEnd => execPhaseBringupEnd_keeps s h
  | .sysShutdown => execSysShutdown_keeps s h
  | .sysOrderly => execSysOrderly_keeps s h
  | .sysImmediate => execSysImmediate_keeps s h
  | .sysRestart => execSysRestart_keeps s h
  | .sysStandby => execSysStandby_keeps s h
  | .standbyWake cause ticks => execStandbyWake_keeps cause ticks s h
  | .pdTmax => execPdTmax_keeps s h
  | .pdEnginesDrained => execPdEnginesDrained_keeps s h
  | .pdDischargeWaitEnd above => execPdDischargeWaitEnd_keeps above s h
  | .shutdownBistDone tests => execShutdownBistDone_keeps tests s h
  | .adcSliceEnable k => execAdcSliceEnable_keeps k s h
  | .adcSliceDisable k => execAdcSliceDisable_keeps k s h
  | .adcEntryDone e => execAdcEntryDone_keeps e s h
  | .adcSeqPeriod k => execAdcSeqPeriod_keeps k s h
  | .hkRoundStart iVaux iBank iChgIn => execHkRoundStart_keeps iVaux iBank iChgIn s h
  | .hkRoundComplete iVaux iBank iChgIn => execHkRoundComplete_keeps iVaux iBank iChgIn s h
  | .hkDeadline => execHkDeadline_keeps s h
  | .urgentConversionDone reading => execUrgentConversionDone_keeps reading s h
  | .adcBurstGo => execAdcBurstGo_keeps s h
  | .burstEnd converged limit => execBurstEnd_keeps converged limit s h
  | .captureEnable => execCaptureEnable_keeps s h
  | .adcCtrlSnap => execAdcCtrlSnap_keeps s h
  | .snapshotFreeze samples => execSnapshotFreeze_keeps samples s h
  | .snapshotDigestDone => execSnapshotDigestDone_keeps s h
  | .snapshotRelease => execSnapshotRelease_keeps s h
  | .adcClrcnt => execAdcClrcnt_keeps s h
  | .mismClr => execMismClr_keeps s h
  | .wearDay => execWearDay_keeps s h
  | .injectionDue => execInjectionDue_keeps s h
  | .injectionStart => execInjectionStart_keeps s h
  | .injectionDone codes converged limit => execInjectionDone_keeps codes converged limit s h
  | .injAbort => execInjAbort_keeps s h
  | .bankRest bkb => execBankRest_keeps bkb s h
  | .ageingCount stressed unstressed => execAgeingCount_keeps stressed unstressed s h
  | .thermalShutdown n => execThermalShutdown_keeps n s h
  | .recordClose => execRecordClose_keeps s h
  | .keeperHang => execKeeperHang_keeps s h
  | .fltStatusClear q bits => execFltStatusClear_keeps q bits s h
  | .aliveResume => execAliveResume_keeps s h
  | .fltMarkread => execFltMarkread_keeps s h
  | .testEntry => execTestEntry_keeps s h
  | .faultInjection line cls => execFaultInjection_keeps line cls s h
  | .sysTimeLoRead => execSysTimeLoRead_keeps s h
  | .idSerialLoRead => execIdSerialLoRead_keeps s h
  | .adcUrgreqRead => execAdcUrgreqRead_keeps s h
  | .fltHwrRead => execFltHwrRead_keeps s h
  | .fltLwrRead => execFltLwrRead_keeps s h
  | .fltRec0Read => execFltRec0Read_keeps s h
  | .hciCredit0Read => execHciCredit0Read_keeps s h
  | .ktChHRead n => execKtChHRead_keeps n s h
  | .intcRequestChange src => execIntcRequestChange_keeps src s h
  | .intcClaim t => execIntcClaim_keeps t s h
  | .intcComplete t id => execIntcComplete_keeps t id s h
  | .intcDbellSet => execIntcDbellSet_keeps s h
  | .intcDbellClr => execIntcDbellClr_keeps s h
  | .spiWrite op addr data => execSpiWrite_keeps op addr data s h
  | .spiRead op addr n => execSpiRead_keeps op addr n s h
  | .hciDoorbell queue slot => execHciDoorbell_keeps queue slot s h
  | .hciCqHeadWrite head => execHciCqHeadWrite_keeps head s h
  | .commandStart lane => execCommandStart_keeps lane s h
  | .commandComplete k => execCommandComplete_keeps k s h
  | .moderationTimer => execModerationTimer_keeps s h
  | .cmdDeadline k => execCmdDeadline_keeps k s h
  | .hciEnable => execHciEnable_keeps s h
  | .hciDisable => execHciDisable_keeps s h
  | .nop k => execNop_keeps k s h
  | .getInfo k => execGetInfo_keeps k s h
  | .doorbell k => execDoorbell_keeps k s h
  | .cancel k => execCancel_keeps k s h
  | .imgLoad k => execImgLoad_keeps k s h
  | .adcConvert k => execAdcConvert_keeps k s h
  | .snapshotCmdTrigger k => execSnapshotCmdTrigger_keeps k s h
  | .snapshotCmdRelease k => execSnapshotCmdRelease_keeps k s h
  | .attest k => execAttest_keeps k s h
  | .getCert k => execGetCert_keeps k s h
  | .wearExport k => execWearExport_keeps k s h
  | .wearImport k => execWearImport_keeps k s h
  | .otpRead k => execOtpRead_keeps k s h
  | .otpCommit k => execOtpCommit_keeps k s h
  | .otpWordProgramDone ok weak => execOtpWordProgramDone_keeps ok weak s h
  | .rawProgramWord => execRawProgramWord_keeps s h
  | .rawVoidWord => execRawVoidWord_keeps s h
  | .rawBlowLock => execRawBlowLock_keeps s h
  | .keygen => execKeygen_keeps s h
  | .twtWrite data restart => execTwtWrite_keeps data restart s h
  | .twtRead n => execTwtRead_keeps n s h
  | .twtStuck t => execTwtStuck_keeps t s h
  | .ktWindowWrite data restart => execKtWindowWrite_keeps data restart s h
  | .twcEnable => execTwcEnable_keeps s h
  | .twcDisable => execTwcDisable_keeps s h
  | .twcTransfer => execTwcTransfer_keeps s h
  | .twcTransferEnd e wdone data => execTwcTransferEnd_keeps e wdone data s h
  | .twcArbLost wdone data => execTwcArbLost_keeps wdone data s h
  | .twcBusFree e => execTwcBusFree_keeps e s h
  | .twcBusRecover r => execTwcBusRecover_keeps r s h
  | .twcSclTimeout wdone data => execTwcSclTimeout_keeps wdone data s h
  | .twcPollEntryEnd e data => execTwcPollEntryEnd_keeps e data s h
  | .porRelease straps vaux vio vioVcl testEn => execPorRelease_keeps straps vaux vio vioVcl testEn s h
  | .vauxRise => execVauxRise_keeps s h
  | .vdrvPowerGood good => execVdrvPowerGood_keeps good s h
  | .vdrvIlim active => execVdrvIlim_keeps active s h
  | .aon18Ilim active => execAon18Ilim_keeps active s h
  | .bkIlimEnd n => execBkIlimEnd_keeps n s h
  | .ldoSwIlimEnd rail => execLdoSwIlimEnd_keeps rail s h

end Sys2Proof.Machine
end

