-- ==== Sys2Proof/WellFormed.lean ====
section
/-! DEFINITION. Which commands are well formed: the bounds of their operands that the types do not give. -/

namespace Sys2Proof

/-- The rail is a BK, an LDO or a SW. -/
def isIntegrated : Rail → Bool
  | .lp _ => false
  | .bk _ => true
  | .ldo _ => true
  | .sw _ => true

/-- The rail is an LDO or a SW. -/
def isLdoOrSw : Rail → Bool
  | .lp _ => false
  | .bk _ => false
  | .ldo _ => true
  | .sw _ => true

/-- Target `t` claims: K0, K1, HIRQ0 or HIRQ1 (R407). -/
def claims (t : Fin 8) : Bool := decide (t.val ≤ 1) || decide (6 ≤ t.val)

/-- The transfer buffer holds what a transfer of the controller port moved: at most 32 bytes each way (R467). -/
def transferWf (wdone : BitVec 6) (data : List Byte) : Bool := decide (wdone.toNat ≤ 32) && decide (data.length ≤ 32)

/-- The bytes of the controller port's drain are within its buffer. -/
def drainWf : DrainUnit → Bool
  | .twc wdone data => transferWf wdone data
  | .rail _ => true
  | .engine _ => true
  | .vclPort _ => true
  | .adcSlice _ => true
  | .charger => true
  | .hci => true
  | .ring => true
  | .sup _ => true

/-- A base-list result names a channel of the base list (R331); those with a formula of their own in Table 12.1 are the
two forms beside it. -/
def entryWf : AdcEntry → Bool
  | .base ch _ =>
    (decide (0x0C ≤ ch.toNat) && decide (ch.toNat ≤ 0x19)) || (decide (0x1E ≤ ch.toNat) && decide (ch.toNat ≤ 0x25))
  | .seq _ _ => true
  | .ntc _ _ => true
  | .tmon _ _ => true
  | .capture _ => true

/-- The command is well formed. -/
def Instr.wf : Instr → Bool
  | .registerWrite addr _ _ => decide (addr.toNat % 4 = 0)
  | .blockReset _ => true
  | .blockDrainEnd u => drainWf u
  | .por => true
  | .nresetAssert => true
  | .nresetRelease _ _ _ => true
  | .xrefLock => true
  | .xrefLoss => true
  | .ledgerUpdate => true
  | .ledgerDeadline => true
  | .debitExpiry => true
  | .nrgFreeze _ => true
  | .vauxLoss _ _ _ => true
  | .vsysUv _ => true
  | .vauxQualified => true
  | .returnOverlapEnd => true
  | .pairReverseBlock _ => true
  | .pairForwardOn _ => true
  | .bankPairFullEnhance => true
  | .ilimAct => true
  | .ilimEnd => true
  | .ilimSoa _ _ => true
  | .ppApply => true
  | .ppClrflt => true
  | .bkbOc => true
  | .bankLow _ => true
  | .bankCutoff _ => true
  | .btnPress => true
  | .btnRelease _ => true
  | .btnLongWarn _ => true
  | .longPress _ => true
  | .longPressOpenEnd => true
  | .snowdropWake _ => true
  | .snowdropEnter => true
  | .shutdownTimeout => true
  | .chgEnable => true
  | .chgDisable => true
  | .probeStart => true
  | .probeEnd _ _ => true
  | .prechargeExit _ => true
  | .bankShortDetect _ => true
  | .chgCvEntry _ => true
  | .chgTermination _ => true
  | .topoffEnd => true
  | .rechargeStart _ => true
  | .bankRemoval _ _ _ => true
  | .safetyTimerTick _ _ => true
  | .chgTimeout => true
  | .chgHostSuspend _ => true
  | .chgClrflt => true
  | .chgTargetRecompute _ _ _ _ _ => true
  | .chgOv _ => true
  | .chgDeadline => true
  | .railonVerdict _ _ _ => true
  | .loopSwitchingStart _ => true
  | .loopRampEnd _ => true
  | .loopPeriodStart _ _ => true
  | .compDeadline _ => true
  | .phaseTurnOn _ => true
  | .phaseTurnOff _ _ _ _ _ => true
  | .negativeCurrentLimit _ _ => true
  | .ostStart _ _ => true
  | .ostRelease _ _ => true
  | .ostTimeout _ => true
  | .loopEstimateWindow _ => true
  | .vclSetv _ _ _ _ _ => true
  | .vclSetslew _ _ _ _ _ => true
  | .vclPstate _ _ _ _ _ => true
  | .vclGetv _ _ _ _ _ => true
  | .vclGeti _ _ _ _ => true
  | .vclBadCmd _ _ _ => true
  | .vclCrcError _ => true
  | .vclStall _ _ => true
  | .vclDeadline _ => true
  | .vclPortEnable _ => true
  | .vclPortDisable _ => true
  | .vclHold _ _ => true
  | .outputStartEnd rail => isIntegrated rail
  | .bkIlim _ => true
  | .ldoSwIlim rail => isLdoOrSw rail
  | .outputShort rail => isIntegrated rail
  | .outputClrflt rail => isIntegrated rail
  | .bkVinUv _ => true
  | .bkVinRestore _ _ => true
  | .dischargeEnd rail => isIntegrated rail
  | .resetDischargeEnd _ => true
  | .vdrvUv => true
  | .vdrvHiccup => true
  | .vdrvRestart => true
  | .supSample _ _ => true
  | .supSettleEnd _ => true
  | .supTrackRefresh _ => true
  | .supEnable _ => true
  | .supDisable _ => true
  | .supSelfCheck _ _ => true
  | .cmpSelfCheck _ _ => true
  | .railon _ _ _ => true
  | .railonAfterDrain _ => true
  | .railoff _ _ => true
  | .setv _ _ _ _ => true
  | .setslew _ _ _ _ => true
  | .phases _ _ _ _ => true
  | .waitpg _ _ _ => true
  | .waitt _ _ _ => true
  | .waittReady _ _ => true
  | .waitev _ _ _ _ => true
  | .waitstep _ _ _ => true
  | .waitDeadline _ _ => true
  | .claim _ _ _ => true
  | .claimDeadline _ _ => true
  | .release _ _ => true
  | .reclaim _ _ _ => true
  | .step _ _ => true
  | .stepAbort _ _ => true
  | .rdadc _ _ _ => true
  | .rdadcUrgent _ _ _ => true
  | .rdsup _ _ _ => true
  | .movReg _ _ _ => true
  | .movImm _ _ _ => true
  | .movConst _ _ _ _ => true
  | .add _ _ _ _ => true
  | .sub _ _ _ _ => true
  | .and _ _ _ _ => true
  | .or _ _ _ _ => true
  | .cmp _ _ _ => true
  | .shr _ _ _ _ => true
  | .jmp _ _ => true
  | .bcc _ _ _ => true
  | .call _ _ => true
  | .ret _ => true
  | .task _ _ _ _ _ => true
  | .yield _ => true
  | .engineIdleWake _ => true
  | .runDeadline _ => true
  | .raise _ _ => true
  | .log _ _ _ => true
  | .snap _ _ => true
  | .raisePop _ => true
  | .camEnable _ => true
  | .camDisable _ => true
  | .romRailOffStep => true
  | .ringEnable => true
  | .ringInsert => true
  | .ringMasterStart _ => true
  | .ringLeave => true
  | .mstepAdvance => true
  | .holdRetake => true
  | .ringCycle => true
  | .ringStateFrame _ => true
  | .ringEnumFrame _ _ _ => true
  | .ringEnumReturn _ _ _ => true
  | .abortHoldWaitEnd => true
  | .ringAbortFrame _ _ _ => true
  | .ringPollFrame _ _ _ => true
  | .ringPollReturn _ _ _ => true
  | .ringNodeLostFrame _ => true
  | .ringIsolateFrame _ => true
  | .ringFrameCrcError _ => true
  | .ringFrameResend => true
  | .ringSilent => true
  | .ringOpen => true
  | .mstepDeadline _ => true
  | .mstepStuck _ => true
  | .mngCmdAbort _ => true
  | .mngCmdIsolate _ => true
  | .mngCmdPoll => true
  | .phaseWaitEnd _ => true
  | .phaseSupplyEnd _ _ => true
  | .phaseRomEnd _ => true
  | .phaseBistEnd _ => true
  | .phaseOtpEnd _ => true
  | .phaseLevelEnd => true
  | .phaseBringupEnd => true
  | .sysShutdown => true
  | .sysOrderly => true
  | .sysImmediate => true
  | .sysRestart => true
  | .sysStandby => true
  | .standbyWake _ _ => true
  | .pdTmax => true
  | .pdEnginesDrained => true
  | .pdDischargeWaitEnd _ => true
  | .shutdownBistDone _ => true
  | .adcSliceEnable _ => true
  | .adcSliceDisable _ => true
  | .adcEntryDone e => entryWf e
  | .adcSeqPeriod _ => true
  | .hkRoundStart _ _ _ => true
  | .hkRoundComplete _ _ _ => true
  | .hkDeadline => true
  | .urgentConversionDone _ => true
  | .adcBurstGo => true
  | .burstEnd _ _ => true
  | .captureEnable => true
  | .adcCtrlSnap => true
  | .snapshotFreeze samples => decide (samples.length ≤ 32768)
  | .snapshotDigestDone => true
  | .snapshotRelease => true
  | .adcClrcnt => true
  | .mismClr => true
  | .wearDay => true
  | .injectionDue => true
  | .injectionStart => true
  | .injectionDone _ _ _ => true
  | .injAbort => true
  | .bankRest _ => true
  | .ageingCount _ _ => true
  | .thermalShutdown _ => true
  | .recordClose => true
  | .keeperHang => true
  | .fltStatusClear _ _ => true
  | .aliveResume => true
  | .fltMarkread => true
  | .testEntry => true
  | .faultInjection _ _ => true
  | .sysTimeLoRead => true
  | .idSerialLoRead => true
  | .adcUrgreqRead => true
  | .fltHwrRead => true
  | .fltLwrRead => true
  | .fltRec0Read => true
  | .hciCredit0Read => true
  | .ktChHRead _ => true
  | .intcRequestChange src => decide (1 ≤ src.toNat) && decide (src.toNat ≤ 256)
  | .intcClaim t => claims t
  | .intcComplete t _ => claims t
  | .intcDbellSet => true
  | .intcDbellClr => true
  | .spiWrite _ _ _ => true
  | .spiRead _ _ _ => true
  | .hciDoorbell _ _ => true
  | .hciCqHeadWrite _ => true
  | .commandStart _ => true
  | .commandComplete _ => true
  | .moderationTimer => true
  | .cmdDeadline _ => true
  | .hciEnable => true
  | .hciDisable => true
  | .nop _ => true
  | .getInfo _ => true
  | .doorbell _ => true
  | .cancel _ => true
  | .imgLoad _ => true
  | .adcConvert _ => true
  | .snapshotCmdTrigger _ => true
  | .snapshotCmdRelease _ => true
  | .attest _ => true
  | .getCert _ => true
  | .wearExport _ => true
  | .wearImport _ => true
  | .otpRead _ => true
  | .otpCommit _ => true
  | .otpWordProgramDone _ _ => true
  | .rawProgramWord => true
  | .rawVoidWord => true
  | .rawBlowLock => true
  | .keygen => true
  | .twtWrite _ _ => true
  | .twtRead _ => true
  | .twtStuck _ => true
  | .ktWindowWrite _ _ => true
  | .twcEnable => true
  | .twcDisable => true
  | .twcTransfer => true
  | .twcTransferEnd _ wdone data => transferWf wdone data
  | .twcArbLost wdone data => transferWf wdone data
  | .twcBusFree _ => true
  | .twcBusRecover _ => true
  | .twcSclTimeout wdone data => transferWf wdone data
  | .twcPollEntryEnd _ data => decide (data.length ≤ 32)
  | .porRelease _ _ _ _ _ => true
  | .vauxRise => true
  | .vdrvPowerGood _ => true
  | .vdrvIlim _ => true
  | .aon18Ilim _ => true
  | .bkIlimEnd _ => true
  | .ldoSwIlimEnd rail => isLdoOrSw rail

end Sys2Proof
end

