-- ==== Sys2Proof/Laws/PerInstr.lean ====
section
/-! SUPPORT. What holds of every command as syntax, one lemma for each constructor: a Camast instruction, which has a
word of Table 7.3, is well formed with every operand that its encoding admits. -/

namespace Sys2Proof.Laws.Commands

open Sys2Proof Sys2Proof.Machine

/-- A command that has a word of Table 7.3 is well formed. -/
def Statement (c : Instr) : Prop := camastWord c ≠ none → c.wf = true

theorem registerWrite a0 a1 a2 : Statement (.registerWrite a0 a1 a2) := fun h => absurd rfl h
theorem blockReset a0 : Statement (.blockReset a0) := fun h => absurd rfl h
theorem blockDrainEnd a0 : Statement (.blockDrainEnd a0) := fun h => absurd rfl h
theorem por : Statement (.por) := fun h => absurd rfl h
theorem nresetAssert : Statement (.nresetAssert) := fun h => absurd rfl h
theorem nresetRelease a0 a1 a2 : Statement (.nresetRelease a0 a1 a2) := fun h => absurd rfl h
theorem xrefLock : Statement (.xrefLock) := fun h => absurd rfl h
theorem xrefLoss : Statement (.xrefLoss) := fun h => absurd rfl h
theorem ledgerUpdate : Statement (.ledgerUpdate) := fun h => absurd rfl h
theorem ledgerDeadline : Statement (.ledgerDeadline) := fun h => absurd rfl h
theorem debitExpiry : Statement (.debitExpiry) := fun h => absurd rfl h
theorem nrgFreeze a0 : Statement (.nrgFreeze a0) := fun h => absurd rfl h
theorem vauxLoss a0 a1 a2 : Statement (.vauxLoss a0 a1 a2) := fun h => absurd rfl h
theorem vsysUv a0 : Statement (.vsysUv a0) := fun h => absurd rfl h
theorem vauxQualified : Statement (.vauxQualified) := fun h => absurd rfl h
theorem returnOverlapEnd : Statement (.returnOverlapEnd) := fun h => absurd rfl h
theorem pairReverseBlock a0 : Statement (.pairReverseBlock a0) := fun h => absurd rfl h
theorem pairForwardOn a0 : Statement (.pairForwardOn a0) := fun h => absurd rfl h
theorem bankPairFullEnhance : Statement (.bankPairFullEnhance) := fun h => absurd rfl h
theorem ilimAct : Statement (.ilimAct) := fun h => absurd rfl h
theorem ilimEnd : Statement (.ilimEnd) := fun h => absurd rfl h
theorem ilimSoa a0 a1 : Statement (.ilimSoa a0 a1) := fun h => absurd rfl h
theorem ppApply : Statement (.ppApply) := fun h => absurd rfl h
theorem ppClrflt : Statement (.ppClrflt) := fun h => absurd rfl h
theorem bkbOc : Statement (.bkbOc) := fun h => absurd rfl h
theorem bankLow a0 : Statement (.bankLow a0) := fun h => absurd rfl h
theorem bankCutoff a0 : Statement (.bankCutoff a0) := fun h => absurd rfl h
theorem btnPress : Statement (.btnPress) := fun h => absurd rfl h
theorem btnRelease a0 : Statement (.btnRelease a0) := fun h => absurd rfl h
theorem btnLongWarn a0 : Statement (.btnLongWarn a0) := fun h => absurd rfl h
theorem longPress a0 : Statement (.longPress a0) := fun h => absurd rfl h
theorem longPressOpenEnd : Statement (.longPressOpenEnd) := fun h => absurd rfl h
theorem snowdropWake a0 : Statement (.snowdropWake a0) := fun h => absurd rfl h
theorem snowdropEnter : Statement (.snowdropEnter) := fun h => absurd rfl h
theorem shutdownTimeout : Statement (.shutdownTimeout) := fun h => absurd rfl h
theorem chgEnable : Statement (.chgEnable) := fun h => absurd rfl h
theorem chgDisable : Statement (.chgDisable) := fun h => absurd rfl h
theorem probeStart : Statement (.probeStart) := fun h => absurd rfl h
theorem probeEnd a0 a1 : Statement (.probeEnd a0 a1) := fun h => absurd rfl h
theorem prechargeExit a0 : Statement (.prechargeExit a0) := fun h => absurd rfl h
theorem bankShortDetect a0 : Statement (.bankShortDetect a0) := fun h => absurd rfl h
theorem chgCvEntry a0 : Statement (.chgCvEntry a0) := fun h => absurd rfl h
theorem chgTermination a0 : Statement (.chgTermination a0) := fun h => absurd rfl h
theorem topoffEnd : Statement (.topoffEnd) := fun h => absurd rfl h
theorem rechargeStart a0 : Statement (.rechargeStart a0) := fun h => absurd rfl h
theorem bankRemoval a0 a1 a2 : Statement (.bankRemoval a0 a1 a2) := fun h => absurd rfl h
theorem safetyTimerTick a0 a1 : Statement (.safetyTimerTick a0 a1) := fun h => absurd rfl h
theorem chgTimeout : Statement (.chgTimeout) := fun h => absurd rfl h
theorem chgHostSuspend a0 : Statement (.chgHostSuspend a0) := fun h => absurd rfl h
theorem chgClrflt : Statement (.chgClrflt) := fun h => absurd rfl h
theorem chgTargetRecompute a0 a1 a2 a3 a4 : Statement (.chgTargetRecompute a0 a1 a2 a3 a4) := fun h => absurd rfl h
theorem chgOv a0 : Statement (.chgOv a0) := fun h => absurd rfl h
theorem chgDeadline : Statement (.chgDeadline) := fun h => absurd rfl h
theorem railonVerdict a0 a1 a2 : Statement (.railonVerdict a0 a1 a2) := fun h => absurd rfl h
theorem loopSwitchingStart a0 : Statement (.loopSwitchingStart a0) := fun h => absurd rfl h
theorem loopRampEnd a0 : Statement (.loopRampEnd a0) := fun h => absurd rfl h
theorem loopPeriodStart a0 a1 : Statement (.loopPeriodStart a0 a1) := fun h => absurd rfl h
theorem compDeadline a0 : Statement (.compDeadline a0) := fun h => absurd rfl h
theorem phaseTurnOn a0 : Statement (.phaseTurnOn a0) := fun h => absurd rfl h
theorem phaseTurnOff a0 a1 a2 a3 a4 : Statement (.phaseTurnOff a0 a1 a2 a3 a4) := fun h => absurd rfl h
theorem negativeCurrentLimit a0 a1 : Statement (.negativeCurrentLimit a0 a1) := fun h => absurd rfl h
theorem ostStart a0 a1 : Statement (.ostStart a0 a1) := fun h => absurd rfl h
theorem ostRelease a0 a1 : Statement (.ostRelease a0 a1) := fun h => absurd rfl h
theorem ostTimeout a0 : Statement (.ostTimeout a0) := fun h => absurd rfl h
theorem loopEstimateWindow a0 : Statement (.loopEstimateWindow a0) := fun h => absurd rfl h
theorem vclSetv a0 a1 a2 a3 a4 : Statement (.vclSetv a0 a1 a2 a3 a4) := fun h => absurd rfl h
theorem vclSetslew a0 a1 a2 a3 a4 : Statement (.vclSetslew a0 a1 a2 a3 a4) := fun h => absurd rfl h
theorem vclPstate a0 a1 a2 a3 a4 : Statement (.vclPstate a0 a1 a2 a3 a4) := fun h => absurd rfl h
theorem vclGetv a0 a1 a2 a3 a4 : Statement (.vclGetv a0 a1 a2 a3 a4) := fun h => absurd rfl h
theorem vclGeti a0 a1 a2 a3 : Statement (.vclGeti a0 a1 a2 a3) := fun h => absurd rfl h
theorem vclBadCmd a0 a1 a2 : Statement (.vclBadCmd a0 a1 a2) := fun h => absurd rfl h
theorem vclCrcError a0 : Statement (.vclCrcError a0) := fun h => absurd rfl h
theorem vclStall a0 a1 : Statement (.vclStall a0 a1) := fun h => absurd rfl h
theorem vclDeadline a0 : Statement (.vclDeadline a0) := fun h => absurd rfl h
theorem vclPortEnable a0 : Statement (.vclPortEnable a0) := fun h => absurd rfl h
theorem vclPortDisable a0 : Statement (.vclPortDisable a0) := fun h => absurd rfl h
theorem vclHold a0 a1 : Statement (.vclHold a0 a1) := fun h => absurd rfl h
theorem outputStartEnd a0 : Statement (.outputStartEnd a0) := fun h => absurd rfl h
theorem bkIlim a0 : Statement (.bkIlim a0) := fun h => absurd rfl h
theorem ldoSwIlim a0 : Statement (.ldoSwIlim a0) := fun h => absurd rfl h
theorem outputShort a0 : Statement (.outputShort a0) := fun h => absurd rfl h
theorem outputClrflt a0 : Statement (.outputClrflt a0) := fun h => absurd rfl h
theorem bkVinUv a0 : Statement (.bkVinUv a0) := fun h => absurd rfl h
theorem bkVinRestore a0 a1 : Statement (.bkVinRestore a0 a1) := fun h => absurd rfl h
theorem dischargeEnd a0 : Statement (.dischargeEnd a0) := fun h => absurd rfl h
theorem resetDischargeEnd a0 : Statement (.resetDischargeEnd a0) := fun h => absurd rfl h
theorem vdrvUv : Statement (.vdrvUv) := fun h => absurd rfl h
theorem vdrvHiccup : Statement (.vdrvHiccup) := fun h => absurd rfl h
theorem vdrvRestart : Statement (.vdrvRestart) := fun h => absurd rfl h
theorem supSample a0 a1 : Statement (.supSample a0 a1) := fun h => absurd rfl h
theorem supSettleEnd a0 : Statement (.supSettleEnd a0) := fun h => absurd rfl h
theorem supTrackRefresh a0 : Statement (.supTrackRefresh a0) := fun h => absurd rfl h
theorem supEnable a0 : Statement (.supEnable a0) := fun h => absurd rfl h
theorem supDisable a0 : Statement (.supDisable a0) := fun h => absurd rfl h
theorem supSelfCheck a0 a1 : Statement (.supSelfCheck a0 a1) := fun h => absurd rfl h
theorem cmpSelfCheck a0 a1 : Statement (.cmpSelfCheck a0 a1) := fun h => absurd rfl h
theorem railon a0 a1 a2 : Statement (.railon a0 a1 a2) := fun _ => rfl
theorem railonAfterDrain a0 : Statement (.railonAfterDrain a0) := fun h => absurd rfl h
theorem railoff a0 a1 : Statement (.railoff a0 a1) := fun _ => rfl
theorem setv a0 a1 a2 a3 : Statement (.setv a0 a1 a2 a3) := fun _ => rfl
theorem setslew a0 a1 a2 a3 : Statement (.setslew a0 a1 a2 a3) := fun _ => rfl
theorem phases a0 a1 a2 a3 : Statement (.phases a0 a1 a2 a3) := fun _ => rfl
theorem waitpg a0 a1 a2 : Statement (.waitpg a0 a1 a2) := fun _ => rfl
theorem waitt a0 a1 a2 : Statement (.waitt a0 a1 a2) := fun _ => rfl
theorem waittReady a0 a1 : Statement (.waittReady a0 a1) := fun h => absurd rfl h
theorem waitev a0 a1 a2 a3 : Statement (.waitev a0 a1 a2 a3) := fun _ => rfl
theorem waitstep a0 a1 a2 : Statement (.waitstep a0 a1 a2) := fun _ => rfl
theorem waitDeadline a0 a1 : Statement (.waitDeadline a0 a1) := fun h => absurd rfl h
theorem claim a0 a1 a2 : Statement (.claim a0 a1 a2) := fun _ => rfl
theorem claimDeadline a0 a1 : Statement (.claimDeadline a0 a1) := fun h => absurd rfl h
theorem release a0 a1 : Statement (.release a0 a1) := fun _ => rfl
theorem reclaim a0 a1 a2 : Statement (.reclaim a0 a1 a2) := fun _ => rfl
theorem step a0 a1 : Statement (.step a0 a1) := fun _ => rfl
theorem stepAbort a0 a1 : Statement (.stepAbort a0 a1) := fun _ => rfl
theorem rdadc a0 a1 a2 : Statement (.rdadc a0 a1 a2) := fun _ => rfl
theorem rdadcUrgent a0 a1 a2 : Statement (.rdadcUrgent a0 a1 a2) := fun _ => rfl
theorem rdsup a0 a1 a2 : Statement (.rdsup a0 a1 a2) := fun _ => rfl
theorem movReg a0 a1 a2 : Statement (.movReg a0 a1 a2) := fun _ => rfl
theorem movImm a0 a1 a2 : Statement (.movImm a0 a1 a2) := fun _ => rfl
theorem movConst a0 a1 a2 a3 : Statement (.movConst a0 a1 a2 a3) := fun _ => rfl
theorem add a0 a1 a2 a3 : Statement (.add a0 a1 a2 a3) := fun _ => rfl
theorem sub a0 a1 a2 a3 : Statement (.sub a0 a1 a2 a3) := fun _ => rfl
theorem and a0 a1 a2 a3 : Statement (.and a0 a1 a2 a3) := fun _ => rfl
theorem or a0 a1 a2 a3 : Statement (.or a0 a1 a2 a3) := fun _ => rfl
theorem cmp a0 a1 a2 : Statement (.cmp a0 a1 a2) := fun _ => rfl
theorem shr a0 a1 a2 a3 : Statement (.shr a0 a1 a2 a3) := fun _ => rfl
theorem jmp a0 a1 : Statement (.jmp a0 a1) := fun _ => rfl
theorem bcc a0 a1 a2 : Statement (.bcc a0 a1 a2) := fun _ => rfl
theorem call a0 a1 : Statement (.call a0 a1) := fun _ => rfl
theorem ret a0 : Statement (.ret a0) := fun _ => rfl
theorem task a0 a1 a2 a3 a4 : Statement (.task a0 a1 a2 a3 a4) := fun _ => rfl
theorem yield a0 : Statement (.yield a0) := fun _ => rfl
theorem engineIdleWake a0 : Statement (.engineIdleWake a0) := fun h => absurd rfl h
theorem runDeadline a0 : Statement (.runDeadline a0) := fun h => absurd rfl h
theorem raise a0 a1 : Statement (.raise a0 a1) := fun _ => rfl
theorem log a0 a1 a2 : Statement (.log a0 a1 a2) := fun _ => rfl
theorem snap a0 a1 : Statement (.snap a0 a1) := fun _ => rfl
theorem raisePop a0 : Statement (.raisePop a0) := fun h => absurd rfl h
theorem camEnable a0 : Statement (.camEnable a0) := fun h => absurd rfl h
theorem camDisable a0 : Statement (.camDisable a0) := fun h => absurd rfl h
theorem romRailOffStep : Statement (.romRailOffStep) := fun h => absurd rfl h
theorem ringEnable : Statement (.ringEnable) := fun h => absurd rfl h
theorem ringInsert : Statement (.ringInsert) := fun h => absurd rfl h
theorem ringMasterStart a0 : Statement (.ringMasterStart a0) := fun h => absurd rfl h
theorem ringLeave : Statement (.ringLeave) := fun h => absurd rfl h
theorem mstepAdvance : Statement (.mstepAdvance) := fun h => absurd rfl h
theorem holdRetake : Statement (.holdRetake) := fun h => absurd rfl h
theorem ringCycle : Statement (.ringCycle) := fun h => absurd rfl h
theorem ringStateFrame a0 : Statement (.ringStateFrame a0) := fun h => absurd rfl h
theorem ringEnumFrame a0 a1 a2 : Statement (.ringEnumFrame a0 a1 a2) := fun h => absurd rfl h
theorem ringEnumReturn a0 a1 a2 : Statement (.ringEnumReturn a0 a1 a2) := fun h => absurd rfl h
theorem abortHoldWaitEnd : Statement (.abortHoldWaitEnd) := fun h => absurd rfl h
theorem ringAbortFrame a0 a1 a2 : Statement (.ringAbortFrame a0 a1 a2) := fun h => absurd rfl h
theorem ringPollFrame a0 a1 a2 : Statement (.ringPollFrame a0 a1 a2) := fun h => absurd rfl h
theorem ringPollReturn a0 a1 a2 : Statement (.ringPollReturn a0 a1 a2) := fun h => absurd rfl h
theorem ringNodeLostFrame a0 : Statement (.ringNodeLostFrame a0) := fun h => absurd rfl h
theorem ringIsolateFrame a0 : Statement (.ringIsolateFrame a0) := fun h => absurd rfl h
theorem ringFrameCrcError a0 : Statement (.ringFrameCrcError a0) := fun h => absurd rfl h
theorem ringFrameResend : Statement (.ringFrameResend) := fun h => absurd rfl h
theorem ringSilent : Statement (.ringSilent) := fun h => absurd rfl h
theorem ringOpen : Statement (.ringOpen) := fun h => absurd rfl h
theorem mstepDeadline a0 : Statement (.mstepDeadline a0) := fun h => absurd rfl h
theorem mstepStuck a0 : Statement (.mstepStuck a0) := fun h => absurd rfl h
theorem mngCmdAbort a0 : Statement (.mngCmdAbort a0) := fun h => absurd rfl h
theorem mngCmdIsolate a0 : Statement (.mngCmdIsolate a0) := fun h => absurd rfl h
theorem mngCmdPoll : Statement (.mngCmdPoll) := fun h => absurd rfl h
theorem phaseWaitEnd a0 : Statement (.phaseWaitEnd a0) := fun h => absurd rfl h
theorem phaseSupplyEnd a0 a1 : Statement (.phaseSupplyEnd a0 a1) := fun h => absurd rfl h
theorem phaseRomEnd a0 : Statement (.phaseRomEnd a0) := fun h => absurd rfl h
theorem phaseBistEnd a0 : Statement (.phaseBistEnd a0) := fun h => absurd rfl h
theorem phaseOtpEnd a0 : Statement (.phaseOtpEnd a0) := fun h => absurd rfl h
theorem phaseLevelEnd : Statement (.phaseLevelEnd) := fun h => absurd rfl h
theorem phaseBringupEnd : Statement (.phaseBringupEnd) := fun h => absurd rfl h
theorem sysShutdown : Statement (.sysShutdown) := fun h => absurd rfl h
theorem sysOrderly : Statement (.sysOrderly) := fun h => absurd rfl h
theorem sysImmediate : Statement (.sysImmediate) := fun h => absurd rfl h
theorem sysRestart : Statement (.sysRestart) := fun h => absurd rfl h
theorem sysStandby : Statement (.sysStandby) := fun h => absurd rfl h
theorem standbyWake a0 a1 : Statement (.standbyWake a0 a1) := fun h => absurd rfl h
theorem pdTmax : Statement (.pdTmax) := fun h => absurd rfl h
theorem pdEnginesDrained : Statement (.pdEnginesDrained) := fun h => absurd rfl h
theorem pdDischargeWaitEnd a0 : Statement (.pdDischargeWaitEnd a0) := fun h => absurd rfl h
theorem shutdownBistDone a0 : Statement (.shutdownBistDone a0) := fun h => absurd rfl h
theorem adcSliceEnable a0 : Statement (.adcSliceEnable a0) := fun h => absurd rfl h
theorem adcSliceDisable a0 : Statement (.adcSliceDisable a0) := fun h => absurd rfl h
theorem adcEntryDone a0 : Statement (.adcEntryDone a0) := fun h => absurd rfl h
theorem adcSeqPeriod a0 : Statement (.adcSeqPeriod a0) := fun h => absurd rfl h
theorem hkRoundStart a0 a1 a2 : Statement (.hkRoundStart a0 a1 a2) := fun h => absurd rfl h
theorem hkRoundComplete a0 a1 a2 : Statement (.hkRoundComplete a0 a1 a2) := fun h => absurd rfl h
theorem hkDeadline : Statement (.hkDeadline) := fun h => absurd rfl h
theorem urgentConversionDone a0 : Statement (.urgentConversionDone a0) := fun h => absurd rfl h
theorem adcBurstGo : Statement (.adcBurstGo) := fun h => absurd rfl h
theorem burstEnd a0 a1 : Statement (.burstEnd a0 a1) := fun h => absurd rfl h
theorem captureEnable : Statement (.captureEnable) := fun h => absurd rfl h
theorem adcCtrlSnap : Statement (.adcCtrlSnap) := fun h => absurd rfl h
theorem snapshotFreeze a0 : Statement (.snapshotFreeze a0) := fun h => absurd rfl h
theorem snapshotDigestDone : Statement (.snapshotDigestDone) := fun h => absurd rfl h
theorem snapshotRelease : Statement (.snapshotRelease) := fun h => absurd rfl h
theorem adcClrcnt : Statement (.adcClrcnt) := fun h => absurd rfl h
theorem mismClr : Statement (.mismClr) := fun h => absurd rfl h
theorem wearDay : Statement (.wearDay) := fun h => absurd rfl h
theorem injectionDue : Statement (.injectionDue) := fun h => absurd rfl h
theorem injectionStart : Statement (.injectionStart) := fun h => absurd rfl h
theorem injectionDone a0 a1 a2 : Statement (.injectionDone a0 a1 a2) := fun h => absurd rfl h
theorem injAbort : Statement (.injAbort) := fun h => absurd rfl h
theorem bankRest a0 : Statement (.bankRest a0) := fun h => absurd rfl h
theorem ageingCount a0 a1 : Statement (.ageingCount a0 a1) := fun h => absurd rfl h
theorem thermalShutdown a0 : Statement (.thermalShutdown a0) := fun h => absurd rfl h
theorem recordClose : Statement (.recordClose) := fun h => absurd rfl h
theorem keeperHang : Statement (.keeperHang) := fun h => absurd rfl h
theorem fltStatusClear a0 a1 : Statement (.fltStatusClear a0 a1) := fun h => absurd rfl h
theorem aliveResume : Statement (.aliveResume) := fun h => absurd rfl h
theorem fltMarkread : Statement (.fltMarkread) := fun h => absurd rfl h
theorem testEntry : Statement (.testEntry) := fun h => absurd rfl h
theorem faultInjection a0 a1 : Statement (.faultInjection a0 a1) := fun h => absurd rfl h
theorem sysTimeLoRead : Statement (.sysTimeLoRead) := fun h => absurd rfl h
theorem idSerialLoRead : Statement (.idSerialLoRead) := fun h => absurd rfl h
theorem adcUrgreqRead : Statement (.adcUrgreqRead) := fun h => absurd rfl h
theorem fltHwrRead : Statement (.fltHwrRead) := fun h => absurd rfl h
theorem fltLwrRead : Statement (.fltLwrRead) := fun h => absurd rfl h
theorem fltRec0Read : Statement (.fltRec0Read) := fun h => absurd rfl h
theorem hciCredit0Read : Statement (.hciCredit0Read) := fun h => absurd rfl h
theorem ktChHRead a0 : Statement (.ktChHRead a0) := fun h => absurd rfl h
theorem intcRequestChange a0 : Statement (.intcRequestChange a0) := fun h => absurd rfl h
theorem intcClaim a0 : Statement (.intcClaim a0) := fun h => absurd rfl h
theorem intcComplete a0 a1 : Statement (.intcComplete a0 a1) := fun h => absurd rfl h
theorem intcDbellSet : Statement (.intcDbellSet) := fun h => absurd rfl h
theorem intcDbellClr : Statement (.intcDbellClr) := fun h => absurd rfl h
theorem spiWrite a0 a1 a2 : Statement (.spiWrite a0 a1 a2) := fun h => absurd rfl h
theorem spiRead a0 a1 a2 : Statement (.spiRead a0 a1 a2) := fun h => absurd rfl h
theorem hciDoorbell a0 a1 : Statement (.hciDoorbell a0 a1) := fun h => absurd rfl h
theorem hciCqHeadWrite a0 : Statement (.hciCqHeadWrite a0) := fun h => absurd rfl h
theorem commandStart a0 : Statement (.commandStart a0) := fun h => absurd rfl h
theorem commandComplete a0 : Statement (.commandComplete a0) := fun h => absurd rfl h
theorem moderationTimer : Statement (.moderationTimer) := fun h => absurd rfl h
theorem cmdDeadline a0 : Statement (.cmdDeadline a0) := fun h => absurd rfl h
theorem hciEnable : Statement (.hciEnable) := fun h => absurd rfl h
theorem hciDisable : Statement (.hciDisable) := fun h => absurd rfl h
theorem nop a0 : Statement (.nop a0) := fun h => absurd rfl h
theorem getInfo a0 : Statement (.getInfo a0) := fun h => absurd rfl h
theorem doorbell a0 : Statement (.doorbell a0) := fun h => absurd rfl h
theorem cancel a0 : Statement (.cancel a0) := fun h => absurd rfl h
theorem imgLoad a0 : Statement (.imgLoad a0) := fun h => absurd rfl h
theorem adcConvert a0 : Statement (.adcConvert a0) := fun h => absurd rfl h
theorem snapshotCmdTrigger a0 : Statement (.snapshotCmdTrigger a0) := fun h => absurd rfl h
theorem snapshotCmdRelease a0 : Statement (.snapshotCmdRelease a0) := fun h => absurd rfl h
theorem attest a0 : Statement (.attest a0) := fun h => absurd rfl h
theorem getCert a0 : Statement (.getCert a0) := fun h => absurd rfl h
theorem wearExport a0 : Statement (.wearExport a0) := fun h => absurd rfl h
theorem wearImport a0 : Statement (.wearImport a0) := fun h => absurd rfl h
theorem otpRead a0 : Statement (.otpRead a0) := fun h => absurd rfl h
theorem otpCommit a0 : Statement (.otpCommit a0) := fun h => absurd rfl h
theorem otpWordProgramDone a0 a1 : Statement (.otpWordProgramDone a0 a1) := fun h => absurd rfl h
theorem rawProgramWord : Statement (.rawProgramWord) := fun h => absurd rfl h
theorem rawVoidWord : Statement (.rawVoidWord) := fun h => absurd rfl h
theorem rawBlowLock : Statement (.rawBlowLock) := fun h => absurd rfl h
theorem keygen : Statement (.keygen) := fun h => absurd rfl h
theorem twtWrite a0 a1 : Statement (.twtWrite a0 a1) := fun h => absurd rfl h
theorem twtRead a0 : Statement (.twtRead a0) := fun h => absurd rfl h
theorem twtStuck a0 : Statement (.twtStuck a0) := fun h => absurd rfl h
theorem ktWindowWrite a0 a1 : Statement (.ktWindowWrite a0 a1) := fun h => absurd rfl h
theorem twcEnable : Statement (.twcEnable) := fun h => absurd rfl h
theorem twcDisable : Statement (.twcDisable) := fun h => absurd rfl h
theorem twcTransfer : Statement (.twcTransfer) := fun h => absurd rfl h
theorem twcTransferEnd a0 a1 a2 : Statement (.twcTransferEnd a0 a1 a2) := fun h => absurd rfl h
theorem twcArbLost a0 a1 : Statement (.twcArbLost a0 a1) := fun h => absurd rfl h
theorem twcBusFree a0 : Statement (.twcBusFree a0) := fun h => absurd rfl h
theorem twcBusRecover a0 : Statement (.twcBusRecover a0) := fun h => absurd rfl h
theorem twcSclTimeout a0 a1 : Statement (.twcSclTimeout a0 a1) := fun h => absurd rfl h
theorem twcPollEntryEnd a0 a1 : Statement (.twcPollEntryEnd a0 a1) := fun h => absurd rfl h
theorem porRelease a0 a1 a2 a3 a4 : Statement (.porRelease a0 a1 a2 a3 a4) := fun h => absurd rfl h
theorem vauxRise : Statement (.vauxRise) := fun h => absurd rfl h
theorem vdrvPowerGood a0 : Statement (.vdrvPowerGood a0) := fun h => absurd rfl h
theorem vdrvIlim a0 : Statement (.vdrvIlim a0) := fun h => absurd rfl h
theorem aon18Ilim a0 : Statement (.aon18Ilim a0) := fun h => absurd rfl h
theorem bkIlimEnd a0 : Statement (.bkIlimEnd a0) := fun h => absurd rfl h
theorem ldoSwIlimEnd a0 : Statement (.ldoSwIlimEnd a0) := fun h => absurd rfl h

end Sys2Proof.Laws.Commands
end

