-- ==== Sys2Proof/Tests/Slice0.lean ====
section
/-! SUPPORT. A concrete state and operands that meet the hypotheses of each clause of each statement together, and
small checks of the definitions against values that the spec gives. -/

set_option maxRecDepth 4000
set_option linter.unusedVariables false

namespace Sys2Proof.Tests

open Sys2Proof Sys2Proof.Machine

/-- The state at POR with the given fields at the given values. -/
def with' (fs : List (Field × Nat)) (s : State := {}) : State := fs.foldl (fun s x => s.set x.1 x.2) s
/-- A state in which K0 runs, in phase `n`. -/
def up (n : Nat) (fs : List (Field × Nat) := []) : State :=
  with' ((SYS_STATUS.PHASE, n) :: fs)
    { supply := { released := true, rails := true }, sys := { started := true } }
/-- A state in which engine 0 runs task 3 with entry `x`, and ten words of code are loaded. -/
def eng (x : Task := { st := .run }) (fs : List (Field × Nat) := []) (s : State := {}) : State :=
  with' ([(CAM_CTRL.EN 0, 1), (CAM_STATUS.STATE 0, 2), (CAM_IMG_STATUS.CODE_LEN, 10)] ++ fs)
    { s with engines := [(0, { cur := some 3 })], tasks := [(3, x)] }
/-- A state in which slot 0 holds a command with opcode `op` INFLIGHT. -/
def cmd (op : Byte) (fs : List (Field × Nat) := []) (s : State := {}) : State :=
  with' fs { s with hci := { slots := [(0, { st := .inflight })] }, mem := (0x010003, op) :: s.mem }
/-- `s` with the word `w` at address `a` of program memory. -/
def prog (a w : Nat) (s : State) : State := s.setBytes (progAddr a) (wordsBytes [w])

/-- The hypotheses of StepTakesFront can be met. -/
theorem witness_StepTakesFront :
  (∃ (s : State), (s.pending = []) ∧ (trefRuns s = false)) ∧
  (∃ (s : State), (s.pending = []) ∧ (trefRuns s = true) ∧ (s.get SYS_STATUS.PHASE ≠ 6)) ∧
  (∃ (s : State), (s.pending = []) ∧ (trefRuns s = true) ∧ (s.get SYS_STATUS.PHASE ≠ 6) ∧
    (s.get SYS_STATUS.PHASE ≠ 9) ∧ (s.sys.pd = none) ∧ (loadingSlot s = none)) ∧
  (∃ (s : State), (s.pending = []) ∧ (trefRuns s = true) ∧ (s.get SYS_STATUS.PHASE = 6)) := by
  refine ⟨⟨{}, ?_⟩,
    ⟨up 7, ?_⟩,
    ⟨up 7, ?_⟩,
    ⟨up 6, ?_⟩⟩
  all_goals repeat' (first | exact Hci.booked_clear _ _ | apply And.intro)
  all_goals first | decide | rfl | nofun

/-- The hypotheses of CanonicalStep can be met. -/
theorem witness_CanonicalStep :
  ∃ (s t : State), (step s = .next t) := by
  refine ⟨{ pending := [.nop 0] }, {}, ?_⟩
  all_goals repeat' (first | exact Hci.booked_clear _ _ | apply And.intro)
  all_goals first | decide | rfl | nofun

/-- The hypotheses of TimeNeverFalls can be met. -/
theorem witness_TimeNeverFalls :
  ∃ (c : Instr) (s t : State), (c ≠ .por) ∧ (exec c s = .next t) := by
  refine ⟨.vauxRise, { now := 3 }, { now := 3 }, ?_⟩
  all_goals repeat' (first | exact Hci.booked_clear _ _ | apply And.intro)
  all_goals first | decide | rfl | nofun

/-- The hypotheses of ConservedQuantities can be met. -/
theorem witness_ConservedQuantities :
  (∃ (s t : State), (step s = .next t) ∧ (s.hci.booked)) ∧
  (∃ (s : State) (n k : Nat), (k < 20)) ∧
  (∃ (s : State), (timeRuns s = true)) ∧
  (∃ (s : State) (src : BitVec 9), (1 ≤ src.toNat ∧ src.toNat ≤ 256) ∧ (s.get (INTC_SRC.STATE src.toNat) = 3)) ∧
  (∃ (s : State), (s.ring.retakeAt = none ∨ s.get MNG_STATUS.HOLD ≠ 1)) ∧
  (∃ (s : State) (body : RecBody), (s.fox.bounded = true)) := by
  refine ⟨⟨{ pending := [.nop 0] }, {}, ?_⟩,
    ⟨{}, 0, 3, ?_⟩,
    ⟨up 7, ?_⟩,
    ⟨with' [(INTC_SRC.STATE 5, 3)], 5, ?_⟩,
    ⟨{}, ?_⟩,
    ⟨{}, .reset 0 0 0 0 0, ?_⟩⟩
  all_goals repeat' (first | exact Hci.booked_clear _ _ | apply And.intro)
  all_goals first | decide | rfl | nofun

/-- The hypotheses of PorClears can be met. -/
theorem witness_PorClears :
  (∃ (s : State), (opUnderWay s.otp = none)) ∧
  (∃ (s : State) (op : ProgOp), (opUnderWay s.otp = some op)) := by
  refine ⟨⟨{}, ?_⟩,
    ⟨{ otp := { raw := [.locks [(0, 0)]] } }, .locks [(0, 0)], ?_⟩⟩
  all_goals repeat' (first | exact Hci.booked_clear _ _ | apply And.intro)
  all_goals first | decide | rfl | nofun

/-- The hypotheses of SystemResets can be met. -/
theorem witness_SystemResets :
  (∃ (s : State), (s.supply.released = true) ∧ (s.supply.nreset = false) ∧ (islandOnly s = false)) ∧
  (∃ (s : State), (s.supply.released = true) ∧ (s.supply.nreset = false) ∧ (islandOnly s = true)) ∧
  (∃ (s : State), (s.supply.nreset = true)) ∧
  (∃ (s : State), (s.supply.released = false) ∧ (s.supply.nreset = false)) ∧
  (∃ (s : State), (k0Runs s = true)) ∧
  (∃ (s : State), (k0Runs s = false)) ∧
  (∃ (held : Nat) (s : State), (s.supply.released = true) ∧ (s.get PP_BTN.LONG_EN = 1) ∧
    (s.path.pressAt.isSome = true) ∧ (s.get PP_BTN.LONG * 1000 ≤ held)) ∧
  (∃ (held : Nat) (s : State), (s.supply.released = false ∨ s.get PP_BTN.LONG_EN ≠ 1 ∨ s.path.pressAt = none ∨
    held < s.get PP_BTN.LONG * 1000)) := by
  refine ⟨⟨{ supply := { released := true } }, ?_⟩,
    ⟨{ supply := { released := true }, path := { off := .standby } }, ?_⟩,
    ⟨{ supply := { nreset := true } }, ?_⟩,
    ⟨{}, ?_⟩,
    ⟨up 7, ?_⟩,
    ⟨{}, ?_⟩,
    ⟨60000, with' [(PP_BTN.LONG_EN, 1)] { supply := { released := true }, path := { pressAt := some 0 } }, ?_⟩,
    ⟨0, with' [(PP_BTN.LONG_EN, 0)], ?_⟩⟩
  all_goals repeat' (first | exact Hci.booked_clear _ _ | apply And.intro)
  all_goals first | decide | rfl | nofun

/-- The hypotheses of SystemResetLeaves can be met. -/
theorem witness_SystemResetLeaves :
  (∃ (s : State) (keepPair : Bool) (f : Field), (f.key ∉ [PP_STATUS.VAUX_OK.key, PP_STATUS.STATE.key,
    OTP_CFG.VERIFY.key, OTP_CFG.REBURN.key, BIST_STATUS.STORED.key])) ∧
  (∃ (s : State) (f : Field), (f.key ∉ [PP_STATUS.VAUX_OK.key, OTP_CFG.VERIFY.key, OTP_CFG.REBURN.key,
    SYS_RSTCAUSE.LONG.key,
    SYS_RSTCAUSE.NRESET.key, FLT_TEST.TRIES.key, FLT_TEST.LOCKOUT.key, TWT_STATUS.ADDR.key,
      TWT_STATUS.KTADDR.key])) := by
  refine ⟨⟨{}, true, SYS_STATUS.PHASE, ?_⟩,
    ⟨{}, SYS_STATUS.PHASE, ?_⟩⟩
  all_goals repeat' (first | exact Hci.booked_clear _ _ | apply And.intro)
  all_goals first | decide | rfl | nofun

/-- The hypotheses of ResetsEnd can be met. -/
theorem witness_ResetsEnd :
  (∃ (straps : BitVec 4) (vio vioVcl testEn : Bool) (s : State), (s.supply.released = false) ∧
    ((s.supply.nreset && vio) = false)) ∧
  (∃ (straps : BitVec 4) (vio vioVcl testEn : Bool) (s : State), (s.supply.released = false) ∧
    ((s.supply.nreset && vio) = true)) ∧
  (∃ (straps : BitVec 4) (vio vioVcl testEn : Bool) (s : State), (s.supply.released = false)) ∧
  (∃ (straps : BitVec 4) (vaux vio vioVcl testEn : Bool) (s : State), (s.supply.released = true)) ∧
  (∃ (vio vioVcl testEn : Bool) (s : State), (s.supply.nreset = true) ∧ (s.supply.released = true) ∧
    (s.path.off = .start) ∧ (s.sys.started = false)) ∧
  (∃ (vio vioVcl testEn : Bool) (s : State), (s.supply.nreset = false ∨ s.supply.released = false ∨
    s.path.off ≠ .start ∨ s.sys.started = true)) ∧
  (∃ (s : State), (s.path.off = .opening) ∧ (s.supply.nreset = false)) ∧
  (∃ (s : State), (s.path.off = .opening) ∧ (s.supply.nreset = true)) ∧
  (∃ (s : State), (s.path.off ≠ .opening)) ∧
  (∃ (press : Option Nat) (s : State), (s.supply.released = true) ∧ (s.path.off = .snowdrop) ∧
    (∀ held, press = some held → s.path.pressAt.isSome = true ∧ s.get PP_BTN.SNOW_BTN * 100 ≤ held)) ∧
  (∃ (press : Option Nat) (s : State), (s.supply.released = true) ∧ (s.path.off = .start) ∧
    (s.get SYS_STATUS.PHASE = 0) ∧ (∀ held, press = some held → s.path.pressAt.isSome = true ∧
    s.get PP_BTN.SNOW_BTN * 100 ≤ held)) ∧
  (∃ (held : Nat) (s : State), (s.path.pressAt = none ∨ held < s.get PP_BTN.SNOW_BTN * 100)) ∧
  (∃ (s : State), (k0Runs s = true) ∧ (s.sys.started = true) ∧ (s.get SYS_STATUS.PHASE = 1)) ∧
  (∃ (s : State), (k0Runs s = false ∨ s.sys.started = false ∨ s.get SYS_STATUS.PHASE ≠ 1)) ∧
  (∃ (s : State), (s.supply.xref = true)) ∧
  (∃ (s : State), (s.supply.xref = false)) := by
  refine ⟨⟨15#4, true, true, false, {}, ?_⟩,
    ⟨15#4, true, true, false, { supply := { nreset := true } }, ?_⟩,
    ⟨0#4, true, true, false, {}, ?_⟩,
    ⟨0#4, true, true, true, false, up 0, ?_⟩,
    ⟨true, true, false, { supply := { nreset := true, released := true } }, ?_⟩,
    ⟨false, true, false, { supply := { nreset := true }, path := { off := .snowdrop } }, ?_⟩,
    ⟨{ path := { off := .opening } }, ?_⟩,
    ⟨{ path := { off := .opening }, supply := { nreset := true } }, ?_⟩,
    ⟨{}, ?_⟩,
    ⟨some 2000, with' [(PP_BTN.SNOW_BTN, 5)]
      { supply := { released := true }, path := { off := .snowdrop, pressAt := some 0 } }, ?_⟩,
    ⟨none, { supply := { released := true } }, ?_⟩,
    ⟨100, with' [(PP_BTN.SNOW_BTN, 5)], ?_⟩,
    ⟨up 1, ?_⟩,
    ⟨up 2, ?_⟩,
    ⟨{ supply := { xref := true } }, ?_⟩,
    ⟨{}, ?_⟩⟩
  all_goals repeat' (first | exact Hci.booked_clear _ _ | apply And.intro)
  all_goals first | decide | rfl | nofun

/-- The hypotheses of StartupPhases can be met. -/
theorem witness_StartupPhases :
  (∃ (bkb : Nat) (s : State), (inPhase s 0 = true) ∧ (s.get PP_STATUS.STATE ≠ 0)) ∧
  (∃ (bkb since : Nat) (s : State), (inPhase s 0 = true) ∧ (s.get PP_STATUS.STATE = 0) ∧
    (s.path.rangeSince = some since)) ∧
  (∃ (bkb : Nat) (s : State), (inPhase s 0 = true) ∧ (s.get PP_STATUS.STATE = 0) ∧ (s.path.rangeSince = none)) ∧
  (∃ (vio vioVcl : Bool) (s : State), (inPhase s 1 = true)) ∧
  (∃ (s : State), (inPhase s 2 = true)) ∧
  (∃ (s : State), (inPhase s 2 = true) ∧ (∀ x, s.sys.stored = some x →
    x.crc ≠ Config.verdictCrc x.verdict % 2 ^ 16)) ∧
  (∃ (x : Stored) (s : State), (inPhase s 2 = true) ∧ (s.sys.stored = some x) ∧
    (x.crc = Config.verdictCrc x.verdict % 2 ^ 16)) ∧
  (∃ (tests : List BistTest) (s : State), (inPhase s 3 = true)) ∧
  (∃ (progOk : Bool) (s : State), (inPhase s 4 = true)) ∧
  (∃ (s : State), (inPhase s 5 = true)) ∧
  (∃ (s : State), (inPhase s 6 = true)) ∧
  (∃ (s : State) (l : Nat) (f : State → State), (s.get SYS_STATUS.PHASE = 6) ∧
    (bringUpSteps[s.sys.brought]? = some (l, f))) ∧
  (∃ (n : Nat) (s : State), (inPhase s n = false) ∧ (n = 0 ∨ n = 1 ∨ n = 2 ∨ n = 3 ∨ n = 4 ∨ n = 5 ∨ n = 6)) := by
  refine ⟨⟨0, up 0 [(PP_STATUS.STATE, 1)], ?_⟩,
    ⟨0, 5, { up 0 with path := { rangeSince := some 5 } }, ?_⟩,
    ⟨60000, { up 0 with sys := { started := true, bankWake := true } }, ?_⟩,
    ⟨true, true, up 1, ?_⟩,
    ⟨up 2, ?_⟩,
    ⟨up 2, ?_⟩,
    ⟨⟨⟨[], []⟩, Config.verdictCrc ⟨[], []⟩ % 2 ^ 16⟩,
      { up 2 with sys := { started := true, stored := some ⟨⟨[], []⟩, Config.verdictCrc ⟨[], []⟩ % 2 ^ 16⟩ } }, ?_⟩,
    ⟨[], up 3, ?_⟩,
    ⟨true, up 4, ?_⟩,
    ⟨up 5, ?_⟩,
    ⟨up 6, ?_⟩,
    ⟨up 6, 1, ppCommit, ?_⟩,
    ⟨6, {}, ?_⟩⟩
  all_goals repeat' (first | exact Hci.booked_clear _ _ | apply And.intro)
  all_goals first | decide | rfl | nofun

/-- The hypotheses of LevelEndShowsLevel can be met. -/
theorem witness_LevelEndShowsLevel :
  ∃ (s : State), (s.get THM_TSD.LATCH ≠ 1) ∧ (levelOf s = 3) ∧ (marked s allUnits = []) := by
  refine ⟨{}, ?_⟩
  all_goals repeat' (first | exact Hci.booked_clear _ _ | apply And.intro)
  all_goals first | decide | rfl | nofun

/-- The hypotheses of PowerDown can be met. -/
theorem witness_PowerDown :
  (∃ (s : State), (k0Runs s = true) ∧ (s.sys.started = true) ∧ (s.get SYS_STATUS.PHASE ≤ 7)) ∧
  (∃ (s : State), (k0Runs s = false ∨ s.sys.started = false ∨ 7 < s.get SYS_STATUS.PHASE)) ∧
  (∃ (s : State) (trig : Nat), (s.sys.pd = none) ∧ (s.sys.k0Halt = false)) ∧
  (∃ (s : State) (trig : Nat), (s.sys.pd.isSome = true ∨ s.sys.k0Halt = true)) ∧
  (∃ (s : State) (x : Pd), (s.sys.pd = some x) ∧ (x.step = 1) ∧ (enginesOff s = true)) ∧
  (∃ (s : State) (x : Pd), (s.sys.pd = some x) ∧ (x.step = 1)) ∧
  (∃ (s : State) (n : Nat), (∀ x, s.sys.pd = some x → x.step ≠ n)) ∧
  (∃ (s : State) (x : Pd) (above : Word), (s.sys.pd = some x) ∧ (x.step = 2 ∨ x.step = 3) ∧ (enginesOff s = true) ∧
    (enabledRails s = [])) ∧
  (∃ (s : State) (x : Pd) (above : Word), (s.sys.pd = some x) ∧ (enginesOff s = false ∨ enabledRails s ≠ [])) ∧
  (∃ (s : State) (x : Pd) (ts : List BistTest), (s.sys.pd = some x) ∧ (x.step = 4) ∧ (s.get SYS_STATUS.PHASE = 9)) ∧
  (∃ (s : State), (k0Runs s = true) ∧ (s.get SYS_STATUS.PHASE = 10) ∧ (s.get THM_TSD.LATCH ≠ 1)) ∧
  (∃ (s : State), (s.get THM_TSD.LATCH = 1 ∨ k0Runs s = false ∨ s.get SYS_STATUS.PHASE ≠ 10)) ∧
  (∃ (s : State), (k0Runs s = true) ∧ (s.get SYS_STATUS.PHASE = 10)) ∧
  (∃ (s : State), (k0Runs s = false ∨ s.get SYS_STATUS.PHASE ≠ 10)) ∧
  (∃ (cause : WakeCause) (ticks : Nat) (s : State), (s.path.off = .standby) ∧ (wakes s cause = true) ∧
    (s.supply.nreset = false)) ∧
  (∃ (cause : WakeCause) (ticks : Nat) (s : State), (s.path.off ≠ .standby ∨ wakes s cause = false)) ∧
  (∃ (cause : WakeCause) (ticks : Nat) (s : State), (s.path.off = .standby) ∧ (wakes s cause = true) ∧
    (s.supply.nreset = true)) := by
  refine ⟨⟨up 7, ?_⟩,
    ⟨up 8, ?_⟩,
    ⟨up 7, 3, ?_⟩,
    ⟨{ up 8 with sys := { started := true, pd := some { trig := 3, start := 0 } } }, 3, ?_⟩,
    ⟨{ up 8 with sys := { started := true, pd := some { trig := 3, start := 0 } } }, { trig := 3, start := 0 }, ?_⟩,
    ⟨{ up 8 with sys := { started := true, pd := some { trig := 3, start := 0 } } }, { trig := 3, start := 0 }, ?_⟩,
    ⟨{}, 1, ?_⟩,
    ⟨{ up 8 with sys := { started := true, pd := some { trig := 3, start := 0, step := 2 } } },
      { trig := 3, start := 0, step := 2 }, 0#32, ?_⟩,
    ⟨{ up 8 [(LP_CTRL.EN 0, 1)] with sys := { started := true, pd := some { trig := 3, start := 0, step := 2 } } },
      { trig := 3, start := 0, step := 2 }, 0#32, ?_⟩,
    ⟨{ up 9 with sys := { started := true, pd := some { trig := 3, start := 0, step := 4 } } },
      { trig := 3, start := 0, step := 4 }, [], ?_⟩,
    ⟨up 10, ?_⟩,
    ⟨up 10 [(THM_TSD.LATCH, 1)], ?_⟩,
    ⟨up 10, ?_⟩,
    ⟨up 7, ?_⟩,
    ⟨.timer, 8, with' [(SYS_STBY.WAKET, 3)] { path := { off := .standby } }, ?_⟩,
    ⟨.timer, 8, { path := { off := .standby } }, ?_⟩,
    ⟨.timer, 8, with' [(SYS_STBY.WAKET, 3)] { path := { off := .standby }, supply := { nreset := true } }, ?_⟩⟩
  all_goals repeat' (first | exact Hci.booked_clear _ _ | apply And.intro)
  all_goals first | decide | rfl | nofun

/-- The hypotheses of RegisterWriteAccess can be met. -/
theorem witness_RegisterWriteAccess :
  (∃ (addr : BitVec 24) (value : Word) (lanes : BitVec 4) (s : State), (wordServed s addr.toNat = true) ∧
    (addr.toNat % 4 = 0)) ∧
  (∃ (addr : BitVec 24) (value : Word) (lanes : BitVec 4) (s : State),
    (wordServed s addr.toNat = false ∨ addr.toNat % 4 ≠ 0)) ∧
  (∃ (addr : BitVec 24) (value : Word) (lanes : BitVec 4) (s : State), (wordServed s addr.toNat = true) ∧
    (addr.toNat % 4 = 0) ∧ (addr.toNat ≠ 0x0100) ∧ (addr.toNat ≠ 0x1A28) ∧ (addr.toNat ≠ 0x2C00) ∧
    (addr.toNat < 0x2910 ∨ 0x2928 ≤ addr.toNat) ∧ (addr.toNat < 0x2040 ∨ 0x2560 ≤ addr.toNat) ∧
    (∀ c ∈ counterClears, c.1 ≠ addr.toNat)) ∧
  (∃ (v m : Nat) (s : State) (f : Field), (f ∉ commandFields) ∧ (keepsNothing s f = false)) ∧
  (∃ (v m : Nat) (s : State) (f : Field) (i : Nat), (f ∉ commandFields) ∧ (keepsNothing s f = false) ∧
    (f.acc = .w1c) ∧ (i < f.width) ∧ ((fieldPart f m).testBit i = true)) ∧
  (∃ (s : State) (a v m : Nat) (c : Nat × Nat × List Field) (f : Field), (c ∈ counterClears) ∧ (c.1 = a) ∧
    (ones v m c.2.1 = true) ∧ (f ∈ c.2.2)) ∧
  (∃ (s : State) (a v m : Nat) (j k : Nat), (j < 8) ∧ (a = 0x2540 + 4 * j) ∧ (k < 32) ∧ (m.testBit k = true)) := by
  refine ⟨⟨0x1828#24, 5#32, 15#4, up 7, ?_⟩,
    ⟨1#24, 5#32, 15#4, up 7, ?_⟩,
    ⟨0x1828#24, 5#32, 15#4, up 7, ?_⟩,
    ⟨5, 0xFFFFFFFF, up 7, NRG_CAP.CAP, ?_⟩,
    ⟨5, 0xFFFFFFFF, up 7, SYS_EVT.EVT, 0, ?_⟩,
    ⟨{}, 0x1800, 2, 2, (0x1800, 1, [NRG_CNT0.GRANTS, NRG_CNT0.REVOKES, NRG_CNT1.DEFERS, NRG_CNT1.OVERS]),
      NRG_CNT1.OVERS, ?_⟩,
    ⟨{}, 0x2540, 2, 2, 0, 1, ?_⟩⟩
  all_goals repeat' (first | exact Hci.booked_clear _ _ | apply And.intro)
  all_goals first | decide | rfl | nofun

/-- The hypotheses of BlockReset can be met. -/
theorem witness_BlockReset :
  (∃ (unit : BitVec 8) (s : State), (k0Runs s = true) ∧ (unitEnable unit.toNat = none)) ∧
  (∃ (unit : BitVec 8) (s : State), (k0Runs s = false)) ∧
  (∃ (unit : BitVec 8) (s : State) (en : Field), (k0Runs s = true) ∧ (unitEnable unit.toNat = some en) ∧
    ((s.set SYS_BRST.UNIT unit.toNat).get en = 1)) ∧
  (∃ (unit : BitVec 8) (s : State) (en : Field), (k0Runs s = true) ∧ (unitEnable unit.toNat = some en) ∧
    ((s.set SYS_BRST.UNIT unit.toNat).get en ≠ 1)) := by
  refine ⟨⟨0xC0#8, up 7, ?_⟩,
    ⟨0x20#8, {}, ?_⟩,
    ⟨0xBF#8, up 7 [(SUP_CFG.EN 63, 1)], SUP_CFG.EN 63, ?_⟩,
    ⟨0x20#8, up 7, BK_CTRL.EN 0, ?_⟩⟩
  all_goals repeat' (first | exact Hci.booked_clear _ _ | apply And.intro)
  all_goals first | decide | rfl | nofun

/-- The hypotheses of DrainsEnd can be met. -/
theorem witness_DrainsEnd :
  (∃ (n : Fin 6) (s : State), (s.get (LP_CTRL.EN n) = 1) ∧ (s.get (LP_STATUS.STATE n) = 5)) ∧
  (∃ (r : Rail) (s : State), (isOutput r = true) ∧ (s.get (railEn r) = 1) ∧ (s.get (railState r) = 4)) ∧
  (∃ (r : Rail) (s : State), (s.get (railEn r) ≠ 1 ∨ draining s r = false)) ∧
  (∃ (e : Fin 4) (s : State), (s.get (CAM_CTRL.EN e) = 1) ∧ (s.get (CAM_STATUS.STATE e) = 4)) ∧
  (∃ (p : Fin 2) (s : State), ((s.port p).draining = true)) ∧
  (∃ (k : Fin 4) (s : State), (bitOf s.adc.slDrain k = 1)) ∧
  (∃ (s : State), (s.charger.draining = true)) ∧
  (∃ (wdone : BitVec 6) (data : List Byte) (s : State), (s.get TWC_CTRL.EN = 1) ∧ (s.get TWC_STATUS.STATE = 5)) ∧
  (∃ (s : State), (s.get HCI_STATUS.STATE = 2) ∧ (hciIdle s = true)) := by
  refine ⟨⟨5, up 7 [(LP_CTRL.EN 5, 1), (LP_STATUS.STATE 5, 5)], ?_⟩,
    ⟨.sw 7, up 7 [(SW_CTRL.EN 7, 1), (SW_STATUS.STATE 7, 4)], ?_⟩,
    ⟨.sw 7, {}, ?_⟩,
    ⟨3, up 7 [(CAM_CTRL.EN 3, 1), (CAM_STATUS.STATE 3, 4)], ?_⟩,
    ⟨1, { vcl := [(1, { draining := true })] }, ?_⟩,
    ⟨1, { adc := { slDrain := 2 } }, ?_⟩,
    ⟨{ charger := { draining := true } }, ?_⟩,
    ⟨0, [], up 7 [(TWC_CTRL.EN, 1), (TWC_STATUS.STATE, 5)], ?_⟩,
    ⟨{ up 7 [(HCI_STATUS.STATE, 2)] with hci := {} }, ?_⟩⟩
  all_goals repeat' (first | exact Hci.booked_clear _ _ | apply And.intro)
  all_goals first | decide | rfl | nofun

/-- The hypotheses of LedgerUpdates can be met. -/
theorem witness_LedgerUpdates :
  (∃ (s : State), (timeRuns s = true)) ∧
  (∃ (s : State), (timeRuns s = true)) ∧
  (∃ (now period : Nat) (last : Option Nat), (0 < period)) ∧
  (∃ (s : State) (d : Nat × Nat) (ds : List (Nat × Nat)), (debitsByExpiry s = d :: ds) ∧ (timeRuns s = true)) ∧
  (∃ (s : State), (debitsByExpiry s = [])) ∧
  (∃ (freeze : Bool) (s : State), (vsysRuns s = true)) := by
  refine ⟨⟨up 7, ?_⟩,
    ⟨up 7, ?_⟩,
    ⟨99999, 100000, some 0, ?_⟩,
    ⟨{ up 7 with ledger := { debits := [(7, 5), (8, 3)] } }, (8, 3), [(7, 5)], ?_⟩,
    ⟨{}, ?_⟩,
    ⟨true, up 7, ?_⟩⟩
  all_goals repeat' (first | exact Hci.booked_clear _ _ | apply And.intro)
  all_goals first | decide | rfl | nofun

/-- The hypotheses of PowerPathMoves can be met. -/
theorem witness_PowerPathMoves :
  (∃ (cause : VauxCause) (bkb vsys : Nat) (s : State), (pathActs s = true) ∧ (s.get PP_STATUS.STATE = 1) ∧
    (cause = .uv ∨ cause = .ov)) ∧
  (∃ (bkb vsys : Nat) (s : State), (pathActs s = true) ∧ (s.get PP_STATUS.STATE = 1)) ∧
  (∃ (bkb vsys : Nat) (s : State), (pathActs s = true)) ∧
  (∃ (bkb vsys : Nat) (s : State), (pathActs s = true) ∧ (s.get PP_STATUS.STATE = 3)) ∧
  (∃ (cause : VauxCause) (bkb vsys : Nat) (s : State), (pathActs s = true) ∧ (s.get PP_STATUS.STATE ≠ 1) ∧
    (s.get PP_STATUS.STATE ≠ 3)) ∧
  (∃ (bkb vsys : Nat) (s : State), (pathActs s = true) ∧ (s.get PP_STATUS.STATE = 3)) ∧
  (∃ (cause : VauxCause) (bkb vsys : Nat) (s : State), (pathRuns s = true) ∧ (s.supply.nreset = true)) ∧
  (∃ (cause : VauxCause) (bkb vsys : Nat) (s : State), (pathRuns s = false)) ∧
  (∃ (vsys : Nat) (s : State), (pathActs s = true) ∧ (s.get PP_STATUS.STATE = 2) ∧ (vsys < s.path.act.vsysUv * 250)) ∧
  (∃ (vsys : Nat) (s : State), (pathActs s = false ∨ s.get PP_STATUS.STATE ≠ 2 ∨ s.path.act.vsysUv * 250 ≤ vsys)) ∧
  (∃ (s : State), (pathRuns s = true)) ∧
  (∃ (t : Nat) (s : State), (pathActs s = true) ∧ (s.path.rangeSince = some t) ∧ (s.get PP_STATUS.STATE ≠ 0) ∧
    (s.path.qualified = false ∨ onAux s = false)) ∧
  (∃ (s : State), (pathActs s = false ∨ s.path.rangeSince = none ∨ s.get PP_STATUS.STATE = 0 ∨
    (s.path.qualified = true ∧ onAux s = true))) ∧
  (∃ (s : State), (pathActs s = true)) ∧
  (∃ (bkb : Nat) (s : State), (pathActs s = false)) ∧
  (∃ (bkb : Nat) (s : State), (pathActs s = true) ∧ (s.get PP_STATUS.STATE = 2) ∧ (s.path.lowRaised = false) ∧
    (bkb < s.get CHG_BANK.CELLS * (s.get CHG_VTHR.VCUT_CELL + 100))) ∧
  (∃ (bkb : Nat) (s : State), (s.get PP_STATUS.STATE ≠ 2 ∨ s.path.lowRaised = true ∨
    s.get CHG_BANK.CELLS * (s.get CHG_VTHR.VCUT_CELL + 100) ≤ bkb)) ∧
  (∃ (bkb : Nat) (s : State), (pathActs s = true)) ∧
  (∃ (s : State), (k0Runs s = true)) := by
  refine ⟨⟨.uv, 30000, 11000, up 7 [(PP_STATUS.STATE, 1)], ?_⟩,
    ⟨30000, 11000, up 7 [(PP_STATUS.STATE, 1)], ?_⟩,
    ⟨30000, 11000, up 7 [(PP_STATUS.STATE, 1)], ?_⟩,
    ⟨30000, 11000, up 7 [(PP_STATUS.STATE, 3)], ?_⟩,
    ⟨.uv, 30000, 11000, up 7 [(PP_STATUS.STATE, 2)], ?_⟩,
    ⟨30000, 11000, up 7 [(PP_STATUS.STATE, 3)], ?_⟩,
    ⟨.ov, 30000, 5000, { up 7 [(PP_STATUS.STATE, 1)] with supply := { released := true, nreset := true } }, ?_⟩,
    ⟨.uv, 0, 0, {}, ?_⟩,
    ⟨0, { up 7 [(PP_STATUS.STATE, 2)] with path := { act := { vsysUv := 30 } } }, ?_⟩,
    ⟨5699, up 7 [(PP_STATUS.STATE, 1)], ?_⟩,
    ⟨up 7, ?_⟩,
    ⟨0, { up 7 [(PP_STATUS.STATE, 2)] with path := { rangeSince := some 0 } }, ?_⟩,
    ⟨{}, ?_⟩,
    ⟨up 7, ?_⟩,
    ⟨5, { supply := { released := true, nreset := true } }, ?_⟩,
    ⟨5, up 7 [(PP_STATUS.STATE, 2), (CHG_BANK.CELLS, 4), (CHG_VTHR.VCUT_CELL, 2000)], ?_⟩,
    ⟨5, up 7 [(PP_STATUS.STATE, 1)], ?_⟩,
    ⟨5, up 7, ?_⟩,
    ⟨up 7, ?_⟩⟩
  all_goals repeat' (first | exact Hci.booked_clear _ _ | apply And.intro)
  all_goals first | decide | rfl | nofun

/-- The hypotheses of PowerPathDevices can be met. -/
theorem witness_PowerPathDevices :
  (∃ (bkb vsys t : Nat) (s : State), (pathActs s = true) ∧ (s.path.soaSince = some t)) ∧
  (∃ (bkb vsys : Nat) (s : State), (pathActs s = false ∨ s.path.soaSince = none)) ∧
  (∃ (s : State) (trips : List Nat),
    (trips = s.now :: s.path.soaTrips.filter (fun t => decide (s.now ≤ t + 1000000000)))) ∧
  (∃ (s : State), (vsysRuns s = true)) ∧
  (∃ (s : State), (vsysRuns s = true)) ∧
  (∃ (s : State), (vsysRuns s = false)) := by
  refine ⟨⟨30000, 12000, 0, { up 7 [(PP_STATUS.STATE, 1)] with path := { soaSince := some 0 } }, ?_⟩,
    ⟨30000, 12000, up 7, ?_⟩,
    ⟨{}, [0], ?_⟩,
    ⟨up 7, ?_⟩,
    ⟨up 7, ?_⟩,
    ⟨{}, ?_⟩⟩
  all_goals repeat' (first | exact Hci.booked_clear _ _ | apply And.intro)
  all_goals first | decide | rfl | nofun

/-- The hypotheses of ButtonTimes can be met. -/
theorem witness_ButtonTimes :
  (∃ (held : Nat) (s : State), (s.path.pressAt.isSome = true) ∧ (k0Runs s = true) ∧ (50 ≤ held) ∧
    (held < s.get PP_BTN.LONG * 1000)) ∧
  (∃ (held : Nat) (s : State), (s.path.pressAt = none ∨ k0Runs s = false ∨ held < 50 ∨
    s.get PP_BTN.LONG * 1000 ≤ held)) ∧
  (∃ (held : Nat) (s : State), (s.path.pressAt.isSome = true) ∧ ((s.get PP_BTN.LONG - 2) * 1000 ≤ held) ∧
    (s.path.warned = false) ∧ (k0Runs s = true)) ∧
  (∃ (held : Nat) (s : State), (s.path.pressAt = none ∨ held < (s.get PP_BTN.LONG - 2) * 1000 ∨ s.path.warned = true ∨
    k0Runs s = false)) ∧
  (∃ (press : Option Nat) (s : State), (s.supply.released = true) ∧
    (∀ held, press = some held → s.path.pressAt.isSome = true ∧ s.get PP_BTN.SNOW_BTN * 100 ≤ held)) ∧
  (∃ (held : Nat) (s : State), (s.supply.released = false ∨ s.path.pressAt = none ∨
    held < s.get PP_BTN.SNOW_BTN * 100)) := by
  refine ⟨⟨50, { up 7 with path := { pressAt := some 0 } }, ?_⟩,
    ⟨49, up 7, ?_⟩,
    ⟨253000, { up 7 with path := { pressAt := some 0 } }, ?_⟩,
    ⟨0, up 7, ?_⟩,
    ⟨none, { up 7 with path := { off := .snowdrop } }, ?_⟩,
    ⟨0, {}, ?_⟩⟩
  all_goals repeat' (first | exact Hci.booked_clear _ _ | apply And.intro)
  all_goals first | decide | rfl | nofun

/-- The hypotheses of ChargerStates can be met. -/
theorem witness_ChargerStates :
  (∃ (s : State), (chgRuns s = true) ∧ (s.charger.probe = false) ∧
    (s.get CHG_STATUS.STATE = 1 ∨ s.get CHG_STATUS.STATE = 6 ∨ s.get CHG_STATUS.STATE = 8 ∨
    s.get CHG_STATUS.STATE = 10)) ∧
  (∃ (s : State), (chgRuns s = false ∨ s.charger.probe = true ∨ s.get CHG_STATUS.STATE ∉ [1, 6, 8, 10])) ∧
  (∃ (start drop : Nat) (s : State), (s.charger.probe = true) ∧ (chgRuns s = true)) ∧
  (∃ (start drop : Nat) (s : State), (s.charger.probe = false ∨ chgRuns s = false)) ∧
  (∃ (bkb : Nat) (s : State), (chgRuns s = true) ∧ (s.get CHG_STATUS.STATE = 2)) ∧
  (∃ (bkb : Nat) (s : State), (chgRuns s = true) ∧ (s.get CHG_STATUS.STATE = 3) ∧
    (s.get CHG_BANK.CELLS * s.get CHG_VREG.VREG_CELL ≤ bkb)) ∧
  (∃ (current : Nat) (s : State), (chgRuns s = true) ∧ (s.get CHG_STATUS.STATE = 4) ∧ (s.get CHG_STATUS.LIMIT = 0) ∧
    (current < s.charger.taken.iterm * 10)) ∧
  (∃ (s : State), (chgRuns s = true) ∧ (s.get CHG_STATUS.STATE = 5)) ∧
  (∃ (bkb : Nat) (s : State), (chgRuns s = true) ∧ (s.get CHG_STATUS.STATE = 6) ∧ (s.get CHG_CTRL.RECHG_EN = 1) ∧
    (bkb + s.get CHG_BANK.CELLS * s.get CHG_VTHR.VRECH_CELL < s.get CHG_BANK.CELLS * s.get CHG_VREG.VREG_CELL)) ∧
  (∃ (bkb rise current : Nat) (s : State), (chgRuns s = true) ∧ (2 ≤ s.get CHG_STATUS.STATE) ∧
    (s.get CHG_STATUS.STATE ≤ 5) ∧ (removalSeen s bkb rise current = true)) ∧
  (∃ (bkb rise current v : Nat) (s : State), (v = s.get CHG_BANK.CELLS * s.get CHG_VREG.VREG_CELL)) ∧
  (∃ (s : State), (chgRuns s = true) ∧ (2 ≤ s.get CHG_STATUS.STATE) ∧ (s.get CHG_STATUS.STATE ≤ 4) ∧
    (120 * s.charger.taken.tsafe ≤ s.get CHG_TELAPSED.ELAPSED)) := by
  refine ⟨⟨with' [(CHG_CTRL.EN, 1), (CHG_STATUS.STATE, 10)], ?_⟩,
    ⟨{}, ?_⟩,
    ⟨0, 51, { with' [(CHG_CTRL.EN, 1), (CHG_STATUS.STATE, 1)] with charger := { probe := true } }, ?_⟩,
    ⟨0, 0, {}, ?_⟩,
    ⟨5, with' [(CHG_CTRL.EN, 1), (CHG_STATUS.STATE, 2)], ?_⟩,
    ⟨100000, with' [(CHG_CTRL.EN, 1), (CHG_STATUS.STATE, 3)], ?_⟩,
    ⟨0, { with' [(CHG_CTRL.EN, 1), (CHG_STATUS.STATE, 4)] with charger := { taken := { iterm := 1 } } }, ?_⟩,
    ⟨with' [(CHG_CTRL.EN, 1), (CHG_STATUS.STATE, 5)], ?_⟩,
    ⟨0, with' [(CHG_CTRL.EN, 1), (CHG_STATUS.STATE, 6), (CHG_CTRL.RECHG_EN, 1), (CHG_BANK.CELLS, 4),
      (CHG_VREG.VREG_CELL, 3000), (CHG_VTHR.VRECH_CELL, 100)], ?_⟩,
    ⟨50000, 0, 0, { with' [(CHG_CTRL.EN, 1), (CHG_STATUS.STATE, 5), (CHG_BANK.CELLS, 4), (CHG_VREG.VREG_CELL, 3000)] with charger := { target := (100, 1) } }, ?_⟩,
    ⟨0, 0, 0, 0, with' [(CHG_BANK.CELLS, 0)], ?_⟩,
    ⟨{ with' [(CHG_CTRL.EN, 1), (CHG_STATUS.STATE, 4), (CHG_TELAPSED.ELAPSED, 120)] with charger := { taken := { tsafe := 1 } } }, ?_⟩⟩
  all_goals repeat' (first | exact Hci.booked_clear _ _ | apply And.intro)
  all_goals first | decide | rfl | nofun

/-- The hypotheses of ChargerTarget can be met. -/
theorem witness_ChargerTarget :
  (∃ (actual cv : Nat) (s : State), (vsysRuns s = true) ∧ (s.get CHG_STATUS.STATE < 2 ∨ 4 < s.get CHG_STATUS.STATE)) ∧
  (∃ (actual cv : Nat) (s : State), (vsysRuns s = true) ∧ (2 ≤ s.get CHG_STATUS.STATE) ∧
    (s.get CHG_STATUS.STATE ≤ 4)) ∧
  (∃ (actual demand i : Nat), (0 < demand)) ∧
  (∃ (on : Bool) (s : State), (vsysRuns s = true)) ∧
  (∃ (actual cv iVaux iChgIn vsys vBank bkb : Nat) (on : Bool) (s : State), (vsysRuns s = false)) ∧
  (∃ (iVaux iChgIn vsys vBank cv : Nat) (s : State), (vsysRuns s = true) ∧
    (chgRuns s = false ∨ s.get CHG_STATUS.STATE < 2 ∨ 5 < s.get CHG_STATUS.STATE)) ∧
  (∃ (iVaux iChgIn vsys vBank cv : Nat) (s : State), (vsysRuns s = true) ∧ (chgRuns s = true) ∧
    (2 ≤ s.get CHG_STATUS.STATE) ∧ (s.get CHG_STATUS.STATE ≤ 5)) := by
  refine ⟨⟨5, 7, up 7, ?_⟩,
    ⟨5, 7, up 7 [(CHG_STATUS.STATE, 4)], ?_⟩,
    ⟨1, 5, 0, ?_⟩,
    ⟨true, up 7, ?_⟩,
    ⟨1, 2, 3, 4, 5, 6, 7, true, {}, ?_⟩,
    ⟨1, 2, 3, 4, 5, up 7, ?_⟩,
    ⟨1, 2, 3, 4, 5, up 7 [(CHG_CTRL.EN, 1), (CHG_STATUS.STATE, 5)], ?_⟩⟩
  all_goals repeat' (first | exact Hci.booked_clear _ _ | apply And.intro)
  all_goals first | decide | rfl | nofun

/-- The hypotheses of LoopSequence can be met. -/
theorem witness_LoopSequence :
  (∃ (n : Fin 6) (vsns : Int) (s : State), (loopSwitches s n = true)) ∧
  (∃ (n : Fin 6) (vsns : Int) (s : State), (loopSwitches s n = false)) ∧
  (∃ (n : Fin 6) (s : State), (loopPulses s n = false)) ∧
  (∃ (n : Fin 6) (s : State), (loopPulses s n = true)) := by
  refine ⟨⟨0, -600, with' [(LP_STATUS.STATE 0, 4)], ?_⟩,
    ⟨0, 5, {}, ?_⟩,
    ⟨0, {}, ?_⟩,
    ⟨0, with' [(LP_STATUS.STATE 0, 5)], ?_⟩⟩
  all_goals repeat' (first | exact Hci.booked_clear _ _ | apply And.intro)
  all_goals first | decide | rfl | nofun

/-- The hypotheses of CompensatorClamp can be met. -/
theorem witness_CompensatorClamp :
  ∃ (n : Nat) (e0 : Int) (s : State), ((s.loop n).acc ≤ s.get (LP_ILIM.PHLIM n) * 4096) := by
  refine ⟨5, -512, {}, ?_⟩
  all_goals repeat' (first | exact Hci.booked_clear _ _ | apply And.intro)
  all_goals first | decide | rfl | nofun

/-- The hypotheses of PulseTiming can be met. -/
theorem witness_PulseTiming :
  (∃ (k : Fin 20) (n j : Nat) (s : State), (pulseOwner s k = some n) ∧ (slotOf s n k = some j) ∧
    ((s.loop n).trunc = .none) ∧ (slotTurn s n k j = true) ∧ ((s.phase k).pulse = false)) ∧
  (∃ (s : State) (n j : Nat), (0 < s.get (LP_PWM.FSW n) * (s.loop n).slots.length)) ∧
  (∃ (k : Fin 20) (s : State), (pulseOwner s k = none ∨
    (∃ n, pulseOwner s k = some n ∧ ((s.loop n).trunc ≠ .none ∨ slotOf s n k = none ∨ (s.phase k).pulse = true ∨
    ∃ j, slotOf s n k = some j ∧ slotTurn s n k j = false)))) ∧
  (∃ (k : Fin 20) (n : Nat) (vOn vOff : Int) (ton : Nat) (ended : PulseEnd) (s : State), (pulseEnds s k = some n) ∧
    (canEnd s n k vOff ton ended = true)) ∧
  (∃ (k : Fin 20) (vOn vOff : Int) (ton : Nat) (ended : PulseEnd) (s : State),
    (pulseEnds s k = none ∨ (∃ n, pulseEnds s k = some n ∧ canEnd s n k vOff ton ended = false))) ∧
  (∃ (k : Fin 20) (n : Nat) (v : Int) (s : State), (offTimeOf s k = some n)) ∧
  (∃ (k : Fin 20) (v : Int) (s : State), (offTimeOf s k = none)) ∧
  (∃ (n : Fin 6) (vsns : Int) (s : State), (s.get (LP_CTRL.OST_EN n) = 1) ∧ (loopPulses s n = true) ∧
    (aboveRef s n vsns (s.get (LP_OST.THR n)) = true)) ∧
  (∃ (n : Fin 6) (vsns : Int) (s : State), (s.get (LP_CTRL.OST_EN n) ≠ 1 ∨ loopPulses s n = false ∨
    aboveRef s n vsns (s.get (LP_OST.THR n)) = false)) := by
  refine ⟨⟨19, 0, 1, { with' [(PH_STATUS.STATE 19, 2), (PH_STATUS.OWNER 19, 0), (LP_STATUS.STATE 0, 4)] with loops := [(0, { slots := [3, 19] })] }, ?_⟩,
    ⟨{ with' [(LP_PWM.FSW 0, 600)] with loops := [(0, { slots := [1, 2, 3, 4] })] }, 0, 1, ?_⟩,
    ⟨0, {}, ?_⟩,
    ⟨0, 5, 0, 0, 6400, .dmax,
      { with' [(PH_STATUS.STATE 0, 2), (PH_STATUS.OWNER 0, 5), (LP_STATUS.STATE 5, 5), (LP_PWM.FSW 5, 1000), (LP_PWM.DMAX 5, 100)] with phases := [(0, { pulse := true })] }, ?_⟩,
    ⟨0, 0, 0, 0, .tonMin, {}, ?_⟩,
    ⟨0, 5, -5000, { with' [(PH_STATUS.STATE 0, 2), (PH_STATUS.OWNER 0, 5), (LP_STATUS.STATE 5, 5)] with phases := [(0, { pwm := .low })] }, ?_⟩,
    ⟨0, 0, {}, ?_⟩,
    ⟨5, 100000000, with' [(LP_CTRL.OST_EN 5, 1), (LP_STATUS.STATE 5, 5)], ?_⟩,
    ⟨0, 0, {}, ?_⟩⟩
  all_goals repeat' (first | exact Hci.booked_clear _ _ | apply And.intro)
  all_goals first | decide | rfl | nofun

/-- The hypotheses of OutputsRun can be met. -/
theorem witness_OutputsRun :
  (∃ (rail : Rail) (s : State), (isOutput rail = true) ∧ (s.get (railState rail) = 2) ∧
    ((s.out (railCode rail)).startPending = false)) ∧
  (∃ (rail : Rail) (s : State), (isOutput rail = false ∨ s.get (railState rail) ≠ 2 ∨
    (s.out (railCode rail)).startPending = true)) ∧
  (∃ (rail : Rail) (s : State), (isOutput rail = true)) ∧
  (∃ (rail : Rail) (vin start : Nat) (s : State), (checkWaits s rail = false) ∧ (s.get (railState rail) = 1) ∧
    (s.get (railEn rail) = 1)) ∧
  (∃ (s : State), (s.vdrv.on = true)) ∧
  (∃ (s : State), (s.vdrv.on = true) ∧ (s.get VDRV_STATUS.ILIM_ACT = 1)) ∧
  (∃ (s : State), (s.vdrv.on = true) ∧ (s.vdrv.hiccup = false)) ∧
  (∃ (s : State), (s.vdrv.on = true)) ∧
  (∃ (good active : Bool) (s : State), (s.vdrv.on = false)) := by
  refine ⟨⟨.bk 5, with' [(BK_STATUS.STATE 5, 2)], ?_⟩,
    ⟨.lp 0, {}, ?_⟩,
    ⟨.sw 7, with' [(SW_STATUS.STATE 7, 5)], ?_⟩,
    ⟨.sw 0, 12000, 0, with' [(SW_CTRL.EN 0, 1), (SW_STATUS.STATE 0, 1)], ?_⟩,
    ⟨{ vdrv := { on := true } }, ?_⟩,
    ⟨with' [(VDRV_STATUS.ILIM_ACT, 1)] { vdrv := { on := true } }, ?_⟩,
    ⟨{ vdrv := { on := true } }, ?_⟩,
    ⟨{ vdrv := { on := true } }, ?_⟩,
    ⟨true, true, {}, ?_⟩⟩
  all_goals repeat' (first | exact Hci.booked_clear _ _ | apply And.intro)
  all_goals first | decide | rfl | nofun

/-- The hypotheses of SupervisionChannels can be met. -/
theorem witness_SupervisionChannels :
  (∃ (n : Fin 64) (uv : Nat) (s : State), (supRuns s n = true)) ∧
  (∃ (n : Fin 64) (uv : Nat) (s : State), (supRuns s n = false)) ∧
  (∃ (n : Fin 64) (s : State), (supRuns s n = true)) ∧
  (∃ (n : Fin 64) (s : State), (supRuns s n = true)) := by
  refine ⟨⟨63, 5, with' [(SUP_CFG.EN 63, 1)]
    { supply := { released := true, rails := true }, sys := { started := true } }, ?_⟩,
    ⟨0, 5, {}, ?_⟩,
    ⟨1, with' [(SUP_CFG.EN 1, 1), (SUP_CFG.TRACK 1, 1),
      (SUP_CFG.SRC 1, 0)] { supply := { released := true, rails := true }, sys := { started := true } }, ?_⟩,
    ⟨1, with' [(SUP_CFG.EN 1, 1), (SUP_CFG.SRC 1, 0x3F)]
      { supply := { released := true, rails := true }, sys := { started := true } }, ?_⟩⟩
  all_goals repeat' (first | exact Hci.booked_clear _ _ | apply And.intro)
  all_goals first | decide | rfl | nofun

/-- The hypotheses of VclTransactions can be met. -/
theorem witness_VclTransactions :
  (∃ (p : Fin 2) (rack : Bool) (tag : BitVec 2) (vid : BitVec 12) (slew : BitVec 9) (s : State),
    (targetCode (releaseAck s p rack) p vid.toNat slew.toNat false false = 0) ∧ (portAnswers s = true)) ∧
  (∃ (p : Fin 2) (rack : Bool) (tag : BitVec 2) (vid : BitVec 12) (slew : BitVec 9) (s : State),
    (targetCode (releaseAck s p rack) p vid.toNat slew.toNat false false ≠ 0) ∧
    (targetCode (releaseAck s p rack) p vid.toNat slew.toNat false false ≠ 0x19) ∧ (portAnswers s = true)) ∧
  (∃ (p : Fin 2) (rack : Bool) (tag : BitVec 2) (vid : BitVec 12) (slew : BitVec 9) (s : State),
    (targetCode (releaseAck s p rack) p vid.toNat slew.toNat false false = 0x19) ∧ (portAnswers s = true)) ∧
  (∃ (p : Fin 2) (rack : Bool) (tag : BitVec 2) (q : Fin 4) (z : BitVec 19) (s : State), (portAnswers s = true)) ∧
  (∃ (p : Fin 2) (rack : Bool) (tag : BitVec 2) (slew : BitVec 9) (s : State),
    ((releaseAck s p rack).get (VCL_CTRL.EN p) = 1) ∧ (5 ≤ slew.toNat) ∧ (slew.toNat ≤ 400) ∧
    (portAnswers s = true)) ∧
  (∃ (p : Fin 2) (rack : Bool) (tag : BitVec 2) (slew : BitVec 9) (z : BitVec 12) (s : State),
    (z ≠ 0 ∨ (releaseAck s p rack).get (VCL_CTRL.EN p) ≠ 1 ∨ slew.toNat < 5 ∨ 400 < slew.toNat) ∧
    (portAnswers s = true)) ∧
  (∃ (p : Fin 2) (rack : Bool) (tag : BitVec 2) (vsns : Int) (s : State),
    ((releaseAck s p rack).get (VCL_CTRL.EN p) = 1) ∧ (portAnswers s = true)) ∧
  (∃ (p : Fin 2) (rack : Bool) (tag : BitVec 2) (z : BitVec 21) (vsns : Int) (s : State),
    (z ≠ 0 ∨ (releaseAck s p rack).get (VCL_CTRL.EN p) ≠ 1) ∧ (portAnswers s = true)) ∧
  (∃ (p : Fin 2) (rack : Bool) (tag : BitVec 2) (s : State), (portAnswers s = true)) ∧
  (∃ (p : Fin 2) (s : State), (portAnswers s = true)) ∧
  (∃ (p : Fin 2) (rack late : Bool) (tag : BitVec 2) (vid z : BitVec 12) (slew : BitVec 9) (q : Fin 4) (x : BitVec 19)
    (y : BitVec 21) (vsns : Int) (s : State), (portAnswers s = false)) ∧
  (∃ (p : Fin 2) (s : State), (portAnswers s = true)) ∧
  (∃ (p : Fin 2) (f : VclFlight) (s : State), ((s.port p).flight = some f) ∧ (f.missed = false)) ∧
  (∃ (p : Fin 2) (s : State), (∀ f, (s.port p).flight = some f → f.missed = true)) ∧
  (∃ (p : Fin 2) (s : State), (s.get (VCL_CTRL.EN p) = 1)) ∧
  (∃ (p : Fin 2) (s : State), (s.get (VCL_CTRL.EN p) ≠ 1)) ∧
  (∃ (p : Fin 2) (s : State), (s.get (VCL_CTRL.EN p) ≠ 1) ∧ (servesFrom s 3 = true) ∧ (portReason s p = 0)) ∧
  (∃ (p : Fin 2) (hold : Bool) (s : State), (s.get (VCL_CTRL.HOLD p) = (if hold then 1 else 0))) ∧
  (∃ (p : Fin 2) (hold : Bool) (s : State), (s.get (VCL_CTRL.HOLD p) = (if hold then 0 else 1)) ∧
    (vsysRuns s = true)) ∧
  (∃ (p : Fin 2) (hold : Bool) (s : State), (vsysRuns s = false)) := by
  refine ⟨⟨0, false, 3, 1500, 0, up 7 [(VCL_CTRL.EN 0, 1), (VCL_CFG.LOOP 0, 0), (LP_STATUS.STATE 0, 4),
    (LP_VCFG.VMAX 0, 2000)], ?_⟩,
    ⟨0, true, 3, 1500, 0, up 7, ?_⟩,
    ⟨0, false, 3, 1500, 0, with' [(VCL_CTRL.EN 0, 1), (VCL_CFG.LOOP 0, 0), (LP_STATUS.STATE 0, 4),
      (LP_VCFG.VMAX 0, 2000)]
      { up 7 with vcl := [(0, { queue := List.replicate 8 { code := 2, tag := 0, vid := 0 } })] }, ?_⟩,
    ⟨1, true, 2, 3, 0, up 7, ?_⟩,
    ⟨1, true, 2, 400, up 7 [(VCL_CTRL.EN 1, 1)], ?_⟩,
    ⟨1, true, 2, 0, 0, up 7, ?_⟩,
    ⟨1, true, 2, 5, up 7 [(VCL_CTRL.EN 1, 1)], ?_⟩,
    ⟨1, true, 2, 0, 5, up 7, ?_⟩,
    ⟨1, true, 2, up 7, ?_⟩,
    ⟨1, up 7, ?_⟩,
    ⟨1, true, true, 2, 0, 0, 0, 3, 0, 0, 5, {}, ?_⟩,
    ⟨1, up 7, ?_⟩,
    ⟨1, { tag := 0, deadline := 5 }, { vcl := [(1, { flight := some { tag := 0, deadline := 5 } })] }, ?_⟩,
    ⟨1, {}, ?_⟩,
    ⟨1, with' [(VCL_CTRL.EN 1, 1)], ?_⟩,
    ⟨1, {}, ?_⟩,
    ⟨1, up 7 [(VCL_CFG.BAND 1, 5), (VCL_CFG.TSET 1, 5), (VCL_CFG.LOOP 1, 2), (SYS_SERVICE.LEVEL, 3)], ?_⟩,
    ⟨1, true, with' [(VCL_CTRL.HOLD 1, 1)], ?_⟩,
    ⟨1, true, up 7, ?_⟩,
    ⟨1, true, {}, ?_⟩⟩
  all_goals repeat' (first | exact Hci.booked_clear _ _ | apply And.intro)
  all_goals first | decide | rfl | nofun

/-- The hypotheses of VclDefaultSlew can be met. -/
theorem witness_VclDefaultSlew :
  (∃ (p : Fin 2) (rack : Bool) (tag : BitVec 2) (slew : BitVec 9) (s : State), (portAnswers s = true) ∧
    (s.get (VCL_CTRL.EN p) = 1) ∧ (5 ≤ slew.toNat) ∧ (slew.toNat ≤ 400)) ∧
  (∃ (p : Fin 2) (rack : Bool) (tag : BitVec 2) (vid : BitVec 12) (slew : BitVec 9) (s : State),
    (s.get (VCL_STATUS.DSLEW p) = slew.toNat) ∧ (5 ≤ slew.toNat) ∧ (slew.toNat ≤ 400)) ∧
  (∃ (p : Fin 2) (rack : Bool) (tag : BitVec 2) (q : Fin 4) (vid : BitVec 12) (slew : BitVec 9) (s : State),
    (s.get (VCL_PST.VALID p q) = 1) ∧ (s.get (VCL_PST.VID p q) = vid.toNat) ∧
    (s.get (VCL_PST.SLEW p q) = slew.toNat)) ∧
  (∃ (p : Fin 2) (s : State), (s.get (VCL_CTRL.EN p) ≠ 1) ∧ (servesFrom s 3 = true) ∧ (portReason s p = 0) ∧
    (s.get (LP_SLEW.SLEW (boundLoop s p)) < 2 ^ 9)) := by
  refine ⟨⟨1, true, 2, 400, up 7 [(VCL_CTRL.EN 1, 1)], ?_⟩,
    ⟨1, true, 2, 5, 400, with' [(VCL_STATUS.DSLEW 1, 400)], ?_⟩,
    ⟨1, true, 2, 3, 5, 0, with' [(VCL_PST.VALID 1 3, 1), (VCL_PST.VID 1 3, 5), (VCL_PST.SLEW 1 3, 0)], ?_⟩,
    ⟨1, up 7 [(VCL_CFG.BAND 1, 5), (VCL_CFG.TSET 1, 5), (VCL_CFG.LOOP 1, 2), (SYS_SERVICE.LEVEL, 3)], ?_⟩⟩
  all_goals repeat' (first | exact Hci.booked_clear _ _ | apply And.intro)
  all_goals first | decide | rfl | nofun

/-- The hypotheses of InstructionIssue can be met. -/
theorem witness_InstructionIssue :
  (∃ (c : Instr) (i : Issue) (w : Nat), (camastWord c = some (i, w))) ∧
  (∃ (c : Instr) (i : Issue) (w : Nat) (s : State), (camastWord c = some (i, w)) ∧ (running s i.eng = none)) ∧
  (∃ (c : Instr) (i : Issue) (w : Nat) (s : State) (t : Nat) (x : Task), (camastWord c = some (i, w)) ∧
    (running s i.eng = some (t, x))) ∧
  (∃ (i : Issue) (w : Nat) (s : State) (body : State → Nat → Task → State), (running s i.eng = none)) ∧
  (∃ (i : Issue) (w : Nat) (s : State) (t : Nat) (x : Task) (body : State → Nat → Task → State),
    (running s i.eng = some (t, x)) ∧ (i.fetch = .triple)) ∧
  (∃ (i : Issue) (w : Nat) (s : State) (t : Nat) (x : Task) (body : State → Nat → Task → State),
    (running s i.eng = some (t, x)) ∧ (i.fetch ≠ .triple) ∧ (s.get CAM_IMG_STATUS.CODE_LEN ≤ x.pc)) ∧
  (∃ (i : Issue) (w : Nat) (s : State) (t : Nat) (x : Task) (body : State → Nat → Task → State),
    (running s i.eng = some (t, x)) ∧ (i.fetch ≠ .triple) ∧ (x.pc < s.get CAM_IMG_STATUS.CODE_LEN) ∧
    (s.word (progAddr x.pc) ≠ w)) ∧
  (∃ (i : Issue) (w : Nat) (s : State) (t : Nat) (x : Task) (body : State → Nat → Task → State),
    (Runs i w s t x)) := by
  refine ⟨⟨.yield { eng := 0 }, { eng := 0 }, yieldWord, ?_⟩,
    ⟨.yield { eng := 0 }, { eng := 0 }, yieldWord, {}, ?_⟩,
    ⟨.yield { eng := 0 }, { eng := 0 }, yieldWord, eng, 3, { st := .run }, ?_⟩,
    ⟨{ eng := 0 }, 0, {}, fun s _ _ => s, ?_⟩,
    ⟨{ eng := 0, fetch := .triple }, 0, eng, 3, { st := .run }, fun s _ _ => s, ?_⟩,
    ⟨{ eng := 0 }, 0, eng { st := .run, pc := 10 }, 3, { st := .run, pc := 10 }, fun s _ _ => s, ?_⟩,
    ⟨{ eng := 0 }, 1, eng, 3, { st := .run }, fun s _ _ => s, ?_⟩,
    ⟨{ eng := 0, fetch := .corrected }, movRegWord 15 0, prog 0 (movRegWord 15 0) eng, 3, { st := .run },
      fun s _ _ => s, ?_⟩⟩
  all_goals repeat' (first | exact Hci.booked_clear _ _ | apply And.intro)
  all_goals first | decide | rfl | nofun

/-- The hypotheses of ArithmeticResults can be met. -/
theorem witness_ArithmeticResults :
  (∃ (i : Issue) (wd ws : Fin 16) (s : State) (t : Nat) (x : Task), (Runs i (movRegWord wd ws) s t x)) ∧
  (∃ (i : Issue) (wd : Fin 16) (imm : BitVec 22) (s : State) (t : Nat) (x : Task),
    (Runs i (movImmWord wd imm) s t x)) ∧
  (∃ (i : Issue) (wd : Fin 16) (k : BitVec 13) (read : Fetch) (s : State) (t : Nat) (x : Task),
    (Runs i (movConstWord wd k) s t x) ∧ (read ≠ .triple)) ∧
  (∃ (i : Issue) (wd : Fin 16) (k : BitVec 13) (s : State) (t : Nat) (x : Task), (Runs i (movConstWord wd k) s t x)) ∧
  (∃ (i : Issue) (wd ws : Fin 16) (src : AluSrc) (s : State) (t : Nat) (x : Task),
    (Runs i (aluWord 0x1B wd ws src) s t x)) ∧
  (∃ (i : Issue) (wd ws : Fin 16) (src : AluSrc) (s : State) (t : Nat) (x : Task),
    (Runs i (aluWord 0x1C wd ws src) s t x)) ∧
  (∃ (i : Issue) (wd ws : Fin 16) (src : AluSrc) (s : State) (t : Nat) (x : Task),
    (Runs i (aluWord 0x1D wd ws src) s t x)) ∧
  (∃ (i : Issue) (wd ws : Fin 16) (src : AluSrc) (s : State) (t : Nat) (x : Task),
    (Runs i (aluWord 0x1E wd ws src) s t x)) ∧
  (∃ (i : Issue) (ws : Fin 16) (src : AluSrc) (s : State) (t : Nat) (x : Task), (Runs i (cmpWord ws src) s t x)) ∧
  (∃ (i : Issue) (wd ws wt : Fin 16) (s : State) (t : Nat) (x : Task), (Runs i (shrWord wd ws (.reg wt)) s t x)) ∧
  (∃ (i : Issue) (wd ws : Fin 16) (n : BitVec 5) (s : State) (t : Nat) (x : Task),
    (Runs i (shrWord wd ws (.imm n)) s t x)) := by
  refine ⟨⟨{ eng := 0 }, 15, 0, prog 0 (movRegWord 15 0) eng, 3, { st := .run }, ?_⟩,
    ⟨{ eng := 0 }, 0, 0x200000, prog 0 (movImmWord 0 0x200000) eng, 3, { st := .run }, ?_⟩,
    ⟨{ eng := 0 }, 0, 8191, .corrected, prog 0 (movConstWord 0 8191) eng, 3, { st := .run }, ?_⟩,
    ⟨{ eng := 0 }, 0, 8191, prog 0 (movConstWord 0 8191) eng, 3, { st := .run }, ?_⟩,
    ⟨{ eng := 0 }, 0, 0, .imm 0x1FFFF, prog 0 (aluWord 0x1B 0 0 (.imm 0x1FFFF)) eng, 3, { st := .run }, ?_⟩,
    ⟨{ eng := 0 }, 0, 0, .reg 0, prog 0 (aluWord 0x1C 0 0 (.reg 0)) eng, 3, { st := .run }, ?_⟩,
    ⟨{ eng := 0 }, 0, 0, .imm 0x1FFFF, prog 0 (aluWord 0x1D 0 0 (.imm 0x1FFFF)) eng, 3, { st := .run }, ?_⟩,
    ⟨{ eng := 0 }, 0, 0, .reg 0, prog 0 (aluWord 0x1E 0 0 (.reg 0)) eng, 3, { st := .run }, ?_⟩,
    ⟨{ eng := 0 }, 0, .reg 0, prog 0 (cmpWord 0 (.reg 0)) eng, 3, { st := .run }, ?_⟩,
    ⟨{ eng := 0 }, 15, 0, 1, prog 0 (shrWord 15 0 (.reg 1)) eng, 3, { st := .run }, ?_⟩,
    ⟨{ eng := 0 }, 0, 0, 31, prog 0 (shrWord 0 0 (.imm 31)) eng, 3, { st := .run }, ?_⟩⟩
  all_goals repeat' (first | exact Hci.booked_clear _ _ | apply And.intro)
  all_goals first | decide | rfl | nofun

/-- The hypotheses of FlowInstructions can be met. -/
theorem witness_FlowInstructions :
  (∃ (i : Issue) (target : BitVec 13) (s : State) (t : Nat) (x : Task), (Runs i (jmpWord target) s t x)) ∧
  (∃ (i : Issue) (cond : Cond) (target : BitVec 13) (s : State) (t : Nat) (x : Task),
    (Runs i (bccWord cond target) s t x)) ∧
  (∃ (i : Issue) (target : BitVec 13) (s : State) (t : Nat) (x : Task), (Runs i (callWord target) s t x) ∧
    (x.stack.length < 8)) ∧
  (∃ (i : Issue) (target : BitVec 13) (s : State) (t : Nat) (x : Task), (Runs i (callWord target) s t x) ∧
    (8 ≤ x.stack.length)) ∧
  (∃ (i : Issue) (a : Nat) (rest : List Nat) (s : State) (t : Nat) (x : Task), (Runs i retWord s t x) ∧
    (x.stack = a :: rest)) ∧
  (∃ (i : Issue) (s : State) (t : Nat) (x : Task), (Runs i retWord s t x) ∧ (x.stack = [])) ∧
  (∃ (i : Issue) (m : Fin 16) (prio cls : BitVec 3) (entry : BitVec 13) (s : State) (t : Nat) (x : Task),
    (Runs i (taskWord m prio cls entry) s t x) ∧ (m.val ≠ 15) ∧
    (((issued i s t x).task i.eng m).st = .idle ∨ ((issued i s t x).task i.eng m).st = .faulted)) ∧
  (∃ (i : Issue) (m : Fin 16) (prio cls : BitVec 3) (entry : BitVec 13) (s : State) (t : Nat) (x : Task),
    (Runs i (taskWord m prio cls entry) s t x) ∧ (m.val ≠ 15) ∧ (((issued i s t x).task i.eng m).st ≠ .idle) ∧
    (((issued i s t x).task i.eng m).st ≠ .faulted)) ∧
  (∃ (i : Issue) (prio cls : BitVec 3) (entry : BitVec 13) (s : State) (t : Nat) (x : Task),
    (Runs i (taskWord 15 prio cls entry) s t x)) ∧
  (∃ (i : Issue) (s : State) (t : Nat) (x : Task), (Runs i yieldWord s t x)) ∧
  (∃ (e : Fin 4) (s : State), (engineRuns s e = true) ∧ ((s.engine e).cur = none)) ∧
  (∃ (e : Fin 4) (s : State), (engineRuns s e = false ∨ (s.engine e).cur ≠ none)) := by
  refine ⟨⟨{ eng := 0 }, 8191, prog 0 (jmpWord 8191) eng, 3, { st := .run }, ?_⟩,
    ⟨{ eng := 0 }, .ra, 5, prog 0 (bccWord .ra 5) eng, 3, { st := .run }, ?_⟩,
    ⟨{ eng := 0 }, 5, prog 0 (callWord 5) eng, 3, { st := .run }, ?_⟩,
    ⟨{ eng := 0 }, 5, prog 0 (callWord 5) (eng { st := .run, stack := [1, 2, 3, 4, 5, 6, 7, 8] }), 3,
      { st := .run, stack := [1, 2, 3, 4, 5, 6, 7, 8] }, ?_⟩,
    ⟨{ eng := 0 }, 7, [], prog 0 retWord (eng { st := .run, stack := [7] }), 3, { st := .run, stack := [7] }, ?_⟩,
    ⟨{ eng := 0 }, prog 0 retWord eng, 3, { st := .run }, ?_⟩,
    ⟨{ eng := 0 }, 14, 7, 7, 5, prog 0 (taskWord 14 7 7 5) eng, 3, { st := .run }, ?_⟩,
    ⟨{ eng := 0 }, 3, 7, 7, 5, prog 0 (taskWord 3 7 7 5) eng, 3, { st := .run }, ?_⟩,
    ⟨{ eng := 0 }, 7, 7, 5, prog 0 (taskWord 15 7 7 5) eng, 3, { st := .run }, ?_⟩,
    ⟨{ eng := 0 }, prog 0 yieldWord eng, 3, { st := .run }, ?_⟩,
    ⟨1, with' [(CAM_CTRL.EN 1, 1), (CAM_STATUS.STATE 1, 3)], ?_⟩,
    ⟨1, {}, ?_⟩⟩
  all_goals repeat' (first | exact Hci.booked_clear _ _ | apply And.intro)
  all_goals first | decide | rfl | nofun

/-- The hypotheses of DispatcherChoice can be met. -/
theorem witness_DispatcherChoice :
  (∃ (s : State) (e : Nat), (engineRuns s e = true) ∧ (candidates s e = [])) ∧
  (∃ (s : State) (e : Nat), (engineRuns s e = true) ∧ (candidates s e ≠ []) ∧
    (∀ k ∈ candidates s e, (s.task e k).st = .ready)) ∧
  (∃ (s : State) (e : Nat) (cands : List Nat) (t : Nat), (cands.Pairwise (· < ·)) ∧ (choose s e cands = some t)) ∧
  (∃ (s : State) (e t : Nat), (engineRuns s e = true) ∧ (choose s e (candidates s e) = some t) ∧
    ((s.task e t).st = .ready)) ∧
  (∃ (s u : State) (e t c : Nat), (engineRuns s e = true) ∧ (choose s e (candidates s e) = some t) ∧
    (pendingClaim s e t = some c) ∧ (ledgerGrant s c = some u) ∧ (engineRuns u e = true) ∧
    ((u.task e t).st = (s.task e t).st) ∧ (hasRevoked u e t = false)) ∧
  (∃ (s : State) (e t c n : Nat) (cands : List Nat), (choose s e cands = some t) ∧ (pendingClaim s e t = some c)) ∧
  (∃ (s : State) (e t n : Nat) (cands : List Nat), (choose s e cands = some t) ∧ ((s.task e t).st = .ready)) ∧
  (∃ (s : State) (e : Nat), (engineRuns s e = false)) := by
  refine ⟨⟨with' [(CAM_CTRL.EN 1, 1), (CAM_STATUS.STATE 1, 3)], 1, ?_⟩,
    ⟨with' [(CAM_CTRL.EN 1, 1), (CAM_STATUS.STATE 1,
      3)] { tasks := [(16, { st := .ready }), (18, { st := .ready, prio := 2 })] }, 1, ?_⟩,
    ⟨{ engines := [(0, { lastRun := [(2, 5)] })], tasks := [(3, { prio := 2 }), (7, { prio := 2 })] }, 0, [3, 7], 7,
      ?_⟩,
    ⟨with' [(CAM_CTRL.EN 1, 1), (CAM_STATUS.STATE 1,
      3)] { tasks := [(16, { st := .ready }), (18, { st := .ready, prio := 2 })] }, 1, 2, ?_⟩,
    ⟨{ with' [(CAM_CTRL.EN 0, 1), (CAM_STATUS.STATE 0, 3), (NRG_BUDGET.VAL, 100)] with tasks := [(3, { st := .claimwait, wait := some (.claim 5 none) })], claims := [(5, { st := .pending, fit := true, amount := 7, eng := 0, task := 3 })], now := 10000000 }, grant { with' [(CAM_CTRL.EN 0, 1), (CAM_STATUS.STATE 0, 3), (NRG_BUDGET.VAL, 100)] with tasks := [(3, { st := .claimwait, wait := some (.claim 5 none) })], claims := [(5, { st := .pending, fit := true, amount := 7, eng := 0, task := 3 })], now := 10000000 } 5, 0, 3, 5, ?_⟩,
    ⟨{ tasks := [(3, { st := .claimwait, wait := some (.claim 5 none) })] }, 0, 3, 5, 7, [3], ?_⟩,
    ⟨{ tasks := [(3, { st := .ready })] }, 0, 3, 7, [3], ?_⟩,
    ⟨{}, 0, ?_⟩⟩
  all_goals repeat' (first | exact Hci.booked_clear _ _ | apply And.intro)
  all_goals first | decide | rfl | nofun

/-- The hypotheses of PowerInstructions can be met. -/
theorem witness_PowerInstructions :
  (∃ (i : Issue) (rail : Rail) (wd : Fin 16) (s : State) (t : Nat) (x : Task), (Runs i (railonWord rail wd) s t x) ∧
    (t = 15)) ∧
  (∃ (i : Issue) (rail : Rail) (wd : Fin 16) (s : State) (t : Nat) (x : Task), (Runs i (railonWord rail wd) s t x) ∧
    (t ≠ 15) ∧ (covering (issued i s t x) i.eng t rail .revoked = true)) ∧
  (∃ (i : Issue) (rail : Rail) (wd : Fin 16) (s : State) (t : Nat) (x : Task), (Runs i (railonWord rail wd) s t x) ∧
    (t ≠ 15) ∧ (covering (issued i s t x) i.eng t rail .revoked = false) ∧
    (covering (issued i s t x) i.eng t rail .granted = false)) ∧
  (∃ (i : Issue) (rail : Rail) (wd : Fin 16) (s : State) (t : Nat) (x : Task), (Runs i (railonWord rail wd) s t x) ∧
    (t ≠ 15) ∧ (covering (issued i s t x) i.eng t rail .revoked = false) ∧
    (covering (issued i s t x) i.eng t rail .granted = true) ∧ (draining (issued i s t x) rail = true)) ∧
  (∃ (i : Issue) (rail : Rail) (wd : Fin 16) (s : State) (t : Nat) (x : Task), (Runs i (railonWord rail wd) s t x) ∧
    (t ≠ 15) ∧ (covering (issued i s t x) i.eng t rail .revoked = false) ∧
    (covering (issued i s t x) i.eng t rail .granted = true) ∧ (draining (issued i s t x) rail = false) ∧
    ((issued i s t x).get (railEn rail) = 1)) ∧
  (∃ (i : Issue) (rail : Rail) (wd : Fin 16) (s : State) (t : Nat) (x : Task), (Runs i (railonWord rail wd) s t x) ∧
    (t ≠ 15) ∧ (covering (issued i s t x) i.eng t rail .revoked = false) ∧
    (covering (issued i s t x) i.eng t rail .granted = true) ∧ (draining (issued i s t x) rail = false) ∧
    ((issued i s t x).get (railEn rail) ≠ 1)) ∧
  (∃ (e : Fin 4) (t : Nat) (r : Rail) (wd : Nat) (s : State), ((s.engine e).cur = some t) ∧
    ((s.task e t).wait = some (.drain r wd)) ∧ (draining s r = false)) ∧
  (∃ (e : Fin 4) (s : State), (∀ t r wd, (s.engine e).cur = some t → (s.task e t).wait = some (.drain r wd) →
    draining s r = true)) ∧
  (∃ (x : Task) (wd code : Nat), (code < 256)) ∧
  (∃ (i : Issue) (rail : Rail) (s : State) (t : Nat) (x : Task), (Runs i (railoffWord rail) s t x)) ∧
  (∃ (i : Issue) (rail : Rail) (src : SetvSrc) (wd : Fin 16) (s : State) (t : Nat) (x : Task),
    (Runs i (setvWord rail src wd) s t x)) := by
  refine ⟨⟨{ eng := 0 }, .lp 0, 0, prog 0 (railonWord (.lp 0) 0)
    { eng with engines := [(0, { cur := some 15 })], tasks := [(15, { st := .run })] }, 15, { st := .run }, ?_⟩,
    ⟨{ eng := 0 }, .lp 0, 0, prog 0 (railonWord (.lp 0) 0)
      (eng { st := .run } [] { claims := [(0, { st := .revoked, rails := 1, eng := 0, task := 3 })] }), 3,
      { st := .run }, ?_⟩,
    ⟨{ eng := 0 }, .lp 0, 0, prog 0 (railonWord (.lp 0) 0) eng, 3, { st := .run }, ?_⟩,
    ⟨{ eng := 0 }, .lp 0, 0, prog 0 (railonWord (.lp 0) 0) (eng { st := .run } [(LP_STATUS.STATE 0, 5),
      (LP_CTRL.EN 0, 1)] { claims := [(0, { st := .granted, rails := 1, eng := 0, task := 3 })] }), 3, { st := .run },
      ?_⟩,
    ⟨{ eng := 0 }, .lp 0, 0, prog 0 (railonWord (.lp 0) 0) (eng { st := .run } [(LP_STATUS.STATE 0, 4),
      (LP_CTRL.EN 0, 1)] { claims := [(0, { st := .granted, rails := 1, eng := 0, task := 3 })] }), 3, { st := .run },
      ?_⟩,
    ⟨{ eng := 0 }, .lp 0, 0, prog 0 (railonWord (.lp 0) 0)
      (eng { st := .run } [] { claims := [(0, { st := .granted, rails := 1, eng := 0, task := 3 })] }), 3,
      { st := .run }, ?_⟩,
    ⟨0, 3, .lp 0, 1, { claims := [(0, { st := .granted, rails := 1, eng := 0, task := 3 })], engines := [(0, { cur := some 3 })], tasks := [(3, { st := .run, wait := some (.drain (.lp 0) 1) })] }, ?_⟩,
    ⟨0, {}, ?_⟩,
    ⟨{}, 0, 0x81, ?_⟩,
    ⟨{ eng := 0 }, .sw 0, prog 0 (railoffWord (.sw 0)) eng, 3, { st := .run }, ?_⟩,
    ⟨{ eng := 0 }, .lp 0, .imm 5, 0, prog 0 (setvWord (.lp 0) (.imm 5) 0) eng, 3, { st := .run }, ?_⟩⟩
  all_goals repeat' (first | exact Hci.booked_clear _ _ | apply And.intro)
  all_goals first | decide | rfl | nofun

/-- The hypotheses of SlewAndPhases can be met. -/
theorem witness_SlewAndPhases :
  (∃ (i : Issue) (n : Fin 6) (slew : BitVec 9) (wd : Fin 16) (s : State) (t : Nat) (x : Task),
    (Runs i (setslewWord (.lp n) slew wd) s t x) ∧ (5 ≤ slew.toNat) ∧ (slew.toNat ≤ 400)) ∧
  (∃ (i : Issue) (n : Fin 6) (slew : BitVec 9) (wd : Fin 16) (s : State) (t : Nat) (x : Task),
    (Runs i (setslewWord (.lp n) slew wd) s t x) ∧ (slew.toNat < 5 ∨ 400 < slew.toNat)) ∧
  (∃ (i : Issue) (n : Fin 6) (ws wd : Fin 16) (s : State) (t : Nat) (x : Task),
    (Runs i (phasesWord (.lp n) ws wd) s t x) ∧ (s.get (LP_CTRL.EN n) ≠ 1)) ∧
  (∃ (i : Issue) (n : Fin 6) (ws wd : Fin 16) (s : State) (t : Nat) (x : Task),
    (Runs i (phasesWord (.lp n) ws wd) s t x) ∧ (s.get (LP_CTRL.EN n) = 1)) ∧
  (∃ (i : Issue) (r : Rail) (slew : BitVec 9) (wd : Fin 16) (s : State) (t : Nat) (x : Task),
    (Runs i (setslewWord r slew wd) s t x) ∧ (∀ n, r ≠ .lp n)) ∧
  (∃ (i : Issue) (r : Rail) (ws wd : Fin 16) (s : State) (t : Nat) (x : Task), (Runs i (phasesWord r ws wd) s t x) ∧
    (∀ n, r ≠ .lp n)) := by
  refine ⟨⟨{ eng := 0 }, 0, 400, 1, prog 0 (setslewWord (.lp 0) 400 1) eng, 3, { st := .run }, ?_⟩,
    ⟨{ eng := 0 }, 0, 401, 1, prog 0 (setslewWord (.lp 0) 401 1) eng, 3, { st := .run }, ?_⟩,
    ⟨{ eng := 0 }, 0, 1, 1, prog 0 (phasesWord (.lp 0) 1 1) eng, 3, { st := .run }, ?_⟩,
    ⟨{ eng := 0 }, 0, 1, 1, prog 0 (phasesWord (.lp 0) 1 1) (eng { st := .run } [(LP_CTRL.EN 0, 1)]), 3,
      { st := .run }, ?_⟩,
    ⟨{ eng := 0 }, .bk 0, 5, 2, prog 0 (setslewWord (.bk 0) 5 2) eng, 3, { st := .run }, ?_⟩,
    ⟨{ eng := 0 }, .bk 0, 1, 2, prog 0 (phasesWord (.bk 0) 1 2) eng, 3, { st := .run }, ?_⟩⟩
  all_goals repeat' (first | exact Hci.booked_clear _ _ | apply And.intro)
  all_goals first | decide | rfl | nofun

/-- The hypotheses of WaitInstructions can be met. -/
theorem witness_WaitInstructions :
  (∃ (i : Issue) (ch : Fin 64) (dl : BitVec 16) (s : State) (t : Nat) (x : Task), (Runs i (waitpgWord ch dl) s t x) ∧
    ((issued i s t x).get (SUP_STAT.PGS ch) = 1)) ∧
  (∃ (i : Issue) (ch : Fin 64) (dl : BitVec 16) (s : State) (t : Nat) (x : Task), (Runs i (waitpgWord ch dl) s t x) ∧
    ((issued i s t x).get (SUP_STAT.PGS ch) ≠ 1)) ∧
  (∃ (i : Issue) (dur : BitVec 16) (sl : BitVec 8) (s : State) (t : Nat) (x : Task),
    (Runs i (waittWord dur sl) s t x)) ∧
  (∃ (i : Issue) (src : BitVec 9) (dl : BitVec 16) (s : State) (t : Nat) (x : Task),
    (Runs i (waitevWord src true dl) s t x) ∧ (srcPending (issued i s t x) src.toNat = true)) ∧
  (∃ (i : Issue) (src : BitVec 9) (l : Bool) (dl : BitVec 16) (s : State) (t : Nat) (x : Task),
    (Runs i (waitevWord src l dl) s t x) ∧ (l = false ∨ srcPending (issued i s t x) src.toNat = false)) ∧
  (∃ (i : Issue) (n : BitVec 8) (dl : BitVec 16) (s : State) (t : Nat) (x : Task),
    (Runs i (waitstepWord n dl) s t x) ∧ (n.toNat ≤ ringState (issued i s t x))) ∧
  (∃ (i : Issue) (n : BitVec 8) (dl : BitVec 16) (s : State) (t : Nat) (x : Task),
    (Runs i (waitstepWord n dl) s t x) ∧ (ringState (issued i s t x) < n.toNat)) ∧
  (∃ (u : State) (e t : Nat) (x : Task) (w : Wait), (hasRevoked u e t = false)) ∧
  (∃ (u : State) (e t : Nat) (x : Task) (w : Wait), (hasRevoked u e t = true)) ∧
  (∃ (e : Fin 4) (t : Fin 16) (ready dl : Nat) (s : State), ((s.task e t).st = .wait) ∧
    ((s.task e t).wait = some (.time ready dl))) ∧
  (∃ (e : Fin 4) (t : Fin 16) (d : Nat) (s : State), (waitDeadlineOf (s.task e t) = some d)) ∧
  (∃ (e : Fin 4) (t : Nat) (r : Nat) (s : State), ((s.engine e).cur = some t) ∧ (countsAsRun (s.task e t) = true) ∧
    ((s.task e t).runAt = some r)) := by
  refine ⟨⟨{ eng := 0 }, 63, 5, prog 0 (waitpgWord 63 5) (eng { st := .run } [(SUP_STAT.PGS 63, 1)]), 3,
    { st := .run }, ?_⟩,
    ⟨{ eng := 0 }, 63, 5, prog 0 (waitpgWord 63 5) eng, 3, { st := .run }, ?_⟩,
    ⟨{ eng := 0 }, 0x4001, 255, prog 0 (waittWord 0x4001 255) eng, 3, { st := .run }, ?_⟩,
    ⟨{ eng := 0 }, 0xE4, 5, prog 0 (waitevWord 0xE4 true 5) (eng { st := .run } [(INTC_SRC.STATE 0xE4, 1)]), 3,
      { st := .run }, ?_⟩,
    ⟨{ eng := 0 }, 0xE4, true, 5, prog 0 (waitevWord 0xE4 true 5) eng, 3, { st := .run }, ?_⟩,
    ⟨{ eng := 0 }, 0, 5, prog 0 (waitstepWord 0 5) eng, 3, { st := .run }, ?_⟩,
    ⟨{ eng := 0 }, 255, 5, prog 0 (waitstepWord 255 5) eng, 3, { st := .run }, ?_⟩,
    ⟨{}, 0, 0, {}, .pg 0 none, ?_⟩,
    ⟨{ claims := [(0, { st := .revoked, eng := 0, task := 3 })] }, 0, 3, {}, .pg 0 none, ?_⟩,
    ⟨0, 3, 50, 70, { tasks := [(3, { st := .wait, wait := some (.time 50 70) })] }, ?_⟩,
    ⟨0, 3, 70, { tasks := [(3, { st := .wait, wait := some (.time 50 70) })] }, ?_⟩,
    ⟨0, 3, 9, eng { st := .run, runAt := some 9 }, ?_⟩⟩
  all_goals repeat' (first | exact Hci.booked_clear _ _ | apply And.intro)
  all_goals first | decide | rfl | nofun

/-- The hypotheses of ExceptionEntry can be met. -/
theorem witness_ExceptionEntry :
  (∃ (e t cause : Nat) (s : State), (vectorOf (raiseExc (recordExc s e t cause) e t cause) e cause ≠ noEntry) ∧
    (cause = 6 ∨ ((raiseExc (recordExc s e t cause) e t cause).task e t).stack.length < 8)) ∧
  (∃ (e t cause : Nat) (s : State), (vectorOf (raiseExc (recordExc s e t cause) e t cause) e cause = noEntry)) ∧
  (∃ (e t cause : Nat) (s : State), (cause ≠ 6) ∧
    (8 ≤ ((raiseExc (recordExc s e t cause) e t cause).task e t).stack.length)) := by
  refine ⟨⟨0, 3, 7, { engines := [(0, { tab := { vAbort := 7 } })] }, ?_⟩,
    ⟨0, 3, 7, {}, ?_⟩,
    ⟨0, 3, 7, { engines := [(0, { tab := { vAbort := 7 } })], tasks := [(3, { stack := [1, 2, 3, 4, 5, 6, 7, 8] })] },
      ?_⟩⟩
  all_goals repeat' (first | exact Hci.booked_clear _ _ | apply And.intro)
  all_goals first | decide | rfl | nofun

/-- The hypotheses of LedgerInstructions can be met. -/
theorem witness_LedgerInstructions :
  (∃ (i : Issue) (id : Fin 64) (dl : BitVec 16) (s : State) (t : Nat) (x : Task), (Runs i (claimWord id dl) s t x) ∧
    (claimAllowed (issued i s t x) i.eng id = false)) ∧
  (∃ (i : Issue) (id : Fin 64) (dl : BitVec 16) (s : State) (t : Nat) (x : Task), (Runs i (claimWord id dl) s t x) ∧
    (claimAllowed (issued i s t x) i.eng id = true) ∧ (t = 15)) ∧
  (∃ (i : Issue) (id : Fin 64) (dl : BitVec 16) (s : State) (t : Nat) (x : Task), (Runs i (claimWord id dl) s t x) ∧
    (claimAllowed (issued i s t x) i.eng id = true) ∧ (t ≠ 15) ∧ (owns (issued i s t x) i.eng t id .granted = true)) ∧
  (∃ (i : Issue) (id : Fin 64) (dl : BitVec 16) (s : State) (t : Nat) (x : Task), (Runs i (claimWord id dl) s t x) ∧
    (claimAllowed (issued i s t x) i.eng id = true) ∧ (t ≠ 15) ∧ (((issued i s t x).claim id).st ≠ .free) ∧
    (owns (issued i s t x) i.eng t id .granted = false) ∧ (owns (issued i s t x) i.eng t id .revoked = false)) ∧
  (∃ (i : Issue) (id : Fin 64) (dl : BitVec 16) (s : State) (t : Nat) (x : Task), (Runs i (claimWord id dl) s t x) ∧
    (claimAllowed (issued i s t x) i.eng id = true) ∧ (t ≠ 15) ∧ (((issued i s t x).claim id).st = .free) ∧
    (grantsNow (submitClaim (issued i s t x) id i.eng t x.cls) id = true)) ∧
  (∃ (i : Issue) (id : Fin 64) (dl : BitVec 16) (s : State) (t : Nat) (x : Task), (Runs i (claimWord id dl) s t x) ∧
    (claimAllowed (issued i s t x) i.eng id = true) ∧ (t ≠ 15) ∧ (((issued i s t x).claim id).st = .free) ∧
    (hasRevoked (issued i s t x) i.eng t = false) ∧
    (grantsNow (submitClaim (issued i s t x) id i.eng t x.cls) id = false)) ∧
  (∃ (i : Issue) (id : Fin 64) (dl : BitVec 16) (s : State) (t : Nat) (x : Task), (Runs i (claimWord id dl) s t x) ∧
    (claimAllowed (issued i s t x) i.eng id = true) ∧ (t ≠ 15) ∧ (owns (issued i s t x) i.eng t id .granted = false) ∧
    (owns (issued i s t x) i.eng t id .revoked = true)) ∧
  (∃ (i : Issue) (id : Fin 64) (dl : BitVec 16) (s : State) (t : Nat) (x : Task), (Runs i (claimWord id dl) s t x) ∧
    (claimAllowed (issued i s t x) i.eng id = true) ∧ (t ≠ 15) ∧ (((issued i s t x).claim id).st = .free) ∧
    (hasRevoked (issued i s t x) i.eng t = true) ∧
    (grantsNow (submitClaim (issued i s t x) id i.eng t x.cls) id = false)) ∧
  (∃ (e : Fin 4) (t : Fin 16) (c d : Nat) (s : State), ((s.task e t).st = .claimwait) ∧
    ((s.task e t).wait = some (.claim c (some d)))) ∧
  (∃ (i : Issue) (id : Fin 64) (s : State) (t : Nat) (x : Task), (Runs i (releaseWord id) s t x) ∧
    (claimAllowed (issued i s t x) i.eng id = true) ∧ (owns (issued i s t x) i.eng t id .granted = true)) ∧
  (∃ (i : Issue) (id : Fin 64) (s : State) (t : Nat) (x : Task), (Runs i (releaseWord id) s t x) ∧
    (claimAllowed (issued i s t x) i.eng id = true) ∧ (owns (issued i s t x) i.eng t id .granted = false) ∧
    (owns (issued i s t x) i.eng t id .revoked = true)) ∧
  (∃ (i : Issue) (id : Fin 64) (s : State) (t : Nat) (x : Task), (Runs i (releaseWord id) s t x) ∧
    (claimAllowed (issued i s t x) i.eng id = true) ∧ (owns (issued i s t x) i.eng t id .granted = false) ∧
    (owns (issued i s t x) i.eng t id .revoked = false)) ∧
  (∃ (i : Issue) (id : Fin 64) (ws : Fin 16) (s : State) (t : Nat) (x : Task), (Runs i (reclaimWord id ws) s t x) ∧
    (claimAllowed (issued i s t x) i.eng id = true) ∧ (owns (issued i s t x) i.eng t id .granted = true)) ∧
  (∃ (i : Issue) (id : Fin 64) (ws : Fin 16) (s : State) (t : Nat) (x : Task), (Runs i (reclaimWord id ws) s t x) ∧
    (claimAllowed (issued i s t x) i.eng id = true) ∧ (owns (issued i s t x) i.eng t id .granted = false)) ∧
  (∃ (i : Issue) (id : Fin 64) (s : State) (t : Nat) (x : Task), (Runs i (releaseWord id) s t x) ∧
    (claimAllowed (issued i s t x) i.eng id = false)) ∧
  (∃ (i : Issue) (id : Fin 64) (ws : Fin 16) (s : State) (t : Nat) (x : Task), (Runs i (reclaimWord id ws) s t x) ∧
    (claimAllowed (issued i s t x) i.eng id = false)) ∧
  (∃ (s : State) (c v : Nat), (v < (s.claim c).amount)) ∧
  (∃ (s : State) (c v : Nat), ((s.claim c).amount ≤ v) ∧
    (v - (s.claim c).amount ≤ steadyRoom s (s.claim c).cls (s.claim c).revokedAt (earmark s))) ∧
  (∃ (s : State) (c v : Nat), ((s.claim c).amount ≤ v) ∧
    (steadyRoom s (s.claim c).cls (s.claim c).revokedAt (earmark s) < v - (s.claim c).amount)) := by
  refine ⟨⟨{ eng := 0 }, 5, 7, prog 0 (claimWord 5 7) (eng { st := .run } [] { claims := [(5, {  })] }), 3,
    { st := .run }, ?_⟩,
    ⟨{ eng := 0 }, 5, 7, prog 0 (claimWord 5 7)
      { eng with engines := [(0, { cur := some 15 })], tasks := [(15, { st := .run })], claims := [(5, { st := .free, engines := 1 })] }, 15, { st := .run }, ?_⟩,
    ⟨{ eng := 0 }, 5, 7, prog 0 (claimWord 5 7)
      (eng { st := .run } [] { claims := [(5, { st := .granted, engines := 1, eng := 0, task := 3 })] }), 3,
      { st := .run }, ?_⟩,
    ⟨{ eng := 0 }, 5, 7, prog 0 (claimWord 5 7)
      (eng { st := .run } [] { claims := [(5, { st := .granted, engines := 1, eng := 0, task := 4 })] }), 3,
      { st := .run }, ?_⟩,
    ⟨{ eng := 0 }, 5, 7, prog 0 (claimWord 5 7)
      (eng { st := .run } [] { claims := [(5, { st := .free, engines := 1 })] }), 3, { st := .run }, ?_⟩,
    ⟨{ eng := 0 }, 5, 7, prog 0 (claimWord 5 7)
      (eng { st := .run } [] { claims := [(5, { st := .free, engines := 1, descAmount := 90000 })] }), 3,
      { st := .run }, ?_⟩,
    ⟨{ eng := 0 }, 5, 7, prog 0 (claimWord 5 7)
      (eng { st := .run } [] { claims := [(5, { st := .revoked, engines := 1, eng := 0, task := 3 })] }), 3,
      { st := .run }, ?_⟩,
    ⟨{ eng := 0 }, 5, 7, prog 0 (claimWord 5 7)
      (eng { st := .run } []
      { claims := [(4, { st := .revoked, engines := 1, eng := 0, task := 3 }), (5, { st := .free, engines := 1, descAmount := 90000 })] }), 3, { st := .run }, ?_⟩,
    ⟨0, 3, 5, 7, { tasks := [(3, { st := .claimwait, wait := some (.claim 5 (some 7)) })] }, ?_⟩,
    ⟨{ eng := 0 }, 5, prog 0 (releaseWord 5)
      (eng { st := .run } [] { claims := [(5, { st := .granted, engines := 1, eng := 0, task := 3 })] }), 3,
      { st := .run }, ?_⟩,
    ⟨{ eng := 0 }, 5, prog 0 (releaseWord 5)
      (eng { st := .run } [] { claims := [(5, { st := .revoked, engines := 1, eng := 0, task := 3 })] }), 3,
      { st := .run }, ?_⟩,
    ⟨{ eng := 0 }, 5, prog 0 (releaseWord 5)
      (eng { st := .run } [] { claims := [(5, { st := .granted, engines := 1, eng := 0, task := 4 })] }), 3,
      { st := .run }, ?_⟩,
    ⟨{ eng := 0 }, 5, 0, prog 0 (reclaimWord 5 0)
      (eng { st := .run } [] { claims := [(5, { st := .granted, engines := 1, eng := 0, task := 3 })] }), 3,
      { st := .run }, ?_⟩,
    ⟨{ eng := 0 }, 5, 0, prog 0 (reclaimWord 5 0)
      (eng { st := .run } [] { claims := [(5, { st := .granted, engines := 1, eng := 0, task := 4 })] }), 3,
      { st := .run }, ?_⟩,
    ⟨{ eng := 0 }, 5, prog 0 (releaseWord 5) eng, 3, { st := .run }, ?_⟩,
    ⟨{ eng := 0 }, 5, 7, prog 0 (reclaimWord 5 7) eng, 3, { st := .run }, ?_⟩,
    ⟨{ claims := [(5, { amount := 9 })] }, 5, 3, ?_⟩,
    ⟨{ claims := [(5, { amount := 9 })] }, 5, 9, ?_⟩,
    ⟨{ claims := [(5, { amount := 9 })] }, 5, 999999, ?_⟩⟩
  all_goals repeat' (first | exact Hci.booked_clear _ _ | apply And.intro)
  all_goals first | decide | rfl | nofun

/-- The hypotheses of ReportingInstructions can be met. -/
theorem witness_ReportingInstructions :
  (∃ (i : Issue) (code : BitVec 8) (s : State) (t : Nat) (x : Task), (Runs i (raiseWord code) s t x) ∧
    (((issued i s t x).engine i.eng).raiseQ.length < 8)) ∧
  (∃ (i : Issue) (code : BitVec 8) (s : State) (t : Nat) (x : Task), (Runs i (raiseWord code) s t x) ∧
    (8 ≤ ((issued i s t x).engine i.eng).raiseQ.length)) ∧
  (∃ (i : Issue) (code : BitVec 8) (ws : Fin 16) (s : State) (t : Nat) (x : Task), (Runs i (logWord code ws) s t x)) ∧
  (∃ (i : Issue) (code : BitVec 8) (s : State) (t : Nat) (x : Task), (Runs i (snapWord code) s t x)) ∧
  (∃ (i : Issue) (wd : Fin 16) (ch : BitVec 7) (s : State) (t : Nat) (x : Task),
    (Runs i (rdadcWord wd ch false) s t x)) ∧
  (∃ (i : Issue) (wd : Fin 16) (ch : Fin 64) (s : State) (t : Nat) (x : Task), (Runs i (rdsupWord wd ch) s t x)) ∧
  (∃ (i : Issue) (wd : Fin 16) (ch : BitVec 7) (s : State) (t : Nat) (x : Task),
    (Runs i (rdadcWord wd ch true) s t x) ∧ (0x40 ≤ ch.toNat ∨ ch.toNat = 0x1D)) ∧
  (∃ (i : Issue) (wd : Fin 16) (ch : BitVec 7) (s : State) (t : Nat) (x : Task),
    (Runs i (rdadcWord wd ch true) s t x) ∧ (ch.toNat < 0x40) ∧ (ch.toNat ≠ 0x1D)) := by
  refine ⟨⟨{ eng := 0 }, 255, prog 0 (raiseWord 255) eng, 3, { st := .run }, ?_⟩,
    ⟨{ eng := 0 }, 255, prog 0 (raiseWord 255) (with' [(CAM_CTRL.EN 0, 1), (CAM_STATUS.STATE 0, 2),
      (CAM_IMG_STATUS.CODE_LEN, 10)]
      { engines := [(0, { cur := some 3, raiseQ := List.replicate 8 (1, 2) })], tasks := [(3, { st := .run })] }), 3,
      { st := .run }, ?_⟩,
    ⟨{ eng := 0 }, 255, 15, prog 0 (logWord 255 15) eng, 3, { st := .run }, ?_⟩,
    ⟨{ eng := 0 }, 255, prog 0 (snapWord 255) eng, 3, { st := .run }, ?_⟩,
    ⟨{ eng := 0 }, 0, 0x70, prog 0 (rdadcWord 0 0x70 false) eng, 3, { st := .run }, ?_⟩,
    ⟨{ eng := 0 }, 0, 63, prog 0 (rdsupWord 0 63) eng, 3, { st := .run }, ?_⟩,
    ⟨{ eng := 0 }, 0, 0x1D, prog 0 (rdadcWord 0 0x1D true) eng, 3, { st := .run }, ?_⟩,
    ⟨{ eng := 0 }, 0, 0x3F, prog 0 (rdadcWord 0 0x3F true) eng, 3, { st := .run }, ?_⟩⟩
  all_goals repeat' (first | exact Hci.booked_clear _ _ | apply And.intro)
  all_goals first | decide | rfl | nofun

/-- The hypotheses of EnginesStartAndStop can be met. -/
theorem witness_EnginesStartAndStop :
  (∃ (e : Fin 4) (s : State), (s.get (CAM_CTRL.EN e) = 1)) ∧
  (∃ (e : Fin 4) (s : State), (s.get (CAM_CTRL.EN e) ≠ 1) ∧ (servesAt s 2 = true) ∧ (engineReason s e ≠ 0)) ∧
  (∃ (e : Fin 4) (s : State), (servesAt s 2 = false)) ∧
  (∃ (e : Fin 4) (s : State), (s.get (CAM_CTRL.EN e) ≠ 1) ∧ (servesAt s 2 = true) ∧ (engineReason s e = 0)) ∧
  (∃ (r : Rail) (s : State), (latestCommit s (romRails s) = some r)) ∧
  (∃ (s : State), (latestCommit s (romRails s) = none)) := by
  refine ⟨⟨3, with' [(CAM_CTRL.EN 3, 1)], ?_⟩,
    ⟨3, up 7 [(SYS_SERVICE.LEVEL, 2)], ?_⟩,
    ⟨3, {}, ?_⟩,
    ⟨3, with' [(CAM_IMG_STATUS.LOADED, 1), (SYS_SERVICE.LEVEL,
      2)] { up 7 with engines := [(3, { tab := { entry := 0 } })] }, ?_⟩,
    ⟨.lp 0, with' [(LP_CTRL.EN 0, 1)] { claims := [(0, { st := .granted, rails := 1, rom := true })] }, ?_⟩,
    ⟨{}, ?_⟩⟩
  all_goals repeat' (first | exact Hci.booked_clear _ _ | apply And.intro)
  all_goals first | decide | rfl | nofun

/-- The hypotheses of RingStepping can be met. -/
theorem witness_RingStepping :
  (∃ (s : State), (vsysRuns s = true) ∧ (jstate s = 2) ∧ (s.get MNG_STATUS.HOLD ≠ 1) ∧ (s.ring.window = false) ∧
    (ringState s < 255)) ∧
  (∃ (s : State), (vsysRuns s = true) ∧ (jstate s = 2) ∧ (s.get MNG_STATUS.HOLD ≠ 1) ∧ (s.ring.window = false) ∧
    (ringState s = 255)) ∧
  (∃ (s : State), (vsysRuns s = true) ∧ (jstate s ≠ 2 ∨ s.get MNG_STATUS.HOLD = 1 ∨ s.ring.window = true)) ∧
  (∃ (s : State), (vsysRuns s = false)) ∧
  (∃ (t : Nat) (s : State), (s.ring.retakeAt = some t) ∧ (jstate s = 2)) ∧
  (∃ (s : State), (s.ring.retakeAt = none ∨ jstate s ≠ 2)) ∧
  (∃ (i : Issue) (n : BitVec 8) (s : State) (t : Nat) (x : Task), (Runs i (stepWord n false) s t x) ∧
    ((issued i s t x).get (CAM_STATUS.RINGOWN i.eng) ≠ 1)) ∧
  (∃ (i : Issue) (n : BitVec 8) (s : State) (t : Nat) (x : Task), (Runs i (stepWord n true) s t x) ∧
    ((issued i s t x).get (CAM_STATUS.RINGOWN i.eng) ≠ 1)) ∧
  (∃ (i : Issue) (n : BitVec 8) (s : State) (t : Nat) (x : Task), (Runs i (stepWord n false) s t x) ∧
    ((issued i s t x).get (CAM_STATUS.RINGOWN i.eng) = 1) ∧ (jstate (issued i s t x) = 1)) ∧
  (∃ (i : Issue) (n : BitVec 8) (s : State) (t : Nat) (x : Task), (Runs i (stepWord n false) s t x) ∧
    ((issued i s t x).get (CAM_STATUS.RINGOWN i.eng) = 1) ∧ (jstate (issued i s t x) = 2) ∧
    ((issued i s t x).get MNG_STATUS.HOLD = 1) ∧ (n.toNat = ringState (issued i s t x) + 1)) ∧
  (∃ (i : Issue) (n : BitVec 8) (s : State) (t : Nat) (x : Task), (Runs i (stepWord n false) s t x) ∧
    ((issued i s t x).get (CAM_STATUS.RINGOWN i.eng) = 1) ∧ (jstate (issued i s t x) ≠ 1) ∧
    (jstate (issued i s t x) ≠ 2 ∨ (issued i s t x).get MNG_STATUS.HOLD ≠ 1 ∨
    n.toNat ≠ ringState (issued i s t x) + 1)) ∧
  (∃ (s : State) (n : Nat), (s.ring.remembered = some n)) ∧
  (∃ (i : Issue) (n : BitVec 8) (s : State) (t : Nat) (x : Task), (Runs i (stepWord n true) s t x) ∧
    ((issued i s t x).get (CAM_STATUS.RINGOWN i.eng) = 1) ∧ (jstate (issued i s t x) = 2)) ∧
  (∃ (i : Issue) (n : BitVec 8) (s : State) (t : Nat) (x : Task), (Runs i (stepWord n true) s t x) ∧
    ((issued i s t x).get (CAM_STATUS.RINGOWN i.eng) = 1) ∧ (jstate (issued i s t x) ≠ 2)) ∧
  (∃ (line : Bool) (t us : Nat) (s : State), (s.ring.stateAt = some t) ∧ (stepDeadline s = some us) ∧
    (jstate s = 2)) ∧
  (∃ (line : Bool) (s : State), (s.ring.stateAt = none ∨ stepDeadline s = none ∨ jstate s ≠ 2)) ∧
  (∃ (line : Bool) (t : Nat) (s : State), (s.ring.isoAt = some t) ∧ (masterActs s = true)) ∧
  (∃ (line : Bool) (s : State), (s.ring.isoAt = none ∨ masterActs s = false)) := by
  refine ⟨⟨up 7 [(MNG_STATUS.JSTATE, 2)], ?_⟩,
    ⟨up 7 [(MNG_STATUS.JSTATE, 2), (MNG_STATUS.STATE, 255)], ?_⟩,
    ⟨up 7, ?_⟩,
    ⟨{}, ?_⟩,
    ⟨5, with' [(MNG_STATUS.JSTATE, 2)] { ring := { retakeAt := some 5 } }, ?_⟩,
    ⟨{}, ?_⟩,
    ⟨{ eng := 0 }, 4, prog 0 (stepWord 4 false) eng, 3, { st := .run }, ?_⟩,
    ⟨{ eng := 0 }, 4, prog 0 (stepWord 4 true) eng, 3, { st := .run }, ?_⟩,
    ⟨{ eng := 0 }, 4, prog 0 (stepWord 4 false) (eng { st := .run } [(CAM_STATUS.RINGOWN 0, 1),
      (MNG_STATUS.JSTATE, 1)] {}), 3, { st := .run }, ?_⟩,
    ⟨{ eng := 0 }, 4, prog 0 (stepWord 4 false) (eng { st := .run } [(CAM_STATUS.RINGOWN 0, 1),
      (MNG_STATUS.JSTATE, 2), (MNG_STATUS.HOLD, 1), (MNG_STATUS.STATE, 3)] {}), 3, { st := .run }, ?_⟩,
    ⟨{ eng := 0 }, 4, prog 0 (stepWord 4 false) (eng { st := .run } [(CAM_STATUS.RINGOWN 0, 1),
      (MNG_STATUS.JSTATE, 2), (MNG_STATUS.HOLD, 1), (MNG_STATUS.STATE, 4)] {}), 3, { st := .run }, ?_⟩,
    ⟨{ ring := { remembered := some 1 } }, 1, ?_⟩,
    ⟨{ eng := 0 }, 4, prog 0 (stepWord 4 true) (eng { st := .run } [(CAM_STATUS.RINGOWN 0, 1),
      (MNG_STATUS.JSTATE, 2)] {}), 3, { st := .run }, ?_⟩,
    ⟨{ eng := 0 }, 4, prog 0 (stepWord 4 true) (eng { st := .run } [(CAM_STATUS.RINGOWN 0, 1),
      (MNG_STATUS.JSTATE, 1)] {}), 3, { st := .run }, ?_⟩,
    ⟨true, 5, 100, with' [(MNG_STATUS.JSTATE, 2), (MNG_STEPDL.DL0, 100),
      (MNG_STATUS.LINE, 0)] { ring := { stateAt := some 5 } }, ?_⟩,
    ⟨false, {}, ?_⟩,
    ⟨true, 5, with' [(MNG_STATUS.MASTER_ACT, 1), (MNG_STATUS.LINE, 0)] { ring := { isoAt := some 5 } }, ?_⟩,
    ⟨false, {}, ?_⟩⟩
  all_goals repeat' (first | exact Hci.booked_clear _ _ | apply And.intro)
  all_goals first | decide | rfl | nofun

/-- The hypotheses of RingMembership can be met. -/
theorem witness_RingMembership :
  (∃ (s : State), (s.get MNG_CTRL.EN = 1)) ∧
  (∃ (s : State), (s.get MNG_CTRL.EN ≠ 1) ∧ (servesAt s 3 = true) ∧ (ringReason s ≠ 0)) ∧
  (∃ (s : State), (servesAt s 3 = false)) ∧
  (∃ (s : State), (s.get MNG_CTRL.EN ≠ 1) ∧ (servesAt s 3 = true) ∧ (ringReason s = 0)) ∧
  (∃ (s : State), (servesAt s 3 = true)) ∧
  (∃ (t : Nat) (afterLoss : Bool) (s : State), (s.ring.inserted = some t) ∧ (jstate s = 1) ∧
    (s.get MNG_CFG.MASTER = 1)) ∧
  (∃ (afterLoss : Bool) (s : State), (s.ring.inserted = none ∨ jstate s ≠ 1 ∨ s.get MNG_CFG.MASTER ≠ 1)) ∧
  (∃ (u : State) (s : State), (masterActs s = true) ∧
    (u = giveUp (match s.ring.cycleAt with | some t => s.expire (t + 10000) | none => s))) ∧
  (∃ (s : State), (masterActs s = false)) ∧
  (∃ (offered : BitVec 7) (taken clr : Bool) (s : State), (masterActs s = true) ∧
    ((∃ x ∈ s.ring.unacked, x.frame = enumBody offered.toNat false clr))) ∧
  (∃ (offered : BitVec 7) (taken clr : Bool) (s : State),
    (masterActs s = false ∨ (∀ x ∈ s.ring.unacked, x.frame ≠ enumBody offered.toNat false clr))) ∧
  (∃ (hold : Bool) (group : BitVec 2) (bits : Word) (s : State), (masterActs s = false)) ∧
  (∃ (group : BitVec 2) (bits : Word) (s : State), (masterActs s = true)) ∧
  (∃ (group : BitVec 2) (bits : Word) (s : State), (masterActs s = true)) ∧
  (∃ (addr : BitVec 7) (s : State), (masterActs s = false) ∧ (s.ring.inserted ≠ none)) ∧
  (∃ (addr : BitVec 7) (s : State), (masterActs s = true) ∧ (s.ring.inserted ≠ none)) ∧
  (∃ (addr : BitVec 7) (s : State), (s.ring.inserted ≠ none) ∧ (s.get MNG_STATUS.ADDRV = 1) ∧
    (s.get MNG_STATUS.ADDR = addr.toNat)) ∧
  (∃ (addr : BitVec 7) (s : State), (s.ring.inserted ≠ none) ∧
    (s.get MNG_STATUS.ADDRV ≠ 1 ∨ s.get MNG_STATUS.ADDR ≠ addr.toNat)) ∧
  (∃ (addr : BitVec 7) (s : State), (s.ring.inserted = none)) := by
  refine ⟨⟨with' [(MNG_CTRL.EN, 1)], ?_⟩,
    ⟨up 7 [(MNG_STEPDL.DLN, 0), (SYS_SERVICE.LEVEL, 3)], ?_⟩,
    ⟨{}, ?_⟩,
    ⟨up 7 [(MNG_STEPDL.DLN, 5), (SYS_SERVICE.LEVEL, 3)], ?_⟩,
    ⟨up 7 [(SYS_SERVICE.LEVEL, 3)], ?_⟩,
    ⟨0, true, with' [(MNG_STATUS.JSTATE, 1), (MNG_CFG.MASTER, 1)] { ring := { inserted := some 0 } }, ?_⟩,
    ⟨true, {}, ?_⟩,
    ⟨giveUp { with' [(MNG_STATUS.JSTATE, 2), (MNG_STATUS.MASTER_ACT, 1)] with now := 0 },
      with' [(MNG_STATUS.JSTATE, 2), (MNG_STATUS.MASTER_ACT, 1)], ?_⟩,
    ⟨{}, ?_⟩,
    ⟨5, true, false, with' [(MNG_STATUS.MASTER_ACT,
      1)] { ring := { unacked := [{ frame := enumBody 5 false false, sentAt := 0 }] } }, ?_⟩,
    ⟨5, true, false, {}, ?_⟩,
    ⟨false, 0, 0, {}, ?_⟩,
    ⟨3, 0, with' [(MNG_STATUS.JSTATE, 2), (MNG_STATUS.MASTER_ACT, 1)], ?_⟩,
    ⟨3, 0, with' [(MNG_STATUS.JSTATE, 2), (MNG_STATUS.MASTER_ACT, 1)], ?_⟩,
    ⟨127, { ring := { inserted := some 0 } }, ?_⟩,
    ⟨127, with' [(MNG_STATUS.MASTER_ACT, 1)] { ring := { inserted := some 0 } }, ?_⟩,
    ⟨5, with' [(MNG_STATUS.ADDRV, 1), (MNG_STATUS.ADDR, 5)] { ring := { inserted := some 0 } }, ?_⟩,
    ⟨5, { ring := { inserted := some 0 } }, ?_⟩,
    ⟨5, {}, ?_⟩⟩
  all_goals repeat' (first | exact Hci.booked_clear _ _ | apply And.intro)
  all_goals first | decide | rfl | nofun

/-- The hypotheses of RingFrames can be met. -/
theorem witness_RingFrames :
  (∃ (f : StateFrame) (k : State), (k.ring.inserted ≠ none) ∧ (masterActs k = false)) ∧
  (∃ (f : StateFrame) (k : State), (masterActs k = true)) ∧
  (∃ (f : StateFrame) (s : State), (s.ring.inserted = none) ∧ (masterActs s = false)) ∧
  (∃ (f : StateFrame) (s : State), (f.seq.toNat ∉ s.ring.seqs)) ∧
  (∃ (n : Nat) (s : State), (s.ring.window = false) ∧ (n ≠ ringState s)) ∧
  (∃ (target : BitVec 8) (node : BitVec 7) (seq : BitVec 4) (s : State), (masterActs s = false)) ∧
  (∃ (target : BitVec 8) (node : BitVec 7) (seq : BitVec 4) (s : State), (masterActs s = true)) ∧
  (∃ (t : Nat) (r : AbortReq) (rest : List AbortReq) (s : State), (s.ring.abortHold = some t) ∧
    (s.ring.requests = r :: rest) ∧ (s.ring.abortSent = false) ∧ (masterActs s = true) ∧
    (s.get MNG_STATUS.OPEN ≠ 1)) ∧
  (∃ (s : State), (s.ring.abortHold = none ∨ s.ring.requests = [] ∨ s.ring.abortSent = true ∨ masterActs s = false ∨
    s.get MNG_STATUS.OPEN = 1)) ∧
  (∃ (x : RingSent) (s : State), (firstDue s.ring.unacked = some x) ∧ (masterActs s = true) ∧
    (s.get MNG_STATUS.OPEN ≠ 1)) ∧
  (∃ (s : State), (firstDue s.ring.unacked = none ∨ masterActs s = false ∨ s.get MNG_STATUS.OPEN = 1)) ∧
  (∃ (x : RingSent) (l : List RingSent), (firstDue l = some x)) := by
  refine ⟨⟨{ seq := 0, state := 255, count := 0, areq := false, node := 0, target := 0, line := true },
    with' [(MNG_STATUS.JSTATE, 1)] { ring := { inserted := some 0 } }, ?_⟩,
    ⟨{ seq := 0, state := 255, count := 0, areq := false, node := 0, target := 0, line := true },
      with' [(MNG_STATUS.JSTATE, 2), (MNG_STATUS.MASTER_ACT, 1)] { ring := { inserted := some 0 } }, ?_⟩,
    ⟨{ seq := 0, state := 255, count := 0, areq := false, node := 0, target := 0, line := true }, {}, ?_⟩,
    ⟨{ seq := 0, state := 255, count := 0, areq := false, node := 0, target := 0, line := true }, {}, ?_⟩,
    ⟨5, { ring := { mismatches := 1 } }, ?_⟩,
    ⟨0, 0, 0, with' [(MNG_STATUS.JSTATE, 2)], ?_⟩,
    ⟨0, 0, 0, with' [(MNG_STATUS.MASTER_ACT, 1)] { ring := { abortSent := true } }, ?_⟩,
    ⟨5, { target := 7, node := 0 }, [], with' [(MNG_STATUS.MASTER_ACT,
      1)] { ring := { abortHold := some 5, requests := [{ target := 7, node := 0 }] } }, ?_⟩,
    ⟨{}, ?_⟩,
    ⟨{ frame := 5, sentAt := 0, resends := 2 }, with' [(MNG_STATUS.MASTER_ACT,
      1)] { ring := { unacked := [{ frame := 5, sentAt := 0, resends := 2 }] } }, ?_⟩,
    ⟨{}, ?_⟩,
    ⟨{ frame := 5, sentAt := 0, resends := 2 }, [{ frame := 5, sentAt := 0, resends := 2 }], ?_⟩⟩
  all_goals repeat' (first | exact Hci.booked_clear _ _ | apply And.intro)
  all_goals first | decide | rfl | nofun

/-- The hypotheses of AdcSequences can be met. -/
theorem witness_AdcSequences :
  (∃ (k : Fin 4) (s : State), (s.get (ADC_SL_CTRL.EN k) = 1)) ∧
  (∃ (k : Fin 4) (s : State), (s.get (ADC_SL_CTRL.EN k) ≠ 1) ∧ (unitsServe s = true) ∧ (sliceReason s k ≠ 0)) ∧
  (∃ (k : Fin 4) (s : State), (unitsServe s = false)) ∧
  (∃ (k : Fin 4) (s : State), (s.get (ADC_SL_CTRL.EN k) ≠ 1) ∧ (unitsServe s = true) ∧ (sliceReason s k = 0)) ∧
  (∃ (k : Fin 4) (s : State), (sliceRuns s k = true)) ∧
  (∃ (k : Fin 4) (s : State), (sliceRuns s k = false)) ∧
  (∃ (k : Fin 4) (t : Nat) (s : State), (sliceRuns s k = true) ∧ (s.get (ADC_SL_CTRL.RUN k) = 3) ∧
    (NMap.get 0 s.adc.perAt k = t + 1)) ∧
  (∃ (k : Fin 4) (s : State), (s.get (ADC_SL_CTRL.RUN k) ≠ 3 ∨ NMap.get 0 s.adc.perAt k = 0)) ∧
  (∃ (k : Fin 4) (codes : List (BitVec 12)) (s : State), (seqRuns s k = true) ∧ (s.adc.burst = none) ∧
    (codes.length = 2 ^ s.get (ADC_SEQ.AVG k (NMap.get 0 s.adc.pos k)))) ∧
  (∃ (k : Fin 4) (codes : List (BitVec 12)) (s : State),
    (seqRuns s k = false ∨ s.adc.burst ≠ none ∨ codes.length ≠ 2 ^ s.get (ADC_SEQ.AVG k (NMap.get 0 s.adc.pos k)))) ∧
  (∃ (c : Nat) (v : Nat) (s : State), (bitOf s.adc.baseLeft c = 1) ∧ (s.adc.burst = none)) ∧
  (∃ (c : Nat) (v : Nat) (s : State), (bitOf s.adc.baseLeft c ≠ 1 ∨ s.adc.burst ≠ none)) ∧
  (∃ (v b c : BitVec 16) (s : State), (s.adc.round = false) ∧ (unitsServe s = true)) ∧
  (∃ (v b c : BitVec 16) (s : State), (s.adc.round = true ∨ unitsServe s = false)) := by
  refine ⟨⟨3, with' [(ADC_SL_CTRL.EN 3, 1)], ?_⟩,
    ⟨3, up 7, ?_⟩,
    ⟨3, {}, ?_⟩,
    ⟨3, up 7 [(SYS_SERVICE.LEVEL, 3), (ADC_STATUS.USABLE, 15), (ADC_SL_CTRL.LEN 3, 1), (ADC_SL_CTRL.RUN 3, 2)], ?_⟩,
    ⟨3, with' [(ADC_SL_CTRL.EN 3, 1)], ?_⟩,
    ⟨3, {}, ?_⟩,
    ⟨3, 9, with' [(ADC_SL_CTRL.EN 3, 1), (ADC_SL_CTRL.RUN 3, 3)] { adc := { perAt := [(3, 10)] } }, ?_⟩,
    ⟨3, {}, ?_⟩,
    ⟨3, [5], { adc := { running := 8 } }, ?_⟩,
    ⟨3, [5], {}, ?_⟩,
    ⟨12, 6, { adc := { baseLeft := 2 ^ 12 } }, ?_⟩,
    ⟨12, 6, {}, ?_⟩,
    ⟨0, 0, 0, up 7, ?_⟩,
    ⟨0, 0, 0, {}, ?_⟩⟩
  all_goals repeat' (first | exact Hci.booked_clear _ _ | apply And.intro)
  all_goals first | decide | rfl | nofun

/-- The hypotheses of UrgentRequestBooks can be met. -/
theorem witness_UrgentRequestBooks :
  (∃ (s t : State), (step s = .next t) ∧ (s.adc.booked)) ∧
  (∃ (reading : BitVec 16) (who : Requester) (c : Nat) (s : State), (s.adc.urgent = some (who, c))) ∧
  (∃ (reading : BitVec 16) (s : State), (s.adc.urgent = none)) ∧
  (∃ (s : State), (vsysRuns s = true)) ∧
  (∃ (s : State), (vsysRuns s = false)) := by
  refine ⟨⟨{ pending := [.nop 0] }, {}, ?_⟩,
    ⟨5, .host 0, 5, { adc := { urgent := some (.host 0, 5), asked := 1 } }, ?_⟩,
    ⟨5, {}, ?_⟩,
    ⟨up 7, ?_⟩,
    ⟨{}, ?_⟩⟩
  all_goals repeat' (first | exact Hci.booked_clear _ _ | apply And.intro)
  all_goals first | decide | rfl | nofun

/-- The hypotheses of CapturesAndInjections can be met. -/
theorem witness_CapturesAndInjections :
  (∃ (x : Burst) (converged limit : Bool) (s : State), (s.adc.burst = some x) ∧ (x.injection = none)) ∧
  (∃ (n : Nat) (rest : List Nat) (s : State), (injectionLoops s = n :: rest)) ∧
  (∃ (s : State), (injectionLoops s = [])) ∧
  (∃ (n t : Nat) (s : State), (waitingInjection s = some (n, t))) ∧
  (∃ (n t : Nat) (s : State), (waitingInjection s = some (n, t))) ∧
  (∃ (s : State), (waitingInjection s = none)) ∧
  (∃ (x : Burst) (n : Nat) (codes : List (BitVec 12)) (converged limit : Bool) (s : State), (s.adc.burst = some x) ∧
    (x.injection = some n) ∧ (injectionOver s n x = true)) ∧
  (∃ (x : Burst) (n : Nat) (codes : List (BitVec 12)) (converged limit : Bool) (s : State), (s.adc.burst = some x) ∧
    (x.injection = some n) ∧ (injectionOver s n x = false)) ∧
  (∃ (codes : List (BitVec 12)) (converged limit : Bool) (s : State), (injecting s = none)) := by
  refine ⟨⟨{ ch := 0, len := 5, start := 0 }, true, true,
    { adc := { burst := some { ch := 0, len := 5, start := 0 } } }, ?_⟩,
    ⟨0, [], with' [(WEAR_CTRL.INJ_EN, 1), (WEAR_CTRL.IND_EN, 2)], ?_⟩,
    ⟨with' [(WEAR_CTRL.IND_EN, 0)], ?_⟩,
    ⟨0, 3, { with' [(WEAR_CTRL.INJ_EN, 1), (WEAR_CTRL.IND_EN, 2)] with adc := { injWait := some (0, 3) } }, ?_⟩,
    ⟨0, 3, { with' [(WEAR_CTRL.INJ_EN, 1), (WEAR_CTRL.IND_EN, 2)] with adc := { injWait := some (0, 3) } }, ?_⟩,
    ⟨{}, ?_⟩,
    ⟨{ ch := 0, len := 40, start := 0, injection := some 0, injected := true, stepEnd := 1 }, 0, [1, 2, 3, 4], true,
      false, { adc := { burst := some { ch := 0, len := 40, start := 0, injection := some 0, injected := true, stepEnd := 1 } } }, ?_⟩,
    ⟨{ ch := 0, len := 40, start := 0, injection := some 0, stepEnd := 1 }, 0, [1, 2, 3, 4], true, false,
      { adc := { burst := some { ch := 0, len := 40, start := 0, injection := some 0, stepEnd := 1 } } }, ?_⟩,
    ⟨[1, 2, 3], true, false, {}, ?_⟩⟩
  all_goals repeat' (first | exact Hci.booked_clear _ _ | apply And.intro)
  all_goals first | decide | rfl | nofun

/-- The hypotheses of WearAndThermal can be met. -/
theorem witness_WearAndThermal :
  (∃ (s : State), (timeRuns s = true)) ∧
  (∃ (a b : Nat) (s : State), (timeRuns s = true)) ∧
  (∃ (a b : Nat) (s : State), (timeRuns s = false)) ∧
  (∃ (a b free : Nat) (diff : Int), (b ≠ 0) ∧ (((b : Int) - a) * 1000000 % b = 0)) ∧
  (∃ (t bkb : Nat) (s : State), (s.wear.restAt = some t) ∧ (s.charger.switching = false)) ∧
  (∃ (bkb : Nat) (s : State), (s.wear.restAt = none ∨ s.charger.switching = true)) ∧
  (∃ (bkb : Nat) (s : State), (isStack s = false)) ∧
  (∃ (c b bkb : Nat) (q : Int) (s : State), (isStack s = true)) ∧
  (∃ (n : Fin 8) (s : State), (s.supply.rails = true)) ∧
  (∃ (n : Fin 8) (s : State), (s.supply.rails = false)) := by
  refine ⟨⟨up 7, ?_⟩,
    ⟨5, 6, up 7, ?_⟩,
    ⟨5, 6, {}, ?_⟩,
    ⟨999000, 1000000, 0, 0, ?_⟩,
    ⟨0, 7000, { wear := { restAt := some 0 } }, ?_⟩,
    ⟨7000, {}, ?_⟩,
    ⟨7000, {}, ?_⟩,
    ⟨0, 1, 7000, 5, with' [(CHG_BANK.CHEM, 2)], ?_⟩,
    ⟨7, up 7, ?_⟩,
    ⟨7, {}, ?_⟩⟩
  all_goals repeat' (first | exact Hci.booked_clear _ _ | apply And.intro)
  all_goals first | decide | rfl | nofun

/-- The hypotheses of RecordsAndReads can be met. -/
theorem witness_RecordsAndReads :
  (∃ (t0 merge : Nat) (h : HistRec) (x : EventRec) (s : State), (s.fox.openRec = some (t0, merge)) ∧
    (openRecord s = some (h, x)) ∧ (actionsComplete s x.react = true)) ∧
  (∃ (q : Fin 2) (bits : Word) (s : State), (k0Runs s = true)) ∧
  (∃ (q : Fin 2) (bits : Word) (line : BitVec 6) (cls : BitVec 2) (s : State), (k0Runs s = false)) ∧
  (∃ (s : State), (s.fox.alive = .resuming)) ∧
  (∃ (s : State), (s.fox.alive ≠ .resuming)) ∧
  (∃ (r : HistRec) (l : List HistRec) (s : State), (k0Runs s = true) ∧ (s.fox.hist = r :: l)) ∧
  (∃ (s : State), (s.fox.hist = [])) ∧
  (∃ (s : State), (testPossible s = false)) ∧
  (∃ (line : BitVec 6) (cls : BitVec 2) (s : State), (k0Runs s = true) ∧ (s.get FLT_TEST.ACTIVE = 1)) ∧
  (∃ (line : BitVec 6) (cls : BitVec 2) (s : State), (s.get FLT_TEST.ACTIVE ≠ 1)) ∧
  (∃ (s : State), (k0Runs s = true)) ∧
  (∃ (s : State), (k0Runs s = false)) ∧
  (∃ (s : State), (vsysRuns s = false)) := by
  refine ⟨⟨0, 5, { seq := 0, body := .event { cls := .fault, line := 4, src := 0, ebit := 0, react := 3, time := 0, detail := 0 } }, { cls := .fault, line := 4, src := 0, ebit := 0, react := 3, time := 0, detail := 0 }, { fox := { openRec := some (0, 5), hist := [{ seq := 0, body := .event { cls := .fault, line := 4, src := 0, ebit := 0, react := 3, time := 0, detail := 0 } }] } }, ?_⟩,
    ⟨1, 5, up 7 [(FLT_STATUS.LINES 1, 5)], ?_⟩,
    ⟨1, 5, 63, 3, {}, ?_⟩,
    ⟨{ fox := { alive := .resuming } }, ?_⟩,
    ⟨{ fox := { alive := .run } }, ?_⟩,
    ⟨{ seq := 4, body := .event { cls := .fault, line := 4, src := 0, ebit := 0, react := 3, time := 0, detail := 0 } }, [], { up 7 with fox := { hist := [{ seq := 4, body := .event { cls := .fault, line := 4, src := 0, ebit := 0, react := 3, time := 0, detail := 0 } }] } }, ?_⟩,
    ⟨{}, ?_⟩,
    ⟨{}, ?_⟩,
    ⟨63, 3, up 7 [(FLT_TEST.ACTIVE, 1)], ?_⟩,
    ⟨63, 3, {}, ?_⟩,
    ⟨with' [] { supply := { released := true, rails := true } }, ?_⟩,
    ⟨{}, ?_⟩,
    ⟨{}, ?_⟩⟩
  all_goals repeat' (first | exact Hci.booked_clear _ _ | apply And.intro)
  all_goals first | decide | rfl | nofun

/-- The hypotheses of InterruptCompletion can be met. -/
theorem witness_InterruptCompletion :
  (∃ (t : Fin 8) (id : BitVec 9) (s : State), (t.val ∈ claimTargets) ∧ (vsysRuns s = true) ∧ (1 ≤ id.toNat) ∧
    (id.toNat ≤ 256) ∧ (s.get (INTC_SRC.OWNER id.toNat) = t) ∧
    (s.get (INTC_SRC.STATE id.toNat) = 3 ∨ s.get (INTC_SRC.STATE id.toNat) = 2)) ∧
  (∃ (t : Fin 8) (id : BitVec 9) (s : State), (t.val ∈ claimTargets) ∧ (vsysRuns s = true) ∧
    (id.toNat = 0 ∨ 256 < id.toNat ∨ s.get (INTC_SRC.OWNER id.toNat) ≠ t ∨
    (s.get (INTC_SRC.STATE id.toNat) ≠ 2 ∧ s.get (INTC_SRC.STATE id.toNat) ≠ 3))) ∧
  (∃ (t : Fin 8) (id : BitVec 9) (s : State), (t.val ∉ claimTargets ∨ vsysRuns s = false)) := by
  refine ⟨⟨7, 0xE4, up 7 [(INTC_SRC.OWNER 0xE4, 7), (INTC_SRC.STATE 0xE4, 3)], ?_⟩,
    ⟨7, 0x1FF, up 7, ?_⟩,
    ⟨2, 5, {}, ?_⟩⟩
  all_goals repeat' (first | exact Hci.booked_clear _ _ | apply And.intro)
  all_goals first | decide | rfl | nofun

/-- The hypotheses of InterruptRequests can be met. -/
theorem witness_InterruptRequests :
  (∃ (s : State) (src : Nat), (s.get (INTC_SRC.STATE src) = 0)) ∧
  (∃ (s : State) (src : Nat), (s.get (INTC_SRC.STATE src) = 1)) ∧
  (∃ (s : State) (src : Nat), (s.get (INTC_SRC.STATE src) = 2)) ∧
  (∃ (s : State) (src : Nat) (req : Bool), (s.get (INTC_SRC.STATE src) = 3)) ∧
  (∃ (src : BitVec 9) (s : State), (1 ≤ src.toNat) ∧ (src.toNat ≤ 256) ∧ (vsysRuns s = true)) ∧
  (∃ (t : Fin 8) (src : Nat) (s : State), (t.val ∈ claimTargets) ∧ (vsysRuns s = true) ∧ (topSource s t = some src)) ∧
  (∃ (t : Fin 8) (s : State), (t.val ∈ claimTargets) ∧ (vsysRuns s = true) ∧ (topSource s t = none)) ∧
  (∃ (src : BitVec 9) (s : State), (src.toNat = 0 ∨ 256 < src.toNat ∨ vsysRuns s = false)) := by
  refine ⟨⟨{}, 5, ?_⟩,
    ⟨with' [(INTC_SRC.STATE 5, 1)], 5, ?_⟩,
    ⟨with' [(INTC_SRC.STATE 5, 2)], 5, ?_⟩,
    ⟨with' [(INTC_SRC.STATE 5, 3)], 5, true, ?_⟩,
    ⟨256, up 7, ?_⟩,
    ⟨0, 5, up 7 [(INTC_SRC.STATE 5, 1), (INTC_SRC.PRIO 5, 3), (INTC_SRC.EN_K0 5, 1)], ?_⟩,
    ⟨0, up 7, ?_⟩,
    ⟨0, {}, ?_⟩⟩
  all_goals repeat' (first | exact Hci.booked_clear _ _ | apply And.intro)
  all_goals first | decide | rfl | nofun

/-- The hypotheses of SerialAccess can be met. -/
theorem witness_SerialAccess :
  (∃ (addr : BitVec 24) (data : List Byte) (s : State), (spiRuns s = true) ∧ (misaligned addr.toNat = false)) ∧
  (∃ (addr : BitVec 24) (n : Nat) (s : State), (spiRuns s = true) ∧ (misaligned addr.toNat = false)) ∧
  (∃ (op : BitVec 8) (addr : BitVec 24) (data : List Byte) (s : State), (spiRuns s = true) ∧
    (op ≠ 2#8 ∨ (addr.toNat < 0x010000 ∧ addr.toNat % 4 ≠ 0))) ∧
  (∃ (op : BitVec 8) (addr : BitVec 24) (n : Nat) (s : State), (spiRuns s = true) ∧
    (op ≠ 3#8 ∨ (addr.toNat < 0x010000 ∧ addr.toNat % 4 ≠ 0))) ∧
  (∃ (op : BitVec 8) (addr : BitVec 24) (data : List Byte) (n : Nat) (s : State), (spiRuns s = false)) ∧
  (∃ (data : List Byte) (restart : Bool) (s : State), (twtRuns s = true)) ∧
  (∃ (n : Nat) (s : State), (twtRuns s = true) ∧ (s.get TWT_CFG.PEC ≠ 1)) ∧
  (∃ (n len : Nat) (s : State), (twtRuns s = true) ∧ (s.get TWT_CFG.PEC = 1) ∧ (len = s.get TWT_CFG.PECLEN)) ∧
  (∃ (t : Abandoned) (s : State), (twtRuns s = true)) ∧
  (∃ (data : List Byte) (restart : Bool) (s : State), (twtRuns s = true) ∧ (s.get TWT_CFG.KT_EN = 1)) ∧
  (∃ (n : Nat) (s : State), (twtRuns s = true) ∧ (s.get TWT_CFG.KT_EN = 1)) ∧
  (∃ (k : Fin 12) (s : State), (s.twt.ktPtr = 8 + 2 * k)) ∧
  (∃ (data : List Byte) (restart : Bool) (n : Nat) (s : State), (s.get TWT_CFG.KT_EN ≠ 1)) ∧
  (∃ (data : List Byte) (restart : Bool) (t : Abandoned) (n : Nat) (s : State), (twtRuns s = false)) := by
  refine ⟨⟨0x013000, [1], with' [] { supply := { released := true, rails := true } }, ?_⟩,
    ⟨0x000004, 9, with' [] { supply := { released := true, rails := true } }, ?_⟩,
    ⟨2, 0x000005, [], with' [] { supply := { released := true, rails := true } }, ?_⟩,
    ⟨3, 0x000005, 9, with' [] { supply := { released := true, rails := true } }, ?_⟩,
    ⟨2, 5, [], 9, {}, ?_⟩,
    ⟨[0xFF, 1], true, with' [] { supply := { released := true, rails := true } }, ?_⟩,
    ⟨5, with' [] { supply := { released := true, rails := true } }, ?_⟩,
    ⟨0, 32, with' [(TWT_CFG.PEC, 1), (TWT_CFG.PECLEN, 32)] { supply := { released := true, rails := true } }, ?_⟩,
    ⟨.idle, with' [] { supply := { released := true, rails := true } }, ?_⟩,
    ⟨[], true, with' [(TWT_CFG.KT_EN, 1)] { supply := { released := true, rails := true } }, ?_⟩,
    ⟨1, with' [(TWT_CFG.KT_EN, 1)] { supply := { released := true, rails := true }, twt := { ktPtr := 30 } }, ?_⟩,
    ⟨11, { twt := { ktPtr := 30 } }, ?_⟩,
    ⟨[], true, 5, with' [(TWT_CFG.KT_EN, 0)], ?_⟩,
    ⟨[], true, .idle, 5, {}, ?_⟩⟩
  all_goals repeat' (first | exact Hci.booked_clear _ _ | apply And.intro)
  all_goals first | decide | rfl | nofun

/-- The hypotheses of WindowBytes can be met. -/
theorem witness_WindowBytes :
  (∃ (s : State) (a : Nat) (v : Byte), (windowWritable s a = true)) ∧
  (∃ (s : State) (a : Nat) (v : Byte), (windowWritable s a = false)) ∧
  (∃ (n p : Nat) (latch : Option (Nat × Nat)) (s : State), (0x0100 ≤ twtPage s)) := by
  refine ⟨⟨{ supply := { rails := true } }, 0x013FFF, 5, ?_⟩,
    ⟨{}, 0x020000, 5, ?_⟩,
    ⟨5, 0xFE, none, with' [(TWT_STATUS.PAGE, 0x0200)], ?_⟩⟩
  all_goals repeat' (first | exact Hci.booked_clear _ _ | apply And.intro)
  all_goals first | decide | rfl | nofun

/-- The hypotheses of ControllerPort can be met. -/
theorem witness_ControllerPort :
  (∃ (s : State), (s.get TWC_CTRL.EN = 1)) ∧
  (∃ (s : State), (s.get TWC_CTRL.EN ≠ 1) ∧ (servesFrom s 1 = true)) ∧
  (∃ (s : State), (s.get TWC_CTRL.EN ≠ 1) ∧ (servesFrom s 1 = false)) ∧
  (∃ (wdone : BitVec 6) (data : List Byte) (s : State), (transferring s = true) ∧ (s.twc.cur = some .host)) ∧
  (∃ (wdone : BitVec 6) (data : List Byte) (s : State), (transferring s = true)) ∧
  (∃ (s : State), (s.supply.vio = true) ∧ (s.get TWC_CTRL.EN = 1)) ∧
  (∃ (s : State), (s.supply.vio = true) ∧ (s.get TWC_CTRL.EN = 1)) ∧
  (∃ (e : BusEdge) (s : State), (s.supply.vio = false ∨ s.get TWC_CTRL.EN ≠ 1)) ∧
  (∃ (s : State), (twcRuns s = true) ∧ (s.supply.vio = true)) ∧
  (∃ (r : Recovery) (s : State), (twcRuns s = false ∨ s.supply.vio = false)) ∧
  (∃ (wdone : BitVec 6) (data : List Byte) (s : State), (s.get TWC_STATUS.STATE = 3) ∧ (s.twc.cur ≠ none)) ∧
  (∃ (k : Nat) (data : List Byte) (s : State), (transferring s = true) ∧ (s.twc.cur = some (.poll k))) := by
  refine ⟨⟨with' [(TWC_CTRL.EN, 1)], ?_⟩,
    ⟨up 7 [(TWC_CTRL.EN, 0), (SYS_SERVICE.LEVEL, 3)], ?_⟩,
    ⟨{}, ?_⟩,
    ⟨5, [], with' [(TWC_CTRL.EN, 1), (TWC_STATUS.STATE, 3)] { twc := { cur := some .host } }, ?_⟩,
    ⟨5, [], with' [(TWC_CTRL.EN, 1), (TWC_STATUS.STATE, 3)] { twc := { cur := some .host } }, ?_⟩,
    ⟨with' [(TWC_CTRL.EN, 1), (TWC_STATUS.STATE, 2)] { twc := { cur := some .host } }, ?_⟩,
    ⟨with' [(TWC_CTRL.EN, 1)], ?_⟩,
    ⟨.freed, {}, ?_⟩,
    ⟨with' [(TWC_CTRL.EN, 1), (TWC_STATUS.STATE, 3)] { twc := { cur := some .host } }, ?_⟩,
    ⟨.begins, {}, ?_⟩,
    ⟨5, [], with' [(TWC_CTRL.EN, 1), (TWC_STATUS.STATE, 3)] { twc := { cur := some .host } }, ?_⟩,
    ⟨7, [], with' [(TWC_CTRL.EN, 1), (TWC_STATUS.STATE, 3)] { twc := { cur := some (.poll 7) } }, ?_⟩⟩
  all_goals repeat' (first | exact Hci.booked_clear _ _ | apply And.intro)
  all_goals first | decide | rfl | nofun

/-- The hypotheses of HostQueues can be met. -/
theorem witness_HostQueues :
  (∃ (queue : BitVec 2) (slot : BitVec 8) (s : State), (vsysRuns s = true) ∧ (hciRuns s = true) ∧
    ((s.slot slot.toNat).st = .free)) ∧
  (∃ (queue : BitVec 2) (slot : BitVec 8) (s : State), (vsysRuns s = true) ∧ (hciRuns s = true) ∧
    ((s.slot slot.toNat).st ≠ .free)) ∧
  (∃ (queue : BitVec 2) (slot : BitVec 8) (s : State), (vsysRuns s = true) ∧ (hciRuns s = false)) ∧
  (∃ (queue : BitVec 2) (slot : BitVec 8) (head : BitVec 9) (s : State), (vsysRuns s = false)) ∧
  (∃ (lane : Fin 2) (q : Nat) (s : State), (vsysRuns s = true) ∧ (hciRuns s = true) ∧ (nextQueue s lane = some q)) ∧
  (∃ (lane : Fin 2) (s : State), (vsysRuns s = false ∨ hciRuns s = false ∨ nextQueue s lane = none)) ∧
  (∃ (l q k : Nat) (rest : List Nat) (s : State), (s.queue q = k :: rest)) ∧
  (∃ (head : BitVec 9) (s : State), (vsysRuns s = true) ∧
    ((head.toNat + 512 - s.get HCI_CQ_HEAD.HEAD) % 512 ≤ s.hci.entries.length)) ∧
  (∃ (head : BitVec 9) (s : State), (vsysRuns s = true) ∧
    (s.hci.entries.length < (head.toNat + 512 - s.get HCI_CQ_HEAD.HEAD) % 512)) ∧
  (∃ (k : BitVec 8) (s : State), (vsysRuns s = true) ∧ ((s.slot k.toNat).st = .inflight) ∧
    ((s.slot k.toNat).late = false)) ∧
  (∃ (k : BitVec 8) (s : State), (vsysRuns s = false ∨ (s.slot k.toNat).st ≠ .inflight ∨
    (s.slot k.toNat).late = true)) ∧
  (∃ (s : State), (s.hci.timer = none)) ∧
  (∃ (t : Nat) (s : State), (s.hci.timer = some t)) ∧
  (∃ (s : State), (s.get HCI_CTRL.EN = 1)) ∧
  (∃ (s : State), (vsysRuns s = true) ∧ (s.get HCI_CTRL.EN ≠ 1)) := by
  refine ⟨⟨3, 255, up 7 [(HCI_CTRL.EN, 1), (HCI_STATUS.STATE, 1), (HCI_STATUS.K1LANE, 1)], ?_⟩,
    ⟨3, 0, with' [(HCI_CTRL.EN, 1), (HCI_STATUS.STATE, 1),
      (HCI_STATUS.K1LANE, 1)] { up 7 with hci := { slots := [(0, { st := .unread })] } }, ?_⟩,
    ⟨3, 0, up 7, ?_⟩,
    ⟨3, 0, 1, {}, ?_⟩,
    ⟨0, 2, with' [(HCI_CTRL.EN, 1), (HCI_STATUS.STATE, 1),
      (HCI_STATUS.K1LANE, 1)] { up 7 with hci := { queues := [(2, [5])], slots := [(5, { st := .queued })] } }, ?_⟩,
    ⟨0, {}, ?_⟩,
    ⟨0, 2, 5, [], { hci := { queues := [(2, [5])] } }, ?_⟩,
    ⟨0, up 7, ?_⟩,
    ⟨1, up 7, ?_⟩,
    ⟨0, cmd 1 [] (up 7), ?_⟩,
    ⟨0, {}, ?_⟩,
    ⟨{}, ?_⟩,
    ⟨5, { hci := { timer := some 5 } }, ?_⟩,
    ⟨with' [(HCI_CTRL.EN, 1), (HCI_STATUS.STATE, 1), (HCI_STATUS.K1LANE, 1)], ?_⟩,
    ⟨up 7, ?_⟩⟩
  all_goals repeat' (first | exact Hci.booked_clear _ _ | apply And.intro)
  all_goals first | decide | rfl | nofun

/-- The hypotheses of HostCommandEffects can be met. -/
theorem witness_HostCommandEffects :
  (∃ (k : BitVec 8) (s : State), (executing s k.toNat = true) ∧ (slotOp s k.toNat = 0x01) ∧
    ((s.slot k.toNat).committed = false)) ∧
  (∃ (k : BitVec 8) (s : State), (executing s k.toNat = true) ∧ (slotOp s k.toNat = 0x02) ∧
    ((s.slot k.toNat).committed = false)) ∧
  (∃ (k : BitVec 8) (s : State), (executing s k.toNat = true) ∧ (slotOp s k.toNat = 0x03) ∧
    ((s.slot k.toNat).committed = false)) ∧
  (∃ (k : BitVec 8) (s : State), (executing s k.toNat = true) ∧ (slotOp s k.toNat = 0x04) ∧
    ((s.slot k.toNat).committed = false)) ∧
  (∃ (k : BitVec 8) (s : State), (executing s k.toNat = true) ∧ (slotOp s k.toNat = 0x10) ∧
    ((s.slot k.toNat).committed = false)) ∧
  (∃ (k : BitVec 8) (s : State), (executing s k.toNat = true) ∧ (slotOp s k.toNat = 0x20) ∧
    ((s.slot k.toNat).committed = false)) ∧
  (∃ (k : BitVec 8) (s : State), (executing s k.toNat = true) ∧ (slotOp s k.toNat = 0x21) ∧
    ((s.slot k.toNat).committed = false) ∧ (slotArg s k.toNat 0 = 0)) ∧
  (∃ (k : BitVec 8) (s : State), (executing s k.toNat = true) ∧ (slotOp s k.toNat = 0x21) ∧
    ((s.slot k.toNat).committed = false) ∧ (slotArg s k.toNat 0 = 1)) ∧
  (∃ (k : BitVec 8) (s : State), (executing s k.toNat = true) ∧ (slotOp s k.toNat = 0x30) ∧
    ((s.slot k.toNat).committed = false)) ∧
  (∃ (k : BitVec 8) (s : State), (executing s k.toNat = true) ∧ (slotOp s k.toNat = 0x31) ∧
    ((s.slot k.toNat).committed = false)) ∧
  (∃ (k : BitVec 8) (s : State), (executing s k.toNat = true) ∧ (slotOp s k.toNat = 0x40) ∧
    ((s.slot k.toNat).committed = false)) ∧
  (∃ (k : BitVec 8) (s : State), (executing s k.toNat = true) ∧ (slotOp s k.toNat = 0x41) ∧
    ((s.slot k.toNat).committed = false)) ∧
  (∃ (k : BitVec 8) (s : State), (executing s k.toNat = false ∨ (s.slot k.toNat).committed = true)) ∧
  (∃ (s : State) (n r0 r1 : Nat), (executing s n = true)) := by
  refine ⟨⟨0, cmd 0x01, ?_⟩,
    ⟨0, cmd 0x02, ?_⟩,
    ⟨0, cmd 0x03, ?_⟩,
    ⟨0, cmd 0x04, ?_⟩,
    ⟨0, cmd 0x10, ?_⟩,
    ⟨0, cmd 0x20, ?_⟩,
    ⟨0, cmd 0x21, ?_⟩,
    ⟨0, cmd 0x21 [] { mem := [(0x010008, 1)] }, ?_⟩,
    ⟨0, cmd 0x30, ?_⟩,
    ⟨0, cmd 0x31, ?_⟩,
    ⟨0, cmd 0x40, ?_⟩,
    ⟨0, cmd 0x41, ?_⟩,
    ⟨0, {}, ?_⟩,
    ⟨cmd 1, 0, 0, 0, ?_⟩⟩
  all_goals repeat' (first | exact Hci.booked_clear _ _ | apply And.intro)
  all_goals first | decide | rfl | nofun

/-- The hypotheses of OtpCommands can be met. -/
theorem witness_OtpCommands :
  (∃ (k : BitVec 8) (s : State), (executing s k.toNat = true) ∧ (slotOp s k.toNat = 0x50) ∧
    (readReason s (slotArg s k.toNat 0 % 32) (slotArg s k.toNat 1) (slotArg s k.toNat 2) ≠ 0)) ∧
  (∃ (k : BitVec 8) (s : State), (executing s k.toNat = true) ∧ (slotOp s k.toNat = 0x50) ∧
    (readReason s (slotArg s k.toNat 0 % 32) (slotArg s k.toNat 1) (slotArg s k.toNat 2) = 0)) ∧
  (∃ (k : BitVec 8) (s : State), (executing s k.toNat = true) ∧ (slotOp s k.toNat = 0x51) ∧ (s.otp.job = none) ∧
    (commitReason s (commitArgs s k.toNat) ≠ 0)) ∧
  (∃ (k : BitVec 8) (s : State), (executing s k.toNat = true) ∧ (slotOp s k.toNat = 0x51) ∧ (s.otp.job = none) ∧
    (commitReason s (commitArgs s k.toNat) = 0)) ∧
  (∃ (k : BitVec 8) (s : State), (executing s k.toNat = false)) ∧
  (∃ (j : OtpJob) (weak : BitVec 148) (s : State), (s.otp.job = some j) ∧ (j.locking = false)) ∧
  (∃ (op : ProgOp) (rest : List ProgOp) (weak : BitVec 148) (s : State), (s.otp.job = none) ∧
    (s.otp.raw = op :: rest) ∧ (opHeld s op = false)) ∧
  (∃ (op : ProgOp) (rest : List ProgOp) (ok : Bool) (weak : BitVec 148) (s : State), (s.otp.job = none) ∧
    (s.otp.raw = op :: rest) ∧ (opHeld s op = true)) ∧
  (∃ (r : Nat) (s : State), (regionOf (s.get OTP_RAW_ADDR.PHYS) = some r) ∧ (rawRuns s = true) ∧
    (heldRegion s r = false) ∧ (rawReason s r = 0)) ∧
  (∃ (r : Nat) (s : State), (regionOf (s.get OTP_RAW_ADDR.PHYS) = some r) ∧
    (rawRuns s = false ∨ heldRegion s r = true)) ∧
  (∃ (r : Nat) (s : State), (regionOf (s.get OTP_RAW_ADDR.PHYS) = some r) ∧ (rawRuns s = true) ∧
    (heldRegion s r = false) ∧ (rawReason s r ≠ 0)) ∧
  (∃ (s : State), (regionOf (s.get OTP_RAW_ADDR.PHYS) = none)) ∧
  (∃ (s : State), (rawRuns s = true)) ∧
  (∃ (s : State), (rawRuns s = true) ∧ (tempOk s = true) ∧ (vsysOk s = true)) ∧
  (∃ (s : State), (rawRuns s = true) ∧ (heldRegion s 2 = false) ∧ (rawReason s 2 = 0) ∧
    ((regionWords 2).all (blank s.otp) = true)) ∧
  (∃ (s : State), (rawRuns s = true) ∧ (heldRegion s 2 = false)) ∧
  (∃ (s : State), (heldRegion s 2 = true)) ∧
  (∃ (s : State), (rawRuns s = false)) := by
  refine ⟨⟨0, cmd 0x50 [] { mem := [(0x010008, 31)] }, ?_⟩,
    ⟨0, cmd 0x50 [] { mem := [(0x010008, 4)] }, ?_⟩,
    ⟨0, cmd 0x51, ?_⟩,
    ⟨0, cmd 0x51 [(THM_STATUS.OTPOK, 1), (ADC_HKVAL0.VALID, 0xFFFFFFFF)] { mem := [(0x010008, 4)] }, ?_⟩,
    ⟨0, {}, ?_⟩,
    ⟨{ slot := 0, region := 4, logical := 0, words := [5], lockW := false, lockR := false, sealDue := false, phys := 0, target := 0, found := 0 }, 0, { otp := { job := some { slot := 0, region := 4, logical := 0, words := [5], lockW := false, lockR := false, sealDue := false, phys := 0, target := 0, found := 0 } } }, ?_⟩,
    ⟨.word 4 96 5, [], 0, { otp := { raw := [.word 4 96 5] } }, ?_⟩,
    ⟨.word 2 32 5, [], true, 0,
      { with' [(ID_LOCK.KEYPRIV, 1), (ID_LOCK.FWPATCH, 1)] with otp := { raw := [.word 2 32 5] } }, ?_⟩,
    ⟨0, up 7 [(FLT_TEST.ACTIVE, 1), (THM_STATUS.OTPOK, 1), (ADC_HK.VAL 0x15, 5000), (ADC_HKVAL0.VALID, 0xFFFFFFFF)],
      ?_⟩,
    ⟨0, {}, ?_⟩,
    ⟨0, up 7 [(FLT_TEST.ACTIVE, 1)], ?_⟩,
    ⟨with' [(OTP_RAW_ADDR.PHYS, 2047)], ?_⟩,
    ⟨up 7 [(FLT_TEST.ACTIVE, 1)], ?_⟩,
    ⟨up 7 [(FLT_TEST.ACTIVE, 1), (THM_STATUS.OTPOK, 1), (ADC_HK.VAL 0x15, 5000), (ADC_HKVAL0.VALID, 0xFFFFFFFF)], ?_⟩,
    ⟨up 7 [(FLT_TEST.ACTIVE, 1), (THM_STATUS.OTPOK, 1), (ADC_HK.VAL 0x15, 5000), (ADC_HKVAL0.VALID, 0xFFFFFFFF)], ?_⟩,
    ⟨up 7 [(FLT_TEST.ACTIVE, 1)], ?_⟩,
    ⟨with' [(ID_LOCK.KEYPRIV, 1)], ?_⟩,
    ⟨{}, ?_⟩⟩
  all_goals repeat' (first | exact Hci.booked_clear _ _ | apply And.intro)
  all_goals first | decide | rfl | nofun

/-- The hypotheses of CommandFrames can be met. -/
theorem witness_CommandFrames :
  (∃ (c : Instr) (i : Issue) (w : Nat) (s u : State) (t : Nat) (x : Task), (registerOnly c = true) ∧
    (camastWord c = some (i, w)) ∧ (Runs i w s t x) ∧ (exec c s = .next u)) ∧
  (∃ (s : State) (v : Ev), (v.bit < v.evt.width)) ∧
  (∃ (s u : State), (exec .sysTimeLoRead s = .next u)) ∧
  (∃ (s u : State), (exec .idSerialLoRead s = .next u)) ∧
  (∃ (s u : State), (exec .adcUrgreqRead s = .next u)) ∧
  (∃ (s u : State), (exec .fltHwrRead s = .next u)) ∧
  (∃ (s u : State), (exec .fltLwrRead s = .next u)) ∧
  (∃ (s u : State), (exec .fltRec0Read s = .next u)) ∧
  (∃ (s u : State), (exec .hciCredit0Read s = .next u)) ∧
  (∃ (k : BitVec 8) (s u : State), (exec (.nop k) s = .next u)) ∧
  (∃ (k : BitVec 8) (s u : State), (exec (.getInfo k) s = .next u)) := by
  refine ⟨⟨.jmp { eng := 0 } 5, { eng := 0 }, jmpWord 5, prog 0 (jmpWord 5) eng,
    (match exec (.jmp { eng := 0 } 5) (prog 0 (jmpWord 5) eng) with | .next u => u | _ => {}), 3, { st := .run }, ?_⟩,
    ⟨{}, camEv 0 0 .notice 0 0, ?_⟩,
    ⟨up 7, (match exec .sysTimeLoRead (up 7) with | .next u => u | _ => {}), ?_⟩,
    ⟨up 7, (match exec .idSerialLoRead (up 7) with | .next u => u | _ => {}), ?_⟩,
    ⟨up 7, (match exec .adcUrgreqRead (up 7) with | .next u => u | _ => {}), ?_⟩,
    ⟨up 7, (match exec .fltHwrRead (up 7) with | .next u => u | _ => {}), ?_⟩,
    ⟨up 7, (match exec .fltLwrRead (up 7) with | .next u => u | _ => {}), ?_⟩,
    ⟨up 7, (match exec .fltRec0Read (up 7) with | .next u => u | _ => {}), ?_⟩,
    ⟨up 7, (match exec .hciCredit0Read (up 7) with | .next u => u | _ => {}), ?_⟩,
    ⟨0, cmd 1, (match exec (.nop 0) (cmd 1) with | .next u => u | _ => {}), ?_⟩,
    ⟨0, cmd 2, (match exec (.getInfo 0) (cmd 2) with | .next u => u | _ => {}), ?_⟩⟩
  all_goals repeat' (first | exact Hci.booked_clear _ _ | apply And.intro)
  all_goals first | decide | rfl | nofun

/-- The hypotheses of InstructionWords can be met. -/
theorem witness_InstructionWords :
  (∃ (c : Instr) (i : Issue) (w : Nat), (camastWord c = some (i, w))) ∧
  (∃ (i : Issue) (w : Nat) (read : Fetch) (c : Instr), (camastCommand i w read = some c)) := by
  refine ⟨⟨.waitpg { eng := 2 } 9 0x1F40, { eng := 2 }, 0x20901F40, ?_⟩,
    ⟨{ eng := 2 }, 0x20901F40, .clean, .waitpg { eng := 2 } 9 0x1F40, ?_⟩⟩
  all_goals repeat' (first | exact Hci.booked_clear _ _ | apply And.intro)
  all_goals first | decide | rfl | nofun

/-! ### Well-formed commands: each bound, with a command that it refuses -/

theorem test_wf_write_aligned : (Instr.registerWrite 0x001828 5 15).wf = true := by decide
theorem test_wf_write_misaligned : (Instr.registerWrite 0x001829 5 15).wf = false := by decide
theorem test_wf_start_of_loop : (Instr.outputStartEnd (.lp 0)).wf = false := by decide
theorem test_wf_short_of_loop : (Instr.outputShort (.lp 5)).wf = false := by decide
theorem test_wf_clrflt_of_loop : (Instr.outputClrflt (.lp 1)).wf = false := by decide
theorem test_wf_discharge_of_loop : (Instr.dischargeEnd (.lp 2)).wf = false := by decide
theorem test_wf_limit_of_bk : (Instr.ldoSwIlim (.bk 0)).wf = false ∧
  (Instr.ldoSwIlimEnd (.bk 0)).wf = false := by decide
theorem test_wf_limit_of_ldo : (Instr.ldoSwIlim (.ldo 7)).wf = true := by decide
theorem test_wf_drain_bytes : (Instr.blockDrainEnd (.twc 33 [])).wf = false := by decide
theorem test_wf_transfer_bytes : (Instr.twcTransferEnd .ok 0 (List.replicate 33 0)).wf = false := by decide
theorem test_wf_arbitration_bytes : (Instr.twcArbLost 33 []).wf = false := by decide
theorem test_wf_timeout_bytes : (Instr.twcSclTimeout 0 (List.replicate 33 0)).wf = false := by decide
theorem test_wf_poll_bytes : (Instr.twcPollEntryEnd .ok (List.replicate 33 0)).wf = false := by decide
theorem test_wf_base_list : (Instr.adcEntryDone (.base 0x1A [])).wf = false := by decide
theorem test_wf_base_entry : (Instr.adcEntryDone (.base 0x19 [])).wf = true := by decide
theorem test_wf_source_zero : (Instr.intcRequestChange 0).wf = false := by decide
theorem test_wf_source_last : (Instr.intcRequestChange 256).wf = true := by decide
theorem test_wf_source_beyond : (Instr.intcRequestChange 257).wf = false := by decide
theorem test_wf_claim_target : (Instr.intcClaim 2).wf = false ∧ (Instr.intcComplete 5 1).wf = false := by decide
theorem test_wf_claim_host : (Instr.intcClaim 6).wf = true := by decide

/-! ### Values that the spec's own examples give -/

/-- R205 and the example of `WAITPG`: deadline 0x1F40 is 8000 µs, and 0 is an idle wait. -/
theorem test_deadline : deadlineUs 0x1F40 = some 8000 ∧ deadlineUs 0x8002 = some 20000 ∧
  deadlineUs 0 = none := by decide
/-- The example of chapter 4: bits [31:4] of 0x1CE_8814 have the CRC 0x2. -/
theorem test_vcl_crc : withCrc 0x1CE88140 = 0x1CE88142 := by decide
/-- The same example: the frame 0x1CE8_8142 is SETV with RACK 1, TAG 2, VID 0x744 and slew 20; with a bit of its CRC
wrong it is a CRC error (R137). -/
theorem test_vcl_frame :
    vclCommand 1 0x1CE88142 0 = .vclSetv 1 true 2 0x744 20 ∧ vclCommand 1 0x1CE88143 0 = .vclCrcError 1 := by decide
/-- The example of R206: the word 0x2090_1F40 is WAITPG 9, 8000 µs; opcode 0x3F is no instruction. -/
theorem test_camast_word :
    camastCommand { eng := 2 } 0x20901F40 = some (.waitpg { eng := 2 } 9 0x1F40) ∧
      camastCommand { eng := 2 } 0xFC000000 = none := by decide
/-- The start of a VCL frame is recognised after two sampled highs (R132). -/
theorem test_vcl_start :
    sampledFrame 0 (true :: true :: false :: List.replicate 31 true) = sampledFrame 2
      (false :: List.replicate 31 true) ∧
      sampledFrame 0 (true :: false :: List.replicate 31 true) = none := by decide
/-- The published check value of the CRC-8 with generator x^8 + x^2 + x + 1 (R420) over the characters 1 to 9. -/
theorem test_crc8 : crc8 [0x31, 0x32, 0x33, 0x34, 0x35, 0x36, 0x37, 0x38, 0x39] = 0xF4 := by decide
/-- The example of chapter 3: LP5 at ×4 with VMAX 0xA41, 470 nH and DMAX 75 % needs 3724 mA/µs. -/
theorem test_slope_min :
    slopeMin (with' [(LP_VCFG.DIV 5, 2), (LP_VCFG.VMAX 5, 0xA41), (LP_PLANT.LPH 5, 470), (LP_PWM.DMAX 5, 75)]) 5 =
      3724 := by decide
/-- The example of chapter 6: SUP9 asserts warning low below 11.640 V and clears it above 11.700 V. -/
theorem test_warning_low :
    lieLow 12000000 2 12 11639999 = .beyond ∧ lieLow 12000000 2 12 11640000 = .between ∧
    lieLow 12000000 2 12 11700001 = .inside := by decide
/-- The example of chapter 6: fault high lies at 13.200 V. -/
theorem test_fault_high :
    lieHigh 12000000 2 40 13200000 ≠ .beyond ∧ lieHigh 12000000 2 40 13200001 = .beyond := by decide
/-- The example of chapter 2: 1.57 A of 5.00 A runs the timer at half rate, 2.74 A at full rate. -/
theorem test_timer_rate : timerRate 1570 5000 0 = 1 ∧ timerRate 2740 5000 0 = 2 ∧
  timerRate 900 5000 0 = 0 := by decide
/-- The example of chapter 2: the share is 1.57 A by day. -/
theorem test_share :
    (fun x : Nat × Nat => x.1 / x.2)
      (shareOf {} 4200 0 23950 52000 0) = 1571 := by decide
/-- The grid-loss example of chapter 8: 756 kJ over an hour is 21 000 units. -/
theorem test_energy_term :
    energyTerm (with' [(PP_STATUS.STATE, 2)]) 756000000 3600 = 21000 := by decide
/-- Table 15.12: slot 5's completion, and the urgent one of slot 8. -/
theorem test_completion_word :
    (completionWords {} 5 0 false { status := 0 }).head? = some 0x80000005 ∧
    (completionWords { mem := [(0x010102, 0x80)] } 8 3 false { status := 0 }).head? = some 0xC0000008 := by decide
/-- The example of chapter 18: channel 37's words lie at 0x123C, 0x1240 and 0x1244. -/
theorem test_channel_addresses :
    (SUP_CFG.EN 37).addr = 0x123C ∧ (SUP_LVL.FHI 37).addr = 0x1240 ∧ (SUP_NOM.VNOM 37).addr = 0x1244 := by decide
/-- The example of chapter 16: the two-wire address 0x23 is sent as 0x46 for a write. -/
theorem test_address_byte : addressByte 0x23 false = 0x46 ∧ addressByte 0x23 true = 0x47 := by decide

/-! ### The word of a command, and the queue -/

theorem test_no_word : decodeTableWord 32 0 = none := by decide
theorem test_front_of_queue :
    step { up 7 with pending := [.intcDbellSet] } = .next ((up 7).set INTC_DBELL.RING 1) := rfl
/-- On an empty queue TREF counts where it runs; at POR it does not (log entry 97). -/
theorem test_idle : step {} = .next {} ∧ step (up 9) = .next { up 9 with now := 1 } := ⟨rfl, rfl⟩
/-- R491: data fuses are pulsed in ascending order, and check fuses last. -/
theorem test_pulse_order : pulsed (2 ^ 0 + 2 ^ 17 + 2 ^ 18) 2 = 2 ^ 17 + 2 ^ 18 := by decide
/-- R467: a transfer that writes nothing starts at the address with read. -/
theorem test_transfer_bytes :
    xferBytes 0x23 [] 2 = [0x47] ∧ xferBytes 0x23 [0x05] 2 = [0x46, 0x05, 0x47] := by decide

end Sys2Proof.Tests
end

section
/-! The accumulator of a loop's compensator and its clamp (R92, R113, R116, R354): what one run of the compensator and a
whole period leave in the loop's state. -/

namespace Sys2Proof.Machine

/-- A loop reads the state that was written to it. -/
theorem State.loop_setLoop_same (s : State) (n : Nat) (l : LoopSt) : (s.setLoop n l).loop n = l :=
  NMap.get_put_same _ _ _ _

/-- A value clamped between 0 and `m` is at most `m`. -/
theorem toNat_clamp_le (m : Nat) (x : Int) : (max 0 (min (m : Int) x)).toNat ≤ m := by omega

/-- An accumulator within the clamp rounds to an Ic within PHLIM, whichever way a tie goes (R92, R113). -/
theorem roundAcc_le {acc p : Nat} (free : Nat) (h : acc ≤ p * 4096) : roundAcc acc free ≤ p := by
  unfold roundAcc
  split
  next tie => split <;> omega
  next => omega

/-! ### One run of the compensator, and one of an injection -/

section
variable (s : State) (n : Nat) (e0 : Int)

/-- What one run of the compensator leaves in its loop (R92): the error, the derivative, an accumulator within the
clamp, its rounding as Ic, and the Ic before for a missed deadline (R93). -/
theorem compensate_loop :
    let df := derivative (s.get (LP_COMP1.KF n)) (s.loop n) (e0 - (s.loop n).e1)
    ∃ acc ≤ s.get (LP_ILIM.PHLIM n) * 4096, (compensate s n e0).loop n =
      { s.loop n with
        e1 := e0, dfNum := df.1, dfExp := df.2, acc, ic := roundAcc acc (s.free + 1), icPrev := (s.loop n).ic } :=
  ⟨_, toNat_clamp_le _ _, State.loop_setLoop_same s n _⟩

/-- The accumulator leaves the compensator clamped to PHLIM (R92), truncating or not (R116). -/
theorem compensate_acc_le : ((compensate s n e0).loop n).acc ≤ s.get (LP_ILIM.PHLIM n) * 4096 := by
  obtain ⟨acc, hacc, hloop⟩ := compensate_loop s n e0
  rwa [hloop]

theorem compensate_ic_le : ((compensate s n e0).loop n).ic ≤ s.get (LP_ILIM.PHLIM n) := by
  obtain ⟨acc, hacc, hloop⟩ := compensate_loop s n e0
  rw [hloop]
  exact roundAcc_le _ hacc

theorem compensate_icPrev : ((compensate s n e0).loop n).icPrev = (s.loop n).ic := by
  obtain ⟨acc, -, hloop⟩ := compensate_loop s n e0
  rw [hloop]

theorem compensate_trunc : ((compensate s n e0).loop n).trunc = (s.loop n).trunc := by
  obtain ⟨acc, -, hloop⟩ := compensate_loop s n e0
  rw [hloop]

/-- What a raised period of an injection leaves in its loop (R354): the compensator's run with the accumulator held,
and an Ic within PHLIM. -/
theorem inject_loop : ∃ ic ≤ s.get (LP_ILIM.PHLIM n), ∃ inj, (inject s n e0).loop n =
    { (compensate s n e0).loop n with acc := (s.loop n).acc, ic, inj } :=
  ⟨_, Nat.min_le_left _ _, _, State.loop_setLoop_same (compensate s n e0) n _⟩

/-! ### A whole period -/

/-- The measurement of R354 takes only the total current from a period. -/
theorem notePeriod_loop :
    (notePeriod s n).loop n = { s.loop n with totals := (totalCurrent s n :: (s.loop n).totals).take 8 } :=
  State.loop_setLoop_same s n _

/-- A whole period keeps an accumulator within the clamp there, keeps Ic within PHLIM, and leaves truncation as it is:
either the compensator runs, or the period injects. -/
theorem compensatePeriod_clamp (h : (s.loop n).acc ≤ s.get (LP_ILIM.PHLIM n) * 4096) :
    let l := (compensatePeriod s n e0).loop n
    l.acc ≤ s.get (LP_ILIM.PHLIM n) * 4096 ∧ l.ic ≤ s.get (LP_ILIM.PHLIM n) ∧ l.trunc = (s.loop n).trunc := by
  have htrunc : ((compensate (notePeriod s n) n e0).loop n).trunc = (s.loop n).trunc := by
    rw [compensate_trunc, notePeriod_loop]
  unfold compensatePeriod
  dsimp only
  split
  case isTrue =>
    obtain ⟨ic, hic, inj, hloop⟩ := inject_loop (notePeriod s n) n e0
    rw [hloop, notePeriod_loop]
    exact ⟨h, hic, htrunc⟩
  case isFalse =>
    exact ⟨compensate_acc_le (notePeriod s n) n e0, compensate_ic_le (notePeriod s n) n e0, htrunc⟩

end

/-- Settles O25: a run of the compensator clamps the accumulator itself; a period either is such a run or injects, with
the accumulator held and Ic cut to PHLIM. -/
theorem compensatorClamp : Obligations.CompensatorClamp :=
  ⟨fun n e0 s => ⟨compensate_acc_le s n e0, compensate_icPrev s n e0, compensate_trunc s n e0⟩,
    fun n e0 s h => compensatePeriod_clamp s n e0 h⟩

end Sys2Proof.Machine
end

section
/-! The default slew of the Voltage Command Link (R130, R139, R140, R144): what a transaction leaves of the fields, the
transition in flight and the loops, and where a frame with slew 0 is the frame with the default slew. -/

namespace Sys2Proof.Machine

/-- A port reads the state that was written to it. -/
theorem State.port_setPort_same (s : State) (p : Nat) (v : Vcl) : (s.setPort p v).port p = v :=
  NMap.get_put_same _ _ _ _

/-! ### The acknowledgement and the alert flags -/

section
variable (s : State) (p : Nat)

/-- RACK either releases nothing, or changes the port's acknowledgements and clears alert flags (R150, R151). -/
theorem releaseAck_cases (rack : Bool) : releaseAck s p rack = s ∨
    ∃ v mask, releaseAck s p rack = (s.setPort p v).clearBits (VCL_ALERT.LATCH p) mask ∧
      v.flight = (s.port p).flight := by
  unfold releaseAck
  dsimp only
  split
  next x _ => exact .inr ⟨_, x.alerts, rfl, rfl⟩
  next => exact .inl rfl

theorem releaseAck_get (rack : Bool) {f : Field} (h : f.key ≠ (VCL_ALERT.LATCH p).key) :
    (releaseAck s p rack).get f = s.get f := by
  obtain hs | ⟨v, mask, hs, -⟩ := releaseAck_cases s p rack <;> rw [hs]
  exact State.get_set_ne (s.setPort p v) _ h

theorem releaseAck_flight (rack : Bool) : ((releaseAck s p rack).port p).flight = (s.port p).flight := by
  obtain hs | ⟨v, mask, hs, hv⟩ := releaseAck_cases s p rack <;> rw [hs]
  exact (congrArg Vcl.flight (State.port_setPort_same s p v)).trans hv

theorem releaseAck_loops (rack : Bool) : (releaseAck s p rack).loops = s.loops := by
  obtain hs | ⟨v, mask, hs, -⟩ := releaseAck_cases s p rack <;> rw [hs]
  rfl

/-- Latching an alert flag leaves every other field (R151). -/
theorem vclAlert_get (b : Nat) {f : Field} (h : f.key ≠ (VCL_ALERT.LATCH p).key) :
    (vclAlert s p b).get f = s.get f := by
  unfold vclAlert
  split
  · exact State.get_set_ne s _ h
  · rfl

/-! ### A transaction -/

/-- The end of a transaction writes no field. -/
theorem endTransaction_get (tag : Nat) (r : Response) (f : Field) : (endTransaction s p tag r).get f = s.get f := rfl

theorem endTransaction_flight (tag : Nat) (r : Response) :
    ((endTransaction s p tag r).port p).flight = (s.port p).flight :=
  (congrArg Vcl.flight (State.port_setPort_same s p _)).trans rfl

/-- Where the port answers, the command acts after the release of the acknowledgement, and its frames end the
transaction. -/
theorem transact_of_answers (rack : Bool) (tag : Nat) (body : State → State × Response) (h : portAnswers s = true) :
    transact p rack tag s body =
      .next (endTransaction (body (releaseAck s p rack)).1 p tag (body (releaseAck s p rack)).2) :=
  congrArg Host.Outcome.next (if_pos h)

/-- Two commands with one effect after the release of the acknowledgement are one transaction. -/
theorem transact_congr (rack : Bool) (tag : Nat) {body body' : State → State × Response}
    (h : body (releaseAck s p rack) = body' (releaseAck s p rack)) :
    transact p rack tag s body = transact p rack tag s body' := by
  unfold transact
  rw [h]

/-! ### The slew of a command -/

theorem outside_eq_false {lo hi x : Nat} (hl : lo ≤ x) (hh : x ≤ hi) : outside lo hi x = false := by
  simp [outside, hl, hh]

/-- A slew from 5 to 400 is refused no more than a slew of 0 (Table 4.7). -/
theorem targetCode_slew_zero (vid : Nat) {slew : Nat} (argBad unset : Bool) (hl : 5 ≤ slew) (hh : slew ≤ 400) :
    targetCode s p vid 0 argBad unset = targetCode s p vid slew argBad unset := by
  simp [targetCode, outside_eq_false hl hh]

/-- A target with slew 0 is the target with the default slew, where that lies from 5 to 400 (R140). -/
theorem newTarget_slew_zero (tag vid : Nat) {slew : Nat} (argBad unset : Bool)
    (hd : s.get (VCL_STATUS.DSLEW p) = slew) (hl : 5 ≤ slew) (hh : slew ≤ 400) :
    newTarget s p tag vid 0 argBad unset = newTarget s p tag vid slew argBad unset := by
  have hslew : slew ≠ 0 := by omega
  simp [newTarget, unlessRefused, targetCode_slew_zero s p vid argBad unset hl hh, hd, hslew]

end

/-! ### The fields that a command reads -/

section
variable (s : State) (p : Fin 2) (rack : Bool)

theorem releaseAck_get_en : (releaseAck s p rack).get (VCL_CTRL.EN p) = s.get (VCL_CTRL.EN p) :=
  releaseAck_get s p rack (by revert p; decide)

theorem releaseAck_get_dslew : (releaseAck s p rack).get (VCL_STATUS.DSLEW p) = s.get (VCL_STATUS.DSLEW p) :=
  releaseAck_get s p rack (by revert p; decide)

theorem releaseAck_get_target (n : Fin 6) :
    (releaseAck s p rack).get (LP_VREF.TARGET n) = s.get (LP_VREF.TARGET n) :=
  releaseAck_get s p rack (by revert p n; decide)

theorem releaseAck_get_pstValid (q : Fin 4) :
    (releaseAck s p rack).get (VCL_PST.VALID p q) = s.get (VCL_PST.VALID p q) :=
  releaseAck_get s p rack (by revert p q; decide)

theorem releaseAck_get_pstVid (q : Fin 4) :
    (releaseAck s p rack).get (VCL_PST.VID p q) = s.get (VCL_PST.VID p q) :=
  releaseAck_get s p rack (by revert p q; decide)

theorem releaseAck_get_pstSlew (q : Fin 4) :
    (releaseAck s p rack).get (VCL_PST.SLEW p q) = s.get (VCL_PST.SLEW p q) :=
  releaseAck_get s p rack (by revert p q; decide)

theorem vclAlert_get_dslew (b : Nat) : (vclAlert s p b).get (VCL_STATUS.DSLEW p) = s.get (VCL_STATUS.DSLEW p) :=
  vclAlert_get s p b (by revert p; decide)

/-- The end of an enable sets EN to 1, with its event (R130), and leaves DSLEW. -/
theorem portOn_get : let t := notice (s.set (VCL_CTRL.EN p) 1) (vclEv p 6 .notice)
    t.get (VCL_STATUS.DSLEW p) = s.get (VCL_STATUS.DSLEW p) ∧ t.get (VCL_CTRL.EN p) = 1 :=
  ⟨(notice_get _ _ _ (by revert p; decide)).trans (State.get_set_ne s 1 (by revert p; decide)),
    (notice_get _ _ _ (by revert p; decide)).trans (State.get_set_same s _ 1)⟩

end

/-! ### The commands -/

section
variable (p : Fin 2) (rack : Bool) (tag : BitVec 2) (s : State)

/-- A SETSLEW that is not refused writes DSLEW and answers with the slew (R140). -/
theorem exec_vclSetslew_accepted (slew : BitVec 9) (ha : portAnswers s = true) (hen : s.get (VCL_CTRL.EN p) = 1)
    (hl : 5 ≤ slew.toNat) (hh : slew.toNat ≤ 400) :
    exec (.vclSetslew p rack tag slew 0) s =
      .next (endTransaction ((releaseAck s p rack).set (VCL_STATUS.DSLEW p) slew.toNat) p tag.toNat
        { code := 1, data := slew.toNat * 2 }) := by
  have hon : (releaseAck s p rack).on (VCL_CTRL.EN p) = true :=
    decide_eq_true ((releaseAck_get_en s p rack).trans hen)
  change execVclSetslew p rack tag slew 0 s = _
  simp [execVclSetslew, transact_of_answers s p rack tag.toNat _ ha, unlessRefused, hon, firstCode,
    outside_eq_false hl hh]

/-- SETSLEW leaves its slew in DSLEW, and the transition in flight, the loops and their targets as they are. -/
theorem vclSetslew_accepted_effect (slew : BitVec 9) (r : Response) :
    let t := endTransaction ((releaseAck s p rack).set (VCL_STATUS.DSLEW p) slew.toNat) p tag.toNat r
    t.get (VCL_STATUS.DSLEW p) = slew.toNat ∧ (t.port p).flight = (s.port p).flight ∧ t.loops = s.loops ∧
      ∀ n : Fin 6, t.get (LP_VREF.TARGET n) = s.get (LP_VREF.TARGET n) := by
  refine ⟨?dslew, ?flight, releaseAck_loops s p rack, fun n => ?target⟩
  case dslew =>
    rw [endTransaction_get, State.get_set_same]
    exact Nat.mod_eq_of_lt slew.isLt
  case flight =>
    rw [endTransaction_flight]
    exact releaseAck_flight s p rack
  case target =>
    have hkey : (LP_VREF.TARGET n).key ≠ (VCL_STATUS.DSLEW p).key := by revert p n; decide
    rw [endTransaction_get, State.get_set_ne _ _ hkey, releaseAck_get_target]

/-- A SETV with slew 0 is the SETV with the default slew (R140, R144). -/
theorem exec_vclSetv_slew_zero (vid : BitVec 12) (slew : BitVec 9)
    (hd : s.get (VCL_STATUS.DSLEW p) = slew.toNat) (hl : 5 ≤ slew.toNat) (hh : slew.toNat ≤ 400) :
    exec (.vclSetv p rack tag vid 0) s = exec (.vclSetv p rack tag vid slew) s := by
  change execVclSetv p rack tag vid 0 s = execVclSetv p rack tag vid slew s
  exact transact_congr s p rack tag.toNat (newTarget_slew_zero _ p tag.toNat vid.toNat false false
    ((releaseAck_get_dslew s p rack).trans hd) hl hh)

/-- A PSTATE is the SETV with the VID and the slew of its entry, where that is valid (R139). -/
theorem exec_vclPstate_eq_vclSetv (q : Fin 4) (vid : BitVec 12) (slew : BitVec 9)
    (hvalid : s.get (VCL_PST.VALID p q) = 1) (hvid : s.get (VCL_PST.VID p q) = vid.toNat)
    (hslew : s.get (VCL_PST.SLEW p q) = slew.toNat) :
    exec (.vclPstate p rack tag q 0) s = exec (.vclSetv p rack tag vid slew) s := by
  have hon : (releaseAck s p rack).on (VCL_PST.VALID p q) = true :=
    decide_eq_true ((releaseAck_get_pstValid s p rack q).trans hvalid)
  change execVclPstate p rack tag q 0 s = execVclSetv p rack tag vid slew s
  refine transact_congr s p rack tag.toNat ?_
  simp [hon, releaseAck_get_pstVid, hvid, releaseAck_get_pstSlew, hslew]

/-- An accepted enable copies the bound loop's slew, latches PORT_RESET the first time, and sets EN (R130, R152). -/
theorem exec_vclPortEnable_accepted (hen : s.get (VCL_CTRL.EN p) ≠ 1) (hserves : servesFrom s 3 = true)
    (hcode : portReason s p = 0) :
    let s1 := (s.set (VCL_STATUS.DSLEW p) (s.get (LP_SLEW.SLEW (boundLoop s p)))).setPort p
      { s.port p with enabled := true }
    exec (.vclPortEnable p) s = .next
      (notice ((if (s.port p).enabled then s1 else vclAlert s1 p 5).set (VCL_CTRL.EN p) 1) (vclEv p 6 .notice)) := by
  have hoff : s.on (VCL_CTRL.EN p) = false := decide_eq_false hen
  change execVclPortEnable p s = _
  cases henabled : (s.port p).enabled <;> simp [execVclPortEnable, hoff, hserves, hcode, henabled]

/-- An accepted enable leaves the slew of the bound loop in DSLEW, and EN at 1, the first one as any other. -/
theorem vclPortEnable_accepted_effect (v : Vcl) (hslew : s.get (LP_SLEW.SLEW (boundLoop s p)) < 2 ^ 9) :
    let s1 := (s.set (VCL_STATUS.DSLEW p) (s.get (LP_SLEW.SLEW (boundLoop s p)))).setPort p v
    let t := notice ((if (s.port p).enabled then s1 else vclAlert s1 p 5).set (VCL_CTRL.EN p) 1) (vclEv p 6 .notice)
    t.get (VCL_STATUS.DSLEW p) = s.get (LP_SLEW.SLEW (boundLoop s p)) ∧ t.get (VCL_CTRL.EN p) = 1 := by
  intro s1 t
  have htaken : s1.get (VCL_STATUS.DSLEW p) = s.get (LP_SLEW.SLEW (boundLoop s p)) :=
    (State.get_set_same s _ _).trans (Nat.mod_eq_of_lt hslew)
  obtain ⟨hdslew, hon⟩ := portOn_get (if (s.port p).enabled then s1 else vclAlert s1 p 5) p
  refine ⟨hdslew.trans ?_, hon⟩
  split
  case isTrue => exact htaken
  case isFalse => exact (vclAlert_get_dslew s1 p 5).trans htaken

end

/-- Settles O30: a transaction around SETSLEW changes DSLEW and alert flags alone of the fields, a target with slew 0 is
the one with DSLEW, and an accepted enable copies the bound loop's slew. -/
theorem vclDefaultSlew : Obligations.VclDefaultSlew :=
  ⟨fun p rack tag slew s ha hen hl hh =>
      ⟨_, exec_vclSetslew_accepted p rack tag s slew ha hen hl hh, vclSetslew_accepted_effect p rack tag s slew _⟩,
    fun p rack tag vid slew s => exec_vclSetv_slew_zero p rack tag s vid slew,
    fun p rack tag q vid slew s => exec_vclPstate_eq_vclSetv p rack tag s q vid slew,
    fun p s hen hserves hcode hslew =>
      ⟨_, exec_vclPortEnable_accepted p s hen hserves hcode, vclPortEnable_accepted_effect p s _ hslew⟩⟩

end Sys2Proof.Machine
end

section
/-! Moves, arithmetic and logic of the sequencer (R207, R229, Table 7.1): an instruction that acts on its own task
alone, and the result and the flags that it leaves there. -/

namespace Sys2Proof.Machine

/-! ### Operands and results -/

@[simp] theorem Task.reg_advanced (x : Task) (n : Nat) : x.advanced.reg n = x.reg n := rfl

@[simp] theorem arithOperand_advanced (x : Task) (src : AluSrc) : arithOperand x.advanced src = arithOperand x src := by
  cases src <;> rfl

@[simp] theorem logicOperand_advanced (x : Task) (src : AluSrc) : logicOperand x.advanced src = logicOperand x src := by
  cases src <;> rfl

/-- A write of a value modulo 2^32 is a write of the value. -/
theorem wrote_of_wrote_mod {x z : Task} {wd v : Nat} (h : Wrote x z wd (v % 2 ^ 32)) : Wrote x z wd v := by
  simpa only [Wrote, Nat.mod_mod] using h

/-- N from a result below 2^32 tells whether its bit 31 is set (R229). -/
theorem setZN_of_lt (x : Task) {v : Nat} (h : v < 2 ^ 32) :
    x.setZN v = { x with z := decide (v = 0), n := decide (2 ^ 31 ≤ v) } := by
  have hn : v / 2 ^ 31 % 2 = 1 ↔ 2 ^ 31 ≤ v := by omega
  simp only [Task.setZN, bitOf, hn, Nat.mod_eq_of_lt h]

theorem subWord_lt (a b : Nat) : subWord a b < 2 ^ 32 := Nat.mod_lt _ (by decide)

/-- C after a shift is the last bit shifted out, bit n − 1, and stays as it is where none is (R229). -/
theorem shiftCarry_eq (c : Bool) (a n : Nat) : shiftCarry c a n = if n = 0 then c else a.testBit (n - 1) := by
  rw [shiftCarry, bitOf, Nat.testBit_eq_decide_div_mod_eq]

/-! ### An instruction on its own task -/

section
variable {i : Issue} {w : Nat} {s : State} {t : Nat} {x : Task}

/-- An executed instruction on its own task changes that task's entry and nothing else. -/
theorem onTask_runs (h : Runs i w s t x) (f : Task → Task) :
    onTask i w s f = .next ((issued i s t x).setTask i.eng t (f x.advanced)) := issue_runs h _

/-- An executed instruction whose effect on its task is a result, with `c` as C, writes it. -/
theorem onTask_writes (h : Runs i w s t x) {f : Task → Task} {wd v : Nat} {c : Bool}
    (hf : f x.advanced = { x.advanced.result wd v with c := c }) :
    ∃ z, onTask i w s f = .next ((issued i s t x).setTask i.eng t z) ∧ Wrote x z wd v ∧ z.c = c := by
  refine ⟨{ x.advanced.result wd v with c := c }, ?_, wrote_result x wd v c, rfl⟩
  rw [onTask_runs h, hf]

end

/-! ### The instructions -/

section
variable (i : Issue) (wd ws : Fin 16) (src : AluSrc) (s : State) (t : Nat) (x : Task)

theorem execMovReg_runs (h : Runs i (movRegWord wd ws) s t x) :
    ∃ z, execMovReg i wd ws s = .next ((issued i s t x).setTask i.eng t z) ∧ Wrote x z wd (x.reg ws) ∧
      z.c = x.c :=
  onTask_writes h rfl

theorem execMovImm_runs (imm : BitVec 22) (h : Runs i (movImmWord wd imm) s t x) :
    ∃ z, execMovImm i wd imm s = .next ((issued i s t x).setTask i.eng t z) ∧
      Wrote x z wd (signExt 22 imm.toNat) ∧ z.c = x.c :=
  onTask_writes h rfl

/-- A MOV of a constant whose word reads writes it, and a read that was corrected is counted (R202). -/
theorem execMovConst_runs (k : BitVec 13) (read : Fetch) (h : Runs i (movConstWord wd k) s t x)
    (hread : read ≠ .triple) :
    ∃ z, execMovConst i wd k read s = .next ((fetched (issued i s t x) read).setTask i.eng t z) ∧
      Wrote x z wd (constWord (issued i s t x) k.toNat) ∧ z.c = x.c := by
  refine ⟨x.advanced.result wd (constWord (issued i s t x) k.toNat), ?_, wrote_result x wd _ x.c, rfl⟩
  exact (issue_runs h _).trans (congrArg Host.Outcome.next (if_neg hread))

/-- A MOV of a constant whose word reads with a triple error halts the engine (R202). -/
theorem execMovConst_triple (k : BitVec 13) (h : Runs i (movConstWord wd k) s t x) :
    execMovConst i wd k .triple s = .next (memErr (issued i s t x) i.eng t) :=
  issue_runs h _

theorem execAdd_runs (h : Runs i (aluWord 0x1B wd ws src) s t x) :
    ∃ z, execAdd i wd ws src s = .next ((issued i s t x).setTask i.eng t z) ∧
      Wrote x z wd (x.reg ws + arithOperand x src) ∧ z.c = decide (2 ^ 32 ≤ x.reg ws + arithOperand x src) :=
  onTask_writes h (by simp [addCarry])

/-- The difference is taken modulo 2^32 before it is written, which writes the same. -/
theorem execSub_runs (h : Runs i (aluWord 0x1C wd ws src) s t x) :
    ∃ z, execSub i wd ws src s = .next ((issued i s t x).setTask i.eng t z) ∧
      Wrote x z wd (x.reg ws + 2 ^ 32 - arithOperand x src) ∧ z.c = decide (x.reg ws < arithOperand x src) := by
  obtain ⟨z, hexec, hwrote, hc⟩ : ∃ z, execSub i wd ws src s = .next ((issued i s t x).setTask i.eng t z) ∧
      Wrote x z wd (subWord (x.reg ws) (arithOperand x src)) ∧ z.c = decide (x.reg ws < arithOperand x src) :=
    onTask_writes h (by simp [subBorrow])
  exact ⟨z, hexec, wrote_of_wrote_mod hwrote, hc⟩

theorem execAnd_runs (h : Runs i (aluWord 0x1D wd ws src) s t x) :
    ∃ z, execAnd i wd ws src s = .next ((issued i s t x).setTask i.eng t z) ∧
      Wrote x z wd (x.reg ws &&& logicOperand x src) ∧ z.c = x.c :=
  onTask_writes h (by simp only [Task.reg_advanced, logicOperand_advanced]; rfl)

theorem execOr_runs (h : Runs i (aluWord 0x1E wd ws src) s t x) :
    ∃ z, execOr i wd ws src s = .next ((issued i s t x).setTask i.eng t z) ∧
      Wrote x z wd (x.reg ws ||| logicOperand x src) ∧ z.c = x.c :=
  onTask_writes h (by simp only [Task.reg_advanced, logicOperand_advanced]; rfl)

/-- CMP sets the flags of a SUB and writes no register (R229). -/
theorem execCmp_runs (h : Runs i (cmpWord ws src) s t x) :
    ∃ z, execCmp i ws src s = .next ((issued i s t x).setTask i.eng t z) ∧
      z = { x.advanced with
        z := decide (subWord (x.reg ws) (arithOperand x src) = 0)
        n := decide (2 ^ 31 ≤ subWord (x.reg ws) (arithOperand x src))
        c := decide (x.reg ws < arithOperand x src) } := by
  refine ⟨_, onTask_runs h _, ?_⟩
  simp only [Task.reg_advanced, arithOperand_advanced, setZN_of_lt _ (subWord_lt _ _), subBorrow]

/-- SHR shifts by its count, Wt[4:0] or the immediate, in either form (R229). -/
theorem execShr_runs (src : ShrSrc) (h : Runs i (shrWord wd ws src) s t x) :
    ∃ z, execShr i wd ws src s = .next ((issued i s t x).setTask i.eng t z) ∧
      Wrote x z wd (x.reg ws / 2 ^ shiftCount x src) ∧
      z.c = if shiftCount x src = 0 then x.c else (x.reg ws).testBit (shiftCount x src - 1) := by
  have hcount : shiftCount x.advanced src = shiftCount x src := by cases src <;> rfl
  exact onTask_writes h (by rw [← shiftCarry_eq, hcount]; rfl)

end

/-- Settles O32: an executed instruction leaves its issued state but for its own task, which takes the result, with C
from the carry, the borrow or the bit shifted out; SHR's two forms are one lemma over its count. -/
theorem arithmeticResults : Obligations.ArithmeticResults :=
  ⟨execMovReg_runs, fun i wd imm s t x => execMovImm_runs i wd s t x imm,
    fun i wd k read s t x => execMovConst_runs i wd s t x k read,
    fun i wd k s t x => execMovConst_triple i wd s t x k,
    execAdd_runs, execSub_runs, execAnd_runs, execOr_runs, execCmp_runs,
    fun i wd ws wt s t x => execShr_runs i wd ws s t x (.reg wt),
    fun i wd ws n s t x => execShr_runs i wd ws s t x (.imm n)⟩

end Sys2Proof.Machine
end

section
/-! SETSLEW and PHASES (R213): the field that each of them writes, the result code of Table 7.5 that it leaves in its
task, and what the issue of an instruction leaves alone. -/

namespace Sys2Proof.Machine

/-! ### The issue of an instruction -/

/-- A task reads the entry that was written to it. -/
theorem State.task_setTask_same (s : State) (e t : Nat) (x : Task) : (s.setTask e t x).task e t = x :=
  NMap.get_put_same _ _ _ _

/-- The read of an instruction's word changes the corrected-read count alone of the fields (R202). -/
theorem fetched_get (s : State) (r : Fetch) {f : Field} (h : f.key ≠ CAM_IMG_MEMERR.COUNT.key) :
    (fetched s r).get f = s.get f := by
  cases r with
  | corrected => exact State.get_set_ne s _ h
  | clean => rfl
  | triple => rfl

theorem fetched_byte (s : State) (r : Fetch) (a : Nat) : (fetched s r).byte a = s.byte a := by
  cases r <;> rfl

section
variable (i : Issue) (s : State) (t : Nat) (x : Task)

/-- The issue of an instruction changes the corrected-read count alone of the fields. -/
theorem issued_get {f : Field} (h : f.key ≠ CAM_IMG_MEMERR.COUNT.key) : (issued i s t x).get f = s.get f :=
  fetched_get s i.fetch h

theorem issued_sameFields : SameFields [CAM_IMG_MEMERR.COUNT] s (issued i s t x) := fun f h =>
  issued_get i s t x (by simpa using h)

theorem issued_sameMemory : SameMemory s (issued i s t x) := fetched_byte s i.fetch

/-- The issue of an instruction leaves the enable of a loop. -/
theorem issued_on_en (n : Fin 6) : (issued i s t x).on (LP_CTRL.EN n) = decide (s.get (LP_CTRL.EN n) = 1) :=
  congrArg (fun v => decide (v = 1)) (issued_get i s t x (by revert n; decide))

/-! ### The end of a power instruction -/

theorem powerResult_reg (x : Task) (wd : Nat) {code : Nat} (h : code < 2 ^ 32) :
    (powerResult x wd code).reg wd = code :=
  (Task.reg_setReg x wd code).trans (Nat.mod_eq_of_lt h)

/-- A power instruction that ends with its code on the issued state changes no field but the corrected-read count. -/
theorem powerResult_effect (wd : Nat) {code : Nat} (h : code < 2 ^ 32) :
    let v := (issued i s t x).setTask i.eng t (powerResult x.advanced wd code)
    SameFields [CAM_IMG_MEMERR.COUNT] s v ∧ SameMemory s v ∧ (v.task i.eng t).reg wd = code ∧
      (v.task i.eng t).z = decide (code = 0) := by
  intro v
  have htask : v.task i.eng t = powerResult x.advanced wd code := State.task_setTask_same _ _ _ _
  rw [htask]
  exact ⟨issued_sameFields i s t x, issued_sameMemory i s t x,
    powerResult_reg x.advanced wd h, rfl⟩

/-- A power instruction that writes a field and ends with DONE changes no other field but the corrected-read count. -/
theorem set_powerResult_effect (wd : Nat) (f : Field) {val r : Nat} (h : val % 2 ^ f.width = r) :
    let v := ((issued i s t x).set f val).setTask i.eng t (powerResult x.advanced wd 0)
    v.get f = r ∧ SameFields [f, CAM_IMG_MEMERR.COUNT] s v ∧ SameMemory s v ∧
      (v.task i.eng t).reg wd = 0 ∧ (v.task i.eng t).z = true := by
  intro v
  have htask : v.task i.eng t = powerResult x.advanced wd 0 := State.task_setTask_same _ _ _ _
  have hfields : SameFields [f, CAM_IMG_MEMERR.COUNT] s v := fun g hg => by
    obtain ⟨hf, hcount⟩ : g.key ≠ f.key ∧ g.key ≠ CAM_IMG_MEMERR.COUNT.key := by simpa using hg
    exact (State.get_set_ne _ val hf).trans (issued_get i s t x hcount)
  rw [htask]
  exact ⟨(State.get_set_same _ f val).trans h, hfields, issued_sameMemory i s t x,
    powerResult_reg x.advanced wd (by decide), rfl⟩

end

/-! ### The range of a slew -/

theorem outside_eq_true {lo hi v : Nat} (h : v < lo ∨ hi < v) : outside lo hi v = true := by
  simpa [outside] using h

/-- SLEW has 10 bits and holds every slew of a SETSLEW, which has 9. -/
theorem slew_mod_width (n : Nat) (slew : BitVec 9) : slew.toNat % 2 ^ (LP_SLEW.SLEW n).width = slew.toNat :=
  Nat.mod_eq_of_lt (Nat.lt_trans slew.isLt (by decide : 2 ^ 9 < 2 ^ 10))

/-! ### The instructions -/

section
variable {i : Issue} {s : State} {t : Nat} {x : Task} {n : Fin 6} {r : Rail} {ws wd : Fin 16} {slew : BitVec 9}

theorem execSetslew_within (h : Runs i (setslewWord (.lp n) slew wd) s t x) (hl : 5 ≤ slew.toNat)
    (hh : slew.toNat ≤ 400) : execSetslew i (.lp n) slew wd s =
      .next (((issued i s t x).set (LP_SLEW.SLEW n) slew.toNat).setTask i.eng t (powerResult x.advanced wd 0)) := by
  have hin : outside 5 400 slew.toNat = false := outside_eq_false hl hh
  refine (issue_runs h _).trans ?_
  simp [hin]

theorem execSetslew_outside (h : Runs i (setslewWord (.lp n) slew wd) s t x)
    (hout : slew.toNat < 5 ∨ 400 < slew.toNat) : execSetslew i (.lp n) slew wd s =
      .next ((issued i s t x).setTask i.eng t (powerResult x.advanced wd 0x83)) := by
  refine (issue_runs h _).trans ?_
  simp [outside_eq_true hout]

/-- A rail that is no loop has no SLEW (R213). -/
theorem execSetslew_notLoop (h : Runs i (setslewWord r slew wd) s t x) (hr : ∀ n, r ≠ .lp n) :
    execSetslew i r slew wd s = .next ((issued i s t x).setTask i.eng t (powerResult x.advanced wd 0x81)) := by
  refine (issue_runs h _).trans ?_
  cases r with
  | lp n => exact absurd rfl (hr n)
  | bk _ | ldo _ | sw _ => rfl

theorem execPhases_off (h : Runs i (phasesWord (.lp n) ws wd) s t x) (hoff : s.get (LP_CTRL.EN n) ≠ 1) :
    execPhases i (.lp n) ws wd s =
      .next (((issued i s t x).set (LP_PHMASK.MASK n) (x.reg ws)).setTask i.eng t (powerResult x.advanced wd 0)) := by
  refine (issue_runs h _).trans ?_
  simp [issued_on_en, hoff]

theorem execPhases_on (h : Runs i (phasesWord (.lp n) ws wd) s t x) (hon : s.get (LP_CTRL.EN n) = 1) :
    execPhases i (.lp n) ws wd s =
      .next ((issued i s t x).setTask i.eng t (powerResult x.advanced wd 0x85)) := by
  refine (issue_runs h _).trans ?_
  simp [issued_on_en, hon]

/-- A rail that is no loop has no phase mask (R213). -/
theorem execPhases_notLoop (h : Runs i (phasesWord r ws wd) s t x) (hr : ∀ n, r ≠ .lp n) :
    execPhases i r ws wd s = .next ((issued i s t x).setTask i.eng t (powerResult x.advanced wd 0x81)) := by
  refine (issue_runs h _).trans ?_
  cases r with
  | lp n => exact absurd rfl (hr n)
  | bk _ | ldo _ | sw _ => rfl

end

/-- Settles O36: an accepted SETSLEW or PHASES writes its one field on the issued state, and each ends with its code in
its task. -/
theorem slewAndPhases : Obligations.SlewAndPhases :=
  ⟨fun i n slew wd s t x h hl hh =>
      ⟨_, execSetslew_within h hl hh,
        set_powerResult_effect i s t x wd (LP_SLEW.SLEW n) (slew_mod_width n slew)⟩,
    fun i n slew wd s t x h hout => ⟨_, execSetslew_outside h hout, powerResult_effect i s t x wd (by decide)⟩,
    fun i n ws wd s t x h hoff =>
      ⟨_, execPhases_off h hoff, set_powerResult_effect i s t x wd (LP_PHMASK.MASK n) rfl⟩,
    fun i n ws wd s t x h hon => ⟨_, execPhases_on h hon, powerResult_effect i s t x wd (by decide)⟩,
    fun i r slew wd s t x h hr => execSetslew_notLoop h hr,
    fun i r ws wd s t x h hr => execPhases_notLoop h hr⟩

end Sys2Proof.Machine
end

section
/-! The urgent conversions of the ADC and their books (R335 to R337): what a request and a delivery leave in the ADC,
what a read and a clear of the counts show, and that no step breaks the books. -/

namespace Sys2Proof.Machine

/-! ### What leaves the ADC alone -/

theorem notice_adc (s : State) (e : Ev) : (notice s e).adc = s.adc := (congrArg State.adc (notice_rest s e)).trans rfl

theorem opEnd_adc (s : State) (code : Nat) : (opEnd s code).adc = s.adc :=
  (congrArg State.adc (opShow_rest _)).trans rfl

theorem endMark_adc (s : State) (op : Nat) : (endMark s op).adc = s.adc := by
  unfold endMark
  dsimp only
  split
  case isTrue => rfl
  case isFalse => exact opEnd_adc s _

/-- The end of a host command leaves the ADC as it is (R430). -/
theorem endCommand_adc (s : State) (k : Nat) (c : Completion) : (endCommand s k c).adc = s.adc := by
  unfold endCommand
  split
  case isTrue => exact (endMark_adc _ _).trans (State.setSlot_adc s k _)
  case isFalse => rfl

theorem finishHandover_of_not_handing {s : State} {e : Nat} (h : (s.engine e).handing = false) :
    finishHandover s e = s := if_neg (ne_true_of_eq_false h)

/-- A reading that reaches its requester leaves the ADC as it is, unless it lets a handover of the requester's engine go
on (R250, R335). -/
theorem deliver_adc {s : State} {who : Requester} (c v : Nat)
    (h : ∀ e k, who = .task e k → (s.engine e).handing = false) : (deliver s who c v).adc = s.adc := by
  unfold deliver
  split
  next e t =>
    dsimp only
    split
    next =>
      rw [finishHandover_of_not_handing]
      · rfl
      · exact h e t rfl
    next => rfl
  next k => exact endCommand_adc s k _

/-! ### A request, and the end of its conversion -/

/-- A dropped request counts in DROPPED, and changes nothing else of the ADC (R336). -/
theorem urgentDropped_adc (s : State) :
    (urgentDropped s).adc = { s.adc with dropped := (s.adc.dropped + 1) % 65536 } := notice_adc _ _

/-- A request counts in REQ, and is either taken by an ADC that has no urgent conversion, or counted in DROPPED (R335 to
R337). -/
theorem urgentRequest_cases (s : State) (who : Requester) (c : Nat) :
    (s.adc.urgent = none ∧ (urgentRequest s who c).1 = true ∧
      (urgentRequest s who c).2.adc = { s.adc with asked := (s.adc.asked + 1) % 65536, urgent := some (who, c) }) ∨
    ((urgentRequest s who c).1 = false ∧ (urgentRequest s who c).2.adc =
      { s.adc with asked := (s.adc.asked + 1) % 65536, dropped := (s.adc.dropped + 1) % 65536 }) := by
  unfold urgentRequest
  dsimp only
  split
  case isTrue => exact .inr ⟨rfl, urgentDropped_adc _⟩
  case isFalse htaken =>
    simp only [Bool.or_eq_true, not_or] at htaken
    obtain ⟨⟨hidle, -⟩, -⟩ := htaken
    exact .inl ⟨by simpa using hidle, rfl, rfl⟩

/-- `s` with its urgent conversion at an end and counted in SERVED (R337). -/
def urgentServed (s : State) : State :=
  s.setAdc { s.adc with urgent := none, served := (s.adc.served + 1) % 65536 }

/-- The end of an urgent conversion counts in SERVED, and delivers its reading (R335, R337). -/
theorem exec_urgentConversionDone (reading : BitVec 16) {s : State} {who : Requester} {c : Nat}
    (h : s.adc.urgent = some (who, c)) :
    exec (.urgentConversionDone reading) s = .next (deliver (urgentServed s) who c reading.toNat) := by
  change execUrgentConversionDone reading s = _
  simp only [execUrgentConversionDone, h]
  rfl

theorem exec_urgentConversionDone_idle (reading : BitVec 16) {s : State} (h : s.adc.urgent = none) :
    exec (.urgentConversionDone reading) s = .next s := by
  change execUrgentConversionDone reading s = _
  simp only [execUrgentConversionDone, h]

/-! ### The clear and the read of the counts -/

theorem exec_adcClrcnt (s : State) : exec .adcClrcnt s = .next (if vsysRuns s then
    ((s.setAdc { s.adc with asked := if s.adc.urgent.isSome then 1 else 0, served := 0, dropped := 0 }).set
      ADC_SNAP.MISSED 0).set ADC_SNAP.ALSO 0 else s) := rfl

theorem exec_adcUrgreqRead (s : State) : exec .adcUrgreqRead s = .next (if vsysRuns s then latchDrop s else s) := rfl

/-- The latch of ADC_DROP changes no part of the ADC (R337). -/
theorem latchDrop_adc (s : State) : (latchDrop s).adc = s.adc := rfl

theorem latchDrop_dropped (s : State) : (latchDrop s).get ADC_DROP.DROPPED = s.adc.dropped % 65536 :=
  (State.get_set_ne _ _ (by decide)).trans (State.get_set_same s _ _)

theorem latchDrop_inconv (s : State) :
    (latchDrop s).get ADC_DROP.INCONV = if s.adc.urgent.isSome then 1 else 0 := by
  refine (State.get_set_same _ _ _).trans (Nat.mod_eq_of_lt ?_)
  unfold inConversion
  split <;> decide

/-- ADC_URGREQ shows the counts of requests and of those served (Table 11.14). -/
theorem liveFields_urgreq (s : State) :
    liveFields s 0x1A1C = [(ADC_URGREQ.REQ, s.adc.asked), (ADC_URGREQ.SERVED, s.adc.served)] := rfl

theorem shownField_urgreq_req (s : State) :
    shownField s (liveFields s 0x1A1C) ADC_URGREQ.REQ = s.adc.asked % 65536 := by
  rw [liveFields_urgreq]
  rfl

theorem shownField_urgreq_served (s : State) :
    shownField s (liveFields s 0x1A1C) ADC_URGREQ.SERVED = s.adc.served % 65536 := by
  rw [liveFields_urgreq]
  rfl

/-! ### The books of a step -/

theorem Adc.booked_reset : State.reset.adc.booked := rfl

/-- What keeps the books in its outcome keeps them in its next state. -/
theorem OutKeeps.adc_booked {s t : State} {o : Host.Outcome State Fault Refusal} (hk : OutKeeps s o) (ho : o = .next t)
    (hb : s.adc.booked) : t.adc.booked := by
  subst ho
  obtain ⟨-, -, -, -, -, -, -, -, hadc⟩ := hk
  exact hadc hb

/-- POR puts the ADC at reset, where the books hold (R301). -/
theorem exec_por_adc_booked {s t : State} (h : exec .por s = .next t) : t.adc.booked := by
  cases h
  exact Adc.booked_reset

theorem exec_adc_booked (i : Instr) {s t : State} (h : exec i s = .next t) (hb : s.adc.booked) : t.adc.booked := by
  by_cases hpor : i = .por
  case pos =>
    subst hpor
    exact exec_por_adc_booked h
  case neg => exact (exec_keeps i s hpor (Keeps.refl s)).adc_booked h hb

/-- No step breaks the books of the urgent conversions (R337). -/
theorem step_adc_booked {s t : State} (h : step s = .next t) (hb : s.adc.booked) : t.adc.booked := by
  unfold step at h
  split at h
  next => exact (keeps_next (tick_keeps s (Keeps.refl s))).adc_booked h hb
  next c rest _ => exact exec_adc_booked c h hb

/-- Settles O46: `Keeps` carries the books through every command but POR, which ends at reset; a request, a delivery,
the clear and the read are equations on the ADC's counts. -/
theorem urgentRequestBooks : Obligations.UrgentRequestBooks := by
  refine ⟨fun s t => step_adc_booked, Adc.booked_reset, fun who c s => ?request, fun reading who c s hu => ?done,
    fun reading s => exec_urgentConversionDone_idle reading, fun s hv => ⟨?clear, ?read⟩, fun s hv => ?unfed⟩
  case request =>
    obtain ⟨hidle, htaken, hadc⟩ | ⟨hdropped, hadc⟩ := urgentRequest_cases s who c
    · simp [htaken, hidle, hadc]
    · simp [hdropped, hadc]
  case done =>
    have hexec := exec_urgentConversionDone reading hu
    refine ⟨urgentServed s, _, rfl, rfl, hexec, exec_adc_booked _ hexec, fun hhand => ?_⟩
    rw [deliver_adc (s := urgentServed s) c reading.toNat hhand]
    exact ⟨rfl, rfl, rfl, rfl⟩
  case clear =>
    rw [exec_adcClrcnt, if_pos hv]
    exact ⟨_, rfl, rfl, rfl, rfl, rfl⟩
  case read =>
    rw [exec_adcUrgreqRead, if_pos hv]
    exact ⟨_, rfl, latchDrop_adc s, latchDrop_dropped s, latchDrop_inconv s, shownField_urgreq_req _,
      shownField_urgreq_served _⟩
  case unfed => simp [exec_adcClrcnt, exec_adcUrgreqRead, hv]

end Sys2Proof.Machine
end

section
/-! Completions at the interrupt controller (R404, R410, R413, R415): what a completion leaves of the fields, what an
ignored write leaves, and on which side of the two a STATE beyond its two bits falls. -/

namespace Sys2Proof.Machine

/-! ### The fields of a source -/

/-- The registers of the controller's head and of its targets lie below those of the sources (R417). -/
theorem srcFields_key_ne (id : Nat) {f : Field} (h : f.key < 0x2100 * 8) : f.key ≠ (INTC_SRC.STATE id).key ∧
    f.key ≠ (INTC_SRC.LATCHED id).key ∧ f.key ≠ (INTC_SRC.REQ id).key := by
  simp only [Field.key, INTC_SRC.STATE, INTC_SRC.LATCHED, INTC_SRC.REQ] at h ⊢
  omega

theorem completeId_key_lt (t : Fin 8) : (INTC_T_COMPLETE.ID t).key < 0x2100 * 8 := by
  revert t
  decide

/-- The write of INTC_Tt_COMPLETE leaves STATE and REQ of each source. -/
theorem setCompleteId_get_src (t : Fin 8) (v n : Nat) (s : State) :
    (s.set (INTC_T_COMPLETE.ID t) v).get (INTC_SRC.STATE n) = s.get (INTC_SRC.STATE n) ∧
      (s.set (INTC_T_COMPLETE.ID t) v).get (INTC_SRC.REQ n) = s.get (INTC_SRC.REQ n) := by
  obtain ⟨hstate, -, hreq⟩ := srcFields_key_ne n (completeId_key_lt t)
  exact ⟨State.get_set_ne s v hstate.symm, State.get_set_ne s v hreq.symm⟩

theorem setCompleteId_get_badcomp (t : Fin 8) (v : Nat) (s : State) :
    (s.set (INTC_T_COMPLETE.ID t) v).get INTC_CNT.BADCOMP = s.get INTC_CNT.BADCOMP :=
  State.get_set_ne s v (by revert t; decide)

/-! ### The completion of a source -/

/-- `s` with RING and the request of source 0x100 taken by its completion (R413). -/
def doorbellTaken (s : State) (id : Nat) : State :=
  if id = 0x100 then (s.set INTC_DBELL.RING 0).set (INTC_SRC.REQ id) 0 else s

/-- `s` with the fields of source `id` as its completion leaves them (Table 14.2, R413). -/
def completed (s : State) (id : Nat) : State :=
  let s0 := doorbellTaken s id
  if s.get (INTC_SRC.STATE id) = 3 then (s0.set (INTC_SRC.STATE id) 1).set (INTC_SRC.LATCHED id) 1
  else if s0.on (INTC_SRC.REQ id) then (s0.set (INTC_SRC.STATE id) 1).set (INTC_SRC.LATCHED id) 0
  else s0.set (INTC_SRC.STATE id) 0

section
variable (s : State) (id : Nat)

/-- The wakes and the lines that follow a completion change no field. -/
theorem completeBy_get (f : Field) : (completeBy s id).get f = (completed s id).get f :=
  (noteLines_get _ f).trans (wakeIfRaised_get (pendingNow s id) (completed s id) id f)

theorem doorbellTaken_get {f : Field} (hring : f.key ≠ INTC_DBELL.RING.key) (hreq : f.key ≠ (INTC_SRC.REQ id).key) :
    (doorbellTaken s id).get f = s.get f := by
  unfold doorbellTaken
  split
  · exact (State.get_set_ne _ 0 hreq).trans (State.get_set_ne s 0 hring)
  · rfl

/-- A completion of 0x100 is applied with the request at 0 (R413). -/
theorem doorbellTaken_on_req :
    (doorbellTaken s id).on (INTC_SRC.REQ id) = decide (id ≠ 256 ∧ s.get (INTC_SRC.REQ id) = 1) := by
  unfold doorbellTaken
  split
  case isTrue h => simp [State.on, State.get_set_same, h]
  case isFalse h => simp [State.on, h]

theorem doorbellTaken_ring : (doorbellTaken s 0x100).get INTC_DBELL.RING = 0 :=
  (State.get_set_ne _ 0 (by decide)).trans (State.get_set_same s _ 0)

/-- Beyond the doorbell, a completion changes STATE and LATCHED of its source alone. -/
theorem completed_get {f : Field} (hstate : f.key ≠ (INTC_SRC.STATE id).key)
    (hlatched : f.key ≠ (INTC_SRC.LATCHED id).key) : (completed s id).get f = (doorbellTaken s id).get f := by
  have hset (v : Nat) : ((doorbellTaken s id).set (INTC_SRC.STATE id) v).get f = (doorbellTaken s id).get f :=
    State.get_set_ne _ v hstate
  unfold completed
  dsimp only
  split
  · exact (State.get_set_ne _ 1 hlatched).trans (hset 1)
  · split
    · exact (State.get_set_ne _ 0 hlatched).trans (hset 1)
    · exact hset 0

/-- ACTIVE_PENDING becomes PENDING; ACTIVE becomes PENDING or IDLE by the request, which is 0 for 0x100 (Table 14.2,
R413). -/
theorem completed_state : (completed s id).get (INTC_SRC.STATE id) =
    if s.get (INTC_SRC.STATE id) = 3 ∨ (id ≠ 256 ∧ s.get (INTC_SRC.REQ id) = 1) then 1 else 0 := by
  have hkey : (INTC_SRC.STATE id).key ≠ (INTC_SRC.LATCHED id).key := by
    simp [Field.key, INTC_SRC.STATE, INTC_SRC.LATCHED]
  have hpending (v : Nat) :
      (((doorbellTaken s id).set (INTC_SRC.STATE id) 1).set (INTC_SRC.LATCHED id) v).get (INTC_SRC.STATE id) = 1 :=
    (State.get_set_ne _ v hkey).trans (State.get_set_same _ _ 1)
  unfold completed
  simp only [doorbellTaken_on_req, decide_eq_true_eq]
  split
  case isTrue hactive => rw [if_pos (.inl hactive), hpending]
  case isFalse hactive =>
    split
    case isTrue hreq => rw [if_pos (.inr hreq), hpending]
    case isFalse hreq =>
      rw [if_neg (not_or.mpr ⟨hactive, hreq⟩)]
      exact State.get_set_same _ _ 0

theorem completeBy_ring : (completeBy s 0x100).get INTC_DBELL.RING = 0 := by
  obtain ⟨hstate, hlatched, -⟩ := srcFields_key_ne 0x100 (f := INTC_DBELL.RING) (by decide)
  rw [completeBy_get, completed_get s _ hstate hlatched, doorbellTaken_ring]

/-- A completion is no ignored write (R410). -/
theorem completeBy_badcomp : (completeBy s id).get INTC_CNT.BADCOMP = s.get INTC_CNT.BADCOMP := by
  obtain ⟨hstate, hlatched, hreq⟩ := srcFields_key_ne id (f := INTC_CNT.BADCOMP) (by decide)
  rw [completeBy_get, completed_get s id hstate hlatched, doorbellTaken_get s id (by decide) hreq]

end

/-! ### An ignored write -/

section
variable (s : State)

/-- `s` with an ignored write counted and noticed (R410). -/
def completionIgnored (s : State) : State := noticeCount (s.addWrap INTC_CNT.BADCOMP 1) badCompEv

theorem completionIgnored_badcomp :
    (completionIgnored s).get INTC_CNT.BADCOMP = (s.get INTC_CNT.BADCOMP + 1) % 2 ^ INTC_CNT.BADCOMP.width :=
  (noticeCount_get _ _ _ (by decide) (by decide) (by decide)).trans (State.get_set_same s _ _)

theorem completionIgnored_state (n : Nat) :
    (completionIgnored s).get (INTC_SRC.STATE n) = s.get (INTC_SRC.STATE n) := by
  obtain ⟨hbadcomp, -, -⟩ := srcFields_key_ne n (f := INTC_CNT.BADCOMP) (by decide)
  refine (noticeCount_get _ _ _ ?_ ?_ ?_).trans (State.get_set_ne s _ hbadcomp.symm)
  all_goals
    simp only [Field.key, INTC_SRC.STATE, FLT_NCNT.COUNT, FLT_LWR.COUNT, FLT_EVT.EVT]
    omega

end

/-! ### The command -/

section
variable {t : Fin 8} {id : BitVec 9} {s : State}

/-- A write by a claiming target completes a source of its own that is active, by the model's own test. -/
theorem exec_intcComplete_own (ht : t.val ∈ claimTargets) (hv : vsysRuns s = true)
    (hown : 1 ≤ id.toNat ∧ id.toNat ≤ 256 ∧ activeWith s t id.toNat = true) :
    exec (.intcComplete t id) s = .next (completeBy (s.set (INTC_T_COMPLETE.ID t) id.toNat) id.toNat) := by
  change execIntcComplete t id s = _
  simp only [execIntcComplete, hv, ht, if_pos hown]
  simp

/-- Any other write by a claiming target is ignored (R410). -/
theorem exec_intcComplete_other (ht : t.val ∈ claimTargets) (hv : vsysRuns s = true)
    (hother : ¬ (1 ≤ id.toNat ∧ id.toNat ≤ 256 ∧ activeWith s t id.toNat = true)) :
    exec (.intcComplete t id) s = .next (completionIgnored (s.set (INTC_T_COMPLETE.ID t) id.toNat)) := by
  change execIntcComplete t id s = _
  simp only [execIntcComplete, hv, ht, if_neg hother]
  simp [completionIgnored]

/-- The owner's completion of an ACTIVE or ACTIVE_PENDING source, at every state (R410, R413). -/
theorem intcComplete_by_owner (ht : t.val ∈ claimTargets) (hv : vsysRuns s = true) (hl : 1 ≤ id.toNat)
    (hh : id.toNat ≤ 256) (howner : s.get (INTC_SRC.OWNER id.toNat) = t)
    (hactive : s.get (INTC_SRC.STATE id.toNat) = 3 ∨ s.get (INTC_SRC.STATE id.toNat) = 2) :
    ∃ u, exec (.intcComplete t id) s = .next u ∧
      u.get (INTC_SRC.STATE id.toNat) = (if s.get (INTC_SRC.STATE id.toNat) = 3 ∨
        (id.toNat ≠ 256 ∧ s.get (INTC_SRC.REQ id.toNat) = 1) then 1 else 0) ∧
      (id.toNat = 256 → u.get INTC_DBELL.RING = 0) ∧ u.get INTC_CNT.BADCOMP = s.get INTC_CNT.BADCOMP := by
  have hwith : activeWith s t id.toNat = true := by
    simp only [activeWith, howner, decide_true, Bool.and_true, decide_eq_true_eq]
    omega
  obtain ⟨hstate, hreq⟩ := setCompleteId_get_src t id.toNat id.toNat s
  refine ⟨_, exec_intcComplete_own ht hv ⟨hl, hh, hwith⟩, ?state, fun hdbell => ?ring, ?badcomp⟩
  case state => rw [completeBy_get, completed_state, hstate, hreq]
  case ring =>
    rw [hdbell]
    exact completeBy_ring _
  case badcomp => rw [completeBy_badcomp, setCompleteId_get_badcomp]

/-- Any other write by a claiming target, where STATE of the source lies within its two bits, as every write of it
leaves it (Table 14.12): nothing but BADCOMP and the NOTICE (R410). -/
theorem intcComplete_by_other (ht : t.val ∈ claimTargets) (hv : vsysRuns s = true)
    (hfits : s.get (INTC_SRC.STATE id.toNat) < 4)
    (hother : id.toNat = 0 ∨ 256 < id.toNat ∨ s.get (INTC_SRC.OWNER id.toNat) ≠ t ∨
      (s.get (INTC_SRC.STATE id.toNat) ≠ 2 ∧ s.get (INTC_SRC.STATE id.toNat) ≠ 3)) :
    let u := noticeCount ((s.set (INTC_T_COMPLETE.ID t) id.toNat).addWrap INTC_CNT.BADCOMP 1) badCompEv
    exec (.intcComplete t id) s = .next u ∧ badCompEv.line = 38 ∧
      u.get INTC_CNT.BADCOMP = (s.get INTC_CNT.BADCOMP + 1) % 2 ^ INTC_CNT.BADCOMP.width ∧
      ∀ n, u.get (INTC_SRC.STATE n) = s.get (INTC_SRC.STATE n) := by
  have hnotOwn : ¬ (1 ≤ id.toNat ∧ id.toNat ≤ 256 ∧ activeWith s t id.toNat = true) := by
    rintro ⟨hl, hh, hwith⟩
    simp only [activeWith, Bool.and_eq_true, decide_eq_true_eq] at hwith
    obtain ⟨hactive, howner⟩ := hwith
    omega
  refine ⟨exec_intcComplete_other ht hv hnotOwn, rfl, ?badcomp, fun n => ?state⟩
  case badcomp =>
    rw [← setCompleteId_get_badcomp t id.toNat s]
    exact completionIgnored_badcomp _
  case state =>
    obtain ⟨hstate, -⟩ := setCompleteId_get_src t id.toNat n s
    exact (completionIgnored_state _ n).trans hstate

/-- A target that takes no claim, and an unsupplied controller, complete and claim nothing (R404, R415). -/
theorem intcComplete_intcClaim_untaken (h : t.val ∉ claimTargets ∨ vsysRuns s = false) :
    exec (.intcComplete t id) s = .next s ∧ exec (.intcClaim t) s = .next s := by
  have hcomplete : t.val ∉ claimTargets ∨ (!vsysRuns s) = true := by simpa using h
  have hclaim : ¬ (t.val ∈ claimTargets ∧ vsysRuns s = true) := by
    rintro ⟨ht, hv⟩
    obtain hno | hoff := h
    · exact hno ht
    · exact absurd hv (ne_true_of_eq_false hoff)
  exact ⟨congrArg Host.Outcome.next (if_pos hcomplete), congrArg Host.Outcome.next (if_neg hclaim)⟩

end

/-! ### A STATE beyond its width -/

/-- The controller runs, source 1 has OWNER 0, and the register store holds 4 in its STATE, which is two bits wide. -/
def stateBeyondWidth : State :=
  { supply := { released := true, rails := true }, regs := [((INTC_SRC.STATE 1).key, 4)] }

/-- Refutes O50: its second clause takes every STATE but 2 and 3 for not active, over states whose STATE may lie beyond
its two bits, where the model's test of an active source is 2 ≤ STATE. At STATE 4 the write of K0, the owner, completes
source 1 and leaves BADCOMP at 0, where the clause has 1. No write of STATE leaves such a value (`State.get_set_same`),
and within the two bits each clause holds: `intcComplete_by_owner`, `intcComplete_by_other` and
`intcComplete_intcClaim_untaken`. -/
theorem not_interruptCompletion : ¬ Obligations.InterruptCompletion := by
  rintro ⟨-, hignored, -⟩
  obtain ⟨u, hexec, -, -, hcounted, -⟩ :=
    hignored 0 1 stateBeyondWidth (by decide) (by decide) (.inr (.inr (.inr (by decide))))
  have hcompletes := exec_intcComplete_own (t := 0) (id := 1) (s := stateBeyondWidth) (by decide) (by decide)
    (by decide)
  obtain rfl : _ = u := Host.Outcome.next.inj (hcompletes.symm.trans hexec)
  rw [completeBy_badcomp, setCompleteId_get_badcomp] at hcounted
  exact absurd hcounted (by decide)

end Sys2Proof.Machine
end

section
/-! What every step keeps, POR among them (R32, R301, R387, R474, R494): `Keeps` of the other commands compares with the
state at device time 0, from which POR does not fall back either. -/

namespace Sys2Proof.Machine

/-- A state keeps what it holds itself but for a device time put back to 0. -/
theorem keeps_from_zero (s : State) : Keeps { s with now := 0 } s := ⟨rfl, Nat.zero_le _, (Keeps.refl s).2.2⟩

/-- POR leaves the queue, the blown fuses and everything else canonical, at device time 0 (R301, R494). -/
theorem execPor_keeps (s : State) : OutKeeps { s with now := 0 } (execPor s) := by
  obtain ⟨hfuses, hlocks⟩ := otpThroughReset_blown s
  exact otpCfgReset_keeps _ ⟨rfl, Nat.le_refl _, fun _ => rfl, fun _ => rfl, hfuses, hlocks, fun _ => rfl,
    fun _ => Hci.booked_clear _ _, fun _ => Adc.booked_reset⟩

/-- Every command, POR among them, keeps what the state holds, but for the device time. -/
theorem exec_keeps_from_zero (c : Instr) (s : State) : OutKeeps { s with now := 0 } (exec c s) := by
  by_cases hpor : c = .por
  case pos => subst hpor; exact execPor_keeps s
  case neg => exact exec_keeps c s hpor (keeps_from_zero s)

theorem OutKeeps.next {s : State} {o : Host.Outcome State Fault Refusal} (hk : OutKeeps s o) :
    ∃ t, o = .next t ∧ Keeps s t := by
  cases o with
  | next t => exact ⟨t, rfl, hk⟩
  | fault r => exact hk.elim
  | refused r => exact hk.elim

/-- A step takes the front of the queue and keeps the rest of what the state holds, but for the device time. -/
theorem step_keeps (s : State) : OutKeeps { s with pending := s.pending.tail, now := 0 } (step s) := by
  unfold step
  split
  next hq => simpa [hq] using keeps_next (tick_keeps s (keeps_from_zero s))
  next c rest hq => simpa [hq] using exec_keeps_from_zero c { s with pending := rest }

/-- Settles O3: `Keeps` of the step holds the canonical forms, the fuses, the locks and the bounds of the records. -/
theorem canonicalStep : Obligations.CanonicalStep := by
  intro s t hstep
  have hk := step_keeps s
  rw [hstep] at hk
  obtain ⟨-, -, hregs, hmem, hfuses, hlocks, hfox, -⟩ := hk
  refine ⟨fun hcanon => ?_, hfuses, hlocks, hfox⟩
  obtain ⟨hr, hm⟩ := (Bool.and_eq_true _ _).mp hcanon
  exact (Bool.and_eq_true _ _).mpr ⟨hregs hr, hmem hm⟩

/-- Settles O4: every outcome that keeps what the state holds is a next state with its queue. -/
theorem noCommandStops : Obligations.NoCommandStops := fun c s =>
  let ⟨t, hexec, hkeeps⟩ := (exec_keeps_from_zero c s).next
  ⟨t, hexec, hkeeps.1⟩

/-- POR answers the device time 0 (R301). -/
theorem exec_por_now (s : State) : ∃ t, exec .por s = .next t ∧ t.now = 0 := ⟨_, rfl, rfl⟩

/-- An expiry moves no register field. -/
theorem expire_get (s : State) (n : Nat) (f : Field) : (s.expire n).get f = s.get f := rfl

/-- Settles O5: `Keeps` compares the device times; an expiry takes the later time where TREF runs. -/
theorem timeNeverFalls : Obligations.TimeNeverFalls := by
  refine ⟨fun c s t hc hexec => ?_, fun s n => ⟨fun hrun => ?_, fun hstop => ?_, expire_get s n⟩, exec_por_now⟩
  · have hk := exec_keeps c s hc (Keeps.refl s)
    rw [hexec] at hk
    exact hk.2.1
  · simp [State.expire, hrun]
  · simp [State.expire, hstop]

/-- Settles O2: nothing is stored at reset, so that every field, byte and fuse reads its reset value. -/
theorem resetValues : Obligations.ResetValues :=
  ⟨fun _ _ _ => ⟨rfl, rfl, rfl, rfl, rfl, rfl⟩, rfl, rfl⟩

/-! ### The queue and the tick -/

/-- In phase 6 TREF runs where K0 and start-up do. -/
theorem inPhase_of_trefRuns {s : State} {n : Nat} (hrun : trefRuns s = true) :
    inPhase s n = decide (s.get SYS_STATUS.PHASE = n) := by
  simp only [trefRuns, Bool.and_eq_true] at hrun
  simp only [inPhase, hrun, Bool.and_self, Bool.true_and]
  rfl

/-- A step on an empty queue is a tick. -/
theorem step_empty {s : State} (hq : s.pending = []) : step s = .next (tick s) := by simp [step, hq]

/-- A tick where TREF runs: one period later, the ROM firmware's next step of phase 6, or its next unit. -/
theorem tick_runs {s : State} (hrun : trefRuns s = true) : tick s =
    if s.get SYS_STATUS.PHASE = 6 then
      if bootUnitLeft { s with now := s.now + 1 } then opMark { s with now := s.now + 1 } 5 (opUnit s 5 + 64)
      else bringUpNext { s with now := s.now + 1 }
    else romUnit { s with now := s.now + 1 } := by
  simp only [tick, hrun, inPhase_of_trefRuns hrun, decide_eq_true_eq]
  rfl

/-- The ROM firmware has no next unit where no power-down sequence, self-test or image load runs. -/
theorem romUnit_idle {s : State} (hphase : s.get SYS_STATUS.PHASE ≠ 9) (hpd : s.sys.pd = none)
    (hload : loadingSlot s = none) : romUnit s = s := by
  simp [romUnit, hpd, hload, inPhase, phaseNow, hphase]

/-- Settles O1: the front of the queue is carried out, and a tick divides by whether TREF runs and by the phase. -/
theorem stepTakesFront : Obligations.StepTakesFront := by
  refine ⟨fun c s => rfl, fun s hq hstop => ?_, fun s hq hrun hphase => ?_, fun s hq hrun h6 h9 hpd hload => ?_,
    fun s hq hrun hphase => ?_⟩
  · simp [step_empty hq, tick, hstop]
  · rw [step_empty hq, tick_runs hrun, if_neg hphase]
  · rw [step_empty hq, tick_runs hrun, if_neg h6]
    exact congrArg Host.Outcome.next (romUnit_idle (s := { s with now := s.now + 1 }) h9 hpd hload)
  · rw [step_empty hq, tick_runs hrun, if_pos hphase]

end Sys2Proof.Machine
end

section
/-! What the resets leave (R41, R42, R301, R494, R524, R530): OTP cut after some pulse, every other field at its reset
value but for those that a reset keeps. -/

namespace Sys2Proof.Machine

/-! ### OTP and its configuration -/

/-- OTP_CFG shows the locks, and no other field changes. -/
theorem otpCfgReset_get (s : State) {f : Field} (h : f.key ∉ [OTP_CFG.VERIFY.key, OTP_CFG.REBURN.key]) :
    (otpCfgReset s).get f = s.get f := by
  simp only [List.mem_cons, List.not_mem_nil, or_false, not_or] at h
  exact (State.get_set_ne _ _ h.2).trans (State.get_set_ne _ _ h.1)

/-- Without a program operation under way a reset leaves the fuses as they are (R494). -/
theorem otpThroughReset_idle {s : State} (h : opUnderWay s.otp = none) : otpThroughReset s =
    { fuses := s.otp.fuses, weak := s.otp.weak, locks := s.otp.locks, torn := s.otp.torn } := by
  simp [otpThroughReset, otpCut, h]

/-- A program operation under way is cut after some of its pulses (R494). -/
theorem otpThroughReset_cut {s : State} {op : ProgOp} (h : opUnderWay s.otp = some op) :
    let u := cutOp s.otp (Config.partialBlow s.free) (Config.partialBlow (s.free + 1)) op
    otpThroughReset s = { fuses := u.fuses, weak := u.weak, locks := u.locks, torn := u.torn } := by
  simp [otpThroughReset, otpCut, h]

/-- Settles O7: POR keeps OTP as a reset leaves it, the queue and the pins, and OTP_CFG alone of the fields is written. -/
theorem porClears : Obligations.PorClears := by
  refine ⟨fun s => ⟨_, rfl, rfl, fun f hf => otpCfgReset_get _ hf, rfl⟩, fun s hidle => ⟨_, rfl, ?_⟩,
    fun s op hop => ⟨_, rfl, ?_⟩⟩
  · simp [otpCfgReset, otpThroughReset_idle hidle]
  · simp [otpCfgReset, otpThroughReset_cut hop]

/-- Settles O8: the branches of nRESET's fall, of IMMEDIATE and of a long press, each under its condition. -/
theorem systemResets : Obligations.SystemResets := by
  refine ⟨fun s hrel hn hisl => ?_, fun s hrel hn hisl => ?_, fun s hn => ?_, fun s hrel hn => ?_, fun s hk => ?_,
    fun s hk => ?_, fun held s hrel hen hpress hheld => ?_, fun held s h => ?_⟩
  · simp [exec, execNresetAssert, hrel, hn, hisl]
  · simp [exec, execNresetAssert, hrel, hn, hisl]
  · simp [exec, execNresetAssert, hn]
  · simp [exec, execNresetAssert, hrel, hn]
  · simp [exec, execSysImmediate, hk]
  · simp [exec, execSysImmediate, hk]
  · simp [exec, execLongPress, pressed, State.on, hrel, hen, hpress, hheld]
  · have hno : (s.supply.released && s.on PP_BTN.LONG_EN && pressed s held (s.get PP_BTN.LONG * 1000)) = false := by
      obtain h | h | h | h := h <;> simp [State.on, pressed, h]
    simp [exec, execLongPress, hno]

end Sys2Proof.Machine
end

section
/-! What a SYSTEM reset and a long press leave of the fields, the memories and the power path (R41, R42, R80, R167,
R307, R530). -/

namespace Sys2Proof.Machine

/-- A map of which only the entries that meet `p` stay reads at each key what it held, or the default. -/
theorem NMap.get_filter {α : Type} (d : α) (m : NMap α) (p : Nat → Bool) (k : Nat) :
    NMap.get d (m.filter fun e => p e.1) k = if p k then NMap.get d m k else d := by
  split
  next h => exact NMap.get_filter_in d _ m k fun _ => h
  next h => exact NMap.get_filter_out d _ m k fun _ => eq_false_of_ne_true h

/-! ### A SYSTEM reset -/

section
variable (s : State) (keepPair : Bool)

/-- The fields as a SYSTEM reset writes them, over those that it keeps. -/
theorem systemReset_get_writes (f : Field) : (systemReset s keepPair).get f =
    let kept : State := { regs := s.regs.filter fun e => porKey e.1 || wearKey e.1, otp := otpThroughReset s }
    let u := (kept.set PP_STATUS.VAUX_OK (s.get PP_STATUS.VAUX_OK)).set BIST_STATUS.STORED 0
    (otpCfgReset (if keepPair then u.set PP_STATUS.STATE (if ppState s = 4 then 2 else ppState s) else u)).get f := by
  cases keepPair <;> rfl

/-- Of the fields a SYSTEM reset keeps those marked (POR) and those that show the wear state, and writes five more. -/
theorem systemReset_get {f : Field} (h : f.key ∉ [PP_STATUS.VAUX_OK.key, PP_STATUS.STATE.key, OTP_CFG.VERIFY.key,
      OTP_CFG.REBURN.key, BIST_STATUS.STORED.key]) :
    (systemReset s keepPair).get f = if porKey f.key || wearKey f.key then s.get f else f.reset := by
  simp only [List.mem_cons, List.not_mem_nil, or_false, not_or] at h
  obtain ⟨hvaux, hstate, hverify, hreburn, hstored⟩ := h
  have hcfg : f.key ∉ [OTP_CFG.VERIFY.key, OTP_CFG.REBURN.key] := by simp [hverify, hreburn]
  rw [systemReset_get_writes, otpCfgReset_get _ hcfg]
  refine Eq.trans ?_ (NMap.get_filter f.reset s.regs (fun k => porKey k || wearKey k) f.key)
  cases keepPair <;> simp only [if_true, if_false, State.get_set_ne _ _ hvaux, State.get_set_ne _ _ hstate,
    State.get_set_ne _ _ hstored, Bool.false_eq_true] <;> rfl

theorem systemReset_vaux_ok : (systemReset s keepPair).get PP_STATUS.VAUX_OK = s.get PP_STATUS.VAUX_OK % 2 := by
  rw [systemReset_get_writes, otpCfgReset_get _ (by decide)]
  cases keepPair <;> simp (disch := decide) only [if_true, if_false, Bool.false_eq_true, State.get_set_ne,
    State.get_set_same] <;> rfl

theorem systemReset_stored : (systemReset s keepPair).get BIST_STATUS.STORED = 0 := by
  rw [systemReset_get_writes, otpCfgReset_get _ (by decide)]
  cases keepPair <;> simp (disch := decide) only [if_true, if_false, Bool.false_eq_true, State.get_set_ne,
    State.get_set_same] <;> rfl

/-- The power path goes on where the reset keeps its pair, with SHUTDOWN as BANK (R530). -/
theorem systemReset_state : (systemReset s true).get PP_STATUS.STATE =
    if s.get PP_STATUS.STATE = 4 then 2 else s.get PP_STATUS.STATE % 16 := by
  rw [systemReset_get_writes, otpCfgReset_get _ (by decide)]
  refine (State.get_set_same _ _ _).trans ?_
  show (if s.get PP_STATUS.STATE = 4 then 2 else s.get PP_STATUS.STATE) % 16 = _
  split <;> rfl

/-- Queue memory and program memory are cleared; the other memories keep their bytes (R247, R443). -/
theorem systemReset_byte (a : Nat) : (systemReset s keepPair).byte a = if clearedMemory a then 0#8 else s.byte a := by
  have hkept := NMap.get_filter 0#8 s.mem (fun a => !clearedMemory a) a
  cases hclear : clearedMemory a <;> simp only [hclear] at hkept <;> cases keepPair <;> exact hkept

/-- What a SYSTEM reset leaves beside the fields and the memories. -/
theorem systemReset_parts : (systemReset s keepPair).now = s.now ∧ (systemReset s keepPair).fox.hist = s.fox.hist ∧
    (systemReset s keepPair).wear = s.wear ∧ (systemReset s keepPair).sys = {} ∧
    (systemReset s keepPair).path = pathThroughReset s keepPair ∧
    (systemReset s keepPair).outs = dischargeAll s.supply.rails ∧
    (systemReset s keepPair).vdrv = { resetDischarge := true } := by
  cases keepPair <;> exact ⟨rfl, rfl, rfl, rfl, rfl, rfl, rfl⟩

end

/-! ### A long press -/

section
variable (s : State)

/-- The fields as a long press writes them, over the reset values. -/
theorem longReset_get_writes (f : Field) : (longReset s).get f =
    let none : State := { otp := otpThroughReset s }
    let u := (((none.set PP_STATUS.VAUX_OK (s.get PP_STATUS.VAUX_OK)).set FLT_TEST.TRIES (s.get FLT_TEST.TRIES)).set
      FLT_TEST.LOCKOUT (s.get FLT_TEST.LOCKOUT))
    let v := ((u.set TWT_STATUS.ADDR (0x20 + s.supply.straps)).set TWT_STATUS.KTADDR (0x60 + s.supply.straps)).set
      SYS_RSTCAUSE.LONG 1
    (otpCfgReset (if s.supply.nreset then v.set SYS_RSTCAUSE.NRESET 1 else v)).get f := by
  unfold longReset
  cases s.supply.nreset <;> rfl

/-- A long press returns every field but those that it keeps or writes (R41, R80). -/
theorem longReset_get {f : Field} (h : f.key ∉ [PP_STATUS.VAUX_OK.key, OTP_CFG.VERIFY.key, OTP_CFG.REBURN.key,
      SYS_RSTCAUSE.LONG.key, SYS_RSTCAUSE.NRESET.key, FLT_TEST.TRIES.key, FLT_TEST.LOCKOUT.key, TWT_STATUS.ADDR.key,
      TWT_STATUS.KTADDR.key]) : (longReset s).get f = f.reset := by
  simp only [List.mem_cons, List.not_mem_nil, or_false, not_or] at h
  obtain ⟨hvaux, hverify, hreburn, hlong, hnreset, htries, hlockout, haddr, hktaddr⟩ := h
  have hcfg : f.key ∉ [OTP_CFG.VERIFY.key, OTP_CFG.REBURN.key] := by simp [hverify, hreburn]
  rw [longReset_get_writes, otpCfgReset_get _ hcfg]
  cases s.supply.nreset <;>
    simp only [if_true, if_false, Bool.false_eq_true, State.get_set_ne _ _ hvaux, State.get_set_ne _ _ hlong,
      State.get_set_ne _ _ hnreset, State.get_set_ne _ _ htries, State.get_set_ne _ _ hlockout,
      State.get_set_ne _ _ haddr, State.get_set_ne _ _ hktaddr] <;> rfl

/-- The fields that a long press keeps or writes (R41, R80, R452). -/
theorem longReset_written : (longReset s).get SYS_RSTCAUSE.LONG = 1 ∧
    (longReset s).get FLT_TEST.LOCKOUT = s.get FLT_TEST.LOCKOUT % 2 ∧
    (longReset s).get FLT_TEST.TRIES = s.get FLT_TEST.TRIES % 4 ∧
    (longReset s).get PP_STATUS.VAUX_OK = s.get PP_STATUS.VAUX_OK % 2 ∧
    (longReset s).get SYS_RSTCAUSE.NRESET = (if s.supply.nreset then 1 else 0) ∧
    (longReset s).get TWT_STATUS.ADDR = (0x20 + s.supply.straps) % 2 ^ 7 ∧
    (longReset s).get TWT_STATUS.KTADDR = (0x60 + s.supply.straps) % 2 ^ 7 := by
  simp (disch := decide) only [longReset_get_writes, otpCfgReset_get]
  cases s.supply.nreset <;>
    simp (disch := decide) only [if_true, if_false, Bool.false_eq_true, State.get_set_ne, State.get_set_same] <;>
    exact ⟨rfl, rfl, rfl, rfl, rfl, rfl, rfl⟩

/-- What a long press leaves beside the fields: both pairs open, the memories and the history empty (R41). -/
theorem longReset_parts : (longReset s).now = s.now ∧ (longReset s).fox.hist = [] ∧ (longReset s).path.pairA = .off ∧
    (longReset s).path.pairB = .off ∧ (longReset s).path.off = .opening ∧ (longReset s).mem = [] ∧
    (longReset s).path.openAt = s.now ∧ (longReset s).supply.rails = false := by
  unfold longReset
  cases s.supply.nreset <;> exact ⟨rfl, rfl, rfl, rfl, rfl, rfl, rfl, rfl⟩

end

/-- Settles O9: the fields that a reset writes over those that it keeps, its memories, and the parts beside them. -/
theorem systemResetLeaves : Obligations.SystemResetLeaves := by
  refine ⟨fun s keepPair f hf => systemReset_get s keepPair hf, fun s => ?system, fun s f hf => longReset_get s hf,
    fun s => ?long⟩
  case system =>
    obtain ⟨hnow, hhist, hwear, hsys, hpath, -, -⟩ := systemReset_parts s true
    obtain ⟨hnow', hhist', -, -, hpath', -, -⟩ := systemReset_parts s false
    refine ⟨hnow, hhist, hwear, by rw [hpath]; rfl, by rw [hpath]; rfl, by rw [hsys], by rw [hsys],
      systemReset_stored s true, by rw [hpath]; rfl, systemReset_state s, systemReset_vaux_ok s true, fun k => ?_,
      systemReset_byte s, by rw [hpath']; rfl, by rw [hpath']; rfl, hnow', hhist'⟩
    obtain ⟨-, -, -, -, -, houts, hvdrv⟩ := systemReset_parts s k
    exact ⟨houts, congrArg Vdrv.resetDischarge hvdrv⟩
  case long =>
    obtain ⟨hlong, hlockout, htries, hvaux, hnreset, haddr, hktaddr⟩ := longReset_written s
    obtain ⟨hnow, hhist, hpairA, hpairB, hoff, hmem, hopen, hrails⟩ := longReset_parts s
    exact ⟨hlong, hnow, hhist, hpairA, hpairB, hoff, hmem, hopen, hrails, hlockout, htries, hvaux, hnreset, haddr,
      hktaddr⟩

end Sys2Proof.Machine
end

section
/-! What recording an event leaves alone beside the registers (R376 to R392): an event reaches Foxglove, the snapshot
memory, and by RAIL-OFF and SEQ-ABORT the outputs, the window channels, the loops and the engines. -/

namespace Sys2Proof.Machine

/-- The state without the parts that an event can change: what two states with the same `apart` share. -/
def State.apart (s : State) : State :=
  { s with regs := [], mem := [], fox := {}, loops := [], outs := [], sup := [], engines := [], adc := {} }

section
variable (s : State)

@[simp] theorem State.set_apart (f : Field) (v : Nat) : (s.set f v).apart = s.apart := rfl
@[simp] theorem State.setBit_apart (f : Field) (i : Nat) : (s.setBit f i).apart = s.apart := rfl
@[simp] theorem State.addWrap_apart (f : Field) (n : Nat) : (s.addWrap f n).apart = s.apart := rfl
@[simp] theorem State.addSat_apart (f : Field) (n : Nat) : (s.addSat f n).apart = s.apart := rfl
@[simp] theorem State.setByte_apart (a : Nat) (b : Byte) : (s.setByte a b).apart = s.apart := rfl
@[simp] theorem State.setSup_apart (n : Nat) (c : SupCh) : (s.setSup n c).apart = s.apart := rfl
@[simp] theorem State.setOut_apart (c : Nat) (o : OutSt) : (s.setOut c o).apart = s.apart := rfl
@[simp] theorem State.setLoop_apart (n : Nat) (l : LoopSt) : (s.setLoop n l).apart = s.apart := rfl
@[simp] theorem State.setEngine_apart (e : Nat) (x : EngineSt) : (s.setEngine e x).apart = s.apart := rfl
@[simp] theorem State.setAdc_apart (x : Adc) : (s.setAdc x).apart = s.apart := rfl
@[simp] theorem foxEvt_apart (bit : Nat) : (foxEvt s bit).apart = s.apart := rfl

theorem State.fox_apart (x : Fox) : ({ s with fox := x } : State).apart = s.apart := rfl

theorem State.setBytes_apart (a : Nat) (bs : List Byte) : (s.setBytes a bs).apart = s.apart := by
  rw [State.setBytes_rest]; rfl

/-- A fold whose every step leaves the rest alone leaves it alone. -/
theorem State.each_apart {α : Type} (xs : List α) {f : State → α → State} (h : ∀ s a, (f s a).apart = s.apart) :
    (State.each xs f s).apart = s.apart := by
  unfold State.each
  induction xs generalizing s with
  | nil => rfl
  | cons a l ih => rw [List.foldl_cons, ih, h]

/-! ### Records -/

theorem logPut_apart (seq : Nat) (ws : List Nat) : (logPut s seq ws).apart = s.apart := by rw [logPut_rest]; rfl

theorem logCount_apart : (logCount s).apart = s.apart := by rw [logCount_rest]; rfl

theorem logWrite_apart (ws : Nat → List Nat) : (logWrite s ws).apart = s.apart :=
  (logPut_apart _ _ _).trans (logCount_apart s)

theorem histWrite_apart (body : RecBody) : (histWrite s body).apart = s.apart := by
  unfold histWrite
  dsimp only
  split
  · split <;> exact logWrite_apart s _
  · exact logWrite_apart s _

theorem histUpdate_apart (r : HistRec) : (histUpdate s r).apart = s.apart := by
  unfold histUpdate
  dsimp only
  split
  · exact logPut_apart _ _ _
  · rfl

theorem noticeCount_apart (e : Ev) (inj : Bool) : (noticeCount s e inj).apart = s.apart := by
  unfold noticeCount
  dsimp only
  split
  · exact logWrite_apart _ _
  · rfl

@[simp] theorem notice_apart (e : Ev) : (notice s e).apart = s.apart := noticeCount_apart s e false

/-! ### Reactions -/

theorem supLeave_apart (n : Nat) : (supLeave s n).apart = s.apart := by
  unfold supLeave
  simp only [State.set_apart, State.setSup_apart]
  split
  · exact notice_apart s _
  · rfl

theorem supLeaveAll_apart (r : Rail) : (supLeaveAll s r).apart = s.apart := State.each_apart s _ supLeave_apart

theorem noteLeft_apart (r : Rail) : (noteLeft s r).apart = s.apart := rfl

theorem railOff_apart (r : Rail) : (railOff s r).apart = s.apart := by
  have hleave : (if regulating s r then supLeaveAll s r else s).apart = s.apart := by
    split
    · exact supLeaveAll_apart s r
    · rfl
  unfold railOff
  dsimp only
  split
  · cases r <;> simp only [State.set_apart, noteLeft_apart, hleave]
  · rfl

theorem railsOff_apart (rs : List Rail) : (railsOff s rs).apart = s.apart := State.each_apart s rs railOff_apart

theorem engineDrain_apart (e : Nat) : (engineDrain s e).apart = s.apart := by
  unfold engineDrain
  split <;> rfl

theorem aliveHold_apart : (aliveHold s).apart = s.apart := by
  unfold aliveHold
  split <;> rfl

theorem markStatus_apart (line : Nat) (cls : Cls) : (markStatus s line cls).apart = s.apart := by
  cases cls <;> rfl

theorem actPerLine_apart (r line detail : Nat) : (actPerLine s r line detail).apart = s.apart := by
  have hoff : (if bitOf r 4 = 1 ∧ ¬ inPowerdown s then railsOff s (railsOfLine s line detail) else s).apart =
      s.apart := by
    split
    · exact railsOff_apart s _
    · rfl
  unfold actPerLine
  dsimp only
  split
  · rw [State.setBit_apart, hoff]
  · exact hoff

theorem actSeqAbort_apart (r : Nat) : (actSeqAbort s r).apart = s.apart := by
  unfold actSeqAbort
  split
  · exact State.each_apart s _ engineDrain_apart
  · rfl

theorem actStopAlive_apart (r m : Nat) : (actStopAlive s r m).apart = s.apart := by
  unfold actStopAlive
  split
  · exact aliveHold_apart _
  · rfl

/-! ### Snapshots -/

theorem snapFreeze_apart (len : Nat) : (snapFreeze s len).apart = s.apart := notice_apart _ _

theorem endFill_apart : (endFill s).apart = s.apart := by
  unfold endFill
  split
  · exact snapFreeze_apart s _
  · rfl

theorem stopBurst_apart : (stopBurst s).apart = s.apart := by
  unfold stopBurst
  dsimp only
  split
  · exact endFill_apart _
  · rfl

theorem injectionTriggered_apart : (injectionTriggered s).apart = s.apart := by
  have hdrop : ∀ n, (dropInjection s n).apart = s.apart := fun n => by
    unfold dropInjection
    dsimp only
    split
    · exact stopBurst_apart _
    · rfl
  unfold injectionTriggered
  split
  · exact (notice_apart _ _).trans (hdrop _)
  · rfl

theorem snapTake_apart (trig code : Nat) : (snapTake s trig code).apart = s.apart := by
  unfold snapTake
  simp only [State.addWrap_apart, State.set_apart]
  exact State.each_apart s _ fun s c => State.set_apart s _ _

theorem snapStart_apart (trig code : Nat) : (snapStart s trig code).apart = s.apart := by
  unfold snapStart
  dsimp only
  split <;> simp only [State.set_apart, State.setAdc_apart, snapFreeze_apart, snapTake_apart]

theorem snapTrigger_apart (trig code : Nat) (critical : Bool) : (snapTrigger s trig code critical).2.apart = s.apart := by
  unfold snapTrigger
  split
  · rfl
  · split
    · exact snapStart_apart s _ _
    · rfl
  · exact (injectionTriggered_apart _).trans (snapStart_apart s _ _)

end

/-! ### Events -/

/-- An event, whatever it sets off, leaves the other parts of the state alone. -/
theorem foxEvent_apart (n : Nat) (s : State) (e : Ev) (extra : Nat) (inj : Bool) :
    (foxEvent n s e extra inj).apart = s.apart := by
  induction n generalizing s e extra inj with
  | zero => rfl
  | succ n ih =>
    have htrigger : ∀ (s : State) (critical : Bool),
        (if (snapTrigger s 0 e.line critical).1 then
          (foxEvent n (snapTrigger s 0 e.line critical).2 snapMissedEv 0 false).setBit snapMissedEv.evt
            snapMissedEv.bit
        else (snapTrigger s 0 e.line critical).2).apart = s.apart := fun s critical => by
      split <;> simp only [State.setBit_apart, ih, snapTrigger_apart]
    unfold foxEvent
    dsimp only
    split
    · exact noticeCount_apart s e inj
    split
    · split <;> simp only [htrigger, actStopAlive_apart, actSeqAbort_apart, actPerLine_apart, histUpdate_apart,
        markStatus_apart]
    split
    · split <;> split <;> simp only [htrigger, foxEvt_apart, actStopAlive_apart, actSeqAbort_apart, actPerLine_apart,
        histUpdate_apart, markStatus_apart]
    · split <;> simp only [htrigger, actStopAlive_apart, actSeqAbort_apart, actPerLine_apart, State.fox_apart,
        histWrite_apart, markStatus_apart]

theorem raiseBare_apart (s : State) (e : Ev) : (raiseBare s e).apart = s.apart := foxEvent_apart 4 s e 0 false

theorem raise_apart (s : State) (e : Ev) : (raise s e).apart = s.apart := foxEvent_apart 4 s e 0 false

end Sys2Proof.Machine
end

section
/-! Where start-up begins, and what the release of the resets and the wakes see (R302, R305, R433, R514, R523, R524,
R530). -/

namespace Sys2Proof.Machine

/-! ### Start-up -/

section
variable (s : State)

/-- The command interface that is cleared changes head, tail and signal alone of the fields (R441, R442). -/
theorem hciClear_get {f : Field} (h : f.key ∉ [HCI_CQ_HEAD.HEAD.key, HCI_CQ_TAIL.TAIL.key, HCI_EVT.SIGNAL.key]) :
    (hciClear s).get f = s.get f := by
  simp only [List.mem_cons, List.not_mem_nil, or_false, not_or] at h
  obtain ⟨hhead, htail, hsignal⟩ := h
  exact (State.get_set_ne _ _ hsignal).trans ((State.get_set_ne _ _ htail).trans (State.get_set_ne _ _ hhead))

/-- A range of memory that is cleared reads 0, and every other byte as before. -/
theorem State.clearMem_byte (lo hi a : Nat) : (s.clearMem lo hi).byte a = if lo ≤ a ∧ a < hi then 0#8 else s.byte a := by
  refine (NMap.get_filter 0#8 s.mem (fun a => decide (a < lo ∨ hi ≤ a)) a).trans ?_
  by_cases h : lo ≤ a ∧ a < hi
  · rw [if_pos h, if_neg (by simp; omega)]
  · rw [if_neg h, if_pos (by simp; omega)]; rfl

/-- The command interface that is cleared reads 0 in queue memory. -/
theorem hciClear_byte (a : Nat) : (hciClear s).byte a = if 0x010000 ≤ a ∧ a < 0x014000 then 0#8 else s.byte a :=
  State.clearMem_byte s _ _ a

/-- What phase 0 begins with (Table 15.5, R305, R433). -/
theorem beginStartup_parts : (beginStartup s).sys.started = true ∧ (beginStartup s).path.off = .start ∧
    (beginStartup s).path.act = {} ∧ (beginStartup s).hci.slots = [] ∧ (beginStartup s).thermal.ntcBad = 0 ∧
    (beginStartup s).thermal.tmonBad = 0 ∧ (beginStartup s).otp = s.otp ∧ (beginStartup s).now = s.now :=
  ⟨rfl, rfl, rfl, rfl, rfl, rfl, rfl, rfl⟩

theorem beginStartup_phase : (beginStartup s).get SYS_STATUS.PHASE = 0 := State.get_set_same _ _ _

theorem beginStartup_hci_en : (beginStartup s).get HCI_CTRL.EN = 0 :=
  (State.get_set_ne _ _ (show HCI_CTRL.EN.key ≠ SYS_STATUS.PHASE.key by decide)).trans
    ((State.get_set_ne _ _ (show HCI_CTRL.EN.key ≠ HCI_STATUS.STATE.key by decide)).trans (State.get_set_same _ _ _))

theorem beginStartup_hci_state : (beginStartup s).get HCI_STATUS.STATE = 0 :=
  (State.get_set_ne _ _ (show HCI_STATUS.STATE.key ≠ SYS_STATUS.PHASE.key by decide)).trans (State.get_set_same _ _ _)

theorem beginStartup_sameFields : SameFields [SYS_STATUS.PHASE, HCI_CTRL.EN, HCI_STATUS.STATE, HCI_CQ_HEAD.HEAD,
    HCI_CQ_TAIL.TAIL, HCI_EVT.SIGNAL] s (beginStartup s) := by
  intro f hf
  simp only [List.map_cons, List.map_nil, List.mem_cons, List.not_mem_nil, or_false, not_or] at hf
  obtain ⟨hphase, hen, hstate, hhead, htail, hsignal⟩ := hf
  exact (State.get_set_ne _ _ hphase).trans ((State.get_set_ne _ _ hstate).trans ((State.get_set_ne _ _ hen).trans
    (hciClear_get _ (by simp [hhead, htail, hsignal]))))

theorem beginStartup_byte (a : Nat) : (beginStartup s).byte a =
    if 0x010000 ≤ a ∧ a < 0x014000 then 0#8 else s.byte a := hciClear_byte _ a

/-! ### The balls -/

/-- The loss of XREF touches the supply's lock and what an event touches (R31). -/
theorem xrefLost_supply : (xrefLost s).supply = { s.supply with xref := false } := by
  unfold xrefLost
  split
  next => exact congrArg State.supply (raiseBare_apart _ _)
  next h => rw [← eq_false_of_ne_true h]

/-- The balls, and with VIO gone the levels of its own balls and XREF (R514, R31). -/
theorem seeBalls_supply (vio vioVcl testEn : Bool) : (seeBalls s vio vioVcl testEn).supply = { s.supply with
    vio := vio, vioVcl := vioVcl, testEn := testEn, nreset := s.supply.nreset && vio, xref := s.supply.xref && vio } := by
  cases vio
  · show (xrefLost s).supply.balls false vioVcl testEn = _
    rw [xrefLost_supply]
    simp [Supply.balls]
  · simp [seeBalls, Supply.balls]

/-- With VIO there, or with XREF lost before, the balls are all that is seen. -/
theorem seeBalls_quiet (vioVcl testEn : Bool) {vio : Bool} (h : vio = true ∨ s.supply.xref = false) :
    seeBalls s vio vioVcl testEn = { s with supply := s.supply.balls vio vioVcl testEn } := by
  obtain h | h := h <;> simp [seeBalls, xrefLost, h]

/-- A VIO that goes takes XREF with it, with the WARNING of R31. -/
theorem seeBalls_loss (vioVcl testEn : Bool) (h : s.supply.xref = true) : seeBalls s false vioVcl testEn =
    { raiseBare { s with supply := { s.supply with xref := false } }
        { evt := SYS_EVT.EVT, bit := 0, src := 0, line := 42, cls := .warning } with
      supply := (seeBalls s false vioVcl testEn).supply } := by
  simp [seeBalls, xrefLost, h]

/-! ### Wakes -/

/-- A press wakes where PWRBTN is timed and was held for SNOW_BTN (Table 2.9). -/
theorem wakePress_iff (held : Nat) : wakePress s held = true ↔
    s.path.pressAt.isSome = true ∧ s.get PP_BTN.SNOW_BTN * 100 ≤ held := by
  simp [wakePress, pressed]

/-- A cause that wakes: VAUX, or a press that was held long enough. -/
theorem not_any_short_press {press : Option Nat} (h : ∀ held, press = some held →
    s.path.pressAt.isSome = true ∧ s.get PP_BTN.SNOW_BTN * 100 ≤ held) :
    (press.any fun held => !wakePress s held) = false := by
  cases press with
  | none => rfl
  | some held => simp [(wakePress_iff s held).mpr (h held rfl)]

end

/-- Settles O10: each row under its condition; what start-up begins with and what the balls show are lemmas of their
own. -/
theorem resetsEnd : Obligations.ResetsEnd := by
  refine ⟨fun straps vio vioVcl testEn s hrel hn => ?_, fun straps vio vioVcl testEn s hrel hn => ?_,
    fun straps vio vioVcl testEn s hrel => ?_, fun straps vaux vio vioVcl testEn s hrel => ?_,
    fun vio vioVcl testEn s hn hrel hoff hst => ?_, fun vio vioVcl testEn s h => ?_,
    fun vio vioVcl testEn s => ⟨seeBalls_supply s vio vioVcl testEn, seeBalls_quiet s vioVcl testEn, ?_⟩,
    fun s hoff hn => ?_, fun s hoff hn => ?_, fun s hoff => ?_, fun press s hrel hoff hpress => ?_,
    fun press s hrel hoff hphase hpress => ?_, fun held s h => ?_, fun s => ?_, fun s hk hst hphase => ?_,
    fun s h => ?_, fun s hx => ?_, fun s hx => ?_⟩
  · simp [exec, execPorRelease, hrel, startIfReleased, strapAddresses, Supply.balls, hn]
  · simp [exec, execPorRelease, hrel, startIfReleased, strapAddresses, Supply.balls, hn, State.setPath]
    rfl
  · simp [exec, execPorRelease, hrel, strapAddresses, Supply.balls, State.setPath]
    rfl
  · simp [exec, execPorRelease, hrel]
  · simp [exec, execNresetRelease, hrel, hn, hoff, hst]
  · have hno : (s.supply.nreset && s.supply.released && decide (s.path.off = .start) && !s.sys.started) = false := by
      obtain h | h | h | h := h <;> simp [h]
    simp [exec, execNresetRelease, hno]
  · rintro rfl hx
    exact seeBalls_loss s vioVcl testEn hx
  · simp [exec, execLongPressOpenEnd, hoff, startIfReleased, State.on, State.setSys, hn]
  · simp [exec, execLongPressOpenEnd, hoff, startIfReleased, State.on, State.setSys, hn, State.setPath]
  · simp [exec, execLongPressOpenEnd, hoff]
  · simp [exec, execSnowdropWake, hrel, not_any_short_press s hpress, hoff, startIfReleased, State.setSys,
      State.setPath, Option.not_isSome]
  · simp [exec, execSnowdropWake, hrel, not_any_short_press s hpress, hoff, State.setSys, phaseNow, hphase,
      Option.not_isSome]
  · have hshort : wakePress s held = false := by
      rw [Bool.eq_false_iff, Ne, wakePress_iff]
      obtain h | h := h
      · simp [h]
      · omega
    simp [exec, execSnowdropWake, hshort]
  · obtain ⟨hst, hoff, hact, hslots, hntc, htmon, hotp, hnow⟩ := beginStartup_parts s
    exact ⟨hst, beginStartup_phase s, hoff, hact, hslots, beginStartup_hci_en s, beginStartup_hci_state s, hntc, htmon,
      beginStartup_sameFields s, beginStartup_byte s, hotp, hnow⟩
  · simp [exec, execXrefLock, hk, hst, phaseNow, hphase]
  · have hno : (k0Runs s && s.sys.started && decide (phaseNow s = 1)) = false := by
      obtain h | h | h := h <;> simp [h, phaseNow]
    simp [exec, execXrefLock, hno]
  · simp [exec, execXrefLoss, xrefLost, hx]
  · simp [exec, execXrefLoss, xrefLost, hx]

end Sys2Proof.Machine
end

section
/-! The start-up phases (R303 to R310, R395, R530): each row in its phase and outside it, and what a self-test's outcome
is. -/

namespace Sys2Proof.Machine

/-- Start-up is in phase `n` where K0 and start-up run and PHASE reads `n`. -/
theorem inPhase_iff {s : State} {n : Nat} : inPhase s n = true ↔
    k0Runs s = true ∧ s.sys.started = true ∧ s.get SYS_STATUS.PHASE = n := by
  simp only [inPhase, Bool.and_eq_true, decide_eq_true_eq, and_assoc]
  rfl

theorem phase_of_inPhase {s : State} {n : Nat} (h : inPhase s n = true) : s.get SYS_STATUS.PHASE = n :=
  (inPhase_iff.mp h).2.2

/-! ### Phases 0 to 3 -/

section
variable (s : State)

/-- A new phase changes no field but PHASE. -/
theorem toPhase_sameFields (n : Nat) : SameFields [SYS_STATUS.PHASE] s (toPhase s n) := fun f hf =>
  toPhase_get s n (by simpa using hf)

/-- What phase 1 begins with beside the registers. -/
theorem toSupply_parts : (toSupply s).supply.rails = true ∧ (toSupply s).sys.bankWake = false ∧
    (toSupply s).outs = (if !s.supply.rails && s.vdrv.resetDischarge then dischargeAll true else s.outs) ∧
    (toSupply s).path = s.path ∧ (toSupply s).now = s.now := by
  unfold toSupply
  rw [toPhase_rest]
  cases s.supply.rails <;> cases s.vdrv.resetDischarge <;> exact ⟨rfl, rfl, rfl, rfl, rfl⟩

theorem toSupply_sameFields : SameFields [SYS_STATUS.PHASE] s (toSupply s) := by
  intro f hf
  refine (toPhase_sameFields _ 1 f hf).trans ?_
  split <;> rfl

theorem toSupply_byte (a : Nat) : (toSupply s).byte a = s.byte a := by
  refine (toPhase_byte _ 1 a).trans ?_
  split <;> rfl

theorem toSupply_phase : (toSupply s).get SYS_STATUS.PHASE = 1 := toPhase_phase _ 1

theorem validVerdict_none (h : ∀ x, s.sys.stored = some x → x.crc ≠ Config.verdictCrc x.verdict % 2 ^ 16) :
    validVerdict s = none := by
  unfold validVerdict
  split
  next x hx => exact if_neg (h x hx)
  next => rfl

theorem validVerdict_some {x : Stored} (hx : s.sys.stored = some x)
    (hcrc : x.crc = Config.verdictCrc x.verdict % 2 ^ 16) : validVerdict s = some x.verdict := by
  simp only [validVerdict, hx]
  exact if_pos hcrc

end

/-! ### The outcome of a self-test -/

/-- A single bit of a word reads 1 where its test bit does. -/
theorem bitOf_eq_one_iff (x i : Nat) : bitOf x i = 1 ↔ x.testBit i = true := by
  simp [bitOf, Nat.testBit_eq_decide_div_mod_eq]

/-- A test that fails is one of Table 10.6, on a unit of Table 10.3, with a signature that is not expected (R316). -/
theorem testFails_iff (t : BistTest) : testFails t = true ↔
    (unitMask (t.unit.toNat / 32)).testBit (t.unit.toNat % 32) = true ∧ 1 ≤ t.kind.toNat ∧ t.kind.toNat ≤ 6 ∧
      t.sig.toNat ≠ Config.bistSignature t.unit.toNat t.kind.toNat % 2 ^ 32 := by
  simp only [testFails, outside, Bool.and_eq_true, decide_eq_true_eq, bitOf_eq_one_iff, Bool.not_eq_true',
    Bool.or_eq_false_iff, decide_eq_false_iff_not, Nat.not_lt, and_assoc]
  rfl

theorem verdictOf_empty : verdictOf [] = ⟨[0, 0, 0, 0, 0], [0, 0, 0]⟩ := rfl

/-- The diagnosis of one failed test (R318). -/
theorem verdictOf_single {t : BistTest} (h : testFails t = true) : (verdictOf [t]).diag =
    [t.unit.toNat * 2 ^ 16 + t.kind.toNat * 2 ^ 8 + 1, t.sig.toNat, expectedSig t] := by
  have hfailed : failedTests [t] = [t] := by
    simp only [failedTests, onceEach, List.filter_nil, List.filter_cons, h, if_true]
    rfl
  simp only [verdictOf, hfailed]
  rfl

/-! ### Phases 4 to 6 -/

/-- In phase 4 K0 converts where the verdict leaves a slice usable (R490). -/
theorem k0Converts_phase4 {s : State} (h : inPhase s 4 = true) :
    k0Converts s = decide (verdictWord s 0 / 2 ^ 18 % 16 ≠ 15) := by
  simp [k0Converts, phaseNow, phase_of_inPhase h]

/-- A step of phase 6 is counted, and done at its level (R309). -/
theorem bringUpNext_step {s : State} {l : Nat} {f : State → State} (hphase : s.get SYS_STATUS.PHASE = 6)
    (hstep : bringUpSteps[s.sys.brought]? = some (l, f)) : bringUpNext s =
    if l ≤ s.get SYS_SERVICE.LEVEL then f { s with sys := { s.sys with brought := s.sys.brought + 1 } }
    else { s with sys := { s.sys with brought := s.sys.brought + 1 } } := by
  simp [bringUpNext, phaseNow, hphase, hstep, State.setSys]

/-- Settles O11: each row in its phase, where the conditions choose its end, and outside it. -/
theorem startupPhases : Obligations.StartupPhases := by
  refine ⟨fun bkb s h0 hst => ?_, fun bkb since s h0 hst hsince => ?_, fun bkb s h0 hst hsince => ?_, fun s => ?_,
    fun vio vioVcl s h1 => ?_, fun s h2 => ?_, fun s h2 hx => ?_, fun x s h2 hx hcrc => ?_, fun tests s h3 => ?_,
    fun t => ⟨verdictOf_empty, testFails_iff t, verdictOf_single⟩, fun progOk s h4 => ?_, fun s h5 => ?_,
    fun s bad => rfl, fun s n => ⟨toPhase_phase s n, toPhase_sameFields s n, toPhase_byte s n⟩, fun s h6 => ?_,
    fun s l f hphase hstep => bringUpNext_step hphase hstep, fun n s hno hn => ?_⟩
  · simp [exec, execPhaseWaitEnd, h0, ppState, hst]
  · simp [exec, execPhaseWaitEnd, h0, ppState, hst, hsince, closeAux, State.setPath]
  · simp [exec, execPhaseWaitEnd, h0, ppState, hst, hsince, State.setPath]
  · obtain ⟨hrails, hwake, houts, hpath, hnow⟩ := toSupply_parts s
    exact ⟨toSupply_phase s, hrails, hwake, houts, toSupply_sameFields s, toSupply_byte s, hpath, hnow⟩
  · simp [exec, execPhaseSupplyEnd, h1]
  · simp [exec, execPhaseRomEnd, h2, State.setSys]
  · simp [exec, execPhaseRomEnd, h2, validVerdict_none s hx, toSelfTest]
  · simp [exec, execPhaseRomEnd, h2, validVerdict_some s hx hcrc, toSelfTest, State.on, useVerdict, State.setSys]
  · simp [exec, execPhaseBistEnd, h3, useVerdict, State.setSys]
  · refine ⟨_, rfl, ?_⟩
    simp [exec, execPhaseOtpEnd, h4, maskKeepers, k0Converts_phase4 h4, phaseNow]
  · refine ⟨_, _, _, rfl, rfl, rfl, ?_⟩
    simp [exec, execPhaseLevelEnd, h5, setStored, State.setSys, State.on]
  · simp only [exec, execPhaseBringupEnd, h6, if_true]
    rfl
  · refine ⟨?_, ?_, ?_, ?_, ?_, ?_, ?_⟩ <;> rintro rfl
    · simp [exec, execPhaseWaitEnd, hno]
    · simp [exec, execPhaseSupplyEnd, hno]
    · simp [exec, execPhaseRomEnd, hno]
    · simp [exec, execPhaseBistEnd, hno]
    · simp [exec, execPhaseOtpEnd, hno]
    · simp [exec, execPhaseLevelEnd, hno]
    · simp [exec, execPhaseBringupEnd, hno]

end Sys2Proof.Machine
end

section
/-! The power-down sequence and the states after it (R307, R311 to R322, R370, Table 10.4). -/

namespace Sys2Proof.Machine

section
variable (s : State)

/-- SHUTDOWN and ORDERLY are accepted in the phases to RUN. -/
theorem shutdownAccepted_iff : shutdownAccepted s = true ↔
    k0Runs s = true ∧ s.sys.started = true ∧ s.get SYS_STATUS.PHASE ≤ 7 := by
  simp only [shutdownAccepted, Bool.and_eq_true, decide_eq_true_eq, and_assoc]
  rfl

theorem isHalted_iff : isHalted s = true ↔ k0Runs s = true ∧ s.get SYS_STATUS.PHASE = 10 := by
  simp only [isHalted, Bool.and_eq_true, decide_eq_true_eq]
  rfl

/-- What an entry to OFF leaves beside the registers (R24, R42, R320). -/
theorem pathOff_parts (mode : OffMode) : (pathOff s mode).path.off = mode ∧ (pathOff s mode).path.pairA = .off ∧
    (pathOff s mode).path.pairB = .off ∧ (pathOff s mode).supply.rails = false ∧ (pathOff s mode).mem = [] ∧
    (pathOff s mode).now = s.now ∧ (pathOff s mode).sys.stored = if mode = .start then none else s.sys.stored := by
  have hdown : ∀ u : State, (railsDown u).now = u.now := fun _ => rfl
  have hnow : (railsDown (systemReset s false)).now = s.now := by rw [hdown, (systemReset_parts s false).1]
  unfold pathOff
  cases mode <;> exact ⟨rfl, rfl, rfl, rfl, rfl, hnow, rfl⟩

theorem toPhase_sys (n : Nat) : (toPhase s n).sys = s.sys := by rw [toPhase_rest]

theorem opShow_sys : (opShow s).sys = s.sys := by rw [opShow_rest]

/-- A mark of a multi-step operation notes the operation and its unit. -/
theorem opMark_sys (c d : Nat) :
    (opMark s c d).sys = { s.sys with ops := NMap.put 0 s.sys.ops c (d % 2 ^ 24 + 1) } := opShow_sys _

theorem opEnd_sys (c : Nat) : (opEnd s c).sys = { s.sys with ops := NMap.put 0 s.sys.ops c 0 } := opShow_sys _

theorem endBootLoad_now : (endBootLoad s).now = s.now := by
  unfold endBootLoad
  split
  · rw [opEnd, opShow_rest]
  · rfl

/-- A step of the sequence is noted (R312). -/
theorem pdStep_pd (x : Pd) (n : Nat) : (pdStep s x n).sys.pd = some { x with step := n } := by
  rw [pdStep, opMark_sys]
  rfl

/-- The self-test begins in phase 9 and step 4, with ALIVE low (R317, R391). -/
theorem beginSelfTest_parts (x : Pd) : (beginSelfTest s x).get SYS_STATUS.PHASE = 9 ∧
    (beginSelfTest s x).sys.pd = some { x with step := 4 } ∧ (beginSelfTest s x).fox.alive = .low := by
  have hget : ∀ (u : State) (f : Field), (aliveLow u).get f = u.get f := fun _ _ => rfl
  have hsys : ∀ u : State, (aliveLow u).sys = u.sys := fun _ => rfl
  refine ⟨?_, ?_, rfl⟩
  · rw [beginSelfTest, hget, opMark_get _ _ _ _ (by decide)]
    exact toPhase_phase _ _
  · rw [beginSelfTest, hsys, opMark_sys, toPhase_sys, ← pdStep_pd]

/-- The verdict is stored with its CRC, and the sequence is over (R307, R312). -/
theorem storeVerdict_parts (x : Pd) (v : Verdict) : (storeVerdict s x v).sys.pd = none ∧
    (storeVerdict s x v).sys.stored = some { verdict := v, crc := Config.verdictCrc v % 2 ^ 16 } ∧
    (storeVerdict s x v).get BIST_STATUS.STORED = 1 ∧ (storeVerdict s x v).get SYS_PDSTAT.DONE = 1 ∧
    (storeVerdict s x v).get NRG_STATUS.PDOWN = 0 := by
  unfold storeVerdict
  simp only [opEnd_sys]
  refine ⟨rfl, rfl, ?_, ?_, ?_⟩ <;>
    simp (disch := decide) only [opEnd_get, State.get_set_ne, State.get_set_same, setStored] <;> rfl

end

/-- Settles O13: each row under its condition and outside it, with what the self-test and the entry to OFF leave. -/
theorem powerDown : Obligations.PowerDown := by
  refine ⟨fun s hk hst hphase => ?_, fun s h => ?_, fun s trig hpd hhalt => ?_, fun s trig h => ?_,
    fun s x hpd hstep hoff => ?_, fun s x hpd hstep => ?_, fun s n hstep => ?_, fun s x above hpd hstep hoff hrails => ?_,
    fun s x above hpd h => ?_,
    fun s x => ?_, fun s x ts hpd hstep hphase => ?_, storeVerdict_parts, fun s trig => rfl, fun s hk hphase hlatch => ?_,
    fun s h => ?_, fun s hk hphase => ?_, fun s h => ?_, pathOff_parts, fun cause ticks s hoff hwake hn => ?_,
    fun cause ticks s h => ?_, fun ticks s => ⟨rfl, by simp [wakes]⟩, fun cause ticks s hoff hwake hn => ?_⟩
  · have hacc := (shutdownAccepted_iff s).mpr ⟨hk, hst, hphase⟩
    simp [exec, execSysShutdown, execSysOrderly, hacc]
  · have hno : shutdownAccepted s = false := by
      rw [Bool.eq_false_iff, Ne, shutdownAccepted_iff]
      grind
    simp [exec, execSysShutdown, execSysOrderly, hno]
  · simp only [pdStart, hpd, hhalt, Option.isSome_none, Bool.or_self, Bool.false_eq_true, if_false, endBootLoad_now]
    simp only [endBootLoad, State.setSys]
  · simp [pdStart, h]
  · simp [exec, execPdEnginesDrained, hpd, hstep, hoff, pdStep, State.setSys]
  · simp [exec, execPdTmax, hpd, hstep]
  · refine ⟨?_, ?_, ?_⟩
    · rintro rfl
      cases hpd : s.sys.pd with
      | none => simp [exec, execPdEnginesDrained, execPdTmax, hpd]
      | some x => simp [exec, execPdEnginesDrained, execPdTmax, hpd, hstep x hpd]
    · rintro rfl hstep3 above
      cases hpd : s.sys.pd with
      | none => simp [exec, execPdDischargeWaitEnd, hpd]
      | some x => simp [exec, execPdDischargeWaitEnd, hpd, hstep x hpd, hstep3 x hpd]
    · rintro rfl ts
      cases hpd : s.sys.pd with
      | none => simp [exec, execShutdownBistDone, hpd]
      | some x => simp [exec, execShutdownBistDone, hpd, hstep x hpd]
  · simp [exec, execPdDischargeWaitEnd, hpd, hstep, hoff, hrails, railsAreOff]
  · have hno : railsAreOff s = false := by
      obtain h | h := h <;> simp [railsAreOff, h]
    simp [exec, execPdDischargeWaitEnd, hpd, hno]
  · obtain ⟨hphase, hpd, halive⟩ := beginSelfTest_parts s x
    exact ⟨hphase, hpd, halive, rfl⟩
  · simp [exec, execShutdownBistDone, hpd, hstep, phaseNow, hphase]
  · have hhalted := (isHalted_iff s).mpr ⟨hk, hphase⟩
    simp [exec, execSysRestart, hhalted, State.on, hlatch, State.setSys]
  · have hno : (isHalted s && !s.on THM_TSD.LATCH) = false := by
      obtain h | h | h := h <;> simp [isHalted, phaseNow, State.on, h]
    simp [exec, execSysRestart, hno]
  · have hhalted := (isHalted_iff s).mpr ⟨hk, hphase⟩
    simp [exec, execSysStandby, hhalted]
  · have hno : isHalted s = false := by
      obtain h | h := h <;> simp [isHalted, phaseNow, h]
    simp [exec, execSysStandby, hno]
  · simp [exec, execStandbyWake, hoff, hwake, startIfReleased, hn, narrowPort, State.setSys]
  · have hno : ¬ (s.path.off = .standby ∧ wakes s cause = true) := by
      obtain h | h := h <;> simp [h]
    simp [exec, execStandbyWake, hno]
  · simp [exec, execStandbyWake, hoff, hwake, startIfReleased, hn, narrowPort, State.setSys, State.setPath]

end Sys2Proof.Machine
end

section
/-! The BLOCK reset (R43, Table 1.11): the fields that it returns are distinct, and nothing else of the registers
changes. -/

namespace Sys2Proof.Machine

/-- Every field of the list has a reset value of its width, and no two have the same place. -/
def resetsOnce : List Field → Bool
  | [] => true
  | f :: fs => Nat.blt f.reset (2 ^ f.width) && !(fs.any fun g => Nat.beq g.key f.key) && resetsOnce fs

/-- A field outside the list reads as before. -/
theorem each_resetField_get_ne (fs : List Field) (s : State) {f : Field} (h : f.key ∉ fs.map Field.key) :
    (State.each fs State.resetField s).get f = s.get f := by
  unfold State.each
  induction fs generalizing s with
  | nil => rfl
  | cons g fs ih =>
    simp only [List.map_cons, List.mem_cons, not_or] at h
    rw [List.foldl_cons, ih _ h.2]
    exact State.get_set_ne _ _ h.1

/-- Each field of the list reads its reset value. -/
theorem each_resetField_get_mem {fs : List Field} (s : State) (honce : resetsOnce fs = true) {f : Field} (h : f ∈ fs) :
    (State.each fs State.resetField s).get f = f.reset := by
  induction fs generalizing s with
  | nil => exact absurd h List.not_mem_nil
  | cons g fs ih =>
    simp only [resetsOnce, Bool.and_eq_true, Bool.not_eq_true', List.any_eq_false,
      Nat.blt_eq] at honce
    obtain ⟨⟨hreset, hother⟩, hrest⟩ := honce
    obtain rfl | h := List.mem_cons.mp h
    · have hnot : f.key ∉ fs.map Field.key := by
        simp only [List.mem_map, not_exists, not_and]
        exact fun g hg hkey => hother g hg (by rw [hkey]; exact Nat.beq_refl _)
      refine (each_resetField_get_ne fs _ hnot).trans ((State.get_set_same _ _ _).trans ?_)
      exact Nat.mod_eq_of_lt hreset
    · exact ih _ hrest h

theorem resetFields_once_unit : ∀ u < 0x80, (unitEnable u).isSome = true → resetsOnce (resetFields u) = true := by
  decide +kernel

theorem resetFields_once_sup : ∀ n < 64, resetsOnce (resetFields (0x80 + n)) = true := by
  decide +kernel

/-- The fields of a unit of Table 1.11 are distinct. -/
theorem resetFields_once {u : Nat} (h : (unitEnable u).isSome = true) : resetsOnce (resetFields u) = true := by
  by_cases hsup : u < 0x80
  · exact resetFields_once_unit u hsup h
  · have hlast : u ≤ 0xBF := by
      refine Nat.le_of_not_lt fun hbeyond => ?_
      have hnone : unitEnable u = none := by
        unfold unitEnable
        repeat rw [if_neg (by omega)]
      simp [hnone] at h
    have := resetFields_once_sup (u - 0x80) (by omega)
    rwa [Nat.add_sub_cancel' (by omega)] at this

section
variable (s : State)

/-- Fields that return to reset values leave the rest of the state. -/
theorem each_resetField_rest (fs : List Field) :
    State.each fs State.resetField s = { s with regs := (State.each fs State.resetField s).regs } := by
  unfold State.each
  induction fs generalizing s with
  | nil => rfl
  | cons g fs ih => rw [List.foldl_cons, ih]; rfl

/-- The unit's state beside its registers is no register, no memory, no fuse and no time. -/
theorem resetUnitState_parts (u : Nat) : (resetUnitState s u).regs = s.regs ∧ (resetUnitState s u).mem = s.mem ∧
    (resetUnitState s u).otp = s.otp ∧ (resetUnitState s u).now = s.now := by
  unfold resetUnitState
  repeat' split
  all_goals exact ⟨rfl, rfl, rfl, rfl⟩

/-- What a BLOCK reset that is done leaves (R43). -/
theorem blockReset_done {u : Nat} {en : Field} (hen : unitEnable u = some en) (hoff : s.get en ≠ 1) :
    (blockReset s u).get SYS_BRST.RESULT = 1 ∧
    (∀ f ∈ resetFields u, f.key ≠ SYS_BRST.RESULT.key → (blockReset s u).get f = f.reset) ∧
    SameFields (SYS_BRST.RESULT :: resetFields u) s (blockReset s u) ∧ SameMemory s (blockReset s u) ∧
    (blockReset s u).otp = s.otp ∧ (blockReset s u).now = s.now := by
  have hdone : blockReset s u =
      (resetUnitState (State.each (resetFields u) State.resetField s) u).set SYS_BRST.RESULT 1 := by
    simp [blockReset, hen, State.on, hoff]
  obtain ⟨hregs, hmem, hotp, hnow⟩ := resetUnitState_parts (State.each (resetFields u) State.resetField s) u
  have hget := fun f => State.get_of_regs hregs f
  rw [each_resetField_rest] at hmem hotp hnow
  rw [hdone]
  refine ⟨State.get_set_same _ _ _, fun f hf hkey => ?_, fun f hf => ?_, fun a => ?_, ?_, ?_⟩
  · rw [State.get_set_ne _ _ hkey, hget]
    exact each_resetField_get_mem s (resetFields_once (by simp [hen])) hf
  · simp only [List.map_cons, List.mem_cons, not_or] at hf
    rw [State.get_set_ne _ _ hf.1, hget]
    exact each_resetField_get_ne _ s hf.2
  · rw [State.set_byte, State.byte, each_resetField_rest, hmem]
    rfl
  · rw [State.set_otp, each_resetField_rest, hotp]
  · rw [State.set_now, each_resetField_rest, hnow]

end

/-- Settles O15: RESULT by the unit and its enable, and what a reset that is done leaves. -/
theorem blockReset_settled : Obligations.BlockReset := by
  refine ⟨fun unit s hk hno => ?_, fun unit s hk => ?_, fun unit s en hk hen hon => ?_, fun unit s en hk hen hoff => ?_⟩
  · simp [exec, execBlockReset, hk, blockReset, hno]
  · simp [exec, execBlockReset, hk]
  · simp [exec, execBlockReset, hk, blockReset, hen, State.on, hon]
  · obtain ⟨hresult, hreset, hsame, hmem, hotp, hnow⟩ := blockReset_done (s.set SYS_BRST.UNIT unit.toNat) hen hoff
    refine ⟨_, by simp [exec, execBlockReset, hk], hresult, hreset, fun f hf => ?_, hmem, hotp, hnow⟩
    simp only [List.map_cons, List.mem_cons, not_or] at hf
    exact (hsame f (by simpa using hf.2)).trans (State.get_set_ne _ _ hf.1)

end Sys2Proof.Machine
end

section
/-! The ends of drains (R37, R38, R531): each unit's own row, and the enable that reads 0 after it. -/

namespace Sys2Proof.Machine

/-! ### The enables apart from what a drain's end writes after them -/

/-- A NOTICE leaves a field that is not its event's and none of Foxglove's books. -/
theorem notice_get_of_ne (s : State) (e : Ev) {f : Field} (hevt : f.key ≠ e.evt.key)
    (hfox : f.key ∉ [FLT_NCNT.COUNT.key, FLT_LWR.COUNT.key, FLT_EVT.EVT.key]) : (notice s e).get f = s.get f := by
  refine notice_get s e f ?_
  simpa [noticeFields, hevt] using hfox

theorem railEn_not_fox (r : Rail) : (railEn r).key ∉ [FLT_NCNT.COUNT.key, FLT_LWR.COUNT.key, FLT_EVT.EVT.key] := by
  simp only [List.mem_cons, List.not_mem_nil, or_false, not_or]
  cases r <;> simp only [railEn, Field.key, LP_CTRL.EN, BK_CTRL.EN, LDO_CTRL.EN, SW_CTRL.EN, FLT_NCNT.COUNT,
    FLT_LWR.COUNT, FLT_EVT.EVT] <;> omega

theorem railEn_ne_evt (r : Rail) : (railEn r).key ≠ (railEvt r).key := by
  cases r <;> simp only [railEn, railEvt, Field.key, LP_CTRL.EN, BK_CTRL.EN, LDO_CTRL.EN, SW_CTRL.EN, LP_EVT.EVT,
    BK_STATUS.EVT, LDO_STATUS.EVT, SW_STATUS.EVT] <;> omega

theorem railEn_ne_state (r : Rail) : (railEn r).key ≠ (railState r).key ∧ (railEn r).key ≠ (railIlim r).key := by
  cases r <;> simp only [railEn, railState, railIlim, Field.key, LP_CTRL.EN, BK_CTRL.EN, LDO_CTRL.EN, SW_CTRL.EN,
    LP_STATUS.STATE, BK_STATUS.STATE, LDO_STATUS.STATE, SW_STATUS.STATE, LP_STATUS.ILIM_ACT, BK_STATUS.ILIM_ACT,
    LDO_STATUS.ILIM_ACT, SW_STATUS.ILIM_ACT] <;> omega

section
variable (s : State)

/-! ### Rails -/

/-- An output's drain ends with its enable at 0 (R166). -/
theorem outputDrained_en (r : Rail) : (outputDrained s r).get (railEn r) = 0 := by
  obtain ⟨hstate, hilim⟩ := railEn_ne_state r
  unfold outputDrained
  rw [notice_get_of_ne _ _ (railEn_ne_evt r) (railEn_not_fox r), State.get_set_ne _ _ hilim,
    State.get_set_ne _ _ hstate, State.get_set_same, Nat.zero_mod]

/-- EN of a loop is no field of the phase pool or of the ledger's limits. -/
theorem loopEn_ne (n : Fin 6) : (LP_CTRL.EN n).key ≠ (LP_STATUS.OST_ACT n).key ∧
    (∀ k, k < 20 → (LP_CTRL.EN n).key ≠ (PH_STATUS.STATE k).key ∧ (LP_CTRL.EN n).key ≠ (PH_STATUS.OWNER k).key) ∧
    ∀ w, w < 2 → (LP_CTRL.EN n).key ≠ (NRG_LIMITED.MASK w).key := by
  simp only [Field.key, LP_CTRL.EN, LP_STATUS.OST_ACT, PH_STATUS.STATE, PH_STATUS.OWNER, NRG_LIMITED.MASK]
  exact ⟨by omega, fun k _ => by omega, fun w _ => by omega⟩

/-- A loop's drain ends with its enable at 0, also once the ROM's claims are free (R109, R531). -/
theorem loopDrained_en (n : Fin 6) : (romFree (loopDrained s n)).get (LP_CTRL.EN n) = 0 := by
  obtain ⟨host, hphase, hlimited⟩ := loopEn_ne n
  have hstate : (LP_CTRL.EN n).key ≠ (LP_STATUS.STATE n).key := (railEn_ne_state (.lp n)).1
  have hilim : (LP_CTRL.EN n).key ≠ (LP_STATUS.ILIM_ACT n).key := (railEn_ne_state (.lp n)).2
  rw [romFree_get _ hlimited]
  unfold loopDrained
  rw [dirtyLimits_get, notice_get_of_ne (f := LP_CTRL.EN n) _ (railEv (.lp n) 0 .notice) (railEn_ne_evt (.lp n))
      (railEn_not_fox (.lp n)),
    reservePhases_get _ hphase, State.get_set_ne _ _ hilim, State.get_set_ne _ _ host,
    State.get_set_ne _ _ hstate, State.get_set_same, Nat.zero_mod]

/-! ### Engines, ports and slices -/

theorem engineEn_ne (e : Fin 4) : (CAM_CTRL.EN e).key ≠ (CAM_STATUS.PDOWN e).key ∧
    (CAM_CTRL.EN e).key ≠ (CAM_STATUS.STATE e).key ∧ (CAM_CTRL.EN e).key ≠ (CAM_EVT.EVT e).key ∧
    (CAM_CTRL.EN e).key ∉ [FLT_NCNT.COUNT.key, FLT_LWR.COUNT.key, FLT_EVT.EVT.key] ∧
    ∀ w, w < 2 → (CAM_CTRL.EN e).key ≠ (NRG_LIMITED.MASK w).key := by
  simp only [List.mem_cons, List.not_mem_nil, or_false, not_or, Field.key, CAM_CTRL.EN, CAM_STATUS.PDOWN,
    CAM_STATUS.STATE, CAM_EVT.EVT, FLT_NCNT.COUNT, FLT_LWR.COUNT, FLT_EVT.EVT, NRG_LIMITED.MASK]
  exact ⟨by omega, by omega, by omega, by omega, fun w _ => by omega⟩

/-- An engine's drain ends with its enable at 0 (R252). -/
theorem engineDrained_en (e : Fin 4) : (engineDrained s e).get (CAM_CTRL.EN e) = 0 := by
  obtain ⟨hpdown, hstate, hevt, hfox, hlimited⟩ := engineEn_ne e
  unfold engineDrained
  rw [romFree_get _ hlimited, notice_get_of_ne _ _ hevt hfox, State.get_set_ne _ _ hpdown,
    State.get_set_ne _ _ hstate, State.get_set_same, Nat.zero_mod]

/-- A command port's drain ends its transition, and its enable reads 0 (R153). -/
theorem portDrained_of_draining {p : Nat} (h : (s.port p).draining = true) : portDrained s p =
    let s1 := endFlight s p 4
    notice ((s1.setPort p { s1.port p with draining := false }).set (VCL_CTRL.EN p) 0) (vclEv p 6 .notice) := by
  simp [portDrained, h]

theorem portDrained_en {p : Fin 2} (h : (s.port p).draining = true) : (portDrained s p).get (VCL_CTRL.EN p) = 0 := by
  rw [portDrained_of_draining s h]
  refine (notice_get_of_ne _ _ ?_ ?_).trans (State.get_set_same _ _ _)
  · simp only [vclEv, Field.key, VCL_CTRL.EN, VCL_EVT.EVT]
    omega
  · simp only [List.mem_cons, List.not_mem_nil, or_false, not_or, Field.key, VCL_CTRL.EN, FLT_NCNT.COUNT,
      FLT_LWR.COUNT, FLT_EVT.EVT]
    omega

theorem sliceDrained_en {k : Fin 4} (h : bitOf s.adc.slDrain k = 1) : (sliceDrained s k).get (ADC_SL_CTRL.EN k) = 0 := by
  rw [sliceDrained, if_pos h]
  refine (notice_get_of_ne _ _ ?_ ?_).trans (State.get_set_same _ _ _)
  · simp only [adcEv, Field.key, ADC_SL_CTRL.EN, ADC_EVT.EVT]
    omega
  · simp only [List.mem_cons, List.not_mem_nil, or_false, not_or, Field.key, ADC_SL_CTRL.EN, FLT_NCNT.COUNT,
      FLT_LWR.COUNT, FLT_EVT.EVT]
    omega

theorem twcDrained_en (wdone : Nat) (data : List Byte) (hen : s.get TWC_CTRL.EN = 1) (hst : s.get TWC_STATUS.STATE = 5) :
    (twcDrained s wdone data).get TWC_CTRL.EN = 0 := by
  rw [twcDrained, if_pos (by simp [State.on, hen, hst])]
  dsimp only
  rw [notice_get_of_ne _ _ (show TWC_CTRL.EN.key ≠ TWC_EVT.EVT.key by decide) (by decide),
    State.get_set_ne _ _ (show TWC_CTRL.EN.key ≠ TWC_STATUS.STATE.key by decide), State.get_set_same, Nat.zero_mod]

/-- The charger enters OFF with no field changed but STATE, the elapsed time, its events and Foxglove's books. -/
theorem chgEnter_off_get {f : Field} (h : f.key ∉ [CHG_STATUS.STATE.key, CHG_TELAPSED.ELAPSED.key, CHG_EVT.EVT.key,
      FLT_NCNT.COUNT.key, FLT_LWR.COUNT.key, FLT_EVT.EVT.key]) : (chgEnter s 0).get f = s.get f := by
  simp only [List.mem_cons, List.not_mem_nil, or_false, not_or] at h
  obtain ⟨hstate, helapsed, hevt, hncnt, hlwr, hfevt⟩ := h
  have hfox : f.key ∉ [FLT_NCNT.COUNT.key, FLT_LWR.COUNT.key, FLT_EVT.EVT.key] := by simp [hncnt, hlwr, hfevt]
  have hnotice : ∀ (u : State) (k : Nat), (notice u (chgEv k .notice)).get f = u.get f := fun u k =>
    notice_get_of_ne u _ hevt hfox
  have hrest : ∀ u : State, (breakRest u).get f = u.get f := fun u => by unfold breakRest; split <;> rfl
  have hchg : ∀ (u : State) (c : Charger), (u.setChg c).get f = u.get f := fun _ _ => rfl
  unfold chgEnter
  dsimp only
  split
  · rfl
  · rw [if_neg (show ¬ (0 : Nat) = 6 by decide), if_pos (show (0 : Nat) = 0 ∨ (0 : Nat) = 8 by decide), hrest, State.get_set_ne _ _ helapsed]
    split
    · rw [hnotice, hchg, hnotice, State.get_set_ne _ _ hstate]
    · rw [hchg, hnotice, State.get_set_ne _ _ hstate]

theorem chgDrained_en (h : s.charger.draining = true) : (chgDrained s).get CHG_CTRL.EN = 0 := by
  have hchg : ∀ (u : State) (c : Charger) (f : Field), (u.setChg c).get f = u.get f := fun _ _ _ => rfl
  rw [chgDrained, if_pos h]
  dsimp only
  rw [State.get_set_ne _ _ (show CHG_CTRL.EN.key ≠ CHG_STATUS.LIMIT.key by decide), hchg,
    chgEnter_off_get _ (by decide), State.get_set_same, Nat.zero_mod]

end

/-! ### The rows -/

/-- A rail drains where its enable reads 1 in the state DRAIN (R37). -/
theorem railDrains {s : State} {r : Rail} (hen : s.get (railEn r) = 1) (hst : s.get (railState r) = stDrain r) :
    (s.on (railEn r) && draining s r) = true :=
  (Bool.and_eq_true _ _).mpr ⟨decide_eq_true hen, decide_eq_true hst⟩

theorem not_railDrains {s : State} {r : Rail} (h : s.get (railEn r) ≠ 1 ∨ draining s r = false) :
    (s.on (railEn r) && draining s r) = false :=
  (Bool.and_eq_false_iff).mpr (h.imp_left (fun hen => decide_eq_false hen))

theorem railDrained_of_not {s : State} {r : Rail} (h : (s.on (railEn r) && draining s r) = false) :
    railDrained s r = s :=
  if_neg (fun hd => Bool.false_ne_true (h.symm.trans hd))

theorem exec_railDrained (s : State) (r : Rail) : exec (.blockDrainEnd (.rail r)) s = .next (railDrained s r) := by
  rw [exec, execBlockDrainEnd]

theorem exec_twcDrained (s : State) (wdone : BitVec 6) (data : List Byte) :
    exec (.blockDrainEnd (.twc wdone data)) s = .next (twcDrained s wdone.toNat data) := by
  rw [exec, execBlockDrainEnd]

theorem exec_supDrained (s : State) (n : Fin 64) : exec (.blockDrainEnd (.sup n)) s = .next (supDrained s n) := by
  rw [exec, execBlockDrainEnd]

/-- Settles O16: each unit's row where it drains and where it does not. -/
theorem drainsEnd : Obligations.DrainsEnd := by
  refine ⟨fun n s hen hst => ⟨?_, loopDrained_en _ n⟩, fun r s hout hen hst => ⟨?_, outputDrained_en s r⟩,
    fun r s h => ?_, fun e s hen hst => ⟨?_, engineDrained_en s e⟩, fun p s hd => ⟨?_, portDrained_en s hd⟩,
    fun k s hd => ⟨rfl, sliceDrained_en s hd⟩, fun s hd => ⟨rfl, chgDrained_en s hd⟩,
    fun wdone data s hen hst => ⟨exec_twcDrained s wdone data, twcDrained_en s _ _ hen hst⟩, fun n s => ⟨?_, ?_, ?_, ?_⟩, fun s hst hidle => ?_,
    fun s e p k wdone data => ⟨?_, ?_, ?_, ?_, ?_, ?_⟩⟩
  · exact congrArg Host.Outcome.next (if_pos (railDrains (r := .lp n) hen hst))
  · cases r with
    | lp n => cases hout
    | bk n => exact congrArg Host.Outcome.next (if_pos (railDrains (r := .bk n) hen hst))
    | ldo n => exact congrArg Host.Outcome.next (if_pos (railDrains (r := .ldo n) hen hst))
    | sw n => exact congrArg Host.Outcome.next (if_pos (railDrains (r := .sw n) hen hst))
  · exact (exec_railDrained s r).trans (congrArg Host.Outcome.next (railDrained_of_not (not_railDrains h)))
  · simp [exec, execBlockDrainEnd, State.on, hen, hst]
  · exact congrArg Host.Outcome.next (portDrained_of_draining s hd)
  · intro h
    simp [exec, execBlockDrainEnd, ringDrained, h]
  · intro h
    simp [exec, execBlockDrainEnd, ringDrained, h]
  · intro h
    rw [exec_supDrained, supDrained, if_pos h]
  · intro h
    rw [exec_supDrained, supDrained, h, if_neg Bool.false_ne_true]
  · simp [exec, execBlockDrainEnd, hciDrained, hst, hidle]
  · intro h
    have hno : (s.on (CAM_CTRL.EN e) && decide (s.get (CAM_STATUS.STATE e) = 4)) = false := by
      obtain h | h := h <;> simp [State.on, h]
    simp [exec, execBlockDrainEnd, hno]
  · intro h
    simp [exec, execBlockDrainEnd, portDrained, h]
  · intro h
    simp [exec, execBlockDrainEnd, sliceDrained, h]
  · intro h
    simp [exec, execBlockDrainEnd, chgDrained, h]
  · intro h
    have hno : ¬ (s.get HCI_STATUS.STATE = 2 ∧ hciIdle s = true) := by
      obtain h | h := h <;> simp [h]
    simp [exec, execBlockDrainEnd, hciDrained, hno]
  · intro h
    have hno : (s.on TWC_CTRL.EN && decide (s.get TWC_STATUS.STATE = 5)) = false := by
      obtain h | h := h <;> simp [State.on, h]
    rw [exec_twcDrained, twcDrained, hno, if_neg Bool.false_ne_true]

end Sys2Proof.Machine
end

section
/-! The energy ledger's updates (R27 to R29, R254 to R276): when an update runs, the terms of its budget, the claim that
is revoked next, and why the revocations of an update stop. -/

namespace Sys2Proof.Machine

/-! ### Boundaries and rows -/

/-- The next boundary is a multiple of the period, and later than the boundary before. -/
theorem nextBoundary_spec (now : Nat) {period : Nat} (last : Option Nat) (hp : 0 < period) :
    nextBoundary now period last % period = 0 ∧
      ∀ l, last = some l → l % period = 0 → l < nextBoundary now period last := by
  unfold nextBoundary
  dsimp only
  split
  case h_1 => exact ⟨Nat.mul_mod_left _ _, fun l h => nomatch h⟩
  case h_2 l =>
    refine ⟨by split <;> exact Nat.mul_mod_left _ _, fun l' h hl => ?_⟩
    cases h
    have hdiv : l / period * period = l := Nat.div_mul_cancel (Nat.dvd_of_mod_eq_zero hl)
    split
    · rw [Nat.add_mul, hdiv]
      omega
    · omega

/-- Settles O17: each row where the ledger runs and where it does not. -/
theorem ledgerUpdates : Obligations.LedgerUpdates := by
  refine ⟨fun s h => ?_, fun s h => ?_, fun s freeze => ⟨fun h => ⟨?_, ?_, ?_⟩, fun h => ?_⟩,
    fun now period last hp => nextBoundary_spec now last hp, fun s d ds hd h => ?_, fun s hd => ?_, fun freeze s h => ?_⟩
  · simp [exec, execLedgerUpdate, h]
  · simp [exec, execLedgerDeadline, h]
  · simp [exec, execLedgerUpdate, h]
  · simp [exec, execLedgerDeadline, h]
  · rw [exec, execDebitExpiry]
    split <;> simp [h]
  · simp [exec, execNrgFreeze, h]
  · simp [exec, execDebitExpiry, hd, h]
  · simp [exec, execDebitExpiry, hd]
  · simp [exec, execNrgFreeze, h]

/-! ### The claims of the books -/

theorem State.claim_setClaim (s : State) (c d : Nat) (x : Claim) :
    (s.setClaim c x).claim d = if d = c then x else s.claim d := NMap.get_put _ _ _ _ _

/-- The claims stand beside the registers and the parts that an event changes. -/
theorem State.claims_of_apart {s t : State} (h : t.apart = s.apart) : t.claims = s.claims :=
  (congrArg State.claims h :)

theorem State.claim_of_claims {s t : State} (h : t.claims = s.claims) (c : Nat) : t.claim c = s.claim c := by
  rw [State.claim, State.claim, h]

theorem clearLimited_claim (s : State) (c d : Nat) : (clearLimited s c).claim d = s.claim d := by
  unfold clearLimited
  split <;> rfl

/-- A claim that becomes FREE changes its own entry alone. -/
theorem freeClaim_claim (s : State) (c d : Nat) : (freeClaim s c).claim d =
    if d = c then { s.claim c with st := .free, fit := false, amount := (s.claim c).descAmount, eng := 0, task := 0,
                                   cls := 0, rom := false }
    else s.claim d := by
  unfold freeClaim
  rw [clearLimited_claim, State.claim_setClaim]

theorem State.claim_setTask (s : State) (e t d : Nat) (x : Task) : (s.setTask e t x).claim d = s.claim d := rfl

/-- The task of a revoked claim changes no claim, but for one that it waits for, which becomes FREE (R224). -/
theorem revokeTask_claim (s : State) (e t d : Nat) : (revokeTask s e t).claim d = s.claim d ∨
    (∃ n, (s.task e t).wait = some (.claim d n)) ∧ (revokeTask s e t).claim d = (freeClaim s d).claim d := by
  unfold revokeTask
  dsimp only
  split
  · split <;> exact .inl rfl
  · split
    case h_1 id n hw =>
      simp only [State.claim_setTask]
      by_cases hd : d = id
      · subst hd
        exact .inr ⟨⟨n, hw⟩, rfl⟩
      · rw [freeClaim_claim, if_neg hd]
        exact .inl rfl
    case h_2 => exact .inl rfl
  · exact .inl rfl
  · exact .inl rfl

theorem isGranted_of_free {x : Claim} (h : x.st = .free) : x.isGranted = false := by simp [Claim.isGranted, h]

theorem isGranted_of_revoked {x : Claim} (h : x.st = .revoked) : x.isGranted = false := by simp [Claim.isGranted, h]

theorem freeClaim_st (s : State) (c : Nat) : ((freeClaim s c).claim c).st = .free := by
  rw [freeClaim_claim, if_pos rfl]

/-! ### Revocation -/

/-- The state in which a revocation has switched the claim's rails off and counted itself. -/
theorem revoking_apart (s : State) (rs : List Rail) : ((railsOff s rs).addWrap NRG_CNT0.REVOKES 1).apart = s.apart :=
  railsOff_apart s rs

theorem revoke_of_rom {s : State} {c : Nat} (h : (s.claim c).rom = true) :
    revoke s c = freeClaim ((railsOff s (claimRails (s.claim c))).addWrap NRG_CNT0.REVOKES 1) c := by
  unfold revoke
  dsimp only
  rw [if_pos h]

theorem revoke_of_task {s : State} {c : Nat} (h : (s.claim c).rom = false) :
    revoke s c = revokeTask (((railsOff s (claimRails (s.claim c))).addWrap NRG_CNT0.REVOKES 1).setClaim c
      { s.claim c with st := .revoked, fit := false, revokedAt := s.now }) (s.claim c).eng (s.claim c).task := by
  unfold revoke
  dsimp only
  rw [if_neg (Bool.eq_false_iff.mp h)]

/-- A revoked claim of the ROM firmware is FREE (R531). -/
theorem revoke_rom_st {s : State} {c : Nat} (h : (s.claim c).rom = true) : ((revoke s c).claim c).st = .free := by
  rw [revoke_of_rom h]
  exact freeClaim_st _ c

/-- A revoked claim of a task that does not wait for it is pending again, revoked at this time (R28). -/
theorem revoke_task_claim {s : State} {c : Nat} (h : (s.claim c).rom = false)
    (hw : ∀ id n, ((railsOff s (claimRails (s.claim c))).task (s.claim c).eng (s.claim c).task).wait =
      some (.claim id n) → id ≠ c) :
    (revoke s c).claim c = { s.claim c with st := .revoked, fit := false, revokedAt := s.now } := by
  rw [revoke_of_task h]
  obtain hkeep | ⟨⟨n, hwait⟩, -⟩ := revokeTask_claim (((railsOff s (claimRails (s.claim c))).addWrap NRG_CNT0.REVOKES
      1).setClaim c { s.claim c with st := .revoked, fit := false, revokedAt := s.now }) (s.claim c).eng
      (s.claim c).task c
  · rw [hkeep, State.claim_setClaim, if_pos rfl]
  · exact absurd rfl (hw c n hwait)

/-- A revoked claim is no longer granted. -/
theorem revoke_not_granted (s : State) (c : Nat) : ((revoke s c).claim c).isGranted = false := by
  cases h : (s.claim c).rom
  case true => exact isGranted_of_free (revoke_rom_st h)
  case false =>
    rw [revoke_of_task h]
    obtain hkeep | ⟨-, hfree⟩ := revokeTask_claim (((railsOff s (claimRails (s.claim c))).addWrap NRG_CNT0.REVOKES
        1).setClaim c { s.claim c with st := .revoked, fit := false, revokedAt := s.now }) (s.claim c).eng
        (s.claim c).task c
    · rw [hkeep, State.claim_setClaim, if_pos rfl]
      exact isGranted_of_revoked rfl
    · rw [hfree]
      exact isGranted_of_free (freeClaim_st _ c)

/-- A revocation leaves every other claim as it is, but for one that becomes FREE. -/
theorem revoke_claim_ne (s : State) {c d : Nat} (hd : d ≠ c) :
    (revoke s c).claim d = s.claim d ∨ ((revoke s c).claim d).st = .free := by
  have hapart := State.claim_of_claims (State.claims_of_apart (revoking_apart s (claimRails (s.claim c)))) d
  cases h : (s.claim c).rom
  case true =>
    rw [revoke_of_rom h, freeClaim_claim, if_neg hd]
    exact .inl hapart
  case false =>
    rw [revoke_of_task h]
    obtain hkeep | ⟨-, hfree⟩ := revokeTask_claim (((railsOff s (claimRails (s.claim c))).addWrap NRG_CNT0.REVOKES
        1).setClaim c { s.claim c with st := .revoked, fit := false, revokedAt := s.now }) (s.claim c).eng
        (s.claim c).task d
    · rw [hkeep, State.claim_setClaim, if_neg hd]
      exact .inl hapart
    · rw [hfree]
      exact .inr (freeClaim_st _ d)

/-! ### The claim to revoke next -/

/-- The claims that an update may revoke: granted steady ones above class 0 (R28). -/
def revocable (s : State) (c : Nat) : Bool := (s.claim c).isGranted && decide (0 < (s.claim c).cls)

/-- Claim `d` is not to be revoked before claim `c`: its class is lower, or the same with no later grant (R28). -/
def revokedNoSooner (s : State) (d c : Nat) : Prop := (s.claim d).cls < (s.claim c).cls ∨
  ((s.claim d).cls = (s.claim c).cls ∧ (s.claim d).grantSeq ≤ (s.claim c).grantSeq)

theorem revokedNoSooner_refl (s : State) (c : Nat) : revokedNoSooner s c c := .inr ⟨rfl, Nat.le_refl _⟩

theorem revokedNoSooner_trans {s : State} {a b c : Nat} (h : revokedNoSooner s a b) (k : revokedNoSooner s b c) :
    revokedNoSooner s a c := by
  unfold revokedNoSooner at *
  omega

/-- One step of the search for the claim to revoke. -/
def laterRevoked (s : State) (best : Option Nat) (c : Nat) : Option Nat :=
  match best with
  | none => some c
  | some b =>
    if (s.claim b).cls < (s.claim c).cls ∨
        ((s.claim b).cls = (s.claim c).cls ∧ (s.claim b).grantSeq < (s.claim c).grantSeq) then some c
    else some b

theorem nextToRevoke_eq (s : State) :
    nextToRevoke s = (claimIds.filter (revocable s)).foldl (laterRevoked s) none := rfl

/-- The better of two candidates is one of them, and neither is to be revoked before it. -/
theorem laterRevoked_some (s : State) (b c : Nat) : ∃ r, laterRevoked s (some b) c = some r ∧ (r = b ∨ r = c) ∧
    revokedNoSooner s b r ∧ revokedNoSooner s c r := by
  unfold laterRevoked
  dsimp only
  split
  next h => exact ⟨c, rfl, .inr rfl, by unfold revokedNoSooner; omega, revokedNoSooner_refl s c⟩
  next h => exact ⟨b, rfl, .inl rfl, revokedNoSooner_refl s b, by unfold revokedNoSooner; omega⟩

/-- The search from a candidate finds that one or one of the list, and none of them is to be revoked before it. -/
theorem foldl_laterRevoked (s : State) (l : List Nat) (b : Nat) : ∃ r, l.foldl (laterRevoked s) (some b) = some r ∧
    r ∈ b :: l ∧ ∀ d ∈ b :: l, revokedNoSooner s d r := by
  induction l generalizing b with
  | nil => exact ⟨b, rfl, List.mem_singleton.mpr rfl, fun d hd => List.mem_singleton.mp hd ▸ revokedNoSooner_refl s b⟩
  | cons c l ih =>
    obtain ⟨m, hm, hmem, hb, hc⟩ := laterRevoked_some s b c
    obtain ⟨r, hr, hrmem, hbest⟩ := ih m
    refine ⟨r, by rw [List.foldl_cons, hm, hr], ?_, fun d hd => ?_⟩
    · simp only [List.mem_cons] at hrmem ⊢
      grind
    · have hmr := hbest m (List.mem_cons_self ..)
      simp only [List.mem_cons] at hd
      obtain rfl | rfl | hd := hd
      · exact revokedNoSooner_trans hb hmr
      · exact revokedNoSooner_trans hc hmr
      · exact hbest d (List.mem_cons_of_mem _ hd)

/-- The search finds none exactly where no claim is revocable, and else one that none is to be revoked before. -/
theorem nextToRevoke_spec (s : State) :
    (nextToRevoke s = none ∧ claimIds.filter (revocable s) = []) ∨
      ∃ c, nextToRevoke s = some c ∧ c ∈ claimIds.filter (revocable s) ∧
        ∀ d ∈ claimIds.filter (revocable s), revokedNoSooner s d c := by
  rw [nextToRevoke_eq]
  cases h : claimIds.filter (revocable s) with
  | nil => exact .inl ⟨rfl, rfl⟩
  | cons b l => exact .inr (foldl_laterRevoked s l b)

theorem mem_revocable {s : State} {c : Nat} : c ∈ claimIds.filter (revocable s) ↔
    c ∈ claimIds ∧ (s.claim c).isGranted = true ∧ 0 < (s.claim c).cls := by
  simp [revocable]

theorem nextToRevoke_eq_none_iff (s : State) :
    nextToRevoke s = none ↔ ∀ c ∈ claimIds, (s.claim c).isGranted = true → (s.claim c).cls = 0 := by
  have hempty : claimIds.filter (revocable s) = [] ↔ ∀ c ∈ claimIds, (s.claim c).isGranted = true → (s.claim c).cls = 0 := by
    simp [List.filter_eq_nil_iff, revocable]
  rw [← hempty]
  obtain ⟨hn, he⟩ | ⟨c, hc, hmem, -⟩ := nextToRevoke_spec s
  · simp [hn, he]
  · simp [hc, List.ne_nil_of_mem hmem]

theorem nextToRevoke_eq_some {s : State} {c : Nat} (h : nextToRevoke s = some c) :
    c ∈ claimIds.filter (revocable s) ∧ ∀ d ∈ claimIds.filter (revocable s), revokedNoSooner s d c := by
  obtain ⟨hn, -⟩ | ⟨c', hc, hmem, hbest⟩ := nextToRevoke_spec s
  · exact nomatch hn.symm.trans h
  · cases hc.symm.trans h
    exact ⟨hmem, hbest⟩

/-! ### The revocations of an update -/

/-- A revocation leaves fewer revocable claims. -/
theorem revoke_revocable_lt {s : State} {c : Nat} (h : nextToRevoke s = some c) :
    (claimIds.filter (revocable (revoke s c))).length < (claimIds.filter (revocable s)).length := by
  have hmem := (nextToRevoke_eq_some h).1
  have hsub : claimIds.filter (revocable (revoke s c)) =
      (claimIds.filter (revocable s)).filter (revocable (revoke s c)) := by
    rw [List.filter_filter]
    refine List.filter_congr fun d _ => ?_
    by_cases hd : d = c
    · subst hd
      simp [revocable, revoke_not_granted]
    · obtain hkeep | hfree := revoke_claim_ne s hd
      · simp [revocable, hkeep]
      · simp [revocable, isGranted_of_free hfree]
  rw [hsub]
  refine List.length_filter_lt_length_iff_exists.mpr ⟨c, hmem, ?_⟩
  simp [revocable, revoke_not_granted]

/-- With a bound no smaller than the revocable claims, the revocations end where the sum fits or none is left. -/
theorem revokeLoop_ends (n : Nat) (s : State) (h : (claimIds.filter (revocable s)).length ≤ n) :
    granted (revokeLoop n s) ≤ (revokeLoop n s).get NRG_BUDGET.VAL ∨ nextToRevoke (revokeLoop n s) = none := by
  induction n generalizing s with
  | zero =>
    refine .inr ?_
    obtain ⟨hn, -⟩ | ⟨c, -, hmem, -⟩ := nextToRevoke_spec s
    · exact hn
    · exact absurd (List.length_pos_of_mem hmem) (by omega)
  | succ n ih =>
    unfold revokeLoop
    split
    next hover =>
      split
      next c hc =>
        have hlt := revoke_revocable_lt hc
        exact ih _ (by omega)
      next hn => exact .inr hn
    next hfits => exact .inl (by omega)

theorem revokeLoop_of_fits {s : State} (n : Nat) (h : granted s ≤ s.get NRG_BUDGET.VAL) : revokeLoop n s = s := by
  cases n with
  | zero => rfl
  | succ n => rw [revokeLoop, if_neg (by omega)]

theorem revokeLoop_of_none {s : State} (n : Nat) (h : nextToRevoke s = none) : revokeLoop n s = s := by
  cases n with
  | zero => rfl
  | succ n => rw [revokeLoop, h]; split <;> rfl

theorem revokeLoop_succ {s : State} {c : Nat} (n : Nat) (hover : s.get NRG_BUDGET.VAL < granted s)
    (h : nextToRevoke s = some c) : revokeLoop (n + 1) s = revokeLoop n (revoke s c) := by
  rw [revokeLoop, if_pos hover, h]

/-! What the ledger reads of a state: the granted sum and the claim to revoke next are read from the claims. -/

theorem granted_of_claims {s t : State} (h : t.claims = s.claims) : granted t = granted s := by
  simp only [granted, sumAmounts, State.claim, h]

theorem nextToRevoke_of_claims {s t : State} (h : t.claims = s.claims) : nextToRevoke t = nextToRevoke s := by
  have hclaim : t.claim = s.claim := funext (State.claim_of_claims h)
  have hrev : revocable t = revocable s := by simp only [funext_iff, revocable, hclaim, implies_true]
  have hlater : laterRevoked t = laterRevoked s := by simp only [funext_iff, laterRevoked, hclaim, implies_true]
  rw [nextToRevoke_eq, nextToRevoke_eq, hrev, hlater]

/-- After the revocations of an update outside the power-down sequence the sum fits the budget, or none is left that may
be revoked (R268). -/
theorem shed_ends {s : State} (h : s.get NRG_STATUS.PDOWN ≠ 1) :
    granted (shed s) ≤ (shed s).get NRG_BUDGET.VAL ∨ nextToRevoke (shed s) = none := by
  have hoff : s.on NRG_STATUS.PDOWN = false := decide_eq_false h
  have hends := revokeLoop_ends claimIds.length s (List.length_filter_le _ _)
  unfold shed
  rw [hoff, if_neg Bool.false_ne_true]
  dsimp only
  split
  case isTrue => exact hends
  case isFalse =>
    have hclaims : (notice (revokeLoop claimIds.length s) (nrgEv 0 .notice)).claims =
        (revokeLoop claimIds.length s).claims := State.claims_of_apart (notice_apart _ _)
    rw [granted_of_claims hclaims, nextToRevoke_of_claims hclaims,
      notice_get_of_ne _ _ (show NRG_BUDGET.VAL.key ≠ (nrgEv 0 .notice).evt.key by decide) (by decide)]
    exact hends

/-! ### The budget and OVER -/

/-- Settles O18: the terms of the budget, the order of the revocations, and OVER. -/
theorem budgetIsTheLowestTerm : Obligations.BudgetIsTheLowestTerm := by
  refine ⟨fun s => ?_, fun s => ⟨nextToRevoke_eq_none_iff s, fun c hc => ?_⟩,
    fun s n => ⟨revokeLoop_of_fits n, revokeLoop_of_none n, fun c hover hc => revokeLoop_succ n hover hc⟩,
    fun s => ⟨fun h => ?_, shed_ends⟩,
    fun s c => ⟨revoke_not_granted s c, revoke_rom_st, fun h hw => revoke_task_claim h hw⟩,
    fun s => ⟨fun hover hoff => ?_, fun hover hon => ?_, fun hfits => ?_⟩, fun s => rfl⟩
  · dsimp only
    refine ⟨?_, ?_, ?_, fun f hf => ?_, fun a => ?_⟩
    · simp (disch := decide) only [formBudget, State.get_set_ne, State.get_set_same]
      rfl
    · simp (disch := decide) only [formBudget, State.get_set_ne, State.get_set_same]
      rfl
    · simp (disch := decide) only [formBudget, State.get_set_ne, State.get_set_same]
      split
      · rfl
      · split
        · rfl
        · split <;> rfl
    · simp only [List.map_cons, List.map_nil, List.mem_cons, List.not_mem_nil, or_false, not_or] at hf
      obtain ⟨hbudget, hsrcterm, henergy, hload, hbind, hrung, hsrc⟩ := hf
      simp only [formBudget, State.get_set_ne _ _ hsrc, State.get_set_ne _ _ hrung, State.get_set_ne _ _ hbind,
        State.get_set_ne _ _ hload, State.get_set_ne _ _ henergy, State.get_set_ne _ _ hsrcterm,
        State.get_set_ne _ _ hbudget]
      rfl
    · simp only [formBudget, State.set_byte]
      rfl
  · obtain ⟨hmem, hbest⟩ := nextToRevoke_eq_some hc
    obtain ⟨hid, hgranted, hcls⟩ := mem_revocable.mp hmem
    exact ⟨hid, hgranted, hcls, fun d hd hdg hdc => hbest d (mem_revocable.mpr ⟨hd, hdg, hdc⟩)⟩
  · simp [shed, State.on, h]
  · simp [formOver, State.on, hover, hoff]
  · simp [formOver, State.on, hover, hon]
  · rw [formOver, if_neg (by omega)]

end Sys2Proof.Machine
end

section
/-! The interrupt controller (Table 14.2, R405 to R415): what a change of a request line, a claim and the doorbell leave
in a source, and where a second request stays pending. -/

namespace Sys2Proof.Machine

/-- The state of a source is none of its other fields. -/
theorem srcState_ne (n : Nat) : (INTC_SRC.STATE n).key ≠ (INTC_SRC.LATCHED n).key ∧
    (INTC_SRC.STATE n).key ≠ (INTC_SRC.REQ n).key ∧ (INTC_SRC.REQ n).key ≠ (INTC_SRC.LATCHED n).key := by
  simp [Field.key, INTC_SRC.STATE, INTC_SRC.LATCHED, INTC_SRC.REQ]

/-! ### Request lines -/

section
variable (s : State) (src : Nat)

/-- The fields of a source once its request line has been taken (R405). -/
def requestTaken : State :=
  (requestState s src (s.request src)).set (INTC_SRC.REQ src) (if s.request src then 1 else 0)

theorem takeRequest_get (f : Field) : (takeRequest s src).get f = (requestTaken s src).get f :=
  (noteLines_get _ f).trans (wakeIfRaised_get _ _ _ f)

theorem takeRequest_req : (takeRequest s src).get (INTC_SRC.REQ src) = if s.request src then 1 else 0 := by
  rw [takeRequest_get, requestTaken, State.get_set_same]
  split <;> rfl

theorem takeRequest_state : (takeRequest s src).get (INTC_SRC.STATE src) =
    (requestState s src (s.request src)).get (INTC_SRC.STATE src) := by
  rw [takeRequest_get, requestTaken, State.get_set_ne _ _ (srcState_ne src).2.1]

/-- A request line changes STATE, LATCHED and REQ of its source alone. -/
theorem takeRequest_get_of_ne {f : Field} (hstate : f.key ≠ (INTC_SRC.STATE src).key)
    (hlatched : f.key ≠ (INTC_SRC.LATCHED src).key) (hreq : f.key ≠ (INTC_SRC.REQ src).key) :
    (takeRequest s src).get f = s.get f := by
  rw [takeRequest_get, requestTaken, State.get_set_ne _ _ hreq]
  unfold requestState
  split
  · split
    · rw [State.get_set_ne _ _ hlatched, State.get_set_ne _ _ hstate]
    · rfl
  · split
    · rw [State.get_set_ne _ _ hstate]
    · rfl
  · split
    · rw [State.get_set_ne _ _ hstate]
    · rfl
  · rfl

/-- A source that is ACTIVE_PENDING keeps its state whatever its line does. -/
theorem requestState_pending (req : Bool) (h : s.get (INTC_SRC.STATE src) = 3) : requestState s src req = s := by
  simp [requestState, h]

theorem requestState_rise_idle (h : s.get (INTC_SRC.STATE src) = 0) :
    requestState s src true = (s.set (INTC_SRC.STATE src) 1).set (INTC_SRC.LATCHED src) 0 := by
  simp [requestState, h]

/-- A request that rises makes an IDLE source PENDING. -/
theorem takeRequest_rise (h : s.get (INTC_SRC.STATE src) = 0) (hreq : s.request src = true) :
    (takeRequest s src).get (INTC_SRC.STATE src) = 1 := by
  rw [takeRequest_state, hreq, requestState_rise_idle s src h, State.get_set_ne _ _ (srcState_ne src).1,
    State.get_set_same]
  rfl

theorem exec_intcRequestChange {src : BitVec 9} (hl : 1 ≤ src.toNat) (hh : src.toNat ≤ 256) (hv : vsysRuns s = true) :
    exec (.intcRequestChange src) s = .next (takeRequest s src.toNat) := by
  rw [exec, execIntcRequestChange, decide_eq_true hl, decide_eq_true hh, hv]
  rfl

theorem exec_intcRequestChange_untaken {src : BitVec 9}
    (h : src.toNat = 0 ∨ 256 < src.toNat ∨ vsysRuns s = false) : exec (.intcRequestChange src) s = .next s := by
  have hno : (decide (1 ≤ src.toNat) && decide (src.toNat ≤ 256) && vsysRuns s) = false := by
    obtain h | h | h := h
    · simp [h]
    · have hnot : ¬ src.toNat ≤ 256 := by omega
      simp [hnot]
    · simp [h]
  rw [exec, execIntcRequestChange, hno]
  rfl

end

/-! ### The doorbell -/

theorem request_doorbell (s : State) : s.request 0x100 = decide (s.get INTC_DBELL.RING % 2 = 1) := by
  have hbits : sourceBits 0x100 = [(INTC_DBELL.RING, 1)] := by decide
  rw [State.request, hbits]
  obtain h | h := Nat.mod_two_eq_zero_or_one (s.get INTC_DBELL.RING) <;> simp [Nat.and_one_is_mod, h]

/-- A clear of the doorbell, with which the controller sees the request fall (R413). -/
theorem dbellClr_get (s : State) : (takeRequest (s.set INTC_DBELL.RING 0) 0x100).get INTC_DBELL.RING = 0 ∧
    (takeRequest (s.set INTC_DBELL.RING 0) 0x100).get (INTC_SRC.REQ 0x100) = 0 := by
  refine ⟨?_, ?_⟩
  · rw [takeRequest_get_of_ne _ _ (by decide) (by decide) (by decide), State.get_set_same]
    rfl
  · rw [takeRequest_req, request_doorbell, State.get_set_same]
    rfl

/-- A ring of the doorbell rises the request of an IDLE source. -/
theorem dbellSet_pends {s : State} (h : s.get (INTC_SRC.STATE 0x100) = 0) :
    (takeRequest (s.set INTC_DBELL.RING 1) 0x100).get (INTC_SRC.STATE 0x100) = 1 := by
  refine takeRequest_rise _ _ ?_ ?_
  · rwa [State.get_set_ne _ _ (by decide)]
  · rw [request_doorbell, State.get_set_same]
    rfl

/-- Settles O51: the rows of Table 14.2, and a ring after a clear. -/
theorem interruptRequests : Obligations.InterruptRequests := by
  refine ⟨fun s src h => ⟨requestState_rise_idle s src h, ?_⟩, fun s src h => ⟨?_, ?_⟩, fun s src h => ⟨?_, ?_⟩,
    fun s src req h => requestState_pending s src req h,
    fun src s hl hh hv => ⟨_, rfl, exec_intcRequestChange s hl hh hv⟩, fun t src s ht hv htop => ⟨_, rfl, ?_⟩,
    fun t s ht hv htop => ?_, fun s => ⟨rfl, rfl, fun hv => ?_⟩, fun src s h => exec_intcRequestChange_untaken s h⟩
  · simp [requestState, h]
  · simp [requestState, h]
  · by_cases hlatched : s.get (INTC_SRC.LATCHED src) = 1 <;> simp [requestState, h, State.on, hlatched]
  · by_cases hreq : s.get (INTC_SRC.REQ src) = 1 <;> simp [requestState, h, State.on, hreq]
  · simp [requestState, h]
  · simp [exec, execIntcClaim, ht, hv, claimBy, htop]
  · simp [exec, execIntcClaim, ht, hv, claimBy, htop]
  · obtain ⟨hring, hreq⟩ := dbellClr_get s
    refine ⟨takeRequest (s.set INTC_DBELL.RING 0) 0x100, _, ?_, hring, hreq, rfl, fun hidle ht => ?_⟩
    · simp [exec, execIntcDbellClr, hv]
    · refine ⟨takeRequest ((takeRequest (s.set INTC_DBELL.RING 0) 0x100).set INTC_DBELL.RING 1) 0x100, ?_,
        dbellSet_pends hidle⟩
      rw [if_pos ht]
      exact exec_intcRequestChange _ (by decide) (by decide) ht

/-! ### Claims -/

/-- One step of the search for the source of a claim: the higher priority, the earlier source on a tie. -/
def higherSource (s : State) (best : Option Nat) (src : Nat) : Option Nat :=
  match best with
  | some b => if s.get (INTC_SRC.PRIO b) < s.get (INTC_SRC.PRIO src) then some src else some b
  | none => some src

theorem topSource_eq (s : State) (t : Nat) :
    topSource s t = (sourceIds.filter (presented s t)).foldl (higherSource s) none := rfl

theorem higherSource_cases (s : State) (best : Option Nat) (src : Nat) :
    higherSource s best src = some src ∨ higherSource s best src = best := by
  unfold higherSource
  split
  · split
    · exact .inl rfl
    · exact .inr rfl
  · exact .inl rfl

/-- The search finds its start or a source of the list. -/
theorem mem_of_foldl_higherSource (s : State) (l : List Nat) (best : Option Nat) {r : Nat}
    (h : l.foldl (higherSource s) best = some r) : best = some r ∨ r ∈ l := by
  induction l generalizing best with
  | nil => exact .inl h
  | cons c l ih =>
    obtain hbest | hmem := ih _ h
    · obtain hc | hkeep := higherSource_cases s best c
      · cases hc.symm.trans hbest
        exact .inr (List.mem_cons_self ..)
      · exact .inl (hkeep.symm.trans hbest)
    · exact .inr (List.mem_cons_of_mem _ hmem)

/-- The source that a claim obtains is PENDING. -/
theorem topSource_pending {s : State} {t src : Nat} (h : topSource s t = some src) :
    src ∈ sourceIds ∧ s.get (INTC_SRC.STATE src) = 1 := by
  obtain hnone | hmem := mem_of_foldl_higherSource s _ none (topSource_eq s t ▸ h)
  · exact nomatch hnone
  · simp only [List.mem_filter, presented, eligible, Bool.and_eq_true, decide_eq_true_eq] at hmem
    exact ⟨hmem.1, hmem.2.1.2.1.1.1⟩

/-- The fields of a source are those of no other source (Table 14.10). -/
theorem srcFields_ne {m n : Nat} (hm : m ∈ sourceIds) (hl : 1 ≤ n) (hne : n ≠ m) :
    (INTC_SRC.STATE n).key ≠ (INTC_SRC.STATE m).key ∧ (INTC_SRC.STATE n).key ≠ (INTC_SRC.OWNER m).key ∧
      (INTC_SRC.STATE n).key ≠ (INTC_SRC.LATCHED m).key := by
  simp only [sourceIds, List.mem_map, List.mem_range] at hm
  simp only [Field.key, INTC_SRC.STATE, INTC_SRC.LATCHED, INTC_SRC.OWNER]
  omega

theorem claimResult_get (s : State) (t : Fin 8) (id n : Nat) :
    (claimResult s t id).get (INTC_SRC.STATE n) = s.get (INTC_SRC.STATE n) := by
  have hkey : (INTC_SRC.STATE n).key ≠ (INTC_T_CLAIM.ID t).key := by
    simp only [Field.key, INTC_SRC.STATE, INTC_T_CLAIM.ID]
    omega
  exact (noteLines_get _ _).trans (State.get_set_ne s _ hkey)

/-- A claim leaves the state of a source that is not PENDING. -/
theorem claimBy_state (s : State) (t : Fin 8) {n : Nat} (hl : 1 ≤ n) (h : s.get (INTC_SRC.STATE n) ≠ 1) :
    (claimBy s t).get (INTC_SRC.STATE n) = s.get (INTC_SRC.STATE n) := by
  have hcnt : (INTC_SRC.STATE n).key ≠ INTC_CNT.CLAIMS.key := (srcFields_key_ne n (by decide)).1.symm
  have hspur : (INTC_SRC.STATE n).key ≠ (INTC_T_STAT.SPUR t).key := by
    simp only [Field.key, INTC_SRC.STATE, INTC_T_STAT.SPUR]
    omega
  unfold claimBy
  split
  case h_1 src htop =>
    obtain ⟨hmem, hpending⟩ := topSource_pending htop
    have hne : n ≠ src := fun hn => h (hn ▸ hpending)
    obtain ⟨hstate, howner, hlatched⟩ := srcFields_ne hmem hl hne
    rw [claimResult_get, State.addWrap, State.get_set_ne _ _ hcnt, State.get_set_ne _ _ hlatched,
      State.get_set_ne _ _ howner, State.get_set_ne _ _ hstate]
  case h_2 =>
    split
    · rw [claimResult_get, State.addSat, State.get_set_ne _ _ hspur]
    · exact claimResult_get s t 0 n

end Sys2Proof.Machine
end

section
/-! Which fields an event can change (R376 to R392): those of the loops, the outputs, the window channels, the engines,
the ADC, Foxglove and the wear indicators, and the event's own. -/

namespace Sys2Proof.Machine

/-- A field of the units that no event reaches but by its own event bit: the device, the power path and the charger, the
phase pool and the command links, the ledger and the ring, the interrupt controller and the host interfaces. -/
abbrev Quiet (f : Field) : Prop :=
  f.key < 0x0400 * 8 ∨ (0x0A00 * 8 ≤ f.key ∧ f.key < 0x0E00 * 8) ∨ (0x1800 * 8 ≤ f.key ∧ f.key < 0x1A00 * 8) ∨
    (0x2000 * 8 ≤ f.key ∧ f.key < 0x2C00 * 8)

section
variable {f : Field} (hf : Quiet f) (s : State)
include hf

theorem set_quiet {g : Field} (hg : ¬ Quiet g) (v : Nat) : (s.set g v).get f = s.get f :=
  State.get_set_ne s v fun h => hg (by unfold Quiet at hf ⊢; rwa [← h])

theorem setBit_quiet {g : Field} (hg : ¬ Quiet g) (i : Nat) : (s.setBit g i).get f = s.get f := set_quiet hf s hg _

theorem addWrap_quiet {g : Field} (hg : ¬ Quiet g) (n : Nat) : (s.addWrap g n).get f = s.get f := set_quiet hf s hg _

theorem addSat_quiet {g : Field} (hg : ¬ Quiet g) (n : Nat) : (s.addSat g n).get f = s.get f := set_quiet hf s hg _

omit hf in
/-- A fold whose every step leaves the field leaves it. -/
theorem each_quiet {α : Type} (xs : List α) {g : State → α → State} (h : ∀ s, ∀ a ∈ xs, (g s a).get f = s.get f) :
    (State.each xs g s).get f = s.get f := by
  unfold State.each
  induction xs generalizing s with
  | nil => rfl
  | cons a l ih =>
    rw [List.foldl_cons, ih _ fun s b hb => h s b (List.mem_cons_of_mem _ hb), h s a (List.mem_cons_self ..)]

/-! ### Records -/

theorem quiet_ne {g : Field} (hg : ¬ Quiet g) : f.key ≠ g.key := fun h => hg (by unfold Quiet at hf ⊢; rwa [← h])

theorem logWrite_quiet (ws : Nat → List Nat) : (logWrite s ws).get f = s.get f :=
  (logPut_get _ _ _ f).trans (logCount_get s f (quiet_ne hf (by decide)) (quiet_ne hf (by decide)))

theorem foxEvt_quiet (bit : Nat) : (foxEvt s bit).get f = s.get f := setBit_quiet hf s (by decide) bit

theorem histWrite_quiet (body : RecBody) : (histWrite s body).get f = s.get f := by
  have hrec : ∀ ws, ((logWrite s ws).addWrap FLT_HWR.COUNT 1).get f = s.get f := fun ws =>
    (addWrap_quiet hf _ (by decide) 1).trans (logWrite_quiet hf s ws)
  have hfox : ∀ (t : State) (x : Fox), ({ t with fox := x } : State).get f = t.get f := fun _ _ => rfl
  unfold histWrite
  dsimp only
  rw [hfox]
  split
  · split
    · rw [foxEvt_quiet hf, hfox, hrec]
    · rw [hfox, hrec]
  · exact hrec _

omit hf in
theorem histUpdate_quiet (r : HistRec) : (histUpdate s r).get f = s.get f := by
  unfold histUpdate
  dsimp only
  split
  · exact logPut_get _ _ _ f
  · rfl

theorem noticeCount_quiet (e : Ev) (inj : Bool) : (noticeCount s e inj).get f = s.get f := by
  unfold noticeCount
  dsimp only
  split
  · exact (logWrite_quiet hf _ _).trans (addWrap_quiet hf s (by decide) 1)
  · exact addWrap_quiet hf s (by decide) 1

/-- A NOTICE leaves every such field but its event's. -/
theorem notice_quiet {e : Ev} (he : f.key ≠ e.evt.key) : (notice s e).get f = s.get f :=
  (State.get_set_ne _ _ he).trans (noticeCount_quiet hf s e false)

/-! ### Reactions -/

theorem supLeave_quiet {n : Nat} (hn : n < 64) : (supLeave s n).get f = s.get f := by
  have hstat : ¬ Quiet (SUP_STAT.PG n) ∧ ¬ Quiet (SUP_STAT.PGS n) ∧ ¬ Quiet (SUP_STAT.ARMED n) ∧
      ¬ Quiet (SUP_EVT.EVT n) := by
    simp only [Quiet, Field.key, SUP_STAT.PG, SUP_STAT.PGS, SUP_STAT.ARMED, SUP_EVT.EVT]
    omega
  obtain ⟨hpg, hpgs, harmed, hevt⟩ := hstat
  unfold supLeave
  dsimp only
  rw [set_quiet hf _ harmed, set_quiet hf _ hpgs, set_quiet hf _ hpg, State.setSup_get]
  split
  · exact notice_quiet hf s (quiet_ne hf hevt)
  · rfl

theorem supLeaveAll_quiet (r : Rail) : (supLeaveAll s r).get f = s.get f :=
  each_quiet s _ fun s n hn => supLeave_quiet hf s (by
    simp only [channelsOf, List.mem_filter, List.mem_range] at hn
    exact hn.1)

omit hf in
theorem railFields_not_quiet (r : Rail) : ¬ Quiet (railState r) ∧ ¬ Quiet (railIlim r) ∧ ¬ Quiet (railEvt r) := by
  cases r <;> simp only [Quiet, Field.key, railState, railIlim, railEvt, LP_STATUS.STATE, BK_STATUS.STATE,
    LDO_STATUS.STATE, SW_STATUS.STATE, LP_STATUS.ILIM_ACT, BK_STATUS.ILIM_ACT, LDO_STATUS.ILIM_ACT,
    SW_STATUS.ILIM_ACT, LP_EVT.EVT, BK_STATUS.EVT, LDO_STATUS.EVT, SW_STATUS.EVT] <;> omega

theorem railOff_quiet (r : Rail) : (railOff s r).get f = s.get f := by
  have hleave : (if regulating s r then supLeaveAll s r else s).get f = s.get f := by
    split
    · exact supLeaveAll_quiet hf s r
    · rfl
  have hleft : ∀ (t : State) (r : Rail), (noteLeft t r).get f = t.get f := fun _ _ => rfl
  unfold railOff
  dsimp only
  split
  · rw [set_quiet hf _ (railFields_not_quiet r).1]
    cases r with
    | lp n => exact hleave
    | bk n =>
      have hilim := (railFields_not_quiet (.bk n)).2.1
      exact ((set_quiet hf _ hilim 0).trans (hleft _ _)).trans hleave
    | ldo n => exact (hleft _ _).trans hleave
    | sw n => exact (hleft _ _).trans hleave
  · rfl

theorem railsOff_quiet (rs : List Rail) : (railsOff s rs).get f = s.get f :=
  each_quiet s rs fun s r _ => railOff_quiet hf s r

theorem engineDrain_quiet {e : Nat} (he : e < 4) : (engineDrain s e).get f = s.get f := by
  have hstate : ¬ Quiet (CAM_STATUS.STATE e) := by
    simp only [Quiet, Field.key, CAM_STATUS.STATE]
    omega
  unfold engineDrain
  split
  · exact set_quiet hf _ hstate 4
  · rfl

theorem aliveHold_quiet : (aliveHold s).get f = s.get f := by
  unfold aliveHold
  split
  · exact foxEvt_quiet hf _ 2
  · rfl

omit hf in
/-- A word of Foxglove's line flags is no such field. -/
theorem lineFlags_not_quiet {line : Nat} (hline : line < 64) :
    ¬ Quiet (FLT_STATUS.LINES (line / 32)) ∧ ¬ Quiet (FLT_LATCH.LINES (line / 32)) := by
  simp only [Quiet, Field.key, FLT_STATUS.LINES, FLT_LATCH.LINES]
  omega

theorem markStatus_quiet {line : Nat} (hline : line < 64) (cls : Cls) : (markStatus s line cls).get f = s.get f := by
  have hstatus := setBit_quiet hf s (lineFlags_not_quiet hline).1 (line % 32)
  cases cls with
  | notice => exact hstatus
  | warning => exact (addSat_quiet hf _ (by decide) 1).trans hstatus
  | fault => exact (addSat_quiet hf _ (by decide) 1).trans hstatus
  | critical => exact (addSat_quiet hf _ (by decide) 1).trans hstatus

theorem actPerLine_quiet (r : Nat) {line : Nat} (hline : line < 64) (detail : Nat) :
    (actPerLine s r line detail).get f = s.get f := by
  have hoff : (if bitOf r 4 = 1 ∧ ¬ inPowerdown s then railsOff s (railsOfLine s line detail) else s).get f =
      s.get f := by
    split
    · exact railsOff_quiet hf s _
    · rfl
  unfold actPerLine
  dsimp only
  split
  · exact (setBit_quiet hf _ (lineFlags_not_quiet hline).2 _).trans hoff
  · exact hoff

theorem actSeqAbort_quiet (r : Nat) : (actSeqAbort s r).get f = s.get f := by
  unfold actSeqAbort
  split
  · exact each_quiet s _ fun s e he => engineDrain_quiet hf s (List.mem_range.mp he)
  · rfl

theorem actStopAlive_quiet (r m : Nat) : (actStopAlive s r m).get f = s.get f := by
  unfold actStopAlive
  split
  · exact aliveHold_quiet hf _
  · rfl

/-! ### Snapshots -/

theorem noticeAdc_quiet (k : Nat) (detail : Nat) : (notice s (adcEv k .notice detail)).get f = s.get f :=
  notice_quiet hf s (quiet_ne hf (by decide : ¬ Quiet ADC_EVT.EVT))

theorem snapFreeze_quiet (len : Nat) : (snapFreeze s len).get f = s.get f := by
  unfold snapFreeze
  dsimp only
  rw [set_quiet hf _ (by decide), noticeAdc_quiet hf, set_quiet hf _ (by decide),
    set_quiet hf _ (by decide), set_quiet hf _ (by decide), set_quiet hf _ (by decide), set_quiet hf _ (by decide)]

theorem endFill_quiet : (endFill s).get f = s.get f := by
  unfold endFill
  split
  · exact snapFreeze_quiet hf s _
  · rfl

theorem stopBurst_quiet : (stopBurst s).get f = s.get f := by
  have hburst : ∀ x, ((s.setAdc x).set ADC_STATUS.BURST 0).get f = s.get f := fun x =>
    set_quiet hf (s.setAdc x) (by decide) 0
  unfold stopBurst
  dsimp only
  split
  · exact (endFill_quiet hf _).trans (hburst _)
  · exact hburst _

theorem injectionTriggered_quiet : (injectionTriggered s).get f = s.get f := by
  have hdrop : ∀ n, (dropInjection s n).get f = s.get f := fun n => by
    unfold dropInjection
    dsimp only
    split
    · exact stopBurst_quiet hf _
    · rfl
  unfold injectionTriggered
  split
  · unfold abortInjection wearNotice
    rw [setBit_quiet hf _ (by decide), noticeAdc_quiet hf, set_quiet hf _ (by decide),
      set_quiet hf _ (by decide), hdrop]
  · rfl

theorem snapTake_quiet (trig code : Nat) : (snapTake s trig code).get f = s.get f := by
  have hwords : ∀ s : State, (State.each (List.range 64)
      (fun s c => s.set (ADC_SNHK.VAL c) (s.get (ADC_HK.VAL c))) s).get f = s.get f := fun s =>
    each_quiet s _ fun s c hc => set_quiet hf s (by
      simp only [Quiet, Field.key, ADC_SNHK.VAL, List.mem_range] at hc ⊢
      omega) _
  unfold snapTake
  dsimp only
  rw [addWrap_quiet hf _ (by decide), set_quiet hf _ (by decide), set_quiet hf _ (by decide),
    set_quiet hf _ (by decide), set_quiet hf _ (by decide), set_quiet hf _ (by decide), set_quiet hf _ (by decide),
    hwords]

theorem snapStart_quiet (trig code : Nat) : (snapStart s trig code).get f = s.get f := by
  have htake : ((snapTake s trig code).set ADC_SNAP.STATE 0).get f = s.get f :=
    (set_quiet hf _ (by decide) 0).trans (snapTake_quiet hf s trig code)
  have hadc : ∀ (t : State) (x : Adc), ((t.setAdc x).set ADC_SNAP.STATE 1).get f = t.get f := fun t x =>
    set_quiet hf (t.setAdc x) (by decide) 1
  unfold snapStart
  dsimp only
  split
  · exact (hadc _ _).trans htake
  · exact (snapFreeze_quiet hf _ 0).trans htake

theorem snapTrigger_quiet (trig code : Nat) (critical : Bool) :
    (snapTrigger s trig code critical).2.get f = s.get f := by
  unfold snapTrigger
  split
  · exact addSat_quiet hf s (by decide) 1
  · split
    · exact snapStart_quiet hf s _ _
    · exact addSat_quiet hf s (by decide) 1
  · exact (injectionTriggered_quiet hf _).trans (snapStart_quiet hf s _ _)

end

/-! ### Events -/

/-- An event on one of Foxglove's lines, whatever it sets off, leaves every such field. -/
theorem foxEvent_quiet {f : Field} (hf : Quiet f) (n : Nat) (s : State) {e : Ev} (hline : e.line < 64) (extra : Nat)
    (inj : Bool) : (foxEvent n s e extra inj).get f = s.get f := by
  induction n generalizing s e extra inj with
  | zero => rfl
  | succ n ih =>
    have htrigger : ∀ (s : State) (critical : Bool),
        (if (snapTrigger s 0 e.line critical).1 then
          (foxEvent n (snapTrigger s 0 e.line critical).2 snapMissedEv 0 false).setBit snapMissedEv.evt
            snapMissedEv.bit
        else (snapTrigger s 0 e.line critical).2).get f = s.get f := fun s critical => by
      split
      · rw [setBit_quiet hf _ (by decide), ih _ (by decide), snapTrigger_quiet hf]
      · exact snapTrigger_quiet hf s _ _ _
    have hmark := markStatus_quiet hf s hline e.cls
    have hfox : ∀ (t : State) (x : Fox), ({ t with fox := x } : State).get f = t.get f := fun _ _ => rfl
    unfold foxEvent
    dsimp only
    split
    · exact noticeCount_quiet hf s e inj
    split
    · split <;> simp only [htrigger, actStopAlive_quiet hf, actSeqAbort_quiet hf, actPerLine_quiet hf _ _ hline,
        histUpdate_quiet, hmark]
    split
    · split <;> split <;> simp only [htrigger, foxEvt_quiet hf, actStopAlive_quiet hf, actSeqAbort_quiet hf,
        actPerLine_quiet hf _ _ hline, histUpdate_quiet, hmark]
    · split <;> simp only [htrigger, actStopAlive_quiet hf, actSeqAbort_quiet hf, actPerLine_quiet hf _ _ hline,
        hfox, histWrite_quiet hf, hmark]

theorem raiseBare_quiet {f : Field} (hf : Quiet f) (s : State) {e : Ev} (hline : e.line < 64) :
    (raiseBare s e).get f = s.get f := foxEvent_quiet hf 4 s hline 0 false

/-- An event leaves every such field but its own bit's. -/
theorem raise_quiet {f : Field} (hf : Quiet f) (s : State) {e : Ev} (hline : e.line < 64) (he : f.key ≠ e.evt.key) :
    (raise s e).get f = s.get f :=
  (State.get_set_ne _ _ he).trans (foxEvent_quiet hf 4 s hline 0 false)

end Sys2Proof.Machine
end

section
/-! The conserved quantities of R39 (Table 1.7): slots, phases, the ledger's bound, MSTEP and Foxglove's records. -/

namespace Sys2Proof.Machine

/-! ### Slots -/

/-- The slots of a list, counted by their four states. -/
theorem length_filter_slotStates (s : State) (l : List Nat) :
    (l.filter fun k => (s.slot k).st = .free).length + (l.filter fun k => (s.slot k).st = .queued).length +
      (l.filter fun k => (s.slot k).st = .inflight).length + (l.filter fun k => (s.slot k).st = .unread).length =
      l.length := by
  induction l with
  | nil => rfl
  | cons k l ih => cases hst : (s.slot k).st <;> simp [hst] <;> omega

/-- The step keeps the books of the command slots. -/
theorem step_hci_booked {s t : State} (h : step s = .next t) (hb : s.hci.booked) : t.hci.booked := by
  have hk := step_keeps s
  rw [h] at hk
  obtain ⟨-, -, -, -, -, -, -, hbooked, -⟩ := hk
  exact hbooked hb

/-! ### Phases -/

/-- The fields of a phase are those of no other phase, and STATE is none of the others (Table 3.4). -/
theorem phaseState_ne {j k : Nat} (hj : j < 20) (hk : k < 20) :
    (j ≠ k → (PH_STATUS.STATE j).key ≠ (PH_STATUS.STATE k).key) ∧
      (PH_STATUS.STATE j).key ≠ (PH_STATUS.OWNER k).key ∧ (PH_STATUS.STATE j).key ≠ (PH_STATUS.CAUSE k).key ∧
      (PH_STATUS.STATE j).key ≠ (PH_STATUS.CAUSES k).key ∧ (PH_STATUS.STATE j).key ≠ (PH_STATUS.FAILCNT k).key := by
  simp only [Field.key, PH_STATUS.STATE, PH_STATUS.OWNER, PH_STATUS.CAUSE, PH_STATUS.CAUSES, PH_STATUS.FAILCNT]
  omega

/-- A phase that is FREE or RESERVING becomes ACTIVE for loop `n` (R101). -/
def assignPhase (n : Nat) (s : State) (k : Nat) : State :=
  ((((((s.set (PH_STATUS.STATE k) 2).set (PH_STATUS.OWNER k) n).set (PH_STATUS.CAUSE k) 0).set (PH_STATUS.CAUSES k)
    0).set (PH_STATUS.FAILCNT k) 0)).setPhase k { sen := true }

theorem assignPhases_eq (s : State) (n : Nat) : assignPhases s n =
    State.each ((maskPhases s n).filter fun k => s.get (PH_STATUS.STATE k) ≤ 1) (assignPhase n) s := rfl

theorem assignPhase_state (n : Nat) (s : State) {j k : Nat} (hj : j < 20) (hk : k < 20) :
    (assignPhase n s k).get (PH_STATUS.STATE j) = if j = k then 2 else s.get (PH_STATUS.STATE j) := by
  obtain ⟨hstate, howner, hcause, hcauses, hfailcnt⟩ := phaseState_ne hj hk
  rw [assignPhase, State.setPhase_get, State.get_set_ne _ _ hfailcnt, State.get_set_ne _ _ hcauses,
    State.get_set_ne _ _ hcause, State.get_set_ne _ _ howner]
  split
  case isTrue h =>
    subst h
    exact State.get_set_same _ _ _
  case isFalse h => exact State.get_set_ne _ _ (hstate h)

theorem each_assignPhase_state (n : Nat) (l : List Nat) (s : State) {k : Nat} (hk : k < 20) (hl : ∀ j ∈ l, j < 20) :
    (State.each l (assignPhase n) s).get (PH_STATUS.STATE k) = if k ∈ l then 2 else s.get (PH_STATUS.STATE k) := by
  unfold State.each
  induction l generalizing s with
  | nil => simp
  | cons j l ih =>
    have hj := hl j (List.mem_cons_self ..)
    rw [List.foldl_cons, ih _ fun i hi => hl i (List.mem_cons_of_mem _ hi), assignPhase_state n s hk hj]
    simp only [List.mem_cons]
    grind

/-- An accepted enable check makes the FREE and RESERVING phases of the loop's mask ACTIVE (R101). -/
theorem assignPhases_state (s : State) (n : Nat) {k : Nat} (hk : k < 20) :
    (assignPhases s n).get (PH_STATUS.STATE k) =
      if k ∈ maskPhases s n ∧ s.get (PH_STATUS.STATE k) ≤ 1 then 2 else s.get (PH_STATUS.STATE k) := by
  rw [assignPhases_eq, each_assignPhase_state n _ s hk fun j hj => ?_]
  · simp [List.mem_filter]
  · simp only [maskPhases, List.mem_filter, List.mem_range] at hj
    exact hj.1.1

/-- A phase that returns is FREE, and no other phase changes its state. -/
theorem freePhase_state (s : State) {j k : Nat} (hj : j < 20) (hk : k < 20) :
    (freePhase s k).get (PH_STATUS.STATE j) = if j = k then 0 else s.get (PH_STATUS.STATE j) := by
  obtain ⟨hstate, howner, -⟩ := phaseState_ne hj hk
  rw [freePhase, State.setPhase_get, State.get_set_ne _ _ howner]
  split
  case isTrue h =>
    subst h
    exact State.get_set_same _ _ _
  case isFalse h => exact State.get_set_ne _ _ (hstate h)

/-- The phases of a list, counted by the codes of Table 3.4. -/
theorem length_filter_phaseStates (f : Nat → Nat) (l : List Nat) :
    (l.filter fun k => f k = 0).length + (l.filter fun k => f k = 1).length + (l.filter fun k => f k = 2).length +
      (l.filter fun k => f k = 3).length + (l.filter fun k => f k = 4).length + (l.filter fun k => 4 < f k).length =
      l.length := by
  induction l with
  | nil => rfl
  | cons k l ih =>
    simp only [List.filter_cons, decide_eq_true_eq, List.length_cons]
    rcases Nat.lt_or_ge 4 (f k) with h | h
    · simp [h, show f k ≠ 0 by omega, show f k ≠ 1 by omega, show f k ≠ 2 by omega, show f k ≠ 3 by omega,
        show f k ≠ 4 by omega]
      omega
    · have hle : f k = 0 ∨ f k = 1 ∨ f k = 2 ∨ f k = 3 ∨ f k = 4 := by omega
      obtain hk | hk | hk | hk | hk := hle <;> simp [hk] <;> omega

/-! ### The ledger -/

/-- `t` has the granted claims, the budget and the power-down flag of `s`. -/
structure SameGrants (s t : State) : Prop where
  claims : ∀ c, (t.claim c).isGranted = (s.claim c).isGranted ∧ (t.claim c).cls = (s.claim c).cls ∧
    (t.claim c).amount = (s.claim c).amount
  budget : t.get NRG_BUDGET.VAL = s.get NRG_BUDGET.VAL
  pdown : t.get NRG_STATUS.PDOWN = s.get NRG_STATUS.PDOWN

theorem SameGrants.trans {s t u : State} (h : SameGrants s t) (k : SameGrants t u) : SameGrants s u where
  claims c := by
    obtain ⟨h1, h2, h3⟩ := h.claims c
    obtain ⟨k1, k2, k3⟩ := k.claims c
    exact ⟨k1.trans h1, k2.trans h2, k3.trans h3⟩
  budget := k.budget.trans h.budget
  pdown := k.pdown.trans h.pdown

/-- A change that leaves the claims and the two fields. -/
theorem sameGrants_of_claims {s t : State} (h : t.claims = s.claims)
    (hb : t.get NRG_BUDGET.VAL = s.get NRG_BUDGET.VAL) (hp : t.get NRG_STATUS.PDOWN = s.get NRG_STATUS.PDOWN) :
    SameGrants s t where
  claims c := by rw [State.claim_of_claims h]; exact ⟨rfl, rfl, rfl⟩
  budget := hb
  pdown := hp

theorem SameGrants.refl (s : State) : SameGrants s s := sameGrants_of_claims rfl rfl rfl

theorem sameGrants_set (s : State) {f : Field} (v : Nat) (hb : NRG_BUDGET.VAL.key ≠ f.key)
    (hp : NRG_STATUS.PDOWN.key ≠ f.key) : SameGrants s (s.set f v) :=
  sameGrants_of_claims rfl (State.get_set_ne s v hb) (State.get_set_ne s v hp)

theorem sameGrants_raise (s : State) (k : Nat) (cls : Cls) : SameGrants s (raise s (nrgEv k cls)) :=
  sameGrants_of_claims (State.claims_of_apart (raise_apart s _))
    (raise_quiet (by decide) s (show 29 < 64 by decide) (show NRG_BUDGET.VAL.key ≠ NRG_EVT.EVT.key by decide))
    (raise_quiet (by decide) s (show 29 < 64 by decide) (show NRG_STATUS.PDOWN.key ≠ NRG_EVT.EVT.key by decide))

theorem SameGrants.granted_eq {s t : State} (h : SameGrants s t) : granted t = granted s := by
  have hmem : (claimIds.filter fun c => (t.claim c).isGranted) = claimIds.filter fun c => (s.claim c).isGranted :=
    List.filter_congr fun c _ => (h.claims c).1
  have hamount : (fun c => (t.claim c).amount) = fun c => (s.claim c).amount := funext fun c => (h.claims c).2.2
  unfold granted sumAmounts
  rw [hmem, hamount]

theorem SameGrants.fits {s t : State} (h : SameGrants s t) (hs : granted s ≤ s.get NRG_BUDGET.VAL) :
    granted t ≤ t.get NRG_BUDGET.VAL := by rwa [h.granted_eq, h.budget]

theorem SameGrants.onlyClassZero {s t : State} (h : SameGrants s t) (hs : nextToRevoke s = none) :
    ∀ c ∈ claimIds, (t.claim c).isGranted = true → (t.claim c).cls = 0 := by
  intro c hc hg
  obtain ⟨hgranted, hcls, -⟩ := h.claims c
  rw [hcls]
  exact (nextToRevoke_eq_none_iff s).mp hs c hc (hgranted ▸ hg)

theorem sameGrants_each {α : Type} (xs : List α) {g : State → α → State} (h : ∀ s a, SameGrants s (g s a)) (s : State) :
    SameGrants s (State.each xs g s) := by
  unfold State.each
  induction xs generalizing s with
  | nil => exact SameGrants.refl s
  | cons a l ih => exact (h s a).trans (ih _)

/-- Whether a claim fits is written in its entry alone (R261). -/
theorem sameGrants_fitOne (acc : State × Nat) (c : Nat) : SameGrants acc.1 (fitOne acc c).1 := by
  have hfit : ∀ b, SameGrants acc.1 (acc.1.setClaim c { acc.1.claim c with fit := b }) := fun b =>
    { claims := fun d => by
        rw [State.claim_setClaim]
        split
        case isTrue hd =>
          subst hd
          exact ⟨rfl, rfl, rfl⟩
        case isFalse => exact ⟨rfl, rfl, rfl⟩
      budget := rfl
      pdown := rfl }
  unfold fitOne
  dsimp only
  split <;> exact hfit _

theorem sameGrants_formFit (s : State) : SameGrants s (formFit s) := by
  have hfold : ∀ (l : List Nat) (acc : State × Nat), SameGrants acc.1 (l.foldl fitOne acc).1 := by
    intro l
    induction l with
    | nil => exact fun acc => SameGrants.refl _
    | cons c l ih => exact fun acc => (sameGrants_fitOne acc c).trans (ih _)
  exact hfold _ (s, 0)

theorem sameGrants_limited (s : State) (c v : Nat) (_hc : c < 64) :
    SameGrants s (s.set (NRG_LIMITED.MASK (c / 32)) v) := by
  refine sameGrants_set s v ?_ ?_ <;>
    simp only [Field.key, NRG_BUDGET.VAL, NRG_STATUS.PDOWN, NRG_LIMITED.MASK] <;> omega

theorem sameGrants_evalCapacity (s : State) (c : Nat) : SameGrants s (evalCapacity s c) := by
  unfold evalCapacity clearLimited
  split
  · refine SameGrants.trans ?_ (sameGrants_raise _ 2 .warning)
    split
    next hc => exact sameGrants_limited s c _ hc
    next => exact SameGrants.refl s
  · split
    next hc => exact sameGrants_limited s c _ hc
    next => exact SameGrants.refl s

theorem sameGrants_evalDirty (s : State) : SameGrants s (evalDirty s) := by
  unfold evalDirty
  refine SameGrants.trans ?_ (sameGrants_each _ sameGrants_evalCapacity _)
  exact sameGrants_of_claims rfl rfl rfl

theorem sameGrants_formOver (s : State) : SameGrants s (formOver s) := by
  unfold formOver
  split
  · split
    · exact SameGrants.refl s
    · exact ((sameGrants_set s 1 (by decide) (by decide)).trans (sameGrants_set _ _ (by decide) (by decide))).trans
        (sameGrants_raise _ 1 .fault)
  · exact sameGrants_set s 0 (by decide) (by decide)

theorem sameGrants_formOverdraw (s : State) : SameGrants s (formOverdraw s) := by
  have hcount : ∀ n, SameGrants s { s with ledger := { s.ledger with overCount := n } } := fun n =>
    sameGrants_of_claims rfl rfl rfl
  unfold formOverdraw
  dsimp only
  split
  · split
    · exact ((hcount _).trans (sameGrants_set _ 1 (by decide) (by decide))).trans (sameGrants_raise _ 3 .warning)
    · exact hcount _
  · exact (hcount 0).trans (sameGrants_set _ 0 (by decide) (by decide))

/-- What an update does after its revocations leaves what is granted and the budget. -/
theorem sameGrants_afterShed (s : State) : SameGrants s (formHoldup (formOverdraw (evalDirty (formFit (formOver s))))) :=
  ((((sameGrants_formOver s).trans (sameGrants_formFit _)).trans (sameGrants_evalDirty _)).trans
    (sameGrants_formOverdraw _)).trans (sameGrants_set _ _ (by decide) (by decide))

/-! The power-down flag outlasts the revocations of an update. -/

theorem clearLimited_pdown (s : State) (c : Nat) :
    (clearLimited s c).get NRG_STATUS.PDOWN = s.get NRG_STATUS.PDOWN := by
  unfold clearLimited
  split
  next hc => exact (sameGrants_limited s c _ hc).pdown
  next => rfl

theorem freeClaim_pdown (s : State) (c : Nat) : (freeClaim s c).get NRG_STATUS.PDOWN = s.get NRG_STATUS.PDOWN :=
  (clearLimited_pdown _ c).trans rfl

theorem revokeTask_pdown (s : State) (e t : Nat) :
    (revokeTask s e t).get NRG_STATUS.PDOWN = s.get NRG_STATUS.PDOWN := by
  unfold revokeTask
  dsimp only
  split
  · split <;> rfl
  · split
    · exact freeClaim_pdown s _
    · rfl
  · rfl
  · rfl

theorem revoke_pdown (s : State) (c : Nat) : (revoke s c).get NRG_STATUS.PDOWN = s.get NRG_STATUS.PDOWN := by
  have hoff : ((railsOff s (claimRails (s.claim c))).addWrap NRG_CNT0.REVOKES 1).get NRG_STATUS.PDOWN =
      s.get NRG_STATUS.PDOWN := (State.get_set_ne _ _ (by decide)).trans (railsOff_quiet (by decide) s _)
  cases h : (s.claim c).rom
  case true => rw [revoke_of_rom h, freeClaim_pdown, hoff]
  case false => rw [revoke_of_task h, revokeTask_pdown, State.setClaim_get, hoff]

theorem revokeLoop_pdown (n : Nat) (s : State) :
    (revokeLoop n s).get NRG_STATUS.PDOWN = s.get NRG_STATUS.PDOWN := by
  induction n generalizing s with
  | zero => rfl
  | succ n ih =>
    unfold revokeLoop
    split
    · split
      · rw [ih, revoke_pdown]
      · rfl
    · rfl

theorem shed_pdown (s : State) : (shed s).get NRG_STATUS.PDOWN = s.get NRG_STATUS.PDOWN := by
  unfold shed
  split
  · rfl
  · dsimp only
    split
    · exact revokeLoop_pdown _ s
    · exact (notice_quiet (by decide) _ (by decide)).trans (revokeLoop_pdown _ s)

/-- After the revocations and what follows them in an update, the sum fits the budget or only class 0 is granted. -/
theorem update_ends (s : State) (h : (formHoldup (formOverdraw (evalDirty (formFit (formOver (shed s)))))).get
      NRG_STATUS.PDOWN ≠ 1) :
    let t := formHoldup (formOverdraw (evalDirty (formFit (formOver (shed s)))))
    granted t ≤ t.get NRG_BUDGET.VAL ∨ ∀ c ∈ claimIds, (t.claim c).isGranted = true → (t.claim c).cls = 0 := by
  have hsame := sameGrants_afterShed (shed s)
  rw [hsame.pdown, shed_pdown] at h
  exact (shed_ends h).imp hsame.fits hsame.onlyClassZero

/-! ### The ring -/

theorem opMark_ring (s : State) (c d : Nat) : (opMark s c d).ring = s.ring :=
  (congrArg State.ring (opShow_rest _) :)

/-- A new ring state changes STATE, and marks the operation. -/
theorem enterRingState_hold (s : State) (n : Nat) :
    (enterRingState s n).get MNG_STATUS.HOLD = s.get MNG_STATUS.HOLD := by
  unfold enterRingState
  dsimp only
  rw [opMark_get _ _ _ _ (by decide)]
  exact State.get_set_ne s n (by decide)

/-- An edge of MSTEP leaves the hold (R283). -/
theorem mstepAdvance_hold (s : State) : ∃ t, exec .mstepAdvance s = .next t ∧
    t.get MNG_STATUS.HOLD = s.get MNG_STATUS.HOLD := by
  have hline : (seeLine s true).get MNG_STATUS.HOLD = s.get MNG_STATUS.HOLD := State.get_set_ne s _ (by decide)
  have hadv : (notice ((seeLine s true).addWrap MNG_CNT.ADV 1) (mngEv 0 .notice)).get MNG_STATUS.HOLD =
      s.get MNG_STATUS.HOLD :=
    ((notice_quiet (by decide) _ (by decide)).trans (State.get_set_ne _ _ (by decide))).trans hline
  have hwake : ∀ (u : State) (x : Ring) (n : Nat), (wakeStep (u.setRing x) n).get MNG_STATUS.HOLD =
      u.get MNG_STATUS.HOLD := fun u x n => State.get_of_regs (wakeTasks_regs (u.setRing x) _) _
  refine ⟨_, rfl, ?_⟩
  dsimp only
  split
  · rfl
  split
  · exact hline
  split
  · exact hadv
  · rw [hwake, enterRingState_hold, hadv]

/-- A node that holds the line counts no edge. -/
theorem mstepAdvance_holding {s : State} (h : s.get MNG_STATUS.HOLD = 1) :
    exec .mstepAdvance s = .next s ∨ exec .mstepAdvance s = .next (seeLine s true) := by
  have hon : s.on MNG_STATUS.HOLD = true := decide_eq_true h
  cases hv : vsysRuns s <;> simp [exec, execMstepAdvance, hv, hon]

/-- A hold that is taken leaves none to take. -/
theorem holdRetake_none (s : State) (h : s.ring.retakeAt = none ∨ s.get MNG_STATUS.HOLD ≠ 1) :
    ∃ t, exec .holdRetake s = .next t ∧ (t.ring.retakeAt = none ∨ t.get MNG_STATUS.HOLD ≠ 1) := by
  rw [exec, execHoldRetake]
  split
  next hnone => exact ⟨s, rfl, .inl hnone⟩
  next at' hsome =>
    refine ⟨_, rfl, ?_⟩
    split
    · exact .inl rfl
    · exact h

/-! ### Records -/

/-- A record for log memory is held or counts as overwritten (log entry 81). -/
theorem logWrite_books (s : State) (ws : Nat → List Nat) :
    (logWrite s ws).fox.logHeld + (logWrite s ws).fox.logOver = s.fox.logHeld + s.fox.logOver + 1 ∧
      (logWrite s ws).get FLT_LWR.COUNT = (s.get FLT_LWR.COUNT + 1) % 2 ^ 32 := by
  have hfox : (logWrite s ws).fox = (logCount s).fox := (congrArg State.fox (logPut_rest _ _ _) :)
  have hget : (logWrite s ws).get FLT_LWR.COUNT = (logCount s).get FLT_LWR.COUNT := logPut_get _ _ _ _
  have hcount : (s.addWrap FLT_LWR.COUNT 1).get FLT_LWR.COUNT = (s.get FLT_LWR.COUNT + 1) % 2 ^ 32 :=
    State.get_set_same s _ _
  rw [hfox, hget]
  unfold logCount
  dsimp only
  split
  · exact ⟨by dsimp only [State.addWrap, State.set_fox]; omega, hcount⟩
  split
  · split
    · exact ⟨by dsimp only [foxEvt, State.setBit, State.addWrap, State.set_fox]; omega,
        (State.get_set_ne _ _ (by decide)).trans hcount⟩
    · exact ⟨by dsimp only [State.addWrap, State.set_fox]; omega, hcount⟩
  · exact ⟨by dsimp only [State.addWrap, State.set_fox]; omega, hcount⟩

/-- A record written to log memory leaves the history queue. -/
theorem logWrite_hist (s : State) (ws : Nat → List Nat) :
    (logWrite s ws).fox.histOver = s.fox.histOver ∧ (logWrite s ws).fox.hist = s.fox.hist := by
  have hfox : (logWrite s ws).fox = (logCount s).fox := (congrArg State.fox (logPut_rest _ _ _) :)
  rw [hfox]
  unfold logCount
  dsimp only
  split
  · exact ⟨rfl, rfl⟩
  split
  · split <;> exact ⟨rfl, rfl⟩
  · exact ⟨rfl, rfl⟩

/-- A record written to the history queue is held there or pushes one out, and is written to log memory (R387). -/
theorem histWrite_books (s : State) (body : RecBody) (h : s.fox.bounded = true) :
    (histWrite s body).fox.hist.length + (histWrite s body).fox.histOver = s.fox.hist.length + s.fox.histOver + 1 ∧
      (histWrite s body).get FLT_HWR.COUNT = (s.get FLT_HWR.COUNT + 1) % 2 ^ 32 ∧
      (histWrite s body).get FLT_LWR.COUNT = (s.get FLT_LWR.COUNT + 1) % 2 ^ 32 ∧
      (histWrite s body).fox.logHeld + (histWrite s body).fox.logOver = s.fox.logHeld + s.fox.logOver + 1 := by
  obtain ⟨hlog, hlwr⟩ := logWrite_books s fun _ => recWords { seq := s.get FLT_LWR.COUNT, body }
  obtain ⟨hover, hhist⟩ := logWrite_hist s fun _ => recWords { seq := s.get FLT_LWR.COUNT, body }
  have hhwr : (logWrite s fun _ => recWords { seq := s.get FLT_LWR.COUNT, body }).get FLT_HWR.COUNT =
      s.get FLT_HWR.COUNT := (logPut_get _ _ _ _).trans (logCount_get s _ (by decide) (by decide))
  have hlen : s.fox.hist.length ≤ 32 := by
    simp only [Fox.bounded, Bool.and_eq_true, decide_eq_true_eq] at h
    exact h.1
  have hget : ∀ (u : State) (x : Fox) (f : Field), ({ u with fox := x } : State).get f = u.get f := fun _ _ _ => rfl
  unfold histWrite
  dsimp only
  generalize logWrite s (fun _ => recWords { seq := s.get FLT_LWR.COUNT, body }) = u at *
  rw [← hhist] at hlen ⊢
  rw [← hlwr, ← hlog, ← hover, ← hhwr]
  have hcount : (u.addWrap FLT_HWR.COUNT 1).get FLT_HWR.COUNT = (u.get FLT_HWR.COUNT + 1) % 2 ^ 32 :=
    State.get_set_same u _ _
  have hkeep : (u.addWrap FLT_HWR.COUNT 1).get FLT_LWR.COUNT = u.get FLT_LWR.COUNT :=
    State.get_set_ne u _ (by decide)
  have hevt : ∀ (v : State) (f : Field), f.key ≠ FLT_EVT.EVT.key → (foxEvt v 1).get f = v.get f := fun v f hf =>
    State.get_set_ne v _ hf
  have hfox : ∀ v : State, (foxEvt v 1).fox = v.fox := fun _ => rfl
  have hadd : (u.addWrap FLT_HWR.COUNT 1).fox = u.fox := rfl
  split
  next hfull =>
    split
    · simp only [hget, hevt _ FLT_HWR.COUNT (by decide), hevt _ FLT_LWR.COUNT (by decide), hcount, hkeep, hfox, hadd,
        List.length_take, List.length_cons, and_true]
      omega
    · simp only [hget, hcount, hkeep, hadd, List.length_take, List.length_cons, and_true]
      omega
  next hroom =>
    simp only [hget, hcount, hkeep, hadd, List.length_take, List.length_cons, and_true]
    omega

/-- The owner's completion of an ACTIVE_PENDING source leaves the request that pends (Table 14.2). -/
theorem intcComplete_pending {s : State} {k : Fin 8} {src : BitVec 9} (hsrc : 1 ≤ src.toNat ∧ src.toNat ≤ 256)
    (h3 : s.get (INTC_SRC.STATE src.toNat) = 3) (hv : vsysRuns s = true) (hk : k.val ∈ claimTargets)
    (hown : activeWith s k.val src.toNat = true) : ∃ t, exec (.intcComplete k src) s = .next t ∧
      t.get (INTC_SRC.STATE src.toNat) = 1 ∧ t.get (INTC_SRC.LATCHED src.toNat) = 1 := by
  have h3' : (s.set (INTC_T_COMPLETE.ID k) src.toNat).get (INTC_SRC.STATE src.toNat) = 3 :=
    (setCompleteId_get_src k _ _ s).1.trans h3
  refine ⟨_, exec_intcComplete_own hk hv ⟨hsrc.1, hsrc.2, hown⟩, ?_, ?_⟩
  · rw [completeBy_get, completed_state, if_pos (.inl h3')]
  · rw [completeBy_get, completed, if_pos h3']
    exact State.get_set_same _ _ 1

/-- Settles O6: the books of each quantity of Table 1.7, with its own moves. -/
theorem conservedQuantities : Obligations.ConservedQuantities := by
  refine ⟨fun s t h hb => step_hci_booked h hb, Hci.booked_clear false [],
    fun s => (length_filter_slotStates s (List.range 256)).trans List.length_range,
    fun s => (length_filter_phaseStates (fun k => s.get (PH_STATUS.STATE k)) (List.range 20)).trans List.length_range,
    fun s n k hk => ⟨assignPhases_state s n hk, ?_, fun j hj hne => ?_⟩, fun s ht => ⟨_, ledgerUpdates.1 s ht, ?_⟩,
    fun s src hsrc h3 => ⟨⟨_, rfl, ?_⟩, fun k => ⟨_, rfl, ?_⟩, fun k hv hk hown => ?_⟩,
    fun s h => ⟨?_, holdRetake_none s h⟩, histWrite_books, logWrite_books⟩
  · rw [freePhase_state s hk hk, if_pos rfl]
  · rw [freePhase_state s hj hk, if_neg hne]
  · exact update_ends _
  · split
    · rw [takeRequest_state, requestState_pending s _ _ h3, h3]
    · exact h3
  · split
    · rw [claimBy_state s k hsrc.1 (by omega), h3]
    · exact h3
  · exact intcComplete_pending hsrc h3 hv hk hown
  · obtain ⟨t, hexec, hhold⟩ := mstepAdvance_hold s
    by_cases h1 : s.get MNG_STATUS.HOLD = 1
    case pos =>
      have hnone := h.resolve_right (fun hn => hn h1)
      obtain hstay | hline := mstepAdvance_holding h1
      · exact ⟨s, hstay, .inl hnone, fun _ => ⟨rfl, rfl⟩⟩
      · exact ⟨_, hline, .inl hnone, fun _ => ⟨State.get_set_ne s _ (by decide), State.get_set_ne s _ (by decide)⟩⟩
    case neg => exact ⟨t, hexec, .inr (hhold ▸ h1), fun h => absurd h h1⟩

end Sys2Proof.Machine
end

section
/-! The words of the Camast instructions (R206, R207, Table 7.3): a word is legal where its operands are all that it holds,
and decoding and encoding are inverse to each other on the legal words. -/

namespace Sys2Proof.Machine

/-- The value of the fields `fs` of `f`, each given by its lowest bit and its width, at their places. -/
def fieldSum (f : Nat) : List (Nat × Nat) → Nat
  | [] => 0
  | (lo, n) :: fs => f / 2 ^ lo % 2 ^ n * 2 ^ lo + fieldSum f fs

/-- The mask of the fields `fs`. -/
def fieldMask : List (Nat × Nat) → Nat
  | [] => 0
  | (lo, n) :: fs => (2 ^ n - 1) * 2 ^ lo + fieldMask fs

/-- The fields stand apart, the highest first. -/
def fieldsApart : List (Nat × Nat) → Prop
  | [] => True
  | (lo, _) :: fs => fieldMask fs < 2 ^ lo ∧ fieldsApart fs

theorem and_ones_shifted (f lo n : Nat) : f &&& (2 ^ n - 1) * 2 ^ lo = f / 2 ^ lo % 2 ^ n * 2 ^ lo := by
  rw [← Nat.and_two_pow_sub_one_eq_mod, ← Nat.shiftLeft_eq, ← Nat.shiftLeft_eq, ← Nat.shiftRight_eq_div_pow]
  refine Nat.eq_of_testBit_eq fun i => ?_
  simp only [Nat.testBit_and, Nat.testBit_shiftLeft, Nat.testBit_shiftRight]
  by_cases h : lo ≤ i
  · simp [h, Nat.add_sub_of_le h]
  · simp [h]

/-- The bits of a mask in `f` are the values of its fields. -/
theorem and_fieldMask (f : Nat) {fs : List (Nat × Nat)} (h : fieldsApart fs) : f &&& fieldMask fs = fieldSum f fs := by
  induction fs with
  | nil => exact Nat.and_zero f
  | cons p fs ih =>
    obtain ⟨lo, n⟩ := p
    obtain ⟨hlow, hfs⟩ := h
    have hadd : ∀ a b, b < 2 ^ lo → a * 2 ^ lo + b = a * 2 ^ lo ||| b := fun a b hb => by
      rw [← Nat.shiftLeft_eq]
      exact Nat.shiftLeft_add_eq_or_of_lt hb a
    have hsum : fieldSum f fs < 2 ^ lo := ih hfs ▸ Nat.lt_of_le_of_lt Nat.and_le_right hlow
    rw [fieldMask, fieldSum, hadd _ _ hlow, Nat.and_or_distrib_left, and_ones_shifted, ih hfs, hadd _ _ hsum]


/-- The fields that Table 7.3 gives the opcode `op`, with an immediate (`imm`) or Wt as the second operand; none for a
reserved opcode. -/
def wordFields (op : Nat) (imm : Bool) : Option (List (Nat × Nat)) :=
  match op, imm with
  | 0x01, _ => some [(18, 8), (0, 4)]
  | 0x02, _ => some [(18, 8)]
  | 0x03, true => some [(17, 9), (5, 12), (0, 4)]
  | 0x03, false => some [(18, 8), (13, 4), (0, 4)]
  | 0x04, _ => some [(18, 8), (8, 9), (0, 4)]
  | 0x05, _ => some [(18, 8), (13, 4), (0, 4)]
  | 0x08, _ => some [(20, 6), (0, 16)]
  | 0x09, _ => some [(16, 8), (0, 16)]
  | 0x0A, _ => some [(17, 9), (16, 1), (0, 16)]
  | 0x0C, _ => some [(20, 6), (0, 16)]
  | 0x0D, _ => some [(20, 6)]
  | 0x0E, _ => some [(20, 6), (16, 4)]
  | 0x10, _ => some [(18, 8), (17, 1)]
  | 0x11, _ => some [(18, 8), (0, 16)]
  | 0x14, _ => some [(22, 4), (15, 7), (14, 1)]
  | 0x15, _ => some [(22, 4), (16, 6)]
  | 0x18, _ => some [(22, 4), (18, 4)]
  | 0x19, _ => some [(0, 26)]
  | 0x1A, _ => some [(22, 4), (0, 13)]
  | 0x1B, true | 0x1C, true | 0x1D, true | 0x1E, true => some [(0, 26)]
  | 0x1B, false | 0x1C, false | 0x1D, false | 0x1E, false => some [(13, 13)]
  | 0x1F, true => some [(0, 22)]
  | 0x1F, false => some [(13, 9)]
  | 0x20, true => some [(17, 9), (0, 5)]
  | 0x20, false => some [(13, 13)]
  | 0x24, _ => some [(0, 13)]
  | 0x25, _ => some [(22, 4), (0, 13)]
  | 0x26, _ => some [(0, 13)]
  | 0x27, _ | 0x29, _ => some []
  | 0x28, _ => some [(16, 10), (0, 13)]
  | 0x2C, _ | 0x2E, _ => some [(0, 8)]
  | 0x2D, _ => some [(18, 4), (0, 8)]
  | _, _ => none

/-- The table's fields are the model's mask. -/
theorem assignedBits_eq (w : Nat) :
    assignedBits w = (wordFields (w / 2 ^ 26) (decide (bitOf w 17 = 1))).map fieldMask := by
  unfold assignedBits
  dsimp only
  have hbit : bitOf w 17 = 0 ∨ bitOf w 17 = 1 := Nat.mod_two_eq_zero_or_one _
  generalize w / 2 ^ 26 = op
  obtain h | h := hbit
  all_goals
    rw [h]
    split
    rotate_right
    · unfold wordFields
      split
      rotate_right
      · rfl
      all_goals contradiction
    all_goals rfl

theorem wordFields_apart {op : Nat} {imm : Bool} {fs : List (Nat × Nat)} (h : wordFields op imm = some fs) :
    fieldsApart fs ∧ fieldMask fs < 2 ^ 26 := by
  unfold wordFields at h
  split at h <;> cases h
  all_goals simp [fieldsApart, fieldMask]

/-- `w` is a legal word of Table 7.3: its opcode is not reserved, and its operands are all that it holds. -/
def LegalWord (w : Nat) : Prop := ∃ fs, wordFields (w / 2 ^ 26) (decide (bitOf w 17 = 1)) = some fs ∧
  w % 2 ^ 26 = fieldSum w fs

theorem and_fieldMask_low (w : Nat) {fs : List (Nat × Nat)} (h : fieldsApart fs ∧ fieldMask fs < 2 ^ 26) :
    w % 2 ^ 26 &&& fieldMask fs = fieldSum w fs := by
  obtain ⟨hapart, hlow⟩ := h
  have hand : w &&& fieldMask fs < 2 ^ 26 := Nat.lt_of_le_of_lt Nat.and_le_right hlow
  rw [← and_fieldMask w hapart, ← Nat.mod_eq_of_lt hand, Nat.and_mod_two_pow, Nat.mod_eq_of_lt hlow]

theorem legalWord_iff (w : Nat) : (assignedBits w).any (fun m => decide (w % 2 ^ 26 &&& m = w % 2 ^ 26)) = true ↔
    LegalWord w := by
  rw [assignedBits_eq, LegalWord]
  cases h : wordFields (w / 2 ^ 26) (decide (bitOf w 17 = 1)) with
  | none => simp
  | some fs =>
    simp only [Option.map_some, Option.any_some, decide_eq_true_eq, and_fieldMask_low w (wordFields_apart h),
      Option.some.injEq, exists_eq_left']
    exact eq_comm

theorem camastCommand_not_legal {i : Issue} {w : Nat} {read : Fetch} (h : ¬ LegalWord w) :
    camastCommand i w read = none := by
  unfold camastCommand
  dsimp only
  rw [if_pos (fun hw => h ((legalWord_iff w).mp hw))]

theorem railOf_eq_some {c : Nat} {r : Rail} (h : railOf c = some r) : railCode r = c := by
  unfold railOf at h
  split at h
  · cases h; rfl
  split at h
  · cases h; simp only [railCode]; omega
  split at h
  · cases h; simp only [railCode]; omega
  split at h
  · cases h; simp only [railCode]; omega
  · cases h

theorem railOf_railCode (r : Rail) : railOf (railCode r) = some r := by
  cases r with
  | lp n => revert n; decide
  | bk n => revert n; decide
  | ldo n => revert n; decide
  | sw n => revert n; decide

theorem condOf_eq_some {c : Nat} {k : Cond} (h : condOf c = some k) : condCode k = c := by
  have hc : c < 11 := by
    refine Nat.lt_of_not_le fun hc => ?_
    simp [condOf, List.getElem?_eq_none (show [Cond.eq, .ne, .lo, .hs, .mi, .pl, .ds, .dc, .ts, .tc, .ra].length ≤ c
      from hc)] at h
  have hcodes : ∀ d < 11, (condOf d).map condCode = some d := by decide
  have hcode := hcodes c hc
  rw [h] at hcode
  exact Option.some.inj hcode

theorem condOf_condCode (k : Cond) : condOf (condCode k) = some k := by cases k <;> rfl

theorem flagAt_bitOf (w i : Nat) : flagAt (decide (bitOf w i = 1)) i = w / 2 ^ i % 2 * 2 ^ i := by
  unfold bitOf flagAt
  obtain h | h := Nat.mod_two_eq_zero_or_one (w / 2 ^ i) <;> simp [h]

theorem secondOperand {w : Nat} {imm : Bool} (h : decide (bitOf w 17 = 1) = imm) :
    w / 2 ^ 17 % 2 = if imm then 1 else 0 := by
  unfold bitOf at h
  cases imm with
  | true => exact of_decide_eq_true h
  | false => exact Nat.mod_two_not_eq_one.mp (of_decide_eq_false h)

/-- A word is its opcode and its operands. -/
theorem some_insnWord {i : Issue} {w op fields : Nat} (hop : w / 2 ^ 26 = op) (h : w % 2 ^ 26 = fields) :
    some (i, insnWord op fields) = some (i, w) := by
  rw [insnWord, ← hop, ← h, Nat.mul_comm, Nat.div_add_mod]

/-- A word that decodes to an instruction is the instruction's word. -/
theorem camastWord_of_camastCommand {i : Issue} {w : Nat} {read : Fetch} {c : Instr}
    (h : camastCommand i w read = some c) : camastWord c = some (i, w) := by
  have hlegal : LegalWord w :=
    Classical.byContradiction fun hno => nomatch (camastCommand_not_legal hno).symm.trans h
  obtain ⟨fs, hfs, hw⟩ := hlegal
  unfold camastCommand at h
  dsimp only at h
  rw [if_neg (not_not_intro ((legalWord_iff w).mpr ⟨fs, hfs, hw⟩))] at h
  generalize hop : w / 2 ^ 26 = op at *
  generalize himm : decide (bitOf w 17 = 1) = imm at *
  split at h
  case h_1 | h_2 | h_4 | h_5 =>
    obtain ⟨r, hr, rfl⟩ := Option.map_eq_some_iff.mp h
    cases hfs
    simp only [camastWord, railonWord, railoffWord, setslewWord, phasesWord]
    refine some_insnWord hop (hw.trans ?_)
    simp [fieldSum, railField, railOf_eq_some hr, bitsOf, Nat.add_assoc]
  case h_6 | h_7 | h_9 | h_10 | h_11 | h_13 | h_15 | h_16 | h_18 | h_25 | h_27 | h_28 | h_30 | h_31 | h_32 | h_33 =>
    obtain rfl := Option.some.inj h
    cases hfs
    simp only [camastWord, waitpgWord, waittWord, claimWord, releaseWord, reclaimWord, waitstepWord, rdsupWord,
      movRegWord, movConstWord, jmpWord, callWord, retWord, yieldWord, raiseWord, logWord, snapWord]
    refine some_insnWord hop (hw.trans ?_)
    simp [fieldSum]
  case h_17 | h_29 =>
    obtain rfl := Option.some.inj h
    cases hfs
    simp only [camastWord, movImmWord, taskWord]
    refine some_insnWord hop (hw.trans ?_)
    simp only [fieldSum, Fin.val_ofNat, BitVec.toNat_ofNat]
    omega
  case h_26 =>
    obtain ⟨k, hk, rfl⟩ := Option.map_eq_some_iff.mp h
    cases hfs
    simp only [camastWord, bccWord]
    refine some_insnWord hop (hw.trans ?_)
    simp [fieldSum, condOf_eq_some hk, bitsOf]
  case h_8 =>
    obtain rfl := Option.some.inj h
    cases hfs
    simp only [camastWord, waitevWord]
    refine some_insnWord hop (hw.trans ?_)
    simp [fieldSum, flagAt_bitOf, Nat.add_assoc]
  case h_14 =>
    obtain rfl := Option.some.inj h
    cases hfs
    split
    all_goals
      rename_i hbit
      rw [bitOf] at hbit
      simp only [camastWord, rdadcWord]
      refine some_insnWord hop (hw.trans ?_)
      simp only [fieldSum, flagAt, Fin.val_ofNat, BitVec.toNat_ofNat, if_true, if_false, Bool.false_eq_true]
      omega
  case h_12 =>
    obtain rfl := Option.some.inj h
    cases hfs
    have hflag := flagAt_bitOf w 17
    rw [himm] at hflag
    cases imm
    all_goals
      simp only [camastWord, stepWord, if_true, if_false, Bool.false_eq_true]
      refine some_insnWord hop (hw.trans ?_)
      simp [fieldSum, hflag]
  case h_3 =>
    obtain ⟨r, hr, rfl⟩ := Option.map_eq_some_iff.mp h
    simp only [camastWord, setvWord]
    refine some_insnWord hop (hw.trans ?_)
    have hbit := secondOperand himm
    cases imm
    all_goals
      cases hfs
      simp only [fieldSum, setvField, railField, railOf_eq_some hr, bitsOf, Fin.val_ofNat, BitVec.toNat_ofNat, if_true,
        if_false, Bool.false_eq_true] at hbit ⊢
      omega
  case h_19 | h_20 | h_21 | h_22 | h_23 | h_24 =>
    obtain rfl := Option.some.inj h
    simp only [camastWord, aluWord, cmpWord, shrWord]
    refine some_insnWord hop (hw.trans ?_)
    have hbit := secondOperand himm
    cases imm
    all_goals
      cases hfs
      simp only [fieldSum, aluField, shrField, Fin.val_ofNat, BitVec.toNat_ofNat, if_true, if_false,
        Bool.false_eq_true] at hbit ⊢
      omega
  case h_34 => cases h

theorem insnWord_parts {w op fields : Nat} (hw : insnWord op fields = w) (h : fields < 2 ^ 26) :
    w / 2 ^ 26 = op ∧ w = op * 2 ^ 26 + fields := by
  subst hw
  unfold insnWord
  omega

theorem railCode_lt (r : Rail) : railCode r < 2 ^ 8 := by
  cases r <;> simp only [railCode] <;> omega

theorem condCode_lt (k : Cond) : condCode k < 2 ^ 4 := by cases k <;> decide

theorem flagAt_le (b : Bool) (i : Nat) : flagAt b i = 0 ∨ flagAt b i = 2 ^ i := by cases b <;> simp [flagAt]

/-- The word of an instruction decodes to it. -/
theorem camastCommand_of_camastWord {i : Issue} {w : Nat} {c : Instr} (h : camastWord c = some (i, w)) :
    camastCommand i w (constRead c) = some c := by
  cases c
  case waitpg | waitt | claim | release | reclaim | waitstep | rdsup | movReg | movImm | movConst | jmp | call |
      task | raise | log | snap =>
    obtain ⟨rfl, hw⟩ := Prod.mk.inj (Option.some.inj h)
    simp only [waitpgWord, waittWord, claimWord, releaseWord, reclaimWord, waitstepWord, rdsupWord,
      movRegWord, movImmWord, movConstWord, jmpWord,
      callWord, taskWord, raiseWord, logWord, snapWord] at hw
    obtain ⟨hop, hf⟩ := insnWord_parts hw (by omega)
    clear hw
    have hlegal : LegalWord w := ⟨_, by rw [hop]; rfl, by
      simp only [fieldSum]
      omega⟩
    unfold camastCommand
    dsimp only
    rw [if_neg (not_not_intro ((legalWord_iff w).mpr hlegal)), hop]
    simp only [Option.some.injEq, Fin.ext_iff, ← BitVec.toNat_inj, Fin.val_ofNat, BitVec.toNat_ofNat, Instr.waitpg.injEq,
      Instr.waitt.injEq, Instr.claim.injEq, Instr.release.injEq, Instr.reclaim.injEq, Instr.waitstep.injEq,
      Instr.rdsup.injEq, Instr.movReg.injEq, Instr.movImm.injEq, Instr.movConst.injEq, Instr.jmp.injEq,
      Instr.call.injEq, Instr.task.injEq, Instr.raise.injEq, Instr.log.injEq, Instr.snap.injEq, true_and, and_true, constRead]
    omega
  case ret | yield =>
    obtain ⟨rfl, rfl⟩ := Prod.mk.inj (Option.some.inj h)
    rfl
  case railon _ r _ | railoff _ r | setslew _ r _ _ | phases _ r _ _ =>
    obtain ⟨rfl, hw⟩ := Prod.mk.inj (Option.some.inj h)
    have hrlt := railCode_lt r
    simp only [railonWord, railoffWord, setslewWord, phasesWord, railField] at hw
    obtain ⟨hop, hf⟩ := insnWord_parts hw (by omega)
    clear hw
    have hlegal : LegalWord w := ⟨_, by rw [hop]; rfl, by
      simp only [fieldSum]
      omega⟩
    have hrail : railOf (bitsOf w 18 8) = some r := by
      rw [← railOf_railCode r, bitsOf]
      exact congrArg railOf (by omega)
    unfold camastCommand
    dsimp only
    rw [if_neg (not_not_intro ((legalWord_iff w).mpr hlegal)), hop]
    simp only [hrail, Option.map_some, Option.some.injEq, Fin.ext_iff, ← BitVec.toNat_inj, Fin.val_ofNat,
      BitVec.toNat_ofNat, Instr.railon.injEq, Instr.setslew.injEq, Instr.phases.injEq, true_and]
    all_goals omega
  case bcc _ k _ =>
    obtain ⟨rfl, hw⟩ := Prod.mk.inj (Option.some.inj h)
    have hklt := condCode_lt k
    simp only [bccWord] at hw
    obtain ⟨hop, hf⟩ := insnWord_parts hw (by omega)
    clear hw
    have hlegal : LegalWord w := ⟨_, by rw [hop]; rfl, by
      simp only [fieldSum]
      omega⟩
    have hcond : condOf (bitsOf w 22 4) = some k := by
      rw [← condOf_condCode k, bitsOf]
      exact congrArg condOf (by omega)
    unfold camastCommand
    dsimp only
    rw [if_neg (not_not_intro ((legalWord_iff w).mpr hlegal)), hop]
    simp only [hcond, Option.map_some, Option.some.injEq, ← BitVec.toNat_inj, BitVec.toNat_ofNat, Instr.bcc.injEq,
      true_and]
    omega
  case waitev src l dl =>
    obtain ⟨rfl, hw⟩ := Prod.mk.inj (Option.some.inj h)
    obtain ⟨b, hb, hl⟩ : ∃ b, b < 2 ∧ l = decide (b = 1) ∧ flagAt l 16 = b * 2 ^ 16 := by
      cases l
      · exact ⟨0, by decide⟩
      · exact ⟨1, by decide⟩
    obtain ⟨hl, hflag⟩ := hl
    simp only [waitevWord, hflag] at hw
    obtain ⟨hop, hf⟩ := insnWord_parts hw (by omega)
    clear hw
    have hlegal : LegalWord w := ⟨_, by rw [hop]; rfl, by
      simp only [fieldSum]
      omega⟩
    have hbit : bitOf w 16 = b := by
      unfold bitOf
      omega
    unfold camastCommand
    dsimp only
    rw [if_neg (not_not_intro ((legalWord_iff w).mpr hlegal)), hop, hbit, ← hl]
    simp only [Option.some.injEq, ← BitVec.toNat_inj, BitVec.toNat_ofNat, Instr.waitev.injEq, true_and]
    omega
  case step =>
    obtain ⟨rfl, hw⟩ := Prod.mk.inj (Option.some.inj h)
    simp only [stepWord, flagAt, if_false, Bool.false_eq_true] at hw
    obtain ⟨hop, hf⟩ := insnWord_parts hw (by omega)
    clear hw
    have hbit : bitOf w 17 = 0 := by
      unfold bitOf
      omega
    have hlegal : LegalWord w := ⟨_, by rw [hop]; rfl, by
      simp only [fieldSum]
      omega⟩
    unfold camastCommand
    dsimp only
    rw [if_neg (not_not_intro ((legalWord_iff w).mpr hlegal)), hop, hbit]
    simp only [decide_eq_true_eq, Nat.zero_ne_one, if_false, Option.some.injEq, ← BitVec.toNat_inj, BitVec.toNat_ofNat,
      Instr.step.injEq, true_and]
    omega
  case stepAbort =>
    obtain ⟨rfl, hw⟩ := Prod.mk.inj (Option.some.inj h)
    simp only [stepWord, flagAt, if_true] at hw
    obtain ⟨hop, hf⟩ := insnWord_parts hw (by omega)
    clear hw
    have hbit : bitOf w 17 = 1 := by
      unfold bitOf
      omega
    have hlegal : LegalWord w := ⟨_, by rw [hop]; rfl, by
      simp only [fieldSum]
      omega⟩
    unfold camastCommand
    dsimp only
    rw [if_neg (not_not_intro ((legalWord_iff w).mpr hlegal)), hop, hbit]
    simp only [decide_true, if_true, Option.some.injEq, ← BitVec.toNat_inj, BitVec.toNat_ofNat,
      Instr.stepAbort.injEq, true_and]
    omega
  case rdadc =>
    obtain ⟨rfl, hw⟩ := Prod.mk.inj (Option.some.inj h)
    simp only [rdadcWord, flagAt, if_false, Bool.false_eq_true] at hw
    obtain ⟨hop, hf⟩ := insnWord_parts hw (by omega)
    clear hw
    have hbit : bitOf w 14 = 0 := by
      unfold bitOf
      omega
    have hlegal : LegalWord w := ⟨_, by rw [hop]; rfl, by
      simp only [fieldSum]
      omega⟩
    unfold camastCommand
    dsimp only
    rw [if_neg (not_not_intro ((legalWord_iff w).mpr hlegal)), hop, hbit]
    simp only [Nat.zero_ne_one, if_false, Option.some.injEq, Fin.ext_iff, ← BitVec.toNat_inj, Fin.val_ofNat, BitVec.toNat_ofNat,
      Instr.rdadc.injEq, true_and]
    omega
  case rdadcUrgent =>
    obtain ⟨rfl, hw⟩ := Prod.mk.inj (Option.some.inj h)
    simp only [rdadcWord, flagAt, if_true] at hw
    obtain ⟨hop, hf⟩ := insnWord_parts hw (by omega)
    clear hw
    have hbit : bitOf w 14 = 1 := by
      unfold bitOf
      omega
    have hlegal : LegalWord w := ⟨_, by rw [hop]; rfl, by
      simp only [fieldSum]
      omega⟩
    unfold camastCommand
    dsimp only
    rw [if_neg (not_not_intro ((legalWord_iff w).mpr hlegal)), hop, hbit]
    simp only [if_true, Option.some.injEq, Fin.ext_iff, ← BitVec.toNat_inj, Fin.val_ofNat, BitVec.toNat_ofNat,
      Instr.rdadcUrgent.injEq, true_and]
    omega
  case add _ _ _ src | sub _ _ _ src | and _ _ _ src | or _ _ _ src | cmp _ _ src | shr _ _ _ src =>
    obtain ⟨rfl, hw⟩ := Prod.mk.inj (Option.some.inj h)
    cases src
    case reg =>
      simp only [aluWord, cmpWord, shrWord, aluField, shrField] at hw
      obtain ⟨hop, hf⟩ := insnWord_parts hw (by omega)
      clear hw
      have hbit : bitOf w 17 = 0 := by
        unfold bitOf
        omega
      have hlegal : LegalWord w := ⟨_, by rw [hop, hbit]; rfl, by
        simp only [fieldSum]
        omega⟩
      unfold camastCommand
      dsimp only
      rw [if_neg (not_not_intro ((legalWord_iff w).mpr hlegal)), hop, hbit]
      simp only [Nat.zero_ne_one, decide_false, Bool.false_eq_true, if_false, Option.some.injEq, Fin.ext_iff,
        Fin.val_ofNat, AluSrc.reg.injEq, ShrSrc.reg.injEq, Instr.add.injEq, Instr.sub.injEq,
        Instr.and.injEq, Instr.or.injEq, Instr.cmp.injEq, Instr.shr.injEq, true_and]
      omega
    case imm =>
      simp only [aluWord, cmpWord, shrWord, aluField, shrField] at hw
      obtain ⟨hop, hf⟩ := insnWord_parts hw (by omega)
      clear hw
      have hbit : bitOf w 17 = 1 := by
        unfold bitOf
        omega
      have hlegal : LegalWord w := ⟨_, by rw [hop, hbit]; rfl, by
        simp only [fieldSum]
        omega⟩
      unfold camastCommand
      dsimp only
      rw [if_neg (not_not_intro ((legalWord_iff w).mpr hlegal)), hop, hbit]
      simp only [decide_true, if_true, Option.some.injEq, Fin.ext_iff, ← BitVec.toNat_inj,
        Fin.val_ofNat, BitVec.toNat_ofNat, AluSrc.imm.injEq, ShrSrc.imm.injEq, Instr.add.injEq, Instr.sub.injEq,
        Instr.and.injEq, Instr.or.injEq, Instr.cmp.injEq, Instr.shr.injEq, true_and]
      omega
  case setv _ r src _ =>
    obtain ⟨rfl, hw⟩ := Prod.mk.inj (Option.some.inj h)
    have hrlt := railCode_lt r
    simp only [setvWord, railField] at hw
    cases src
    case reg =>
      simp only [setvField] at hw
      obtain ⟨hop, hf⟩ := insnWord_parts hw (by omega)
      clear hw
      have hbit : bitOf w 17 = 0 := by
        unfold bitOf
        omega
      have hlegal : LegalWord w := ⟨_, by rw [hop, hbit]; rfl, by
        simp only [fieldSum]
        omega⟩
      have hrail : railOf (bitsOf w 18 8) = some r := by
        rw [← railOf_railCode r, bitsOf]
        exact congrArg railOf (by omega)
      unfold camastCommand
      dsimp only
      rw [if_neg (not_not_intro ((legalWord_iff w).mpr hlegal)), hop, hbit, hrail]
      simp only [Nat.zero_ne_one, decide_false, Bool.false_eq_true, if_false, Option.map_some, Option.some.injEq,
        Fin.ext_iff, Fin.val_ofNat, SetvSrc.reg.injEq, Instr.setv.injEq, true_and]
      omega
    case imm =>
      simp only [setvField] at hw
      obtain ⟨hop, hf⟩ := insnWord_parts hw (by omega)
      clear hw
      have hbit : bitOf w 17 = 1 := by
        unfold bitOf
        omega
      have hlegal : LegalWord w := ⟨_, by rw [hop, hbit]; rfl, by
        simp only [fieldSum]
        omega⟩
      have hrail : railOf (bitsOf w 18 8) = some r := by
        rw [← railOf_railCode r, bitsOf]
        exact congrArg railOf (by omega)
      unfold camastCommand
      dsimp only
      rw [if_neg (not_not_intro ((legalWord_iff w).mpr hlegal)), hop, hbit, hrail]
      simp only [decide_true, if_true, Option.map_some, Option.some.injEq, Fin.ext_iff, ← BitVec.toNat_inj,
        Fin.val_ofNat, BitVec.toNat_ofNat, SetvSrc.imm.injEq, Instr.setv.injEq, true_and]
      omega
  all_goals cases h

/-- Settles O60: decoding and encoding are inverse to each other on the words of Table 7.3. -/
theorem instructionWords : Obligations.InstructionWords := by
  refine ⟨fun c i w h => camastCommand_of_camastWord h, fun i w read c h => camastWord_of_camastCommand h,
    fun i w read => ⟨fun hnone => camastCommand_not_legal fun hlegal => ?_,
      fun m hm hne => camastCommand_not_legal fun hlegal => ?_⟩⟩
  · have hany := (legalWord_iff w).mpr hlegal
    rw [hnone] at hany
    exact nomatch hany
  · have hany := (legalWord_iff w).mpr hlegal
    rw [hm] at hany
    exact hne (of_decide_eq_true hany)

end Sys2Proof.Machine
end

section
/-! Frames: what an instruction on its own task, a latching read and the short host commands leave alone (R201, R388,
R436). -/

namespace Sys2Proof.Machine

/-! ### Instructions on their own task -/

/-- `u` is the issued state with the task's entry rewritten, once one more read of program memory is counted. -/
def OnOwnTask (i : Issue) (s : State) (t : Nat) (x : Task) (u : State) : Prop :=
  ∃ (r : Fetch) (z : Task), u = (fetched (issued i s t x) r).setTask i.eng t z

theorem exec_movConst (i : Issue) (wd : Fin 16) (k : BitVec 13) (read : Fetch) (s : State) :
    exec (.movConst i wd k read) s = execMovConst i wd k read s := by rw [exec]

/-- An instruction that acts on its own task alone does so where it is executed. -/
theorem registerOnly_onOwnTask {c : Instr} {i : Issue} {w : Nat} {s u : State} {t : Nat} {x : Task}
    (hc : registerOnly c = true) (hw : camastWord c = some (i, w)) (h : Runs i w s t x) (hu : exec c s = .next u) :
    OnOwnTask i s t x u := by
  cases c
  case movConst i' wd k read =>
    obtain ⟨rfl, rfl⟩ := Prod.mk.inj (Option.some.inj hw)
    cases read with
    | triple => cases hc
    | clean =>
      obtain ⟨z, hexec, -⟩ := execMovConst_runs i' wd s t x k .clean h (by decide)
      exact ⟨.clean, z, Host.Outcome.next.inj (hu.symm.trans ((exec_movConst i' wd k _ s).trans hexec))⟩
    | corrected =>
      obtain ⟨z, hexec, -⟩ := execMovConst_runs i' wd s t x k .corrected h (by decide)
      exact ⟨.corrected, z, Host.Outcome.next.inj (hu.symm.trans ((exec_movConst i' wd k _ s).trans hexec))⟩
  case movReg | movImm | add | sub | and | or | cmp | shr | jmp | bcc | rdadc | rdsup =>
    obtain ⟨rfl, rfl⟩ := Prod.mk.inj (Option.some.inj hw)
    simp only [exec, execMovReg, execMovImm, execAdd, execSub, execAnd, execOr, execCmp, execShr, execJmp, execBcc,
      execRdadc, execRdsup, onTask, issue_runs h] at hu
    exact ⟨.clean, _, (Host.Outcome.next.inj hu).symm⟩
  all_goals cases hc

theorem onOwnTask_frame {i : Issue} {s u : State} {t : Nat} {x : Task} (h : OnOwnTask i s t x u) :
    SameFields [CAM_IMG_MEMERR.COUNT] s u ∧ SameMemory s u ∧ OnlyRegsTasks s u ∧
      ∀ e k : Nat, e * 16 + k ≠ i.eng * 16 + t → u.task e k = s.task e k := by
  obtain ⟨r, z, rfl⟩ := h
  have htask : ∀ (v : State) (y : Task) (e k : Nat), e * 16 + k ≠ i.eng * 16 + t →
      (v.setTask i.eng t y).task e k = v.task e k := fun v y e k hk => NMap.get_put_ne _ _ _ _ hk
  have hfetched : ∀ (v : State) (r : Fetch), fetched v r = { v with regs := (fetched v r).regs } := fun v r => by
    cases r <;> rfl
  refine ⟨fun f hf => ?_, fun a => ?_, ?_, fun e k hk => ?_⟩
  · have hne : f.key ≠ CAM_IMG_MEMERR.COUNT.key := by simpa using hf
    exact (fetched_get _ r hne).trans (issued_get i s t x hne)
  · exact (fetched_byte _ r a).trans (issued_sameMemory i s t x a)
  · unfold OnlyRegsTasks issued
    rw [hfetched _ r, hfetched s i.fetch]
    rfl
  · rw [htask _ _ _ _ hk, hfetched]
    exact (htask _ _ _ _ hk).trans (by rw [hfetched]; rfl)

/-! ### Latching reads -/

/-- Fields written in turn are the only ones that change. -/
theorem each_set_get {α : Type} (xs : List α) (g : State → α → Field) (v : State → α → Nat) (s : State) {f : Field}
    (h : ∀ s, ∀ a ∈ xs, f.key ≠ (g s a).key) : (State.each xs (fun s a => s.set (g s a) (v s a)) s).get f = s.get f := by
  unfold State.each
  induction xs generalizing s with
  | nil => rfl
  | cons a l ih =>
    rw [List.foldl_cons, ih _ fun s b hb => h s b (List.mem_cons_of_mem _ hb),
      State.get_set_ne _ _ (h s a (List.mem_cons_self ..))]

theorem each_set_onlyRegs {α : Type} (xs : List α) (g : State → α → Field) (v : State → α → Nat) (s : State) :
    OnlyRegs s (State.each xs (fun s a => s.set (g s a) (v s a)) s) := by
  unfold OnlyRegs State.each
  induction xs generalizing s with
  | nil => rfl
  | cons a l ih =>
    rw [List.foldl_cons]
    exact (ih _).trans rfl

theorem selectedRecord_length (s : State) : (selectedRecord s).length = 8 := by
  have hrec : ∀ r, (recWords r).length = 8 := fun r => by
    unfold recWords
    split <;> rfl
  unfold selectedRecord
  dsimp only
  split
  · split
    · exact (List.length_map ..).trans List.length_range
    · exact List.length_replicate
  · cases s.fox.hist[s.get FLT_RSEL.AGE]? with
    | none => exact List.length_replicate
    | some r => exact hrec r

theorem latchRecord_frame (s : State) :
    SameFields ((List.range 8).map FLT_REC.WORD) s (latchRecord s) ∧ OnlyRegs s (latchRecord s) := by
  unfold latchRecord
  refine ⟨fun f hf => ?_,
    each_set_onlyRegs (selectedRecord s).zipIdx (fun _ x => FLT_REC.WORD x.2) (fun _ x => x.1) s⟩
  have hne : ∀ (_ : State), ∀ x ∈ (selectedRecord s).zipIdx, f.key ≠ (FLT_REC.WORD x.2).key := by
    intro _ x hx hkey
    have hlt := List.snd_lt_of_mem_zipIdx hx
    rw [selectedRecord_length] at hlt
    rw [List.map_map, List.mem_map] at hf
    exact hf ⟨x.2, List.mem_range.mpr hlt, hkey.symm⟩
  exact each_set_get (selectedRecord s).zipIdx (fun _ x => FLT_REC.WORD x.2) (fun _ x => x.1) s hne

/-- A latching read changes its fields where its condition holds, and nothing otherwise. -/
theorem latch_frame {s u : State} {b : Bool} {v : State} {fs : List Field}
    (hv : SameFields fs s v ∧ OnlyRegs s v) (h : u = if b then v else s) : SameFields fs s u ∧ OnlyRegs s u := by
  subst h
  split
  · exact hv
  · exact ⟨fun _ _ => rfl, rfl⟩

/-! ### Short host commands -/

/-- A command that leaves no mark of an operation ends with its outcome in its slot, and nothing else changes. -/
theorem endCommand_frame (s : State) (n : Nat) (c : Completion) (hmark : markOf (slotOp s n) = 0) :
    (endCommand s n c).regs = s.regs ∧ SameMemory s (endCommand s n c) ∧ (endCommand s n c).now = s.now ∧
      ∀ j, j ≠ n → (endCommand s n c).slot j = s.slot j := by
  unfold endCommand endMark
  split
  · simp only [hmark, decide_true, Bool.true_or, if_true]
    exact ⟨rfl, fun _ => rfl, rfl, fun j hj => NMap.get_put_ne _ _ _ _ hj⟩
  · exact ⟨rfl, fun _ => rfl, rfl, fun _ _ => rfl⟩

/-- A command with opcode `op`, which leaves no mark, ends at once or does nothing. -/
theorem onCommand_frame {k : BitVec 8} {op : Nat} {s u : State} {c : Completion} (hop : markOf op = 0)
    (h : onCommand k op s (fun n => endCommand s n c) = .next u) :
    u.regs = s.regs ∧ SameMemory s u ∧ u.now = s.now ∧ ∀ j, j ≠ k.toNat → u.slot j = s.slot j := by
  unfold onCommand at h
  cases h
  dsimp only
  split
  next hexec =>
    simp only [Bool.and_eq_true, decide_eq_true_eq] at hexec
    obtain ⟨⟨-, hslot⟩, -⟩ := hexec
    exact endCommand_frame s k.toNat c (hslot ▸ hop)
  next => exact ⟨rfl, fun _ => rfl, rfl, fun _ _ => rfl⟩

/-- Settles O59: each command's own frame. -/
theorem commandFrames : Obligations.CommandFrames := by
  refine ⟨fun c i w s u t x hc hw hr hu => onOwnTask_frame (registerOnly_onOwnTask hc hw hr hu),
    fun s v hv => ⟨notice_evt s v hv, raise_evt s v hv, fun f hf => notice_get s v f hf, fun a ha => notice_byte s v ha,
      notice_rest s v⟩,
    fun s u h => latch_frame (v := latchTime s) ⟨fun f hf => ?_, rfl⟩ (Host.Outcome.next.inj h).symm,
    fun s u h => latch_frame (v := latchSerial s) ⟨fun f hf => ?_, rfl⟩ (Host.Outcome.next.inj h).symm,
    fun s u h => latch_frame (v := latchDrop s) ⟨fun f hf => ?_, rfl⟩ (Host.Outcome.next.inj h).symm,
    fun s u h => latch_frame (v := latchHistory s) ⟨fun f hf => ?_, rfl⟩ (Host.Outcome.next.inj h).symm,
    fun s u h => latch_frame (v := latchLog s) ⟨fun f hf => ?_, rfl⟩ (Host.Outcome.next.inj h).symm,
    fun s u h => latch_frame (latchRecord_frame s) (Host.Outcome.next.inj h).symm,
    fun s u h => latch_frame (v := latchCredit s) ⟨fun f hf => ?_, rfl⟩ (Host.Outcome.next.inj h).symm,
    fun k s u h => onCommand_frame rfl h, fun k s u h => onCommand_frame rfl h⟩
  all_goals
    simp only [List.map_cons, List.map_nil, List.mem_cons, List.not_mem_nil, or_false, not_or] at hf
    simp [latchTime, latchSerial, latchDrop, latchHistory, latchLog, latchCredit, State.get_set_ne, hf]

end Sys2Proof.Machine
end

section
/-! The windows of the host interfaces (Table 18.6, R419, R430, R431, R454): the bytes that the host writes and reads
back, the pointer of the two-wire ports, and the entry of a completion. -/

namespace Sys2Proof.Machine

/-! ### The windows -/

theorem State.byte_setByte (s : State) (a k : Nat) (b : Byte) : (s.setByte a b).byte k = if k = a then b else s.byte k :=
  NMap.get_put 0#8 s.mem a k b

theorem inWindow_of_writable {s : State} {a : Nat} (h : windowWritable s a = true) : inWindow a = true := by
  simp only [windowWritable, Bool.and_eq_true, Bool.or_eq_true, decide_eq_true_eq] at h
  simp only [inWindow, Bool.or_eq_true, Bool.and_eq_true, decide_eq_true_eq]
  omega

/-- A byte written in a writable window reads back there and changes no other. -/
theorem windowByte_writeByte {s : State} {a : Nat} (v : Byte) (h : windowWritable s a = true) (k : Nat) :
    windowByte (writeByte s a v) k = if k = a then v else windowByte s k := by
  rw [writeByte, if_pos h]
  unfold windowByte
  rw [State.byte_setByte]
  split
  case isTrue hk =>
    split
    · rfl
    · rfl
  case isFalse hk =>
    split
    case isTrue hka =>
      subst hka
      exact absurd (inWindow_of_writable h) hk
    case isFalse => rfl

/-! ### The pointer -/

theorem repeat_succ {α : Type} (f : α → α) (n : Nat) (a : α) : Nat.repeat f (n + 1) a = Nat.repeat f n (f a) := by
  induction n with
  | zero => rfl
  | succ n ih => exact congrArg f ih

/-- A read on a page of the windows sends the bytes of the successive pointers and changes the pointer alone (R454). -/
theorem twtGet_window (n p : Nat) (latch : Option (Nat × Nat)) (s : State) (h : 0x0100 ≤ twtPage s) :
    (twtGet n s p latch).2 = s.setTwt { s.twt with ptr := Nat.repeat nextPtr n p } ∧
      (twtGet n s p latch).1 = (List.range n).map fun k =>
        if pageReached s then windowByte s (twtPage s * 0x100 + Nat.repeat nextPtr k p) else 0#8 := by
  induction n generalizing p latch with
  | zero => exact ⟨rfl, rfl⟩
  | succ n ih =>
    obtain ⟨hstate, hbytes⟩ := ih (nextPtr p) none
    unfold twtGet
    dsimp only
    rw [if_pos h]
    refine ⟨?_, ?_⟩
    · rw [hstate, repeat_succ]
    · rw [hbytes, List.range_succ_eq_map, List.map_cons, List.map_map]
      refine congrArg (List.cons _) (List.map_congr_left fun k _ => ?_)
      simp only [Function.comp, Nat.succ_eq_add_one, repeat_succ]

/-- Settles O53: the windows byte by byte, and the pointer by induction on the bytes. -/
theorem windowBytes : Obligations.WindowBytes := by
  refine ⟨fun s a v h => ⟨?_, fun k hk => ?_, ?_⟩, fun s a v h => ?_, ⟨rfl, fun p hp => ?_, fun p => ?_⟩,
    fun n p latch s h => ?_⟩
  · rw [windowByte_writeByte v h, if_pos rfl]
  · rw [windowByte_writeByte v h, if_neg hk]
  · rw [writeByte, if_pos h, State.setByte_regs]
  · simp [writeByte, h]
  · rw [nextPtr, if_neg (by omega)]
  · unfold nextPtr
    split <;> omega
  · obtain ⟨hstate, hbytes⟩ := twtGet_window n p latch s h
    refine ⟨?_, ?_, hbytes⟩
    · rw [hstate]; rfl
    · rw [hstate]; rfl

/-! ### Completions -/

theorem State.setBytes_byte_same (s : State) (a : Nat) (bs : List Byte) {j : Nat} (h : j < bs.length) :
    (s.setBytes a bs).byte (a + j) = bs.getD j 0#8 := by
  induction bs generalizing s a j with
  | nil => exact absurd h (Nat.not_lt_zero j)
  | cons b bs ih =>
    rw [State.setBytes]
    cases j with
    | zero =>
      rw [State.setBytes_byte _ _ _ (Or.inl (by omega)), State.byte_setByte, if_pos (Nat.add_zero a)]
      rfl
    | succ j =>
      have hj : j < bs.length := Nat.lt_of_succ_lt_succ h
      have hadd : a + (j + 1) = a + 1 + j := by omega
      rw [hadd, ih _ _ hj]
      rfl

/-- PHASE of an entry is the inverse of bit 8 of the tail count (R430). -/
theorem completionWords_phase (s : State) (k n : Nat) (late : Bool) (c : Completion) :
    ((completionWords s k n late c).headD 0).testBit 31 = !n.testBit 8 := by
  have hurgent : flagAt (slotUrgent s k) 30 ≤ 2 ^ 30 := by cases slotUrgent s k <;> simp [flagAt]
  have hlate : flagAt late 29 ≤ 2 ^ 29 := by cases late <;> simp [flagAt]
  have hbit : n.testBit 8 = decide (bitOf n 8 = 1) := by rw [Nat.testBit_eq_decide_div_mod_eq, bitOf]
  rw [hbit, Nat.testBit_eq_decide_div_mod_eq]
  unfold completionWords
  dsimp only [List.headD_cons]
  obtain hb | hb : bitOf n 8 = 0 ∨ bitOf n 8 = 1 := Nat.mod_two_eq_zero_or_one _
  · rw [hb]
    refine decide_eq_true ?_
    omega
  · rw [hb]
    refine decide_eq_false ?_
    omega

section
variable (s : State) (k : Nat) (c : Completion)

/-- The counts and the moderation after an entry write no memory. -/
theorem countCompletion_byte (late : Bool) (a : Nat) : (countCompletion s late c).byte a = s.byte a := by
  unfold countCompletion
  dsimp only
  split <;> split <;> rfl

/-- Moderation changes the interface's entries and timer, and may show a signal. -/
theorem countEntry_cases (urgent : Bool) : ∃ x : Hci, x.slots = s.hci.slots ∧
    (countEntry s k urgent = s.setHci x ∨ countEntry s k urgent = signalAll (s.setHci x)) := by
  unfold countEntry
  dsimp only
  generalize (if unsignalled s.hci = 0 then some (deadlineAt s.now (s.get HCI_MOD.TIME)) else s.hci.timer) = timer
  refine ⟨{ s.hci with entries := s.hci.entries ++ [{ slot := k, urgent }], timer }, rfl, ?_⟩
  split
  · exact .inr rfl
  · exact .inl rfl

theorem countEntry_byte (urgent : Bool) (a : Nat) : (countEntry s k urgent).byte a = s.byte a := by
  obtain ⟨x, -, h | h⟩ := countEntry_cases s k urgent <;> rw [h] <;> rfl

theorem countCompletion_slot (late : Bool) (j : Nat) : (countCompletion s late c).slot j = s.slot j := by
  unfold countCompletion
  dsimp only
  split <;> split <;> rfl

theorem countEntry_slot (urgent : Bool) (j : Nat) : (countEntry s k urgent).slot j = s.slot j := by
  obtain ⟨x, hx, h | h⟩ := countEntry_cases s k urgent <;> rw [h]
  · exact congrArg (fun m => NMap.get ({} : Slot) m j) hx
  · exact congrArg (fun m => NMap.get ({} : Slot) m j) hx

theorem countCompletion_tail (late : Bool) :
    (countCompletion s late c).get HCI_CQ_TAIL.TAIL = s.get HCI_CQ_TAIL.TAIL := by
  unfold countCompletion
  dsimp only
  split <;> split <;>
    simp (disch := decide) only [State.addWrap, State.addSat, State.get_set_ne]

theorem countEntry_tail (urgent : Bool) : (countEntry s k urgent).get HCI_CQ_TAIL.TAIL = s.get HCI_CQ_TAIL.TAIL := by
  obtain ⟨x, -, h | h⟩ := countEntry_cases s k urgent <;> rw [h]
  · rfl
  · exact State.get_set_ne _ _ (show HCI_CQ_TAIL.TAIL.key ≠ HCI_EVT.SIGNAL.key by decide)

/-- A slot reads what was written to it, also beside a field. -/
theorem State.slot_setSlot_same (x : Slot) : (s.setSlot k x).slot k = x := NMap.get_put_same _ _ k x

theorem State.set_slot (f : Field) (v : Nat) : (s.set f v).slot k = s.slot k := rfl

/-- A completion writes the four words of its entry (R431). -/
theorem writeCompletion_byte (a : Nat) : (writeCompletion s k c).byte a =
    (s.setBytes (0x012000 + 16 * (s.get HCI_CQ_TAIL.TAIL % 256))
      (wordsBytes (completionWords s k (s.get HCI_CQ_TAIL.TAIL) (s.slot k).late c))).byte a := by
  unfold writeCompletion
  dsimp only
  rw [countEntry_byte, countCompletion_byte, State.set_byte, State.setSlot_byte]

end

/-- Settles O56: the bytes of the entry, the tail, the slot and the rest of memory. -/
theorem completionEntry : Obligations.CompletionEntry := by
  rintro s k c n late rfl rfl
  have hlen : (wordsBytes (completionWords s k (s.get HCI_CQ_TAIL.TAIL) (s.slot k).late c)).length = 16 :=
    length_wordsBytes _
  refine ⟨fun j hj => ?_, ?_, ?_, completionWords_phase s k _ _ c, fun a ha hout => ?_⟩
  · rw [writeCompletion_byte, State.setBytes_byte_same _ _ _ (hlen ▸ hj)]
  · unfold writeCompletion
    dsimp only
    rw [countEntry_tail, countCompletion_tail, State.get_set_same]
    rfl
  · unfold writeCompletion
    dsimp only
    rw [countEntry_slot, countCompletion_slot, State.set_slot]
    exact congrArg Slot.st (State.slot_setSlot_same _ k _)
  · rw [writeCompletion_byte, State.setBytes_byte _ _ _ (by omega)]

end Sys2Proof.Machine
end

section
/-! The dispatcher of an engine and the entry to an exception (R234 to R240): the choice among candidates, the runs of
the dispatcher one choice at a time, and the record of an exception. -/

namespace Sys2Proof.Machine

/-! ### The choice -/

theorem foldl_max_spec (f : Nat → Nat) (l : List Nat) (m : Nat) :
    m ≤ l.foldl (fun m t => max m (f t)) m ∧ (∀ j ∈ l, f j ≤ l.foldl (fun m t => max m (f t)) m) ∧
      (l.foldl (fun m t => max m (f t)) m = m ∨ ∃ j ∈ l, l.foldl (fun m t => max m (f t)) m = f j) := by
  induction l generalizing m with
  | nil => exact ⟨Nat.le_refl m, fun j hj => absurd hj List.not_mem_nil, .inl rfl⟩
  | cons a l ih =>
    obtain ⟨hinit, hall, hattained⟩ := ih (max m (f a))
    rw [List.foldl_cons]
    refine ⟨by omega, fun j hj => ?_, ?_⟩
    · obtain rfl | hj := List.mem_cons.mp hj
      · omega
      · exact hall j hj
    · obtain heq | ⟨j, hj, heq⟩ := hattained
      · obtain hm | ha : max m (f a) = m ∨ max m (f a) = f a := by omega
        · exact .inl (heq.trans hm)
        · exact .inr ⟨a, List.mem_cons_self .., heq.trans ha⟩
      · exact .inr ⟨j, List.mem_cons_of_mem _ hj, heq⟩

/-- The highest priority among `cands`. -/
def topPrio (s : State) (e : Nat) (cands : List Nat) : Nat := cands.foldl (fun m t => max m (s.task e t).prio) 0

theorem le_topPrio (s : State) (e : Nat) {cands : List Nat} {j : Nat} (h : j ∈ cands) :
    (s.task e j).prio ≤ topPrio s e cands :=
  (foldl_max_spec (fun t => (s.task e t).prio) cands 0).2.1 j h

theorem exists_topPrio (s : State) (e : Nat) {cands : List Nat} (h : cands ≠ []) :
    ∃ j ∈ cands, (s.task e j).prio = topPrio s e cands := by
  obtain ⟨-, hall, hzero | ⟨j, hj, heq⟩⟩ := foldl_max_spec (fun t => (s.task e t).prio) cands 0
  · obtain ⟨j, hj⟩ := List.exists_mem_of_ne_nil cands h
    exact ⟨j, hj, Nat.le_antisymm (hall j hj) (by unfold topPrio; omega)⟩
  · exact ⟨j, hj, heq.symm⟩

/-- The task that ran last at the priority `p`. -/
def lastAt (s : State) (e p : Nat) : Option Nat := ((s.engine e).lastRun.find? fun kv => kv.1 = p).map Prod.snd

theorem choose_eq (s : State) (e : Nat) (cands : List Nat) : choose s e cands =
    firstAfter (lastAt s e (topPrio s e cands))
      (cands.filter fun t => decide ((s.task e t).prio = topPrio s e cands)) := rfl

theorem firstAfter_eq_none_iff (last : Option Nat) (l : List Nat) : firstAfter last l = none ↔ l = [] := by
  unfold firstAfter
  split
  · exact List.head?_eq_none_iff
  · split
    next hf =>
      exact ⟨fun h => (nomatch h), by rintro rfl; exact (nomatch hf)⟩
    next => exact List.head?_eq_none_iff

/-- The first of an ascending list after `last`, wrapping. -/
theorem firstAfter_spec {last : Option Nat} {l : List Nat} {t : Nat} (hl : l.Pairwise (· < ·))
    (h : firstAfter last l = some t) : t ∈ l ∧ ∀ j ∈ l, (last = none → t ≤ j) ∧
      ∀ k, last = some k → (k < t → k < j → t ≤ j) ∧ (t ≤ k → j ≤ k ∧ t ≤ j) := by
  have hhead : ∀ {l : List Nat} {a : Nat}, l.Pairwise (· < ·) → l.head? = some a → a ∈ l ∧ ∀ j ∈ l, a ≤ j := by
    intro l a hl ha
    obtain ⟨l', rfl⟩ := List.head?_eq_some_iff.mp ha
    refine ⟨List.mem_cons_self .., fun j hj => ?_⟩
    obtain rfl | hj := List.mem_cons.mp hj
    · exact Nat.le_refl j
    · exact Nat.le_of_lt (List.rel_of_pairwise_cons hl hj)
  unfold firstAfter at h
  split at h
  case h_1 =>
    obtain ⟨hmem, hle⟩ := hhead hl h
    exact ⟨hmem, fun j hj => ⟨fun _ => hle j hj, fun k hk => (nomatch hk)⟩⟩
  case h_2 k =>
    split at h
    case h_1 a l' hf =>
      obtain rfl : a = t := Option.some.inj h
      have hfirst : (l.filter fun x => decide (k < x)).head? = some a := by rw [hf]; rfl
      obtain ⟨hmem, hle⟩ := hhead (hl.filter fun x => decide (k < x)) hfirst
      obtain ⟨hal, hka⟩ := List.mem_filter.mp hmem
      have hka' : k < a := of_decide_eq_true hka
      refine ⟨hal, fun j hj => ⟨fun hn => (nomatch hn), fun k' hk' => ?_⟩⟩
      cases hk'
      refine ⟨fun _ hkj => hle j (List.mem_filter.mpr ⟨hj, decide_eq_true hkj⟩), fun hak => ?_⟩
      exact absurd hak (Nat.not_le.mpr hka')
    case h_2 hf =>
      obtain ⟨hmem, hle⟩ := hhead hl h
      have hall : ∀ j ∈ l, j ≤ k := fun j hj => by
        have := List.filter_eq_nil_iff.mp hf j hj
        simpa using this
      refine ⟨hmem, fun j hj => ⟨fun hn => (nomatch hn), fun k' hk' => ?_⟩⟩
      cases hk'
      exact ⟨fun _ _ => hle j hj, fun _ => ⟨hall j hj, hle j hj⟩⟩

theorem choose_eq_none_iff (s : State) (e : Nat) (cands : List Nat) : choose s e cands = none ↔ cands = [] := by
  rw [choose_eq, firstAfter_eq_none_iff]
  refine ⟨fun h => Classical.byContradiction fun hne => ?_, fun h => by rw [h]; rfl⟩
  obtain ⟨j, hj, hprio⟩ := exists_topPrio s e hne
  exact List.filter_eq_nil_iff.mp h j hj (decide_eq_true hprio)

/-- The choice is a candidate of the highest priority. -/
theorem choose_mem {s : State} {e : Nat} {cands : List Nat} {t : Nat} (h : choose s e cands = some t) :
    t ∈ cands ∧ (s.task e t).prio = topPrio s e cands := by
  have hmem : ∀ (last : Option Nat) (l : List Nat), firstAfter last l = some t → t ∈ l := by
    intro last l hl
    unfold firstAfter at hl
    split at hl
    · exact List.mem_of_head? hl
    · split at hl
      next hf =>
        cases hl
        exact (List.mem_filter.mp (hf ▸ List.mem_cons_self ..)).1
      next => exact List.mem_of_head? hl
  obtain ⟨hin, hprio⟩ := List.mem_filter.mp (hmem _ _ (choose_eq s e cands ▸ h))
  exact ⟨hin, of_decide_eq_true hprio⟩

theorem candidates_sorted (s : State) (e : Nat) : (candidates s e).Pairwise (· < ·) :=
  List.pairwise_lt_range.filter _

theorem candidates_lt {s : State} {e t : Nat} (h : t ∈ candidates s e) : t < 16 :=
  List.mem_range.mp (List.mem_filter.mp h).1

/-! ### One choice of the dispatcher -/

theorem pendingClaim_of_ready {s : State} {e t : Nat} (h : (s.task e t).st = .ready) : pendingClaim s e t = none := by
  simp [pendingClaim, h]

theorem dispatch_of_runs {s : State} {e : Nat} (h : engineRuns s e = true) :
    dispatch s e = dispatchLoop 80 s e (candidates s e) := if_pos h

section
variable {s u : State} {e t c n : Nat} {cands : List Nat}

theorem dispatchLoop_idle (hn : choose s e cands = none) : dispatchLoop (n + 1) s e cands = idleEngine s e := by
  rw [dispatchLoop, hn]

theorem dispatchLoop_ready (hc : choose s e cands = some t) (hr : (s.task e t).st = .ready) :
    dispatchLoop (n + 1) s e cands = runTask s e t := by
  rw [dispatchLoop, hc]
  dsimp only
  rw [pendingClaim_of_ready hr]

theorem dispatchLoop_refused (hc : choose s e cands = some t) (hp : pendingClaim s e t = some c)
    (hg : ledgerGrant s c = none) : dispatchLoop (n + 1) s e cands = dispatchLoop n s e (cands.filter (· ≠ t)) := by
  rw [dispatchLoop, hc]
  dsimp only
  rw [hp]
  dsimp only
  rw [hg]

/-- What the dispatcher does once the claim of its choice is granted. -/
theorem dispatchLoop_granted (hc : choose s e cands = some t) (hp : pendingClaim s e t = some c)
    (hg : ledgerGrant s c = some u) : dispatchLoop (n + 1) s e cands =
      if !engineRuns u e then u.setEngine e { u.engine e with cur := none }
      else if (u.task e t).st ≠ (s.task e t).st then u
      else if hasRevoked u e t then dispatchLoop n u e (if candidate u e t then cands else cands.filter (· ≠ t))
      else runTask (u.setTask e t { u.task e t with
        z := (u.task e t).z || decide ((u.task e t).st = .claimwait) }) e t := by
  rw [dispatchLoop, hc]
  dsimp only
  rw [hp]
  dsimp only
  rw [hg]

end

/-- A task that runs is the current one, in RUN. -/
theorem runTask_shows (s : State) (e t : Nat) : (runTask s e t).get (CAM_STATUS.CURTASK e) = t % 16 ∧
    ((runTask s e t).task e t).st = .run ∧ ((runTask s e t).task e t).z = (s.task e t).z := by
  have htask : (runTask s e t).task e t =
      { s.task e t with st := .run, wait := none, runAt := some s.now, resumeBy := none } := by
    exact State.task_setTask_same s e t
      { s.task e t with st := .run, wait := none, runAt := some s.now, resumeBy := none }
  rw [htask]
  exact ⟨State.get_set_same _ _ _, rfl, rfl⟩

/-- Settles O34: the choice by its specification, and the dispatcher one choice at a time. -/
theorem dispatcherChoice : Obligations.DispatcherChoice := by
  refine ⟨fun s e hr hn => ?_, fun s e hr hne hready => ?_, choose_eq_none_iff, fun s e cands t hs hc => ?_,
    fun s e t hr hc ht => ⟨?_, candidates_sorted s e⟩, fun s u e t c hr hc hp hg hu hst hrev => ?_,
    fun s e t c n cands hc hp => ⟨dispatchLoop_refused hc hp, fun u hg => ⟨fun h => ?_, fun hr hst => ?_, fun hr hst hrev => ?_⟩⟩,
    fun s e t n cands hc ht => dispatchLoop_ready hc ht, fun s e h => ?_⟩
  · rw [dispatch_of_runs hr, hn, dispatchLoop_idle ((choose_eq_none_iff s e []).mpr rfl)]
  · obtain ⟨k, hc⟩ := Option.ne_none_iff_exists'.mp (fun hn => hne ((choose_eq_none_iff s e _).mp hn))
    obtain ⟨hmem, hprio⟩ := choose_mem hc
    obtain ⟨hcur, hrun, -⟩ := runTask_shows s e k
    refine ⟨k, hmem, ?_, hcur.trans (Nat.mod_eq_of_lt (candidates_lt hmem)), hrun, fun j hj => hprio ▸ le_topPrio s e hj⟩
    rw [dispatch_of_runs hr, dispatchLoop_ready hc (hready k hmem)]
  · obtain ⟨hmem, hprio⟩ := choose_mem hc
    rw [choose_eq] at hc
    obtain ⟨-, hspec⟩ := firstAfter_spec (hs.filter _) hc
    refine ⟨hmem, fun j hj => hprio ▸ le_topPrio s e hj, fun j hj heq => ?_⟩
    rw [hprio] at heq ⊢
    exact hspec j (List.mem_filter.mpr ⟨hj, decide_eq_true heq⟩)
  · rw [dispatch_of_runs hr, dispatchLoop_ready hc ht]
  · obtain ⟨hmem, -⟩ := choose_mem hc
    have hdispatch : dispatch s e = runTask (u.setTask e t { u.task e t with
        z := (u.task e t).z || decide ((u.task e t).st = .claimwait) }) e t := by
      rw [dispatch_of_runs hr, dispatchLoop_granted hc hp hg, hu, hrev]
      simp [hst]
    refine ⟨_, rfl, hdispatch, ?_⟩
    obtain ⟨hcur, hrun, hz⟩ := runTask_shows (u.setTask e t { u.task e t with
        z := (u.task e t).z || decide ((u.task e t).st = .claimwait) }) e t
    rw [hdispatch]
    refine ⟨fun hwait => ?_, hrun, hcur⟩
    rw [hz, State.task_setTask_same]
    simp [hwait]
  · rw [dispatchLoop_granted hc hp hg, h]
    rfl
  · rw [dispatchLoop_granted hc hp hg, hr, if_neg (by decide), if_pos hst]
  · rw [dispatchLoop_granted hc hp hg, hr, if_neg (by decide), if_neg (not_not_intro hst), if_pos hrev]
  · simp [dispatch, h]

end Sys2Proof.Machine
end

section
/-! The entry to an exception (R230, R237, R239). -/

namespace Sys2Proof.Machine

theorem recordExc_regs (s : State) (e t cause : Nat) : SameMemory s (recordExc s e t cause) ∧
    OnlyRegs s (recordExc s e t cause) := ⟨fun _ => rfl, rfl⟩

theorem recordExc_evt (s : State) (e t cause : Nat) :
    ((recordExc s e t cause).get (CAM_EVT.EVT e)).testBit 2 = true := by
  rw [recordExc]
  exact State.setBit_testBit _ _ 2 (show 2 < (CAM_EVT.EVT e).width by simp [CAM_EVT.EVT])

/-- CAM_En_EXC shows the causing address, the task and the cause (R237). -/
theorem recordExc_shows (s : State) (e t cause : Nat) :
    (recordExc s e t cause).get (CAM_EXC.CAUSE e) = cause % 2 ^ (CAM_EXC.CAUSE e).width ∧
      (recordExc s e t cause).get (CAM_EXC.TASK e) = t % 2 ^ (CAM_EXC.TASK e).width ∧
      (recordExc s e t cause).get (CAM_EXC.PC e) = (s.task e t).ipc % 2 ^ (CAM_EXC.PC e).width := by
  have hevt : (CAM_EXC.CAUSE e).key ≠ (CAM_EVT.EVT e).key ∧ (CAM_EXC.TASK e).key ≠ (CAM_EVT.EVT e).key ∧
      (CAM_EXC.PC e).key ≠ (CAM_EVT.EVT e).key := by
    simp only [Field.key, CAM_EXC.CAUSE, CAM_EXC.TASK, CAM_EXC.PC, CAM_EVT.EVT]; omega
  have hcnt : (CAM_EXC.CAUSE e).key ≠ (CAM_CNT.EXCCNT e).key ∧ (CAM_EXC.TASK e).key ≠ (CAM_CNT.EXCCNT e).key ∧
      (CAM_EXC.PC e).key ≠ (CAM_CNT.EXCCNT e).key := by
    simp only [Field.key, CAM_EXC.CAUSE, CAM_EXC.TASK, CAM_EXC.PC, CAM_CNT.EXCCNT]; omega
  have hword : (CAM_EXC.TASK e).key ≠ (CAM_EXC.CAUSE e).key ∧ (CAM_EXC.PC e).key ≠ (CAM_EXC.CAUSE e).key ∧
      (CAM_EXC.PC e).key ≠ (CAM_EXC.TASK e).key := by
    simp only [Field.key, CAM_EXC.CAUSE, CAM_EXC.TASK, CAM_EXC.PC]; omega
  simp [recordExc, State.setBit, State.addSat, State.get_set_ne, State.get_set_same, hevt, hcnt, hword]

/-- Settles O38: the record by its fields, and the entry by the vector and the room on the return stack. -/
theorem exceptionEntry : Obligations.ExceptionEntry := by
  refine ⟨fun e t cause s => ?_, fun e t cause s hv hroom => ?_, fun e t cause s hv => ?_, fun e t cause s h6 hfull => ?_⟩
  · obtain ⟨hcause, htask, hpc⟩ := recordExc_shows s e t cause
    refine ⟨hcause.trans (Nat.mod_eq_of_lt ?_), htask.trans (Nat.mod_eq_of_lt ?_), hpc, recordExc_evt s e t cause,
      recordExc_regs s e t cause⟩
    · show (cause : Nat) < 2 ^ 4
      omega
    · show (t : Nat) < 2 ^ 4
      omega
  · have hlen : ¬ 8 ≤ (if cause = 6 then [] else ((raiseExc (recordExc s e t cause) e t cause).task e t).stack).length := by
      obtain h6 | h := hroom
      · simp [h6]
      · split
        · simp
        · omega
    rw [takeExc]
    exact if_neg (not_or.mpr ⟨hv, hlen⟩)
  · rw [takeExc]
    exact if_pos (.inl hv)
  · rw [takeExc]
    refine if_pos (.inr ?_)
    rw [if_neg h6]
    exact hfull

end Sys2Proof.Machine
end

section
/-! A host's write to a register word (R14 to R18, Table 0.6): each field by its access code, and what the word
starts beside. -/

namespace Sys2Proof.Machine

/-! ### A field by its access code -/

section
variable {v m : Nat} {s : State} {f : Field}

theorem storeField_of_unreached (h : fieldPart f m = 0) : storeField v m s f = s := if_pos (.inl h)

/-- Where the write reaches a field that keeps what is written, the access code decides. -/
theorem storeField_of_reached (hcmd : f ∉ commandFields) (hkeep : keepsNothing s f = false) (hm : fieldPart f m ≠ 0) :
    storeField v m s f = match f.acc with
      | .ro => s
      | .sc => s
      | .rw => if takes f (forced f (merged f (s.get f) (fieldPart f v) (fieldPart f m))) then
          s.set f (forced f (merged f (s.get f) (fieldPart f v) (fieldPart f m))) else s
      | .rwe => if takes f (forced f (merged f (s.get f) (fieldPart f v) (fieldPart f m))) ∧ ¬ enableReads1 s f.addr then
          s.set f (forced f (merged f (s.get f) (fieldPart f v) (fieldPart f m))) else s
      | .rwl => if takes f (forced f (merged f (s.get f) (fieldPart f v) (fieldPart f m))) ∧ ¬ s.on FLT_CTRL.LOCK then
          s.set f (forced f (merged f (s.get f) (fieldPart f v) (fieldPart f m))) else s
      | .w1c => s.clearBits f (fieldPart f v &&& fieldPart f m &&& (2 ^ f.width - 1 - heldBits s f))
      | .w1s => s.set f (s.get f ||| (fieldPart f v &&& fieldPart f m)) :=
  if_neg (by simp [hcmd, hkeep, hm])

/-- A guarded or read-only field keeps its value. -/
theorem storeField_of_guarded (hcmd : f ∉ commandFields) (hkeep : keepsNothing s f = false)
    (h : f.acc = .ro ∨ f.acc = .sc ∨ (f.acc = .rwe ∧ enableReads1 s f.addr = true) ∨
      (f.acc = .rwl ∧ s.get FLT_CTRL.LOCK = 1)) : storeField v m s f = s := by
  by_cases hm : fieldPart f m = 0
  · exact storeField_of_unreached hm
  rw [storeField_of_reached hcmd hkeep hm]
  obtain h | h | ⟨h, hen⟩ | ⟨h, hlock⟩ := h
  · simp [h]
  · simp [h]
  · simp [h, hen]
  · simp [h, hlock, State.on]

/-- A field that may be written takes the value where it is one of its own. -/
theorem storeField_of_written (hcmd : f ∉ commandFields) (hkeep : keepsNothing s f = false) (hm : fieldPart f m ≠ 0)
    (h : f.acc = .rw ∨ (f.acc = .rwe ∧ enableReads1 s f.addr = false) ∨ (f.acc = .rwl ∧ s.get FLT_CTRL.LOCK ≠ 1)) :
    storeField v m s f = if takes f (forced f (merged f (s.get f) (fieldPart f v) (fieldPart f m))) = true then
      s.set f (forced f (merged f (s.get f) (fieldPart f v) (fieldPart f m))) else s := by
  rw [storeField_of_reached hcmd hkeep hm]
  obtain h | ⟨h, hen⟩ | ⟨h, hlock⟩ := h
  · simp [h]
  · simp [h, hen]
  · simp [h, hlock, State.on]

end

theorem foldl_setBitNat_lt {w : Nat} (l : List Nat) (hl : ∀ k ∈ l, k < w) {x : Nat} (hx : x < 2 ^ w) :
    l.foldl setBitNat x < 2 ^ w := by
  induction l generalizing x with
  | nil => exact hx
  | cons k l ih =>
    rw [List.foldl_cons]
    exact ih (fun j hj => hl j (List.mem_cons_of_mem _ hj))
      (Nat.or_lt_two_pow hx (Nat.pow_lt_pow_right (by omega) (hl k (List.mem_cons_self ..))))

theorem heldBits_lt (s : State) (f : Field) : heldBits s f < 2 ^ f.width := by
  unfold heldBits
  split
  next h =>
    rw [h]
    exact foldl_setBitNat_lt _ (fun k hk => List.mem_range.mp (List.mem_filter.mp hk).1) (by decide)
  next => exact Nat.two_pow_pos _

theorem testBit_allOnes_sub {x w i : Nat} (hx : x < 2 ^ w) (hi : i < w) :
    (2 ^ w - 1 - x).testBit i = !x.testBit i := by
  rw [Nat.sub_sub, Nat.add_comm 1, Nat.testBit_two_pow_sub_succ hx]
  simp [hi]

/-- A bit of a W1C field that the write reaches is lost with a written 1, unless it is held. -/
theorem storeField_w1c_testBit {v m i : Nat} {s : State} {f : Field} (hcmd : f ∉ commandFields)
    (hkeep : keepsNothing s f = false) (hacc : f.acc = .w1c) (hi : i < f.width)
    (hm : (fieldPart f m).testBit i = true) :
    ((storeField v m s f).get f).testBit i = ((s.get f).testBit i && (!(fieldPart f v).testBit i ||
      (decide (f = PH_FAULTED.MASK) && (heldBits s f).testBit i))) := by
  have hheld : (heldBits s f).testBit i = (decide (f = PH_FAULTED.MASK) && (heldBits s f).testBit i) := by
    by_cases h : f = PH_FAULTED.MASK
    · simp [h]
    · simp [heldBits, h]
  have hm0 : fieldPart f m ≠ 0 := fun h => by simp [h] at hm
  rw [storeField_of_reached hcmd hkeep hm0, hacc, ← hheld]
  dsimp only
  rw [State.clearBits, State.get_set_same, Nat.testBit_mod_two_pow, Nat.testBit_and,
    testBit_allOnes_sub (Nat.mod_lt _ (Nat.two_pow_pos _)) hi, Nat.testBit_mod_two_pow, Nat.testBit_and,
    Nat.testBit_and, testBit_allOnes_sub (heldBits_lt s f) hi, hm]
  simp [hi]

/-! ### What the word starts beside -/

theorem clearAll_get (fs : List Field) (s : State) {f : Field} (hreset : f.reset = 0) (hall : ∀ g ∈ fs, g.reset = 0)
    (h : f ∈ fs ∨ s.get f = 0) : (clearAll s fs).get f = 0 := by
  unfold clearAll State.each
  induction fs generalizing s with
  | nil => exact h.resolve_left List.not_mem_nil
  | cons g fs ih =>
    rw [List.foldl_cons]
    refine ih (s.set g 0) (fun j hj => hall j (List.mem_cons_of_mem _ hj)) ?_
    by_cases hkey : f.key = g.key
    · right
      have hget : (s.set g 0).get f = (s.set g 0).get g := by
        rw [State.get, State.get, hkey, hreset, hall g (List.mem_cons_self ..)]
      rw [hget, State.get_set_same, Nat.zero_mod]
    · rw [State.get_set_ne _ _ hkey]
      refine h.imp_left fun hmem => ?_
      obtain rfl | hmem := List.mem_cons.mp hmem
      · exact absurd rfl hkey
      · exact hmem

/-- What one CLRCNT or CLRDL bit clears in a write of the word at `a`. -/
def clearOne (a v m : Nat) (s : State) (c : Nat × Nat × List Field) : State :=
  if c.1 = a ∧ ones v m c.2.1 then clearAll s c.2.2 else s

theorem clearOne_zero {a v m : Nat} (l : List (Nat × Nat × List Field)) (s : State) {f : Field} (hreset : f.reset = 0)
    (hall : ∀ c ∈ l, ∀ g ∈ c.2.2, g.reset = 0)
    (h : (∃ c ∈ l, c.1 = a ∧ ones v m c.2.1 = true ∧ f ∈ c.2.2) ∨ s.get f = 0) :
    (State.each l (clearOne a v m) s).get f = 0 := by
  unfold State.each
  induction l generalizing s with
  | nil => exact h.resolve_left (fun ⟨c, hc, _⟩ => absurd hc List.not_mem_nil)
  | cons c l ih =>
    rw [List.foldl_cons]
    refine ih _ (fun d hd => hall d (List.mem_cons_of_mem _ hd)) ?_
    have hc := hall c (List.mem_cons_self ..)
    obtain ⟨d, hd, hda, hones, hf⟩ | hzero := h
    · obtain rfl | hd := List.mem_cons.mp hd
      · right
        rw [clearOne, if_pos ⟨hda, hones⟩]
        exact clearAll_get _ _ hreset hc (.inl hf)
      · exact .inl ⟨d, hd, hda, hones, hf⟩
    · right
      unfold clearOne
      split
      · exact clearAll_get _ _ hreset hc (.inr hzero)
      · exact hzero

theorem accepted_not_cleared : ∀ c ∈ counterClears, ∀ f ∈ c.2.2, ∀ p ∈ [0, 1], f.key ≠ (VCL_CNT0.ACCEPTED p).key := by
  decide

theorem counters_reset : ∀ c ∈ counterClears, ∀ f ∈ c.2.2, f.reset = 0 := by decide

theorem clearAccepted_get {a v m p : Nat} (s : State) {f : Field} (h : f.key ≠ (VCL_CNT0.ACCEPTED p).key) :
    (clearAccepted a v m s p).get f = s.get f := by
  unfold clearAccepted
  split
  · exact State.get_set_ne _ _ h
  · rfl

/-- A written 1 zeroes every counter that its bit names. -/
theorem clearCounters_zero {s : State} {a v m : Nat} {c : Nat × Nat × List Field} {f : Field} (hc : c ∈ counterClears)
    (ha : c.1 = a) (hones : ones v m c.2.1 = true) (hf : f ∈ c.2.2) : (clearCounters s a v m).get f = 0 := by
  have hne := accepted_not_cleared c hc f hf
  have hzero := clearOne_zero counterClears s (counters_reset c hc f hf) counters_reset (.inl ⟨c, hc, ha, hones, hf⟩)
  show (clearAccepted a v m (clearAccepted a v m (State.each counterClears (clearOne a v m) s) 0) 1).get f = 0
  rw [clearAccepted_get _ (hne 1 (by decide)), clearAccepted_get _ (hne 0 (by decide)), hzero]

/-- A word without a CLRCNT or CLRDL bit clears no counter. -/
theorem clearCounters_of_other {s : State} {a v m : Nat} (h : ∀ c ∈ counterClears, c.1 ≠ a) :
    clearCounters s a v m = s := by
  have hlist : ∀ (l : List (Nat × Nat × List Field)) (s : State), (∀ c ∈ l, c.1 ≠ a) →
      State.each l (clearOne a v m) s = s := by
    intro l
    induction l with
    | nil => exact fun s _ => rfl
    | cons c l ih =>
      intro s hl
      refine (congrArg (State.each l (clearOne a v m)) (if_neg fun hc => hl c (List.mem_cons_self ..) hc.1)).trans ?_
      exact ih s fun d hd => hl d (List.mem_cons_of_mem _ hd)
  have hport : ∀ p ∈ [0, 1], (VCL_CTRL.CLRCNT p).addr ≠ a := by
    have hmem : ∀ p ∈ [0, 1], ∃ c ∈ counterClears, c.1 = (VCL_CTRL.CLRCNT p).addr := by decide
    intro p hp
    obtain ⟨c, hc, hca⟩ := hmem p hp
    exact hca ▸ h c hc
  show clearAccepted a v m (clearAccepted a v m (State.each counterClears (clearOne a v m) s) 0) 1 = s
  rw [hlist counterClears s h]
  simp [clearAccepted, hport]

/-- The MASK bits that the lanes of a write of INTC_MASKq cover. -/
theorem maskLoop_get (base v m : Nat) (l : List Nat) (s : State) {k : Nat} (hbit : bitOf m k = 1)
    (h : k ∈ l ∨ s.get (INTC_SRC.MASK (base + k + 1)) = bitOf v k) :
    (State.each l (fun s k => if bitOf m k = 1 then s.set (INTC_SRC.MASK (base + k + 1)) (bitOf v k) else s) s).get
      (INTC_SRC.MASK (base + k + 1)) = bitOf v k := by
  unfold State.each
  induction l generalizing s with
  | nil => exact h.resolve_left List.not_mem_nil
  | cons j l ih =>
    rw [List.foldl_cons]
    refine ih _ ?_
    by_cases hj : j = k
    · right
      rw [hj, if_pos hbit, State.get_set_same]
      exact Nat.mod_eq_of_lt (Nat.mod_lt _ (by decide))
    · have hkey : (INTC_SRC.MASK (base + k + 1)).key ≠ (INTC_SRC.MASK (base + j + 1)).key := by
        simp only [Field.key, INTC_SRC.MASK]; omega
      refine h.imp (fun hmem => (List.mem_cons.mp hmem).resolve_left (Ne.symm hj)) fun hget => ?_
      split
      · rw [State.get_set_ne _ _ hkey, hget]
      · exact hget

theorem writeMasks_testBit {s : State} {a v m j k : Nat} (hj : j < 8) (ha : a = 0x2540 + 4 * j) (hk : k < 32)
    (hm : m.testBit k = true) :
    ((writeMasks s a v m).get (INTC_SRC.MASK (32 * j + k + 1))).testBit 0 = v.testBit k := by
  have hbase : 32 * j = 8 * (a - 0x2540) := by omega
  rw [writeMasks, if_pos ⟨by omega, by omega⟩, hbase,
    maskLoop_get _ v m (List.range 32) s ((bitOf_eq_one_iff m k).mpr hm) (.inl (List.mem_range.mpr hk))]
  rw [bitOf, Nat.testBit_zero, Nat.mod_mod, ← bitOf]
  exact Bool.eq_iff_iff.mpr (decide_eq_true_iff.trans (bitOf_eq_one_iff v k))

/-! ### A channel that is bound anew -/

/-- Channel `n` waits for the PGS of its output anew. -/
def unsettle (s : State) (n : Nat) : State := s.setSup n { s.supCh n with settled := false }

theorem unsettle_each (l : List Nat) (s : State) : (State.each l unsettle s).regs = s.regs ∧
    (State.each l unsettle s).mem = s.mem ∧
    ∀ n, ((State.each l unsettle s).supCh n).settled = ((s.supCh n).settled && !decide (n ∈ l)) := by
  unfold State.each
  induction l generalizing s with
  | nil => exact ⟨rfl, rfl, fun n => by simp⟩
  | cons k l ih =>
    obtain ⟨hregs, hmem, hset⟩ := ih (unsettle s k)
    rw [List.foldl_cons]
    refine ⟨hregs.trans rfl, hmem.trans rfl, fun n => ?_⟩
    rw [hset n]
    have hget : (unsettle s k).supCh n = if n = k then { s.supCh k with settled := false } else s.supCh n :=
      NMap.get_put _ _ k n _
    rw [hget]
    by_cases h : n = k <;> simp [h]

theorem rebind_eq (old : State) (a : Nat) (s : State) : rebind old a s =
    State.each ((List.range 64).filter fun n =>
      decide ((SUP_CFG.SRC n).addr = a) && decide (old.get (SUP_CFG.SRC n) ≠ s.get (SUP_CFG.SRC n))) unsettle s := rfl

theorem rebind_of_other {old s : State} {a : Nat} (h : ∀ n, n < 64 → (SUP_CFG.SRC n).addr ≠ a) : rebind old a s = s := by
  have hnil : ((List.range 64).filter fun n => decide ((SUP_CFG.SRC n).addr = a) &&
      decide (old.get (SUP_CFG.SRC n) ≠ s.get (SUP_CFG.SRC n))) = [] :=
    List.filter_eq_nil_iff.mpr fun n hn => by simp [h n (List.mem_range.mp hn)]
  rw [rebind_eq, hnil]
  rfl

/-! ### The command -/

theorem registerWrite_of_served {addr : BitVec 24} {value : Word} {lanes : BitVec 4} {s : State}
    (h : wordServed s addr.toNat = true) (hal : addr.toNat % 4 = 0) :
    exec (.registerWrite addr value lanes) s = .next
      (if addr.toNat = 0x1A28 ∧ zeros value.toNat (laneMask lanes) 31 then
        endFill ((plainWrite s addr.toNat value.toNat (laneMask lanes)).set ADC_CAP.EN 0)
      else plainWrite s addr.toNat value.toNat (laneMask lanes)) := by
  rw [exec, execRegisterWrite]
  exact congrArg Host.Outcome.next (if_pos (by simp [h, hal]))

theorem registerWrite_of_unserved {addr : BitVec 24} {value : Word} {lanes : BitVec 4} {s : State}
    (h : wordServed s addr.toNat = false ∨ addr.toNat % 4 ≠ 0) : exec (.registerWrite addr value lanes) s = .next s := by
  rw [exec, execRegisterWrite]
  refine congrArg Host.Outcome.next (if_neg ?_)
  obtain h | h := h <;> simp [h]

/-- A word that starts nothing takes each of its fields in turn. -/
theorem plainWrite_of_plain {s : State} {a v m : Nat} (h100 : a ≠ 0x0100) (hwear : a ≠ 0x2C00)
    (hkt : a < 0x2910 ∨ 0x2928 ≤ a) (hintc : a < 0x2040 ∨ 0x2560 ≤ a) (hcnt : ∀ c ∈ counterClears, c.1 ≠ a) :
    plainWrite s a v m = rebind s a (State.each (fieldsAt a) (storeField v m) s) := by
  rw [plainWrite, clearCounters_of_other hcnt, writeMasks, if_neg (by omega), afterStore, if_neg h100,
    if_neg (by omega), if_neg (by omega), if_neg hwear]
  rfl

/-- Settles O14: each field by its access code, then what the word starts beside. -/
theorem registerWriteAccess : Obligations.RegisterWriteAccess := by
  refine ⟨fun addr value lanes s h hal => registerWrite_of_served h hal,
    fun addr value lanes s h => registerWrite_of_unserved h, fun s a => ?_,
    fun addr value lanes s h hal h100 hcap hwear hkt hintc hcnt => ?_, fun s t a => ⟨rebind_of_other, ?_⟩,
    fun v m s f hcmd hkeep => ⟨storeField_of_unreached, fun h => ?_, storeField_of_written hcmd hkeep,
      fun hacc hen => ?_, fun hacc hlock => ?_, fun hm hacc => ?_⟩,
    fun v m s f i => storeField_w1c_testBit, fun s a v m c f hc ha => clearCounters_zero hc ha,
    fun s a v m j k => writeMasks_testBit⟩
  · simp [wordServed, or_assoc]
  · rw [registerWrite_of_served h hal, if_neg (fun hc => hcap hc.1), plainWrite_of_plain h100 hwear hkt hintc hcnt]
  · rw [rebind_eq]
    obtain ⟨hregs, hmem, hset⟩ := unsettle_each ((List.range 64).filter fun n =>
      decide ((SUP_CFG.SRC n).addr = a) && decide (s.get (SUP_CFG.SRC n) ≠ t.get (SUP_CFG.SRC n))) t
    refine ⟨fun g _ => State.get_of_regs hregs g, fun c => congrArg (fun mem => NMap.get 0#8 mem c) hmem, fun n hn => ?_⟩
    rw [hset n]
    simp [hn]
  · exact storeField_of_guarded hcmd hkeep (h.imp_right .inl)
  · exact storeField_of_guarded hcmd hkeep (.inr (.inr (.inl ⟨hacc, hen⟩)))
  · exact storeField_of_guarded hcmd hkeep (.inr (.inr (.inr ⟨hacc, hlock⟩)))
  · rw [storeField_of_reached hcmd hkeep hm, hacc]

end Sys2Proof.Machine
end

section
/-! The moves of the power path (Table 2.3, R55 to R65, R81, R315). -/

namespace Sys2Proof.Machine

section
variable {s : State} {cause : VauxCause} {bkb vsys : Nat}

/-- What a loss of VAUX, or a sag of VSYS alone, shows at once. -/
def lossShown (s : State) (cause : VauxCause) (bkb : Nat) : State :=
  if cause = .vsysUv then s.setPath { s.path with bkb := bkb }
  else vauxOut (s.setPath { s.path with bkb := bkb }) (decide (cause = .ov))

theorem lossShown_keeps : ppState (lossShown s cause bkb) = ppState s ∧ (lossShown s cause bkb).supply = s.supply := by
  unfold lossShown
  split
  · exact ⟨rfl, rfl⟩
  · exact ⟨State.get_set_ne _ _ (by decide), rfl⟩

/-- A loss while no reset holds, by the state of the path. -/
theorem vauxLoss_of_acts (h : pathActs s = true) : exec (.vauxLoss cause bkb vsys) s = .next
    (if ppState s = 1 ∧ cause ≠ .dip then auxFails (vauxLossEvent (lossShown s cause bkb) cause) bkb vsys
      else if ppState s = 3 ∧ (cause = .uv ∨ cause = .ov) then backToBank (vauxLossEvent (lossShown s cause bkb) cause)
      else vauxLossEvent (lossShown s cause bkb) cause) := by
  have hrun : pathRuns s = true := (Bool.and_eq_true_iff.mp h).1
  rw [exec, execVauxLoss, if_neg (by simp [hrun])]
  dsimp only
  rw [if_neg (by simp [h])]
  rfl

/-- Outside OFF and with no reset the loss raises the event of its cause. -/
theorem vauxLossEvent_raised (h : pathActs s = true) (hst : ppState s ≠ 0) :
    vauxLossEvent (lossShown s cause bkb) cause = match cause with
      | .uv => raise (lossShown s cause bkb) (ppEv 1 .warning)
      | .ov => raise (lossShown s cause bkb) (ppEv 2 .warning)
      | _ => lossShown s cause bkb := by
  obtain ⟨hpp, hsup⟩ := lossShown_keeps (s := s) (cause := cause) (bkb := bkb)
  refine if_neg ?_
  have hreset : s.supply.nreset = false := by simpa using (Bool.and_eq_true_iff.mp h).2
  simp [hpp, hsup, hst, hreset]

/-- While a reset holds a loss acts only where VSYS has collapsed. -/
theorem vauxLoss_of_reset (hrun : pathRuns s = true) (h : s.supply.nreset = true) : exec (.vauxLoss cause bkb vsys) s =
    .next (if ppState s ≠ 0 ∧ vsys < 5700 then powerLoss (lossShown s cause bkb) else lossShown s cause bkb) := by
  obtain ⟨-, hsup⟩ := lossShown_keeps (s := s) (cause := cause) (bkb := bkb)
  have hevent : vauxLossEvent (lossShown s cause bkb) cause = lossShown s cause bkb := if_pos (.inr (hsup ▸ h))
  have hacts : pathActs s = false := by simp [pathActs, h]
  rw [exec, execVauxLoss, if_neg (by simp [hrun])]
  dsimp only
  rw [if_pos (by simp [hacts])]
  refine congrArg Host.Outcome.next ?_
  rw [← hevent]
  simp only [vsysCollapsed, decide_eq_true_eq]
  rfl

/-- A VSYS that sags on the bank is a power loss, and so is one that has collapsed in any state. -/
theorem vsysUv_other (h : pathActs s = false ∨ ppState s ≠ 2 ∨ s.path.act.vsysUv * 250 ≤ vsys) :
    exec (.vsysUv vsys) s = .next (if ppState s ≠ 0 ∧ vsys < 5700 then powerLoss s else s) := by
  have hno : ¬ (pathActs s = true ∧ ppState s = 2 ∧ vsys < s.path.act.vsysUv * 250) := by
    rintro ⟨hacts, hst, hlow⟩
    obtain h | h | h := h
    · exact absurd hacts (by simp [h])
    · exact h hst
    · omega
  rw [exec, execVsysUv, if_neg hno]
  simp [vsysCollapsed]

theorem vauxQualified_other (h : pathActs s = false ∨ s.path.rangeSince = none ∨ ppState s = 0 ∨
    (s.path.qualified = true ∧ onAux s = true)) : exec .vauxQualified s = .next s := by
  rw [exec, execVauxQualified]
  split
  · rfl
  next t ht =>
    refine if_pos ?_
    obtain h | h | h | h := h
    · exact .inl (by simp [h])
    · exact absurd (ht.symm.trans h) (by simp)
    · exact .inr (.inl h)
    · exact .inr (.inr h)

theorem vauxQualified_of_range {t : Nat} (hacts : pathActs s = true) (ht : s.path.rangeSince = some t)
    (hst : ppState s ≠ 0) (hq : s.path.qualified = false ∨ onAux s = false) :
    exec .vauxQualified s = .next (returnIfAllowed (notice
      ((s.expire (deadlineAt t (s.path.act.auxQual * 1000))).setPath
        { (s.expire (deadlineAt t (s.path.act.auxQual * 1000))).path with qualified := true }) (ppEv 3 .notice))) := by
  have hno : ¬ ((!pathActs s) = true ∨ ppState s = 0 ∨ (s.path.qualified = true ∧ onAux s = true)) := by
    obtain hq | hq := hq <;> simp [hacts, hst, hq]
  rw [exec, execVauxQualified]
  simp only [ht]
  exact if_neg hno

theorem bankLow_other (h : ppState s ≠ 2 ∨ s.path.lowRaised = true ∨
    s.get CHG_BANK.CELLS * (s.get CHG_VTHR.VCUT_CELL + 100) ≤ bkb) : exec (.bankLow bkb) s = .next (bankAt s bkb) := by
  rw [exec, execBankLow]
  refine congrArg Host.Outcome.next (if_neg ?_)
  rintro ⟨-, hst, hraised, hlow⟩
  obtain h | h | h := h
  · exact h hst
  · exact hraised h
  · omega

theorem bankCutoff_other (h : pathActs s = false ∨ ppState s ≠ 2 ∨ bankCut s ≤ bkb) :
    exec (.bankCutoff bkb) s = .next (bankAt s bkb) := by
  rw [exec, execBankCutoff]
  refine congrArg Host.Outcome.next (if_neg ?_)
  rintro ⟨hacts, hst, hlow⟩
  obtain h | h | h := h
  · exact absurd hacts (by simp [h])
  · exact h hst
  · omega

end

/-- Settles O19: a lemma for each row of Table 2.3, applied in the states of its clauses. -/
theorem powerPathMoves : Obligations.PowerPathMoves := by
  refine ⟨fun cause bkb vsys s h hst hc => ?_, fun bkb vsys s h hst => ?_, fun bkb vsys s h => ?_,
    fun bkb vsys s h hst => ⟨?_, ?_⟩, fun cause bkb vsys s h h1 h3 => ?_, fun bkb vsys s h hst => ?_,
    fun cause bkb vsys s h hreset => vauxLoss_of_reset h hreset, fun cause bkb vsys s h => ⟨?_, ?_⟩,
    fun bkb vsys s => ⟨fun h => ?_, fun hb hv hsnow => ?_, fun hb hv hsnow => ?_⟩,
    fun s st bkb vsys => ⟨rfl, fun h => if_pos h, fun h => ?_, fun hlo hhi => ?_, rfl⟩,
    fun vsys s h hst hlow => ?_, fun vsys s h => ⟨fun hst hlow => ?_, fun hn => ?_⟩,
    fun s h => ⟨fun hn => ?_, fun t ht => ?_⟩, fun t s h ht hst hq => vauxQualified_of_range h ht hst hq,
    fun s h => vauxQualified_other h, fun s => ⟨fun hst hlock => ?_, fun h => ?_⟩, fun s => ⟨fun h => ?_, fun h => ?_⟩,
    fun s h => ⟨fun hst => ?_, fun hst => ?_, fun hst => ?_⟩, fun bkb s h => ⟨?_, ?_, bankCutoff_other (.inl h)⟩,
    fun bkb s h hst hraised hlow => ?_, fun bkb s h => bankLow_other h,
    fun bkb s h => ⟨fun hst hlow => ?_, fun hn => bankCutoff_other (.inr hn)⟩,
    fun s h => ⟨fun hst => ?_, fun hst => ?_, fun haux hst => ?_⟩, fun s => ⟨fun h => ?_, fun h => ?_, fun h => ?_⟩⟩
  · have hdip : cause ≠ .dip := by rintro rfl; obtain hc | hc := hc <;> cases hc
    have hst' : ppState s = 1 := hst
    rw [vauxLoss_of_acts h, if_pos ⟨hst', hdip⟩, vauxLossEvent_raised h (by omega)]
    obtain rfl | rfl := hc <;> rfl
  · have hst' : ppState s = 1 := hst
    rw [vauxLoss_of_acts h, if_pos ⟨hst', by decide⟩, vauxLossEvent_raised h (by omega)]
    rfl
  · rw [vauxLoss_of_acts h, if_neg (by simp), if_neg (by simp)]
    by_cases hst : ppState s = 0
    · exact congrArg Host.Outcome.next (if_pos (.inl (lossShown_keeps.1.trans hst)))
    · rw [vauxLossEvent_raised h hst]
      rfl
  · have hst' : ppState s = 3 := hst
    rw [vauxLoss_of_acts h, if_neg (by simp [hst']), if_pos ⟨hst', .inl rfl⟩, vauxLossEvent_raised h (by omega)]
    rfl
  · have hst' : ppState s = 3 := hst
    rw [vauxLoss_of_acts h, if_neg (by simp [hst']), if_pos ⟨hst', .inr rfl⟩, vauxLossEvent_raised h (by omega)]
    rfl
  · rw [vauxLoss_of_acts h, if_neg (fun hc => h1 hc.1), if_neg (fun hc => h3 hc.1)]
    rfl
  · have hst' : ppState s = 3 := hst
    rw [vauxLoss_of_acts h, if_neg (by simp [hst']), if_neg (by simp), vauxLossEvent_raised h (by omega)]
    rfl
  · rw [exec, execVauxLoss, if_pos (by simp [h])]
  · simp [exec, execVauxRise, h]
  · obtain h | h := h <;> simp [auxFails, vsysCollapsed, h]
  · simp [auxFails, vsysCollapsed, hb, Nat.not_lt.mpr hv, State.on, hsnow]
  · simp [auxFails, vsysCollapsed, hb, Nat.not_lt.mpr hv, State.on, hsnow, enterBank]
  · rw [bankPair, if_neg (by omega), if_pos h]
  · rw [bankPair, if_neg (by omega), if_neg (by omega)]
  · rw [exec, execVsysUv, if_pos ⟨h, hst, hlow⟩]
  · rw [vsysUv_other h, if_pos ⟨hst, hlow⟩]
  · rw [vsysUv_other h, if_neg]
    rintro ⟨hst, hlow⟩
    obtain hn | hn := hn
    · exact hst hn
    · omega
  · simp [exec, execVauxRise, h, hn]
  · simp [exec, execVauxRise, ht]
  · obtain hst | ⟨hst, hret⟩ := hst <;> simp [returnIfAllowed, enterReturn, ppState, State.on, hst, hlock]
    simp [hret]
  · refine if_neg ?_
    obtain ⟨h2, h4⟩ | h := h
    · obtain h4 | h4 := h4 <;> simp [ppState, h2, h4]
    · simp [State.on, h]
  · simp [exec, execReturnOverlapEnd, ppState, h]
  · simp [exec, execReturnOverlapEnd, ppState, h]
  · obtain hst | hst := hst <;> simp [exec, execBkbOc, onBank, ppState, h, hst]
  · simp [exec, execBkbOc, onBank, ppState, h, hst]
  · have hno : s.get PP_STATUS.STATE ≠ 2 ∧ s.get PP_STATUS.STATE ≠ 3 ∧ s.get PP_STATUS.STATE ≠ 4 := by omega
    simp [exec, execBkbOc, onBank, ppState, hno]
  · simp [exec, execBkbOc, h]
  · simp [exec, execBankLow, bankAt, h]
  · rw [exec, execBankLow]
    exact congrArg Host.Outcome.next (if_pos ⟨h, hst, by simp [hraised], hlow⟩)
  · rw [exec, execBankCutoff]
    exact congrArg Host.Outcome.next (if_pos ⟨h, hst, hlow⟩)
  · simp [exec, execSnowdropEnter, h, ppState, hst]
  · have hst : ppState s ≠ 2 := fun h2 => by simp [onAux, h2] at hst
    simp_all [exec, execSnowdropEnter]
  · have hst' : ppState s ≠ 2 := hst
    simp [exec, execSnowdropEnter, h, hst', haux]
  · simp [exec, execSnowdropEnter, h]
  · simp [exec, execShutdownTimeout, ppState, h]
  · simp [exec, execShutdownTimeout, ppState, h]

end Sys2Proof.Machine
end

section
/-! The pairs, the current limit and the commands of the power path (R53 to R61, R85), and the times of PWRBTN
(Table 2.9, R79). -/

namespace Sys2Proof.Machine

/-! ### The power path's devices -/

theorem pairReverseBlock_of_pair (p : FetPair) (s : State) :
    (pairOf s p ≠ .off → exec (.pairReverseBlock p) s = .next (setPair s p .blocking)) ∧
      (pairOf s p = .off → exec (.pairReverseBlock p) s = .next s) := by
  rw [exec, execPairReverseBlock]
  exact ⟨fun h => congrArg Host.Outcome.next (if_neg h), fun h => congrArg Host.Outcome.next (if_pos h)⟩

theorem pairForwardOn_of_pair (p : FetPair) (s : State) :
    (pairOf s p = .blocking → pairEnabled s p = true → exec (.pairForwardOn p) s = .next (setPair s p .on)) ∧
      (pairOf s p ≠ .blocking ∨ pairEnabled s p = false → exec (.pairForwardOn p) s = .next s) := by
  rw [exec, execPairForwardOn]
  refine ⟨fun h hen => congrArg Host.Outcome.next (if_pos ⟨h, hen⟩), fun h => congrArg Host.Outcome.next (if_neg ?_)⟩
  rintro ⟨hblock, hen⟩
  obtain h | h := h
  · exact h hblock
  · exact absurd hen (by simp [h])

/-- The third trip within 10 s sets LOCKOUT (R61). -/
theorem countTrip_eq {s : State} {trips : List Nat}
    (h : trips = s.now :: s.path.soaTrips.filter fun t => decide (s.now ≤ t + 1000000000)) :
    countTrip s = if 3 ≤ trips.length ∧ ¬ s.on PP_STATUS.LOCKOUT then
        raise ((s.setPath { s.path with soaTrips := trips, soaSince := none }).set PP_STATUS.LOCKOUT 1) (ppEv 13 .fault)
      else s.setPath { s.path with soaTrips := trips, soaSince := none } := by
  subst h
  rfl

/-- Settles O20: each row in the states where it acts and in the others. -/
theorem powerPathDevices : Obligations.PowerPathDevices := by
  refine ⟨fun s => ?_, fun s => ?_, fun s => ⟨fun h => ?_, fun h => ?_⟩,
    fun s => ⟨fun hacts haux hlim => ?_, fun h => ?_, rfl⟩, fun bkb vsys t s hacts ht => ?_, fun bkb vsys s h => ?_,
    fun s trips htrips => ⟨fun h => ?_, fun hlen hlock => ?_⟩, fun s hrun => ⟨fun h => ?_, fun h => ?_⟩,
    fun s hrun => ⟨fun h => ?_, fun t ht => ?_⟩, fun s hrun => ⟨?_, ?_⟩⟩
  · obtain ⟨hvaux, hvauxOff⟩ := pairReverseBlock_of_pair .vaux s
    obtain ⟨hbank, hbankOff⟩ := pairReverseBlock_of_pair .bank s
    exact ⟨hvaux, hbank, hvauxOff, hbankOff⟩
  · obtain ⟨hvaux, hvauxNo⟩ := pairForwardOn_of_pair .vaux s
    obtain ⟨hbank, hbankNo⟩ := pairForwardOn_of_pair .bank s
    refine ⟨hvaux, hvauxNo, hbank, hbankNo, ?_, ?_⟩
    · simp only [onAux, Bool.or_eq_true, decide_eq_true_eq]
      exact Iff.rfl
    · simp only [pairEnabled, onBank, Bool.or_eq_true, decide_eq_true_eq]
      unfold ppState
      omega
  · simp [exec, execBankPairFullEnhance, setPair, h]
  · simp [exec, execBankPairFullEnhance, h]
  · simp [exec, execIlimAct, hacts, haux, State.on, hlim]
  · obtain h | h | h := h <;> simp [exec, execIlimAct, State.on, h]
  · simp [exec, execIlimSoa, ht, hacts, ppState]
  · rw [exec, execIlimSoa]
    split
    · rfl
    next t ht =>
      obtain h | h := h
      · simp [h]
      · exact absurd (ht.symm.trans h) (by simp)
  · rw [countTrip_eq htrips, if_neg]
    rintro ⟨hlen, hlock⟩
    obtain h | h := h
    · omega
    · exact hlock (decide_eq_true h)
  · rw [countTrip_eq htrips, if_pos ⟨hlen, by simp [State.on, hlock]⟩]
  · simp [exec, execPpApply, hrun, ppCommit, h]
  · simp [exec, execPpApply, hrun, ppCommit, h]
  · simp [exec, execPpClrflt, hrun, h]
  · simp [exec, execPpClrflt, hrun, ht]
  · simp [exec, execPpApply, hrun]
  · simp [exec, execPpClrflt, hrun]

/-! ### The button -/

theorem btnRelease_other {held : Nat} {s : State} (h : s.path.pressAt = none ∨ k0Runs s = false ∨ held < 50 ∨
    s.get PP_BTN.LONG * 1000 ≤ held) :
    exec (.btnRelease held) s = .next (s.setPath { s.path with pressAt := none, warned := false }) := by
  have hno : (s.path.pressAt.isSome && k0Runs s && decide (50 ≤ held) &&
      decide (held < s.get PP_BTN.LONG * 1000)) = false := by
    obtain h | h | h | h := h
    · simp [h]
    · simp [h]
    · simp [Nat.not_le.mpr h]
    · simp [Nat.not_lt.mpr h]
  rw [exec, execBtnRelease, hno]
  rfl

theorem btnLongWarn_other {held : Nat} {s : State} (h : s.path.pressAt = none ∨
    held < (s.get PP_BTN.LONG - 2) * 1000 ∨ s.path.warned = true ∨ k0Runs s = false) :
    exec (.btnLongWarn held) s = .next s := by
  have hno : (pressed s held ((s.get PP_BTN.LONG - 2) * 1000) && !s.path.warned && k0Runs s) = false := by
    obtain h | h | h | h := h
    · simp [pressed, h]
    · simp [pressed, Nat.not_le.mpr h]
    · simp [h]
    · simp [h]
  rw [exec, execBtnLongWarn, hno]
  rfl

/-- A wake that the button or VAUX may make, by what the device waits in. -/
theorem snowdropWake_of_wake {press : Option Nat} {s : State} (hrel : s.supply.released = true)
    (hpress : ∀ held, press = some held → s.path.pressAt.isSome = true ∧ s.get PP_BTN.SNOW_BTN * 100 ≤ held) :
    exec (.snowdropWake press) s = .next
      (let s1 := { s with supply := { s.supply with vauxDet := s.supply.vauxDet || !press.isSome } }
      let s2 := s1.setSys { s1.sys with bankWake := s1.sys.bankWake || press.isSome }
      if s.path.off = .snowdrop then startIfReleased (s2.set SYS_RSTCAUSE.SNOW_WAKE 1)
      else if s.path.off = .start ∧ phaseNow s = 0 then s2
      else s) := by
  have hwake : (press.any fun held => !wakePress s held) = false := by
    cases press with
    | none => rfl
    | some held =>
      obtain ⟨hsome, hle⟩ := hpress held rfl
      simp [wakePress, pressed, hsome, hle]
  rw [exec, execSnowdropWake, hrel, hwake]
  rfl

/-- Settles O21: the press, its release, its warning and its wake. -/
theorem buttonTimes : Obligations.ButtonTimes := by
  refine ⟨fun s => ⟨fun h => ?_, fun h => ?_⟩, fun held s hp hrun hlo hhi => ?_, fun held s => btnRelease_other,
    fun held s hp hle hw hrun => ?_, fun held s => btnLongWarn_other,
    fun press s hrel hpress => ⟨fun hoff => ?_, fun hoff hph => ?_, fun hoff hph => ?_, fun hoff => ?_⟩,
    fun held s h => ?_⟩
  · simp [exec, execBtnPress, h]
  · simp [exec, execBtnPress, h]
  · simp [exec, execBtnRelease, hp, hrun, hlo, hhi]
  · simp [exec, execBtnLongWarn, pressed, hp, hle, hw, hrun]
  · rw [snowdropWake_of_wake hrel hpress]
    exact congrArg Host.Outcome.next (if_pos hoff)
  · rw [snowdropWake_of_wake hrel hpress]
    simp [hoff, phaseNow, hph]
  · rw [snowdropWake_of_wake hrel hpress]
    simp [hoff, phaseNow, hph]
  · rw [snowdropWake_of_wake hrel hpress]
    simp [hoff]
  · have hno : (!s.supply.released || (some held).any fun held => !wakePress s held) = true := by
      obtain h | h | h := h <;> simp [wakePress, pressed, h]
    rw [exec, execSnowdropWake, hno]
    rfl

end Sys2Proof.Machine
end

section
/-! The charger's states, its safety timer and its current target (Table 2.7, R67 to R77, R83). -/

namespace Sys2Proof.Machine

section
variable {s : State} {bkb rise current start drop : Nat}

/-! ### The states of the charger -/

theorem probeStart_other (h : chgRuns s = false ∨ s.charger.probe = true ∨ chgState s ∉ [1, 6, 8, 10]) :
    exec .probeStart s = .next s := by
  have hno : (chgRuns s && !s.charger.probe && decide (chgState s ∈ [1, 6, 8, 10])) = false := by
    obtain h | h | h := h <;> simp [h]
  rw [exec, execProbeStart]
  exact congrArg Host.Outcome.next (if_neg (by simp only [hno]; decide))

theorem probeEnd_of_runs (hp : s.charger.probe = true) (hrun : chgRuns s = true) :
    exec (.probeEnd start drop) s = .next
      (let s0 := s.expire (s.charger.probeAt + 2000000)
      let s1 := s0.setChg { s0.charger with probe := false, terminating := false }
      if 50 < drop then chgMissing (s1.setWear { s1.wear with qKnown := false })
      else probePresent s1 start (decide (start < cellsOf s CHG_VTHR.VSHORT_CELL))
        s.charger.terminating) := by
  rw [exec, execProbeEnd, hp, hrun]
  rfl

theorem chgIn_of_runs {st : Nat} (hrun : chgRuns s = true) (hst : chgState s = st) : chgIn s st = true := by
  simp [chgIn, hrun, hst]

theorem chgIn_eq_false {st : Nat} (h : chgRuns s = false ∨ chgState s ≠ st) : chgIn s st = false := by
  obtain h | h := h <;> simp [chgIn, h]

/-- CLRFLT leads TIMEOUT and BANK_SHORT of a running charger to DETECT. -/
theorem chgClrflt_of_runs (hv : vsysRuns s = true) : exec .chgClrflt s = .next
    (if chgRuns s = true ∧ chgState s ∈ [9, 10] then
      chgEnter (s.setChg { s.charger with timeoutL := false, shortL := false, probe := false }) 1
    else s.setChg { s.charger with timeoutL := false, shortL := false }) := by
  have hcond : (chgRuns s && decide (chgState s ∈ [9, 10])) = true ↔
      chgRuns s = true ∧ chgState s ∈ [9, 10] := by
    rw [Bool.and_eq_true, decide_eq_true_eq]
  rw [exec, execChgClrflt, hv]
  refine congrArg Host.Outcome.next ((if_neg (by decide)).trans ?_)
  by_cases h : chgRuns s = true ∧ chgState s ∈ [9, 10]
  · rw [if_pos h, if_pos (hcond.mpr h)]
    rfl
  · rw [if_neg h, if_neg (fun hc => h (hcond.mp hc))]

theorem prechargeExit_other (h : chgRuns s = false ∨ chgState s ≠ 2 ∨
    bkb < cellsOf s CHG_VREG.VPRE_CELL) : exec (.prechargeExit bkb) s = .next s := by
  have hno : (chgIn s 2 && decide (cellsOf s CHG_VREG.VPRE_CELL ≤ bkb)) = false := by
    obtain h | h | h := h
    · simp [chgIn_eq_false (.inl h)]
    · simp [chgIn_eq_false (.inr h)]
    · simp [h]
  rw [exec, execPrechargeExit, hno]
  rfl

theorem bankShortDetect_other (h : chgRuns s = false ∨ chgState s ≠ 2 ∨
    cellsOf s CHG_VTHR.VSHORT_CELL ≤ bkb) : exec (.bankShortDetect bkb) s = .next s := by
  have hno : (chgIn s 2 && decide (bkb < cellsOf s CHG_VTHR.VSHORT_CELL)) = false := by
    obtain h | h | h := h
    · simp [chgIn_eq_false (.inl h)]
    · simp [chgIn_eq_false (.inr h)]
    · simp [h]
  rw [exec, execBankShortDetect, hno]
  rfl

theorem chgCvEntry_other (h : chgRuns s = false ∨ chgState s ≠ 3 ∨
    bkb < cellsOf s CHG_VREG.VREG_CELL) : exec (.chgCvEntry bkb) s = .next s := by
  have hno : (chgIn s 3 && decide (cellsOf s CHG_VREG.VREG_CELL ≤ bkb)) = false := by
    obtain h | h | h := h
    · simp [chgIn_eq_false (.inl h)]
    · simp [chgIn_eq_false (.inr h)]
    · simp [h]
  rw [exec, execChgCvEntry, hno]
  rfl

theorem chgTermination_other (h : chgRuns s = false ∨ chgState s ≠ 4 ∨ s.get CHG_STATUS.LIMIT ≠ 0 ∨
    s.charger.taken.iterm * 10 ≤ current) : exec (.chgTermination current) s = .next s := by
  have hno : (chgIn s 4 && decide (s.get CHG_STATUS.LIMIT = 0) &&
      decide (current < s.charger.taken.iterm * 10)) = false := by
    obtain h | h | h | h := h
    · simp [chgIn_eq_false (.inl h)]
    · simp [chgIn_eq_false (.inr h)]
    · simp [h]
    · simp [h]
  rw [exec, execChgTermination, hno]
  rfl

theorem rechargeStart_other (h : chgRuns s = false ∨ chgState s ≠ 6 ∨ s.get CHG_CTRL.RECHG_EN ≠ 1 ∨
    cellsOf s CHG_VREG.VREG_CELL ≤ bkb + cellsOf s CHG_VTHR.VRECH_CELL) :
    exec (.rechargeStart bkb) s = .next s := by
  have hno : (chgIn s 6 && s.on CHG_CTRL.RECHG_EN &&
      decide (bkb + cellsOf s CHG_VTHR.VRECH_CELL < cellsOf s CHG_VREG.VREG_CELL)) = false := by
    obtain h | h | h | h := h
    · simp [chgIn_eq_false (.inl h)]
    · simp [chgIn_eq_false (.inr h)]
    · simp [State.on, h]
    · simp [h]
  rw [exec, execRechargeStart, hno]
  rfl

theorem bankRemoval_other (h : chgRuns s = false ∨ chgState s < 2 ∨ 5 < chgState s ∨
    removalSeen s bkb rise current = false) : exec (.bankRemoval bkb rise current) s = .next s := by
  have hno : (chgRuns s && charges (chgState s) && removalSeen s bkb rise current) = false := by
    obtain h | h | h | h := h
    · simp [h]
    · simp [charges, Nat.not_le.mpr h]
    · simp [charges, Nat.not_le.mpr h]
    · simp [h]
  rw [exec, execBankRemoval, hno]
  rfl

theorem chgTimeout_other (h : chgRuns s = false ∨ chgState s < 2 ∨ 4 < chgState s ∨
    s.get CHG_TELAPSED.ELAPSED < 120 * s.charger.taken.tsafe) : exec .chgTimeout s = .next s := by
  have hno : (chgRuns s && decide (2 ≤ chgState s) && decide (chgState s ≤ 4) &&
      decide (120 * s.charger.taken.tsafe ≤ s.get CHG_TELAPSED.ELAPSED)) = false := by
    obtain h | h | h | h := h
    · simp [h]
    · simp [Nat.not_le.mpr h]
    · simp [Nat.not_le.mpr h]
    · simp [Nat.not_le.mpr h]
  rw [exec, execChgTimeout]
  exact congrArg Host.Outcome.next (if_neg (by simp only [hno]; decide))

end

/-- Settles O22: each row of Table 2.7 in its state and level, and in every other. -/
theorem chargerStates : Obligations.ChargerStates := by
  refine ⟨fun s => ⟨fun hen hs hr => ?_, fun hs => ?_, fun hen hs hr => ?_, fun hen => ⟨?_, ?_⟩, fun hen => ?_⟩,
    fun s hrun hp hst => ?_, fun s => probeStart_other,
    fun start drop s hp hrun => ⟨fun hd => ?_, fun hd => ?_⟩, fun start drop s h => ?_,
    fun bkb s hrun hst => ⟨fun hb => ?_, fun hb => ?_⟩, fun bkb s hrun hst hb => ?_,
    fun current s hrun hst hl hc => ?_, fun s hrun hst => ?_, fun bkb s hrun hst hen hb => ?_,
    fun bkb rise current s hrun h2 h5 hseen => ?_, fun bkb rise current v s hv => ?_,
    fun s hrun h2 h4 hel => ?_, fun s => ⟨fun hv => ?_, fun hv hrun hst => ?_, fun hv h => ?_⟩,
    fun bkb rise current s => ⟨prechargeExit_other, bankShortDetect_other, chgCvEntry_other, chgTermination_other,
      fun h => ?_, rechargeStart_other, bankRemoval_other, chgTimeout_other⟩⟩
  · simp [exec, execChgEnable, State.on, hen, hs, chgEnable, hr]
  · simp [exec, execChgEnable, hs]
  · simp [exec, execChgEnable, State.on, hen, hs, chgEnable, hr]
  · simp [exec, execChgEnable, State.on, hen]
  · simp [exec, execChgDisable, State.on, hen]
  · simp [exec, execChgDisable, State.on, hen]
  · have hst' : chgState s = 1 ∨ chgState s = 6 ∨ chgState s = 8 ∨ chgState s = 10 := hst
    obtain hst | hst | hst | hst := hst' <;> simp [exec, execProbeStart, hrun, hp, hst]
  · rw [probeEnd_of_runs hp hrun]
    exact congrArg Host.Outcome.next (if_pos hd)
  · rw [probeEnd_of_runs hp hrun]
    exact congrArg Host.Outcome.next (if_neg (Nat.not_lt.mpr hd))
  · obtain h | h := h <;> simp [exec, execProbeEnd, h]
  · simp [exec, execPrechargeExit, chgIn_of_runs hrun hst, show cellsOf s CHG_VREG.VPRE_CELL ≤ bkb from hb]
  · simp [exec, execBankShortDetect, chgIn_of_runs hrun hst, show bkb < cellsOf s CHG_VTHR.VSHORT_CELL from hb]
  · simp [exec, execChgCvEntry, chgIn_of_runs hrun hst, show cellsOf s CHG_VREG.VREG_CELL ≤ bkb from hb]
  · simp [exec, execChgTermination, chgIn_of_runs hrun hst, hl, hc]
  · simp [exec, execTopoffEnd, chgIn_of_runs hrun hst]
  · rw [exec, execRechargeStart, chgIn_of_runs hrun hst]
    exact congrArg Host.Outcome.next (if_pos (by simp [State.on, hen]; exact hb))
  · simp [exec, execBankRemoval, hrun, charges, show 2 ≤ chgState s from h2, show chgState s ≤ 5 from h5, hseen]
  · subst hv
    simp only [removalSeen, Bool.and_eq_true, Bool.or_eq_true, decide_eq_true_eq]
    exact Iff.rfl
  · simp [exec, execChgTimeout, hrun, show 2 ≤ chgState s from h2, show chgState s ≤ 4 from h4, hel]
  · simp [exec, execChgClrflt, hv]
  · rw [chgClrflt_of_runs hv, if_pos ⟨hrun, by obtain h | h := hst <;> simp [chgState, h]⟩]
  · rw [chgClrflt_of_runs hv, if_neg]
    rintro ⟨hrun, hst⟩
    obtain h | h := h
    · exact absurd hrun (by simp [h])
    · exact h hst
  · simp [exec, execTopoffEnd, chgIn_eq_false h]

/-! ### The safety timer and the target -/

section
variable {s : State} {actual cv iVaux iChgIn vsys vBank bkb : Nat}

theorem timerRate_of_demand {demand : Nat} (i : Nat) (h : 0 < demand) : timerRate actual demand i =
    if demand ≤ 2 * actual then 2 else if demand ≤ 5 * actual then 1 else 0 := if_neg (by omega)

/-- Outside the charging states a recomputation leaves no target. -/
theorem chgTargetRecompute_idle (hv : vsysRuns s = true)
    (h : chgRuns s = false ∨ chgState s < 2 ∨ 5 < chgState s) :
    ∃ t, exec (.chgTargetRecompute iVaux iChgIn vsys vBank cv) s = .next (t.set CHG_STATUS.LIMIT 0) ∧
      t.charger.target = (0, 1) ∧ t.charger.switching = false ∧ t.free = s.free + 1 ∧ t.regs = s.regs ∧
      t.now = s.now ∧ SameMemory s t := by
  have hno : (charges (chgState s) && chgRuns s) = false := by
    obtain h | h | h := h
    · simp [h]
    · simp [charges, Nat.not_le.mpr h]
    · simp [charges, Nat.not_le.mpr h]
  rw [exec, execChgTargetRecompute, hv, hno]
  exact ⟨_, rfl, rfl, rfl, rfl, rfl, rfl, fun _ => rfl⟩

end

/-- Settles O23: the timer's tick, the suspension, the recomputation and its deadline. -/
theorem chargerTarget : Obligations.ChargerTarget := by
  refine ⟨fun actual cv s hv h => ?_, fun actual cv s hv h2 h4 => ?_, fun actual demand i => timerRate_of_demand i,
    fun on s hv => ?_, fun actual cv iVaux iChgIn vsys vBank bkb on s hv => ⟨?_, ?_, ?_, ?_⟩,
    fun iVaux iChgIn vsys vBank cv s => chgTargetRecompute_idle, fun iVaux iChgIn vsys vBank cv s hv hrun h2 h5 => ?_,
    fun bkb s => ⟨fun hv hb => ?_, fun hb => ?_, fun hrun => ?_, fun hrun => ?_⟩⟩
  · have hno : (decide (2 ≤ chgState s) && decide (chgState s ≤ 4)) = false := by
      have h' : chgState s < 2 ∨ 4 < chgState s := h
      obtain h | h := h' <;> simp [Nat.not_le.mpr h]
    simp [exec, execSafetyTimerTick, State.fresh, hv, hno]
  · simp [exec, execSafetyTimerTick, State.fresh, hv, show 2 ≤ chgState s from h2, show chgState s ≤ 4 from h4]
  · simp [exec, execChgHostSuspend, hv]
  · simp [exec, execSafetyTimerTick, hv]
  · simp [exec, execChgHostSuspend, hv]
  · simp [exec, execChgTargetRecompute, hv]
  · simp [exec, execChgOv, hv]
  · have hgo : (charges (chgState s) && chgRuns s) = true := by
      simp [charges, show 2 ≤ chgState s from h2, show chgState s ≤ 5 from h5, hrun]
    rw [exec, execChgTargetRecompute, hv, hgo]
    simp only [Bool.and_eq_true, decide_eq_true_eq]
    rfl
  · simp [exec, execChgOv, hv, cellsOf, hb]
  · rw [exec, execChgOv, if_neg]
    rintro ⟨-, hlow⟩
    rw [cellsOf] at hlow
    omega
  · simp [exec, execChgDeadline, hrun]
  · simp [exec, execChgDeadline, hrun]

end Sys2Proof.Machine
end

section
/-! The sequence of a loop from START to REGULATE and its periods (R92, R93, R105 to R108, R125). -/

namespace Sys2Proof.Machine

theorem sat10_bounds (x : Int) : -512 ≤ sat10 x ∧ sat10 x ≤ 511 := by
  unfold sat10
  omega

/-- Settles O24: each row in the states where it acts and in the others. -/
theorem loopSequence : Obligations.LoopSequence := by
  refine ⟨fun n s => ⟨fun h => ?_, fun h => ?_⟩, fun n s => ⟨fun h => ?_, fun h => ?_⟩, fun n vsns s h => ⟨?_, ?_⟩,
    fun n vsns s h => ?_, fun n s h => ?_, fun n s h => ?_, fun n s => ⟨fun h => ?_, fun h => ?_⟩⟩
  · rw [exec, execLoopSwitchingStart, if_pos h]
  · rw [exec, execLoopSwitchingStart, if_neg h]
  · rw [exec, execLoopRampEnd, if_pos h]
  · rw [exec, execLoopRampEnd, if_neg h]
  · rw [exec, execLoopPeriodStart, if_pos h]
  · exact sat10_bounds _
  · rw [exec, execLoopPeriodStart, if_neg (by simp [h])]
  · rw [exec, execCompDeadline, if_neg (by simp [h])]
  · rw [exec, execCompDeadline, if_pos h]
  · rw [exec, execLoopEstimateWindow]
    exact congrArg Host.Outcome.next (if_pos h)
  · rw [exec, execLoopEstimateWindow]
    exact congrArg Host.Outcome.next (if_neg (by simp [h]))

end Sys2Proof.Machine
end

section
/-! The pulses of a phase: turn-on, turn-off, the negative current limit and truncation (R94 to R96, R105, R115 to
R120). -/

namespace Sys2Proof.Machine

/-- A quotient rounded to nearest is within half of the divisor. -/
theorem nearest_bounds {d : Nat} (a : Nat) (hd : 0 < d) :
    2 * a ≤ (2 * nearest a d + 1) * d ∧ 2 * nearest a d * d ≤ 2 * a + d := by
  have hle := Nat.div_mul_le_self (2 * a + d) (2 * d)
  have hlt := Nat.lt_div_mul_add (a := 2 * a + d) (b := 2 * d) (by omega)
  have hprod : nearest a d * (2 * d) = 2 * (nearest a d * d) := Nat.mul_left_comm ..
  rw [← nearest, hprod] at hle hlt
  rw [Nat.add_mul, Nat.mul_assoc]
  omega

theorem slotAt_sub (s : State) (n j : Nat) : slotAt s n j - (s.loop n).periodAt * 64 =
    nearest (j * 6400000) (s.get (LP_PWM.FSW n) * (s.loop n).slots.length) := by
  rw [slotAt]
  exact Nat.add_sub_cancel_left ..

theorem phaseTurnOn_of_slot {k : Fin 20} {s : State} {n j : Nat} (howner : pulseOwner s k = some n)
    (hslot : slotOf s n k = some j) : exec (.phaseTurnOn k) s = .next
      (if (s.loop n).trunc = .none ∧ slotTurn s n k j = true ∧ ¬ (s.phase k).pulse = true then
        (s.expire (turnOnAt s n k j / 64)).setPhase k { (s.expire (turnOnAt s n k j / 64)).phase k with
          pwm := .high, turned := true, pulse := true,
          onAt := max (turnOnAt s n k j) ((s.expire (turnOnAt s n k j / 64)).now * 64) }
      else s) := by
  rw [exec, execPhaseTurnOn, howner]
  dsimp only
  rw [hslot]

theorem phaseTurnOn_of_idle {k : Fin 20} {s : State} (h : pulseOwner s k = none) :
    exec (.phaseTurnOn k) s = .next s := by
  rw [exec, execPhaseTurnOn, h]

theorem phaseTurnOn_of_noSlot {k : Fin 20} {s : State} {n : Nat} (howner : pulseOwner s k = some n)
    (hslot : slotOf s n k = none) : exec (.phaseTurnOn k) s = .next s := by
  rw [exec, execPhaseTurnOn, howner]
  dsimp only
  rw [hslot]

/-- A phase whose slot is not due, or whose pulse runs, does not turn on. -/
theorem phaseTurnOn_of_held {k : Fin 20} {s : State} {n : Nat} (howner : pulseOwner s k = some n)
    (h : (s.loop n).trunc ≠ .none ∨ slotOf s n k = none ∨ (s.phase k).pulse = true ∨
      ∃ j, slotOf s n k = some j ∧ slotTurn s n k j = false) : exec (.phaseTurnOn k) s = .next s := by
  cases hslot : slotOf s n k with
  | none => exact phaseTurnOn_of_noSlot howner hslot
  | some j =>
    rw [phaseTurnOn_of_slot howner hslot, if_neg]
    rintro ⟨htrunc, hturn, hpulse⟩
    obtain h | h | h | ⟨i, hi, h⟩ := h
    · exact h htrunc
    · exact absurd (hslot.symm.trans h) (by simp)
    · exact hpulse h
    · cases hslot.symm.trans hi
      exact absurd hturn (by simp [h])

theorem ostStart_other {n : Fin 6} {vsns : Int} {s : State} (h : s.get (LP_CTRL.OST_EN n) ≠ 1 ∨
    loopPulses s n = false ∨ aboveRef s n vsns (s.get (LP_OST.THR n)) = false) :
    exec (.ostStart n vsns) s = .next s := by
  have hno : (s.on (LP_CTRL.OST_EN n) && loopPulses s n && aboveRef s n vsns (s.get (LP_OST.THR n))) = false := by
    obtain h | h | h := h <;> simp [State.on, h]
  rw [exec, execOstStart, if_neg (by simp [hno])]

/-- Settles O26: each row in the states where it acts and in the others. -/
theorem pulseTiming : Obligations.PulseTiming := by
  refine ⟨fun k n j s howner hslot htrunc hturn hpulse => ?_, fun s n j hd => ?_, fun k s h => ?_,
    fun k n vOn vOff ton ended s hends hcan => ?_, fun k vOn vOff ton ended s h => ?_,
    fun k n v s hoff => ⟨fun h => ?_, fun h => ?_⟩, fun k v s hoff => ?_,
    fun n vsns s hen hrun habove => ?_, fun n vsns s => ostStart_other, fun n vsns s => ⟨fun ht hlow => ?_, fun h => ?_⟩,
    fun n s => ⟨fun h => ?_, fun t ht => ?_⟩⟩
  · rw [phaseTurnOn_of_slot howner hslot, if_pos ⟨htrunc, hturn, by simp [hpulse]⟩]
    rfl
  · have hnear := slotAt_sub s n j
    obtain ⟨hlo, hhi⟩ := nearest_bounds (j * 6400000) hd
    refine ⟨Nat.le_add_right _ _, ?_, ?_⟩
    · rw [hnear]
      exact hlo
    · rw [hnear]
      exact hhi
  · obtain h | ⟨n, howner, h⟩ := h
    · exact phaseTurnOn_of_idle h
    · exact phaseTurnOn_of_held howner h
  · rw [exec, execPhaseTurnOff, hends]
    exact congrArg Host.Outcome.next (if_pos hcan)
  · rw [exec, execPhaseTurnOff]
    obtain h | ⟨n, hends, hcan⟩ := h
    · rw [h]
    · rw [hends]
      exact congrArg Host.Outcome.next (if_neg (by simp [hcan]))
  · rw [exec, execNegativeCurrentLimit, hoff]
    exact congrArg Host.Outcome.next (if_pos h)
  · rw [exec, execNegativeCurrentLimit, hoff]
    exact congrArg Host.Outcome.next (if_neg (Int.not_lt.mpr h))
  · rw [exec, execNegativeCurrentLimit, hoff]
  · have hyes : (s.on (LP_CTRL.OST_EN n) && loopPulses s n && aboveRef s n vsns (s.get (LP_OST.THR n))) = true := by
      simp [State.on, hen, hrun, habove]
    rw [exec, execOstStart]
    exact congrArg Host.Outcome.next (if_pos hyes)
  · rw [exec, execOstRelease]
    exact congrArg Host.Outcome.next (if_neg (not_or.mpr ⟨ht, Int.not_le.mpr hlow⟩))
  · rw [exec, execOstRelease]
    exact congrArg Host.Outcome.next (if_pos h)
  · rw [exec, execOstTimeout, h]
  · rw [exec, execOstTimeout, ht]

end Sys2Proof.Machine
end

section
/-! The integrated outputs, VDRV and AON18 (R103, R159 to R169, R209). -/

namespace Sys2Proof.Machine

/-! ### The outputs -/

section
variable {rail : Rail} {s : State}

theorem outputStartEnd_other (h : isOutput rail = false ∨ s.get (railState rail) ≠ 2 ∨
    (s.out (railCode rail)).startPending = true) : exec (.outputStartEnd rail) s = .next s := by
  have hno : (isOutput rail && decide (s.get (railState rail) = stStart) &&
      !(s.out (railCode rail)).startPending) = false := by
    obtain h | h | h := h <;> simp [stStart, h]
  rw [exec, execOutputStartEnd, if_neg (by simp [hno])]

theorem enterIlim_of_runs (hrun : outputRuns s rail = true) (hlim : s.get (railIlim rail) ≠ 1) :
    enterIlim s rail = raise (s.set (railIlim rail) 1) (railEv rail 2 .warning) := by
  simp [enterIlim, hrun, State.on, hlim]

theorem enterIlim_other (h : outputRuns s rail = false ∨ s.get (railIlim rail) = 1) : enterIlim s rail = s := by
  obtain h | h := h <;> simp [enterIlim, State.on, h]

theorem dischargeEnd_of_output (hout : isOutput rail = true) : exec (.dischargeEnd rail) s = .next
    (if s.get (railState rail) = 5 ∨ (s.get (railState rail) = 1 ∧ (s.out (railCode rail)).left = 5) then
      if s.get (railState rail) = 5 then (s.setOut (railCode rail) { s.out (railCode rail) with
        disch := s.vdrv.resetDischarge, forced := false, drainAt := none, left := 0 }).set (railState rail) 0
      else s.setOut (railCode rail) { s.out (railCode rail) with
        disch := s.vdrv.resetDischarge, forced := false, drainAt := none, left := 0 }
    else s) := by
  rw [exec, execDischargeEnd]
  simp only [hout, Bool.true_and, Bool.or_eq_true, Bool.and_eq_true, decide_eq_true_eq]
  rfl

end

/-- VIN_OK stands beside the state of a BK. -/
theorem bkState_set_vinOk (s : State) (n v : Nat) : (s.set (BK_STATUS.VIN_OK n) v).get (BK_STATUS.STATE n) =
    s.get (BK_STATUS.STATE n) :=
  State.get_set_ne _ _ (by simp only [Field.key, BK_STATUS.STATE, BK_STATUS.VIN_OK]; omega)

theorem bkVinUv_of_vsys (n : Fin 6) {s : State} (hv : vsysRuns s = true) : exec (.bkVinUv n) s = .next
    (if outputRuns s (.bk n) = true then
      raise (((if s.get (BK_STATUS.STATE n) = 3 then supLeaveAll (s.set (BK_STATUS.VIN_OK n) 0) (.bk n)
        else s.set (BK_STATUS.VIN_OK n) 0).set (BK_STATUS.ILIM_ACT n) 0).set (BK_STATUS.STATE n) 6)
        (railEv (.bk n) 4 .warning)
    else s.set (BK_STATUS.VIN_OK n) 0) := by
  have hrun : outputRuns (s.set (BK_STATUS.VIN_OK n) 0) (.bk n) = outputRuns s (.bk n) := by
    simp only [outputRuns, railState, bkState_set_vinOk]
    rfl
  have hreg : regulating (s.set (BK_STATUS.VIN_OK n) 0) (.bk n) = decide (s.get (BK_STATUS.STATE n) = 3) := by
    simp only [regulating, railState, stRegulate, bkState_set_vinOk]
  rw [exec, execBkVinUv]
  simp only [hv, hrun, hreg, decide_eq_true_eq]
  rfl

theorem bkVinRestore_of_vsys (n : Fin 6) (start : Nat) {s : State} (hv : vsysRuns s = true) :
    exec (.bkVinRestore n start) s = .next
      (if s.get (BK_STATUS.STATE n) = 6 then
        if (s.out (railCode (.bk n))).startPending = true then
          (s.set (BK_STATUS.VIN_OK n) 1).set (BK_STATUS.STATE n) 2
        else startMotion ((s.set (BK_STATUS.VIN_OK n) 1).set (BK_STATUS.STATE n) 2) (.bk n) start
      else s.set (BK_STATUS.VIN_OK n) 1) := by
  rw [exec, execBkVinRestore]
  simp only [hv, bkState_set_vinOk]
  rfl

/-! ### VDRV and AON18 -/

theorem vdrv_off {s : State} (good active : Bool) (h : s.vdrv.on = false) :
    exec .vdrvUv s = .next s ∧ exec .vdrvHiccup s = .next s ∧ exec (.vdrvPowerGood good) s = .next s ∧
      exec (.vdrvIlim active) s = .next s := by
  simp [exec, execVdrvUv, execVdrvHiccup, execVdrvPowerGood, execVdrvIlim, h]

/-- AON18's limit acts while the regulator is on and the VSYS rails are up, and where it changes. -/
theorem aon18Ilim_other {s : State} {active : Bool} (h : aon18On s = false ∨ vsysRuns s = false ∨
    s.on AON_STATUS.ILIM_ACT = active) : exec (.aon18Ilim active) s = .next s := by
  have hno : (!aon18On s || !vsysRuns s || decide (s.on AON_STATUS.ILIM_ACT = active)) = true := by
    obtain h | h | h := h <;> simp [h]
  rw [exec, execAon18Ilim, if_pos hno]

/-- Settles O27: each row in the states where it acts and in the others. -/
theorem outputsRun : Obligations.OutputsRun := by
  refine ⟨fun rail s hout hst hp => ?_, fun rail s => outputStartEnd_other, fun n s => ⟨fun hrun hlim => ?_, fun h => ?_, rfl⟩,
    fun rail s => ⟨fun hk hrun hlim => ?_, fun h => ?_, fun hk => ?_, fun hk => ?_⟩,
    fun rail s => ⟨fun hrun hlim => ?_, fun h => ?_⟩, fun k n m s => ⟨rfl, rfl, rfl, rfl⟩,
    fun n s => ⟨fun hv hrun => ?_, fun hv hrun => ?_, fun hv => ?_⟩,
    fun n start s => ⟨fun hv hst => ?_, fun hv hst => ?_, fun hv => ?_⟩,
    fun rail s hout => ⟨fun hst => ?_, fun hst hleft => ?_, fun h5 h1 => ?_⟩, fun n s => ?_,
    fun measured s => ⟨fun h => ?_, fun t h => ?_⟩, fun rail vin start s hw hst hen => ?_,
    fun rail vin start s => ⟨fun hw => ?_, fun hw h => ?_⟩, fun s hon => ?_, fun s hon hlim => ?_,
    fun s => ⟨fun h => ?_, fun h => ?_⟩, fun s hon hh => ?_,
    fun s hon => ⟨fun hpg => ?_, fun hpg => ?_, fun hh => ?_, fun hh hlim => ?_, fun hh hlim => ?_,
      fun hh active => ?_, fun hlim => ?_⟩, fun s good active => vdrv_off s good,
    fun s => ⟨fun hon hv hlim => ?_, fun hon hv hlim => ?_, fun h active => ?_, fun hlim => ?_, fun hlim => ?_⟩⟩
  · simp [exec, execOutputStartEnd, stStart, hout, hst, hp]
  · exact congrArg Host.Outcome.next (enterIlim_of_runs hrun hlim)
  · exact congrArg Host.Outcome.next (enterIlim_other h)
  · rw [exec, execLdoSwIlim, if_pos hk, enterIlim_of_runs hrun hlim]
  · rw [exec, execLdoSwIlim]
    obtain h | h := h
    · simp [h]
    · simp [enterIlim_other h]
  · simp [exec, execLdoSwIlimEnd, hk]
  · simp [exec, execLdoSwIlimEnd, hk]
  · simp [exec, execOutputShort, hrun, State.on, hlim]
  · obtain h | h := h <;> simp [exec, execOutputShort, State.on, h]
  · rw [bkVinUv_of_vsys n hv, if_pos hrun]
  · rw [bkVinUv_of_vsys n hv, if_neg (by simp [hrun])]
  · simp [exec, execBkVinUv, hv]
  · rw [bkVinRestore_of_vsys n start hv, if_pos hst]
  · rw [bkVinRestore_of_vsys n start hv, if_neg hst]
  · simp [exec, execBkVinRestore, hv]
  · rw [dischargeEnd_of_output hout, if_pos (.inl hst), if_pos hst]
  · rw [dischargeEnd_of_output hout, if_pos (.inr ⟨hst, hleft⟩), if_neg (by omega)]
  · rw [dischargeEnd_of_output hout, if_neg]
    rintro (h | ⟨h, hleft⟩)
    · exact h5 h
    · exact h1.elim (fun hn => hn h) fun hn => hn hleft
  · simp [exec, execDischargeEnd, isOutput]
  · rw [exec, execResetDischargeEnd, h]
  · rw [exec, execResetDischargeEnd, h]
  · rw [exec, execRailonVerdict, if_neg (by simp [hw]), if_pos ⟨hst, decide_eq_true hen⟩]
  · rw [exec, execRailonVerdict, if_pos hw]
  · rw [exec, execRailonVerdict, if_neg (by simp [hw]), if_neg]
    rintro ⟨hst, hen⟩
    exact h.elim (fun hn => hn hst) fun hn => hn (of_decide_eq_true hen)
  · simp [exec, execVdrvUv, hon]
  · simp [exec, execVdrvHiccup, hon, State.on, hlim]
  · simp [exec, execVdrvRestart, h]
  · simp [exec, execVdrvRestart, h]
  · simp [exec, execVdrvPowerGood, hon, hh]
  · simp [exec, execVdrvPowerGood, hon, State.on, hpg]
  · simp [exec, execVdrvPowerGood, hon, State.on, hpg]
  · simp [exec, execVdrvPowerGood, hon, hh]
  · simp [exec, execVdrvIlim, hon, hh, State.on, hlim]
  · simp [exec, execVdrvIlim, hon, hh, State.on, hlim]
  · simp [exec, execVdrvIlim, hh]
  · simp [exec, execVdrvHiccup, State.on, hlim]
  · simp [exec, execAon18Ilim, hon, hv, State.on, hlim]
  · simp [exec, execAon18Ilim, hon, hv, State.on, hlim]
  · exact aon18Ilim_other (h.imp_right .inl)
  · exact aon18Ilim_other (.inr (.inr (by simp [State.on, hlim])))
  · exact aon18Ilim_other (.inr (.inr (by simp [State.on, hlim])))

end Sys2Proof.Machine
end

section
/-! The window channels (R176 to R196). -/

namespace Sys2Proof.Machine

section
variable {n : Fin 64} {s : State}

theorem withinScale_idem (s : State) (n uv : Nat) : withinScale s n (withinScale s n uv) = withinScale s n uv := by
  unfold withinScale
  omega

theorem takeSample_withinScale (s : State) (n uv : Nat) :
    takeSample s n uv = takeSample s n (withinScale s n uv) := by
  simp only [takeSample, withinScale_idem]

theorem sup_stopped (uv : Nat) (h : supRuns s n = false) :
    exec (.supSample n uv) s = .next s ∧ exec (.supTrackRefresh n) s = .next s ∧ exec (.supDisable n) s = .next s := by
  refine ⟨?_, ?_, ?_⟩
  · rw [exec, execSupSample, if_neg (by simp [h])]
  · rw [exec, execSupTrackRefresh, if_neg (by simp [h])]
  · rw [exec, execSupDisable, if_neg (by simp [h])]

theorem supSettleEnd_other (h : (s.supCh n).pgSince = none ∨ s.get (SUP_STAT.PG n) ≠ 1 ∨ s.get (SUP_STAT.PGS n) = 1) :
    exec (.supSettleEnd n) s = .next s := by
  rw [exec, execSupSettleEnd]
  split
  next t ht =>
    refine congrArg Host.Outcome.next (if_neg ?_)
    obtain h | h | h := h
    · exact absurd (ht.symm.trans h) (by simp)
    · simp [State.on, h]
    · simp [State.on, h]
  next => rfl

theorem supEnable_of_taken (hen : s.get (SUP_CFG.EN n) ≠ 1) (hserve : servesAt s 2 = true) :
    exec (.supEnable n) s = .next (if supReason s n = 0 then supStart s n
      else (s.set SUP_STATUS.REASON (supReason s n)).set SUP_STATUS.RCH n) := by
  rw [exec, execSupEnable, if_neg (by simp [State.on, hen, hserve])]

theorem supEnable_ignored (h : s.get (SUP_CFG.EN n) = 1 ∨ servesAt s 2 = false) : exec (.supEnable n) s = .next s := by
  rw [exec, execSupEnable, if_pos (by obtain h | h := h <;> simp [State.on, h])]

theorem cmpSelfCheck_other {k : Fin 20} {pass : Bool} (h : vsysRuns s = false ∨ s.get (PH_STATUS.STATE k) ≠ 2 ∨
    (s.phase k).pwm = .high ∨ pass = true) : exec (.cmpSelfCheck k pass) s = .next s := by
  have hno : (vsysRuns s && decide (s.get (PH_STATUS.STATE k) = 2) && decide ((s.phase k).pwm ≠ .high) &&
      !pass) = false := by
    obtain h | h | h | h := h <;> simp [h]
  rw [exec, execCmpSelfCheck]
  exact congrArg Host.Outcome.next (if_neg (by rw [hno]; decide))

end

/-- Settles O28: each row where the channel runs and where it does not. -/
theorem supervisionChannels : Obligations.SupervisionChannels := by
  refine ⟨fun n uv s h => ⟨?_, takeSample_withinScale s n uv⟩, fun n uv s => sup_stopped uv,
    fun n s => ⟨fun t ht hpg hpgs => ?_, supSettleEnd_other⟩,
    fun n s h => ⟨fun r htrack hr => ?_, fun hno => ?_⟩,
    fun n s => ⟨supEnable_ignored, fun hen hserve hr => ?_, fun hen hserve hr => ?_⟩, fun n s h => ?_,
    fun pass freeFail s => ⟨fun n hen hn => ?_, fun h => ?_⟩, fun k pass s => ⟨fun hv hst hpwm => ?_, cmpSelfCheck_other⟩⟩
  · rw [exec, execSupSample, if_pos h]
  · simp [exec, execSupSettleEnd, ht, State.on, hpg, hpgs]
  · simp [exec, execSupTrackRefresh, h, State.on, htrack, hr]
  · rw [exec, execSupTrackRefresh]
    obtain hno | hno := hno
    · simp [State.on, hno]
    · simp [hno]
  · rw [supEnable_of_taken hen hserve, if_pos hr]
  · rw [supEnable_of_taken hen hserve, if_neg hr]
  · rw [exec, execSupDisable, if_pos h]
  · rw [exec, execSupSelfCheck]
    simp only [State.on, hen, hn, decide_true, if_true]
  · rw [exec, execSupSelfCheck]
    obtain h | h := h
    · rw [if_neg (by simp [State.on, h])]
    · simp only [h, ite_self]
  · simp [exec, execCmpSelfCheck, hv, hst, hpwm]

end Sys2Proof.Machine
end

section
/-! The transactions of the Voltage Command Link and its ports (R130 to R154, Table 4.7). -/

namespace Sys2Proof.Machine

section
variable {s : State} {p : Nat}

theorem unlessRefused_of_code {code : Nat} (body : State → State × Response) (h : code ≠ 0) :
    unlessRefused s p code body = (refuseFrame s p code, refused code) := if_neg h

theorem newTarget_of_accepted {tag vid slew : Nat} {argBad unset : Bool}
    (h : targetCode s p vid slew argBad unset = 0) : newTarget s p tag vid slew argBad unset =
      acceptTarget s p tag vid (if slew = 0 then s.get (VCL_STATUS.DSLEW p) else slew) := by
  simp [newTarget, unlessRefused, h]

theorem newTarget_of_refused {tag vid slew : Nat} {argBad unset : Bool}
    (h : targetCode s p vid slew argBad unset ≠ 0) (hfull : targetCode s p vid slew argBad unset ≠ 0x19) :
    newTarget s p tag vid slew argBad unset = (refuseFrame s p (targetCode s p vid slew argBad unset),
      refused (targetCode s p vid slew argBad unset)) := by
  simp [newTarget, unlessRefused, h, hfull]

theorem newTarget_of_full {tag vid slew : Nat} {argBad unset : Bool}
    (h : targetCode s p vid slew argBad unset = 0x19) : newTarget s p tag vid slew argBad unset =
      (raise (refuseFrame s p 0x19) (vclEv p 5 .warning), refused 0x19) := by
  simp [newTarget, h]

/-- The code of SETSLEW, by Table 4.7. -/
theorem setslewCode {slew : Nat} {z : BitVec 12}
    (h : z ≠ 0 ∨ s.get (VCL_CTRL.EN p) ≠ 1 ∨ slew < 5 ∨ 400 < slew) :
    (if s.on (VCL_CTRL.EN p) then firstCode [(0x11, decide (z ≠ 0)), (0x13, outside 5 400 slew)] else 0x12) =
      if s.get (VCL_CTRL.EN p) ≠ 1 then 0x12 else if z ≠ 0 then 0x11 else 0x13 := by
  by_cases hen : s.get (VCL_CTRL.EN p) = 1
  · by_cases hz : z = 0
    · have hout : outside 5 400 slew = true := by
        simp only [outside, Bool.or_eq_true, decide_eq_true_eq]
        exact (h.resolve_left (not_not_intro hz)).resolve_left (not_not_intro hen)
      simp [State.on, hen, firstCode, hz, hout]
    · simp [State.on, hen, firstCode, show z ≠ 0#12 from hz]
  · simp [State.on, hen]

theorem getCode_of_served (hen : s.get (VCL_CTRL.EN p) = 1) : getCode s p 0 = 0 := by
  simp [getCode, State.on, hen]

theorem getCode_of_refused {z : BitVec 21} (h : z ≠ 0 ∨ s.get (VCL_CTRL.EN p) ≠ 1) :
    getCode s p z = if s.get (VCL_CTRL.EN p) ≠ 1 then 0x12 else 0x11 := by
  by_cases hen : s.get (VCL_CTRL.EN p) = 1
  · have hz : z ≠ 0#21 := h.resolve_right (not_not_intro hen)
    simp [getCode, State.on, hen, hz]
  · simp [getCode, State.on, hen]

/-- An accepted target meets every condition of Table 4.7. -/
theorem targetCode_accepts {vid slew : Nat} {argBad unset : Bool} (h : targetCode s p vid slew argBad unset = 0) :
    s.get (VCL_CTRL.EN p) = 1 ∧ argBad = false ∧ unset = false ∧ (slew = 0 ∨ 5 ≤ slew ∧ slew ≤ 400) ∧
      vid ≤ s.get (LP_VCFG.VMAX (boundLoop s p)) ∧ s.get (VCL_CTRL.HOLD p) ≠ 1 ∧
      s.get (LP_STATUS.STATE (boundLoop s p)) ∉ [0, 1, 2, 3, 5] := by
  have hcode : ∀ (c : Nat) (b : Bool) (l : List (Nat × Bool)), c ≠ 0 → firstCode ((c, b) :: l) = 0 →
      b = false ∧ firstCode l = 0 := by
    intro c b l hc hl
    cases b with
    | false => exact ⟨rfl, hl⟩
    | true => exact absurd hl hc
  rw [targetCode] at h
  by_cases hen : s.get (VCL_CTRL.EN p) = 1
  · rw [if_neg (by simp [State.on, hen])] at h
    obtain ⟨harg, h⟩ := hcode _ _ _ (by decide) h
    obtain ⟨hslew, h⟩ := hcode _ _ _ (by decide) h
    obtain ⟨hunset, h⟩ := hcode _ _ _ (by decide) h
    obtain ⟨hvmax, h⟩ := hcode _ _ _ (by decide) h
    obtain ⟨hoff, h⟩ := hcode _ _ _ (by decide) h
    obtain ⟨hramp, h⟩ := hcode _ _ _ (by decide) h
    obtain ⟨hhold, -⟩ := hcode _ _ _ (by decide) h
    simp only [outside, Bool.and_eq_false_iff, Bool.or_eq_false_iff, decide_eq_false_iff_not, State.on] at *
    refine ⟨hen, harg, hunset, by omega, by omega, hhold, ?_⟩
    simp only [List.mem_cons, List.not_mem_nil, or_false]
    omega
  · rw [if_pos (by simp [State.on, hen])] at h
    exact absurd h (by decide)

/-- What a command leaves of its port when its frames end it. -/
theorem endTransaction_port (tag : Nat) (r : Response) : (endTransaction s p tag r).port p =
    { s.port p with resp := responseFrame r.code tag r.data, ack := ackFrame s p,
                    shown := some { ack := !(s.port p).queue.isEmpty, alerts := s.get (VCL_ALERT.LATCH p) } } :=
  State.port_setPort_same s p _

end

/-! ### Frames and ports -/

theorem vclCommand_reserved {p : Fin 2} {f : Nat} {vsns : Int} (hcrc : withCrc f = f)
    (h : bitsOf f 28 4 = 0 ∨ 5 < bitsOf f 28 4) :
    vclCommand p f vsns = .vclBadCmd p (decide (bitOf f 27 = 1)) (BitVec.ofNat 2 (f / 2 ^ 25)) := by
  rw [vclCommand, if_neg (not_not_intro hcrc)]
  generalize bitsOf f 28 4 = cmd at h ⊢
  split
  case h_6 => rfl
  all_goals omega

/-- The frame of the spec's example of SETV, whose CRC is that of its first 28 bits (chapter 4). -/
theorem vclCommand_setv (p : Fin 2) (vsns : Int) : vclCommand p 0x1CE88142 vsns = .vclSetv p true 2 0x744 20 := by
  have hcrc : withCrc 0x1CE88142 = 0x1CE88142 := by
    refine Classical.byContradiction fun hcrc => ?_
    obtain ⟨hframe, -⟩ := Tests.test_vcl_frame
    rw [vclCommand, if_pos hcrc] at hframe
    exact nomatch hframe
  have hcmd : bitsOf 0x1CE88142 28 4 = 1 := by decide
  rw [vclCommand, if_neg (not_not_intro hcrc), hcmd]
  rfl

theorem transact_of_silent {s : State} {p : Nat} {rack : Bool} {tag : Nat} {body : State → State × Response}
    (h : portAnswers s = false) : transact p rack tag s body = .next s := by
  rw [transact]
  exact congrArg Host.Outcome.next (if_neg (by simp [h]))

theorem vcl_silent (p : Fin 2) (rack late : Bool) (tag : BitVec 2) (vid z : BitVec 12) (slew : BitVec 9) (q : Fin 4)
    (x : BitVec 19) (y : BitVec 21) (vsns : Int) {s : State} (ha : portAnswers s = false) :
    exec (.vclSetv p rack tag vid slew) s = .next s ∧ exec (.vclPstate p rack tag q x) s = .next s ∧
      exec (.vclSetslew p rack tag slew z) s = .next s ∧ exec (.vclGetv p rack tag y vsns) s = .next s ∧
      exec (.vclGeti p rack tag y) s = .next s ∧ exec (.vclBadCmd p rack tag) s = .next s ∧
      exec (.vclCrcError p) s = .next s ∧ exec (.vclStall p late) s = .next s := by
  refine ⟨?_, ?_, ?_, ?_, ?_, ?_, ?_, ?_⟩
  · rw [exec, execVclSetv, transact_of_silent ha]
  · rw [exec, execVclPstate, transact_of_silent ha]
  · rw [exec, execVclSetslew, transact_of_silent ha]
  · rw [exec, execVclGetv, transact_of_silent ha]
  · rw [exec, execVclGeti, transact_of_silent ha]
  · rw [exec, execVclBadCmd, transact_of_silent ha]
  · rw [exec, execVclCrcError, transact_of_silent ha]
  · simp [exec, execVclStall, ha]

section
variable {p : Fin 2} {s : State}

theorem vclPortEnable_of_taken (hen : s.get (VCL_CTRL.EN p) ≠ 1) (hserve : servesFrom s 3 = true) :
    exec (.vclPortEnable p) s = .next (if portReason s p = 0 then
      let s1 := (s.set (VCL_STATUS.DSLEW p) (s.get (LP_SLEW.SLEW (boundLoop s p)))).setPort p
        { s.port p with enabled := true }
      notice ((if !(s.port p).enabled then vclAlert s1 p 5 else s1).set (VCL_CTRL.EN p) 1) (vclEv p 6 .notice)
    else notice (s.set (VCL_STATUS.REASON p) (portReason s p)) (vclEv p 6 .notice)) := by
  rw [exec, execVclPortEnable]
  exact congrArg Host.Outcome.next (if_neg (by simp [State.on, hen, hserve]))

theorem vclHold_of_vsys {hold : Bool} (hv : vsysRuns s = true) : exec (.vclHold p hold) s = .next
    (if s.on (VCL_CTRL.HOLD p) = hold then s
      else vclAlert (s.set (VCL_CTRL.HOLD p) (if hold then 1 else 0)) p 0) := by
  rw [exec, execVclHold]
  simp [hv]

end

/-- Settles O29: each command where the port answers, then the ports. -/
theorem vclTransactions : Obligations.VclTransactions := by
  refine ⟨fun p rack tag vid slew s hc ha => ?_, fun p rack tag vid slew s hc hfull ha => ?_,
    fun p rack tag vid slew s hc ha => ?_, fun p rack tag q z s ha => ?_, fun p rack tag slew s hen hlo hhi ha => ?_,
    fun p rack tag slew z s h ha => ?_, fun p rack tag vsns s hen ha => ⟨?_, ?_⟩,
    fun p rack tag z vsns s h ha => ⟨?_, ?_⟩, fun p rack tag s ha => ?_,
    fun s p vid slew argBad unset => ⟨fun hen => ?_, fun hen harg => ?_, targetCode_accepts⟩,
    fun p f vsns => ⟨fun h => if_pos h, fun h hcmd => vclCommand_reserved h hcmd, vclCommand_setv p vsns⟩, fun p s ha => ?_,
    fun p rack late tag vid z slew q x y vsns s ha => vcl_silent p rack late tag vid z slew q x y vsns ha,
    fun p tag r s => ?_, fun p s ha => ⟨?_, ?_⟩, fun p f s hf hm => ⟨_, rfl, ?_⟩, fun p s h => ?_,
    fun p s hen => ⟨?_, ?_⟩, fun p s hen => ⟨?_, fun hserve hr => ?_, fun hserve => ?_⟩,
    fun p s hen hserve hr => ?_, fun p hold s h => ?_, fun p hold s h hv => ?_, fun p hold s hv => ?_⟩
  · dsimp only
    rw [exec, execVclSetv, transact_of_answers _ _ _ _ _ ha]
    rw [newTarget_of_accepted hc]
  · dsimp only
    rw [exec, execVclSetv, transact_of_answers _ _ _ _ _ ha]
    rw [newTarget_of_refused hc hfull]
  · dsimp only
    rw [exec, execVclSetv, transact_of_answers _ _ _ _ _ ha]
    rw [newTarget_of_full hc]
  · dsimp only
    rw [exec, execVclPstate, transact_of_answers _ _ _ _ _ ha]
    simp [State.on]
  · dsimp only
    rw [exec, execVclSetslew, transact_of_answers _ _ _ _ _ ha]
    simp [State.on, hen, firstCode, outside_eq_false hlo hhi, unlessRefused]
  · dsimp only
    rw [exec, execVclSetslew, transact_of_answers _ _ _ _ _ ha]
    rw [setslewCode h, unlessRefused_of_code]
    split
    · decide
    · split <;> decide
  · rw [exec, execVclGetv, transact_of_answers _ _ _ _ _ ha]
    rw [getCode_of_served hen, unlessRefused, if_pos rfl]
  · rw [exec, execVclGeti, transact_of_answers _ _ _ _ _ ha]
    rw [getCode_of_served hen, unlessRefused, if_pos rfl]
  · rw [exec, execVclGetv, transact_of_answers _ _ _ _ _ ha]
    rw [getCode_of_refused h, unlessRefused_of_code]
    split <;> decide
  · rw [exec, execVclGeti, transact_of_answers _ _ _ _ _ ha]
    rw [getCode_of_refused h, unlessRefused_of_code]
    split <;> decide
  · dsimp only
    rw [exec, execVclBadCmd, transact_of_answers _ _ _ _ _ ha]
    simp [State.on]
  · simp [targetCode, State.on, hen]
  · simp [targetCode, State.on, hen, firstCode, harg]
  · rw [exec, execVclCrcError, transact_of_answers _ _ _ _ _ ha]
    rfl
  · rw [endTransaction_port]
    exact ⟨rfl, rfl, rfl, rfl, rfl⟩
  · simp [exec, execVclStall, ha]
  · simp [exec, execVclStall, ha]
  · simp [exec, execVclDeadline, hf, hm]
  · rw [exec, execVclDeadline]
    split
    next f hf => simp [h f hf]
    next => rfl
  · simp [exec, execVclPortEnable, State.on, hen]
  · simp [exec, execVclPortDisable, State.on, hen]
  · simp [exec, execVclPortDisable, State.on, hen]
  · rw [vclPortEnable_of_taken hen hserve, if_neg hr]
  · simp [exec, execVclPortEnable, hserve]
  · rw [vclPortEnable_of_taken hen hserve, if_pos hr]
    cases (s.port p).enabled <;> rfl
  · rw [exec, execVclHold]
    cases hold <;> simp_all [State.on]
  · rw [vclHold_of_vsys hv, if_neg]
    cases hold <;> simp_all [State.on]
  · simp [exec, execVclHold, hv]

end Sys2Proof.Machine
end

section
/-! The issue of a Camast instruction (R202, Table 7.8) and the instructions of control flow (R207, R230 to R235). -/

namespace Sys2Proof.Machine

/-! ### The issue -/

theorem onTask_issue (i : Issue) (w : Nat) (f : Task → Task) :
    ∃ body : State → Nat → Task → State, ∀ s, onTask i w s f = issue i w s body := ⟨_, fun _ => rfl⟩

/-- A command with a word of Table 7.3 goes through the one issue. -/
theorem exec_camastWord {c : Instr} {i : Issue} {w : Nat} (h : camastWord c = some (i, w)) :
    ∃ body : State → Nat → Task → State, ∀ s, exec c s = issue i w s body := by
  cases c <;> simp only [camastWord, Option.some.injEq, Prod.mk.injEq, reduceCtorEq] at h <;> obtain ⟨rfl, rfl⟩ := h
  case movReg | movImm | add | sub | and | or | cmp | shr =>
    simp only [exec, execMovReg, execMovImm, execAdd, execSub, execAnd, execOr, execCmp, execShr]
    exact onTask_issue _ _ _
  all_goals exact ⟨_, fun s => by rw [exec]; exact rfl⟩

/-- The count of corrected reads saturates. -/
theorem issued_count (i : Issue) (s : State) (t : Nat) (x : Task) : (issued i s t x).get CAM_IMG_MEMERR.COUNT =
    if i.fetch = .corrected then min (s.get CAM_IMG_MEMERR.COUNT + 1) (2 ^ CAM_IMG_MEMERR.COUNT.width - 1)
    else s.get CAM_IMG_MEMERR.COUNT := by
  have hfetch : (issued i s t x).get CAM_IMG_MEMERR.COUNT = (fetched s i.fetch).get CAM_IMG_MEMERR.COUNT := rfl
  rw [hfetch]
  cases i.fetch with
  | clean => rfl
  | triple => rfl
  | corrected =>
    rw [fetched, State.addSat, State.get_set_same, satAt]
    exact Nat.mod_eq_of_lt (Nat.lt_of_le_of_lt (Nat.min_le_right _ _) (Nat.sub_lt (Nat.two_pow_pos _) Nat.one_pos))

/-- Settles O31: the outcomes of the issue, for each command through it. -/
theorem instructionIssue : Obligations.InstructionIssue := by
  refine ⟨fun c i w => exec_camastWord, fun c i w s hc hrun => ?_, fun c i w s t x hc hrun => ?_,
    fun i w s body hrun => issue_none hrun body, fun i w s t x body hrun hf => issue_triple hrun hf body,
    fun i w s t x body hrun hf hp => issue_beyond hrun hf hp body,
    fun i w s t x body hrun hf hp hw => issue_other hrun hf hp hw body, fun i w s t x body h => issue_runs h body,
    fun i s t x => ⟨issued_count i s t x, fun f => issued_get i s t x, issued_sameMemory i s t x⟩⟩
  · obtain ⟨body, hissue⟩ := exec_camastWord hc
    rw [hissue, issue_none hrun]
  · obtain ⟨body, hissue⟩ := exec_camastWord hc
    rw [hissue]
    exact ⟨fun hf => issue_triple hrun hf body, fun hf hp => issue_beyond hrun hf hp body,
      fun hf hp hw => issue_other hrun hf hp hw body⟩

/-! ### Control flow -/

section
variable {i : Issue} {s : State} {t : Nat} {x : Task}

theorem call_of_runs {target : BitVec 13} (h : Runs i (callWord target) s t x) : exec (.call i target) s = .next
    (if 8 ≤ x.stack.length then takeExc (issued i s t x) i.eng t 6
      else (issued i s t x).setTask i.eng t
        { x.advanced with stack := (x.pc + 1) :: x.stack, pc := target.toNat }) := by
  rw [exec, execCall, issue_runs h]
  rfl

theorem ret_of_runs (h : Runs i retWord s t x) : exec (.ret i) s = .next (match x.stack with
    | a :: rest => (issued i s t x).setTask i.eng t { x.advanced with pc := a, stack := rest }
    | [] => endRunning (issued i s t x) i.eng t) := by
  rw [exec, execRet, issue_runs h]
  rfl

theorem task_of_runs {m : Fin 16} {prio cls : BitVec 3} {entry : BitVec 13}
    (h : Runs i (taskWord m prio cls entry) s t x) : exec (.task i m prio cls entry) s = .next
      (if m.val = 15 then takeExc (issued i s t x) i.eng t 5
      else if ((issued i s t x).task i.eng m).st = .idle ∨ ((issued i s t x).task i.eng m).st = .faulted then
        ((issued i s t x).setTask i.eng m { st := .ready, pc := entry.toNat, prio := prio.toNat, cls := cls.toNat }).setTask
          i.eng t { x.advanced with z := true }
      else (issued i s t x).setTask i.eng t { x.advanced with z := false }) := by
  rw [exec, execTask, issue_runs h]
  rfl

theorem engineIdleWake_other {e : Fin 4} (h : engineRuns s e = false ∨ (s.engine e).cur ≠ none) :
    exec (.engineIdleWake e) s = .next s := by
  have hno : (engineRuns s e && (s.engine e).cur.isNone) = false := by
    obtain h | h := h
    · simp [h]
    · simp [Option.isNone_eq_false_iff, Option.isSome_iff_ne_none.mpr h]
  rw [exec, execEngineIdleWake]
  exact congrArg Host.Outcome.next (if_neg (by rw [hno]; decide))

end

/-- Settles O33: each instruction by its issue and the branches of its effect. -/
theorem flowInstructions : Obligations.FlowInstructions := by
  refine ⟨fun i target s t x h => ?_, fun i cond target s t x h => ?_, fun i target s t x h hlen => ?_,
    fun i target s t x h hlen => ?_, fun i a rest s t x h hst => ?_, fun i s t x h hst => ?_,
    fun i m prio cls entry s t x h hm hst => ?_, fun i m prio cls entry s t x h hm hidle hfault => ?_,
    fun i prio cls entry s t x h => ?_, fun i s t x h => ?_, fun e s hrun hcur => ?_, fun e s => engineIdleWake_other⟩
  · rw [exec, execJmp, issue_runs h]
  · rw [exec, execBcc, issue_runs h]
    rfl
  · rw [call_of_runs h, if_neg (by omega)]
  · rw [call_of_runs h, if_pos hlen]
  · rw [ret_of_runs h, hst]
  · rw [ret_of_runs h, hst]
  · rw [task_of_runs h, if_neg hm, if_pos hst]
  · rw [task_of_runs h, if_neg hm, if_neg (not_or.mpr ⟨hidle, hfault⟩)]
  · rw [task_of_runs h]
    exact congrArg Host.Outcome.next (if_pos rfl)
  · rw [exec, execYield, issue_runs h]
    rfl
  · rw [exec, execEngineIdleWake, if_pos (by simp [hrun, hcur])]

end Sys2Proof.Machine
end

section
/-! The power instructions and the waits of Camast (R205, R208 to R219, R224, R235). -/

namespace Sys2Proof.Machine

/-! ### RAILON, RAILOFF and SETV -/

section
variable {i : Issue} {s : State} {t : Nat} {x : Task} {rail : Rail} {wd : Fin 16}

theorem railon_of_runs (h : Runs i (railonWord rail wd) s t x) :
    exec (.railon i rail wd) s = .next (railonBody rail wd i.eng (issued i s t x) t x.advanced) := by
  rw [exec, execRailon, issue_runs h]

end

section
variable {u : State} {e t wd : Nat} {x : Task} {r : Rail}

/-- RAILON of a covered rail, by the state of the rail. -/
theorem railonBody_of_covered (ht : t ≠ 15) (hrev : covering u e t r .revoked = false)
    (hcov : covering u e t r .granted = true) : railonBody r wd e u t x =
      if draining u r then u.setTask e t { x with wait := some (.drain r wd) }
      else if u.get (railEn r) = 1 then u.setTask e t (powerResult x wd 0)
      else (startCheck u r).setTask e t { x with wait := some (.verdict r wd) } := by
  rw [railonBody, if_neg ht, if_neg (by simp [hrev]), if_neg (by simp [hcov])]
  simp only [State.on, decide_eq_true_eq]

end

/-- What a RAILON that waited for the end of the drain does then. -/
theorem railonAfterDrain_of_drained {e : Fin 4} {t wd : Nat} {r : Rail} {s : State} (hcur : (s.engine e).cur = some t)
    (hwait : (s.task e t).wait = some (.drain r wd)) (hd : draining s r = false) :
    exec (.railonAfterDrain e) s = .next
      (if stillCovered s e t r = false then
        finishHandover (s.setTask e t (powerResult { s.task e t with wait := none } wd 0x86)) e
      else if s.get (railEn r) = 1 then
        finishHandover (s.setTask e t (powerResult { s.task e t with wait := none } wd 0)) e
      else (startCheck s r).setTask e t { s.task e t with wait := some (.verdict r wd) }) := by
  rw [exec, execRailonAfterDrain]
  simp only [hcur, hwait, hd, Bool.not_eq_true, State.on, decide_eq_true_eq]
  rfl

theorem railonAfterDrain_other {e : Fin 4} {s : State} (h : ∀ t r wd, (s.engine e).cur = some t →
    (s.task e t).wait = some (.drain r wd) → draining s r = true) : exec (.railonAfterDrain e) s = .next s := by
  rw [exec, execRailonAfterDrain]
  split
  next => rfl
  next t hcur =>
    dsimp only
    split
    next r wd hwait => rw [if_pos (h t r wd hcur hwait)]
    next => rfl

/-- Settles O35: RAILON by the claims and the rail, then RAILOFF and SETV. -/
theorem powerInstructions : Obligations.PowerInstructions := by
  refine ⟨fun i rail wd s t x h ht => ?_, fun i rail wd s t x h ht hrev => ?_, fun i rail wd s t x h ht hrev hcov => ?_,
    fun i rail wd s t x h ht hrev hcov hd => ?_, fun i rail wd s t x h ht hrev hcov hd hen => ?_,
    fun i rail wd s t x h ht hrev hcov hd hen => ?_,
    fun e t r wd s hcur hwait hd => ⟨fun hcov hen => ?_, fun hcov hen => ?_, fun hcov => ?_⟩,
    fun e s => railonAfterDrain_other, fun x wd code hcode => ⟨powerResult_reg x wd (by omega), rfl⟩,
    fun i rail s t x h => ?_, fun i rail src wd s t x h => ?_⟩
  · rw [railon_of_runs h, railonBody, if_pos ht]
  · rw [railon_of_runs h, railonBody, if_neg ht, if_pos hrev]
  · rw [railon_of_runs h, railonBody, if_neg ht, if_neg (by simp [hrev]), if_pos (by simp [hcov])]
  · rw [railon_of_runs h, railonBody_of_covered ht hrev hcov, if_pos hd]
  · rw [railon_of_runs h, railonBody_of_covered ht hrev hcov, if_neg (by simp [hd]), if_pos hen]
  · rw [railon_of_runs h, railonBody_of_covered ht hrev hcov, if_neg (by simp [hd]), if_neg hen]
  · rw [railonAfterDrain_of_drained hcur hwait hd, if_neg (by simp [hcov]), if_neg hen]
  · rw [railonAfterDrain_of_drained hcur hwait hd, if_neg (by simp [hcov]), if_pos hen]
  · rw [railonAfterDrain_of_drained hcur hwait hd, if_pos hcov]
  · rw [exec, execRailoff, issue_runs h]
  · rw [exec, execSetv, issue_runs h]
    cases src <;> rfl

/-! ### The waits -/

section
variable {u : State} {e t : Nat} {x : Task} {w : Wait}

theorem enterWait_of_free (h : hasRevoked u e t = false) : enterWait u e t x w =
    dispatch (u.setTask e t { x with st := .wait, wait := some w, d := false, t := false }) e := by
  rw [enterWait, leaveRun, if_neg (by simp [h])]
  rfl

theorem enterWait_of_revoked (h : hasRevoked u e t = true) : enterWait u e t x w =
    dispatch (u.setTask e t { x with st := .revoked, wait := none, d := false, t := true }) e := by
  rw [enterWait, leaveRun, if_pos h]
  rfl

end

theorem waittReady_other {e : Fin 4} {t : Fin 16} {s : State}
    (h : (s.task e t).st ≠ .wait ∨ ∀ r d, (s.task e t).wait ≠ some (.time r d)) : exec (.waittReady e t) s = .next s := by
  rw [exec, execWaittReady]
  dsimp only
  split
  next ready dl hst hwait => exact h.elim (fun hn => absurd hst hn) fun hn => absurd hwait (hn ready dl)
  next => rfl

theorem runDeadline_other {e : Fin 4} {s : State} (h : ∀ k, (s.engine e).cur = some k →
    countsAsRun (s.task e k) = false ∨ (s.task e k).runAt = none) : exec (.runDeadline e) s = .next s := by
  rw [exec, execRunDeadline]
  split
  next => rfl
  next t hcur =>
    dsimp only
    split
    next r hrun hat =>
      obtain hn | hn := h t hcur
      · exact absurd (hrun.symm.trans hn) (by decide)
      · exact absurd (hat.symm.trans hn) (by simp)
    next => rfl

/-- Settles O37: each wait where its condition holds and where it does not, and the deadlines. -/
theorem waitInstructions : Obligations.WaitInstructions := by
  refine ⟨fun i ch dl s t x h hpgs => ?_, fun i ch dl s t x h hpgs => ?_, fun i dur sl s t x h => ?_,
    fun i src dl s t x h hp => ?_, fun i src l dl s t x h hl => ?_, fun i n dl s t x h hn => ?_,
    fun i n dl s t x h hn => ?_, fun u e t x w => enterWait_of_free, fun u e t x w => enterWait_of_revoked,
    fun e t ready dl s hst hwait => ?_, fun e t d s hd => ?_, fun e t r s hcur hrun hat => ?_,
    fun e t s => ⟨waittReady_other, fun hd => ?_, runDeadline_other⟩⟩
  · rw [exec, execWaitpg, issue_runs h, if_pos (by simp [State.on, hpgs])]
  · rw [exec, execWaitpg, issue_runs h, if_neg (by simp [State.on, hpgs])]
  · rw [exec, execWaitt, issue_runs h]
  · rw [exec, execWaitev, issue_runs h, if_pos (by simp [hp])]
  · rw [exec, execWaitev, issue_runs h, if_neg (by obtain hl | hl := hl <;> simp [hl])]
  · rw [exec, execWaitstep, issue_runs h, if_pos hn]
  · rw [exec, execWaitstep, issue_runs h, if_neg (by omega)]
  · rw [exec, execWaittReady]
    simp only [hst, hwait]
  · rw [exec, execWaitDeadline]
    simp only [hd]
  · rw [exec, execRunDeadline]
    simp only [hcur, hrun, hat]
  · rw [exec, execWaitDeadline]
    simp only [hd]

end Sys2Proof.Machine
end

section
/-! The ledger instructions (R220 to R224, R262, R267, R273) and the reporting instructions (R227, R228, R232). -/

namespace Sys2Proof.Machine

/-! ### CLAIM -/

section
variable {s : State} {e t c v : Nat} {x : Task} {dl : Option Nat}

theorem owns_of_free {st : ClaimState} (h : (s.claim c).st = .free) (hst : st ≠ .free) : owns s e t c st = false := by
  simp [owns, h, hst.symm]

/-- A free claim is submitted, unless a revoked claim of the task would leave it waiting. -/
theorem claimBody_of_free (ht : t ≠ 15) (hfree : (s.claim c).st = .free) : claimBody s e t c x dl =
    if hasRevoked s e t = true ∧ grantsNow (submitClaim s c e t x.cls) c = false then
      claimRevoked (dropClaim (submitClaim s c e t x.cls) c) e t x
    else claimFree s e t c x dl := by
  rw [claimBody, if_neg ht, owns_of_free hfree (by decide), owns_of_free hfree (by decide), if_neg (by decide),
    if_neg (by decide), if_neg (not_not_intro hfree)]
  simp only [Bool.and_eq_true, Bool.not_eq_true']

theorem claimBody_of_own (ht : t ≠ 15) (h : owns s e t c .granted = true) :
    claimBody s e t c x dl = s.setTask e t { x with z := true } := by
  rw [claimBody, if_neg ht, if_pos h]

theorem claimBody_of_ownRevoked (ht : t ≠ 15) (hg : owns s e t c .granted = false)
    (h : owns s e t c .revoked = true) : claimBody s e t c x dl = claimRevoked s e t x := by
  rw [claimBody, if_neg ht, if_neg (by simp [hg]), if_pos h]

theorem claimBody_of_other (ht : t ≠ 15) (hfree : (s.claim c).st ≠ .free) (hg : owns s e t c .granted = false)
    (hr : owns s e t c .revoked = false) : claimBody s e t c x dl =
      (s.addWrap NRG_CNT1.DEFERS 1).setTask e t { x with z := false, t := true } := by
  rw [claimBody, if_neg ht, if_neg (by simp [hg]), if_neg (by simp [hr]), if_pos hfree]

/-! ### RECLAIM -/

theorem reclaimTo_of_decrease (h : v < (s.claim c).amount) : reclaimTo s c v =
    (true, evalCapacity (formFit (s.setClaim c { s.claim c with amount := v })) c) := if_pos h

theorem reclaimTo_of_increase (h : (s.claim c).amount ≤ v) : reclaimTo s c v =
    if v - (s.claim c).amount ≤ steadyRoom s (s.claim c).cls (s.claim c).revokedAt (earmark s) then
      (true, evalCapacity (s.setClaim c { s.claim c with amount := v }) c)
    else (false, evalCapacity s c) := if_neg (Nat.not_lt.mpr h)

end

section
variable {i : Issue} {id : Fin 64} {s : State} {t : Nat} {x : Task}

theorem claim_of_allowed {dl : BitVec 16} (h : Runs i (claimWord id dl) s t x)
    (hok : claimAllowed (issued i s t x) i.eng id = true) : exec (.claim i id dl) s =
      .next (claimBody (issued i s t x) i.eng t id x.advanced.startWait (deadlineOf (issued i s t x) dl)) := by
  rw [exec, execClaim, issue_runs h, if_pos hok]

theorem release_of_allowed (h : Runs i (releaseWord id) s t x) (hok : claimAllowed (issued i s t x) i.eng id = true) :
    exec (.release i id) s = .next ((if owns (issued i s t x) i.eng t id .granted = true then
        releaseClaim (issued i s t x) id
      else if owns (issued i s t x) i.eng t id .revoked = true then dropClaim (issued i s t x) id
      else issued i s t x).setTask i.eng t { x.advanced with z := true }) := by
  rw [exec, execRelease, issue_runs h]
  exact congrArg Host.Outcome.next (if_pos hok)

theorem reclaim_of_allowed {ws : Fin 16} (h : Runs i (reclaimWord id ws) s t x)
    (hok : claimAllowed (issued i s t x) i.eng id = true) : exec (.reclaim i id ws) s = .next
      (if owns (issued i s t x) i.eng t id .granted = true then
        (reclaimTo (issued i s t x) id (x.reg ws)).2.setTask i.eng t
          { (reclaimTo (issued i s t x) id (x.reg ws)).2.task i.eng t with
            z := (reclaimTo (issued i s t x) id (x.reg ws)).1 }
      else (issued i s t x).setTask i.eng t { x.advanced with z := false }) := by
  rw [exec, execReclaim, issue_runs h]
  exact congrArg Host.Outcome.next (if_pos hok)

end

theorem claimDeadline_other {e : Fin 4} {t : Fin 16} {s : State}
    (h : (s.task e t).st ≠ .claimwait ∨ ∀ c d, (s.task e t).wait ≠ some (.claim c (some d))) :
    exec (.claimDeadline e t) s = .next s := by
  rw [exec, execClaimDeadline]
  dsimp only
  split
  next c d hst hwait => exact h.elim (fun hn => absurd hst hn) fun hn => absurd hwait (hn c d)
  next => rfl

/-- Settles O39: CLAIM by the claim's state and owner, its deadline, RELEASE and RECLAIM. -/
theorem ledgerInstructions : Obligations.LedgerInstructions := by
  refine ⟨fun i id dl s t x h hok => ?_, fun i id dl s t x h hok ht => ?_, fun i id dl s t x h hok ht hg => ?_,
    fun i id dl s t x h hok ht hfree hg hr => ?_, fun i id dl s t x h hok ht hfree hnow => ?_,
    fun i id dl s t x h hok ht hfree hrev hnow => ?_, fun i id dl s t x h hok ht hg hr => ?_,
    fun i id dl s t x h hok ht hfree hrev hnow => ?_,
    fun e t s => ⟨fun h => claimDeadline_other (.inl h), fun h => claimDeadline_other (.inr h)⟩,
    fun e t c d s hst hwait => ?_, fun i id s t x h hok hg => ?_, fun i id s t x h hok hg hr => ?_,
    fun i id s t x h hok hg hr => ?_, fun i id ws s t x h hok hg => ?_, fun i id ws s t x h hok hg => ?_,
    fun i id s t x h hok => ?_, fun i id ws s t x h hok => ?_, fun s c v => reclaimTo_of_decrease,
    fun s c v hle hroom => ?_, fun s c v hle hroom => ?_⟩
  · rw [exec, execClaim, issue_runs h, if_neg (by simp [hok])]
  · rw [claim_of_allowed h hok, claimBody, if_pos ht]
  · rw [claim_of_allowed h hok, claimBody_of_own ht hg]
  · rw [claim_of_allowed h hok, claimBody_of_other ht hfree hg hr]
  · rw [claim_of_allowed h hok, claimBody_of_free ht hfree, if_neg (fun hc => absurd (hnow.symm.trans hc.2) (by decide))]
    exact congrArg Host.Outcome.next (if_pos hnow)
  · rw [claim_of_allowed h hok, claimBody_of_free ht hfree, if_neg (fun hc => absurd (hrev.symm.trans hc.1) (by decide))]
    exact congrArg Host.Outcome.next (if_neg (fun hc => absurd (hnow.symm.trans hc) (by decide)))
  · rw [claim_of_allowed h hok, claimBody_of_ownRevoked ht hg hr]
  · rw [claim_of_allowed h hok, claimBody_of_free ht hfree, if_pos ⟨hrev, hnow⟩]
    rfl
  · rw [exec, execClaimDeadline]
    simp only [hst, hwait]
  · rw [release_of_allowed h hok, if_pos hg]
  · rw [release_of_allowed h hok, if_neg (by simp [hg]), if_pos hr]
  · rw [release_of_allowed h hok, if_neg (by simp [hg]), if_neg (by simp [hr])]
  · rw [reclaim_of_allowed h hok, if_pos hg]
  · rw [reclaim_of_allowed h hok, if_neg (by simp [hg])]
  · rw [exec, execRelease, issue_runs h]
    exact congrArg Host.Outcome.next (if_neg (by simp [hok]))
  · rw [exec, execReclaim, issue_runs h]
    exact congrArg Host.Outcome.next (if_neg (by simp [hok]))
  · rw [reclaimTo_of_increase hle, if_pos hroom]
  · rw [reclaimTo_of_increase hle, if_neg (Nat.not_le.mpr hroom)]

/-! ### RAISE, LOG, SNAP and the readings -/

theorem showRaise_get (s : State) (e : Nat) {f : Field}
    (h : f.key ∉ [CAM_RAISE.DEPTH e, CAM_RAISE.CODE e, CAM_RAISE.TASK e].map Field.key) :
    (showRaise s e).get f = s.get f := by
  simp only [List.map_cons, List.map_nil, List.mem_cons, List.not_mem_nil, or_false, not_or] at h
  obtain ⟨hdepth, hcode, htask⟩ := h
  rw [showRaise, State.get_set_ne _ _ htask, State.get_set_ne _ _ hcode, State.get_set_ne _ _ hdepth]

theorem showRaise_depth (s : State) (e : Nat) : (showRaise s e).get (CAM_RAISE.DEPTH e) =
    (s.engine e).raiseQ.length % 2 ^ (CAM_RAISE.DEPTH e).width := by
  have hkeys : (CAM_RAISE.DEPTH e).key ≠ (CAM_RAISE.TASK e).key ∧ (CAM_RAISE.DEPTH e).key ≠ (CAM_RAISE.CODE e).key := by
    simp only [Field.key, CAM_RAISE.DEPTH, CAM_RAISE.TASK, CAM_RAISE.CODE]; omega
  rw [showRaise, State.get_set_ne _ _ hkeys.1, State.get_set_ne _ _ hkeys.2, State.get_set_same]

section
variable {i : Issue} {s : State} {t : Nat} {x : Task}

theorem raise_of_runs {code : BitVec 8} (h : Runs i (raiseWord code) s t x) : exec (.raise i code) s = .next
    (if ((issued i s t x).engine i.eng).raiseQ.length < 8 then
      (showRaise ((issued i s t x).setEngine i.eng { (issued i s t x).engine i.eng with
        raiseQ := ((issued i s t x).engine i.eng).raiseQ ++ [(code.toNat, t)] }) i.eng).setTask i.eng t
        { x.advanced with z := true }
    else raise (((issued i s t x).addSat (CAM_RAISE.LOST i.eng) 1).setTask i.eng t { x.advanced with z := false })
      (camEv i.eng 5 .warning x.pc t)) := by
  rw [exec, execRaise, issue_runs h]
  rfl

theorem rdadcUrgent_of_runs {wd : Fin 16} {ch : BitVec 7} (h : Runs i (rdadcWord wd ch true) s t x) :
    exec (.rdadcUrgent i wd ch) s = .next
      (if 0x40 ≤ ch.toNat ∨ ch.toNat = 0x1D then (issued i s t x).setTask i.eng t (readResult x.advanced wd
        (if ch.toNat < 0x40 then none else derivedChannel (issued i s t x) ch.toNat))
      else (urgentRequest (issued i s t x) (.task i.eng t) ch.toNat).2.setTask i.eng t
        (if (urgentRequest (issued i s t x) (.task i.eng t) ch.toNat).1 then
          { x.advanced with wait := some (.urgent ch.toNat wd) }
        else readResult x.advanced wd none)) := by
  rw [exec, execRdadcUrgent, issue_runs h]

end

/-- Settles O40: each instruction by its issue and the branches of its effect. -/
theorem reportingInstructions : Obligations.ReportingInstructions := by
  refine ⟨fun i code s t x h hlen => ?_, fun i code s t x h hlen => ?_, fun i code ws s t x h => ?_,
    fun i code s t x h => ?_, fun e s => ⟨fun hv => ?_, fun hv => ?_⟩,
    fun e s => ⟨showRaise_depth s e, fun f => showRaise_get s e, rfl⟩, fun i wd ch s t x h => ?_,
    fun i wd ch s t x h => ?_, fun i wd ch s t x h hch => ?_, fun i wd ch s t x h hlt hne => ?_⟩
  · rw [raise_of_runs h, if_pos hlen]
  · rw [raise_of_runs h, if_neg (by omega)]
  · rw [exec, execLog, issue_runs h]
    rfl
  · rw [exec, execSnap, issue_runs h]
  · rw [exec, execRaisePop]
    exact congrArg Host.Outcome.next (if_pos hv)
  · rw [exec, execRaisePop]
    exact congrArg Host.Outcome.next (if_neg (by simp [hv]))
  · rw [exec, execRdadc, issue_runs h]
  · rw [exec, execRdsup, issue_runs h]
  · rw [rdadcUrgent_of_runs h, if_pos hch]
  · rw [rdadcUrgent_of_runs h, if_neg (by omega)]

end Sys2Proof.Machine
end

section
/-! The engines (R242, R247, R252) and the stepping of the ring (R226, R282 to R285, R295, R296). -/

namespace Sys2Proof.Machine

/-! ### The engines -/

theorem camEnable_of_taken {e : Fin 4} {s : State} (hen : s.get (CAM_CTRL.EN e) ≠ 1) (hserve : servesAt s 2 = true) :
    exec (.camEnable e) s = .next (enableEngine s e) := by
  rw [exec, execCamEnable, if_neg (by simp [State.on, hen, hserve])]

theorem engineDrain_other {e : Nat} {s : State} (h : s.get (CAM_CTRL.EN e) ≠ 1 ∨ s.get (CAM_STATUS.STATE e) = 4) :
    engineDrain s e = s := by
  obtain h | h := h <;> simp [engineDrain, State.on, h]

/-- Settles O41: the enable, the disable and the ROM's steps. -/
theorem enginesStartAndStop : Obligations.EnginesStartAndStop := by
  refine ⟨fun e s hen => ?_, fun e s hen hserve hr => ?_, fun e s hserve => ?_,
    fun e s hen hserve hr => ⟨_, rfl, ?_⟩, fun e s => ⟨fun hen hst => ?_, fun h => ?_⟩, fun r s h => ?_, fun s h => ?_⟩
  · simp [exec, execCamEnable, State.on, hen]
  · rw [camEnable_of_taken hen hserve, enableEngine]
    exact congrArg Host.Outcome.next (if_neg hr)
  · simp [exec, execCamEnable, hserve]
  · rw [camEnable_of_taken hen hserve, enableEngine]
    exact congrArg Host.Outcome.next (if_pos hr)
  · rw [exec, execCamDisable, engineDrain, if_pos (by simp [State.on, hen, hst])]
  · rw [exec, execCamDisable, engineDrain_other h]
  · rw [exec, execRomRailOffStep, h] <;> rfl
  · rw [exec, execRomRailOffStep, h] <;> rfl

/-! ### The line and the state -/

theorem seeLine_high (s : State) : seeLine s true = s.set MNG_STATUS.LINE (if s.get MNG_STATUS.HOLD = 1 then 0 else 1) := by
  by_cases h : s.get MNG_STATUS.HOLD = 1 <;> simp [seeLine, State.on, h]

theorem seeLine_low {s : State} {line : Bool} (h : s.get MNG_STATUS.HOLD = 1 ∨ line = false) :
    (seeLine s line).get MNG_STATUS.LINE = 0 := by
  have hlow : (line && !s.on MNG_STATUS.HOLD) = false := by obtain h | h := h <;> simp [State.on, h]
  rw [seeLine, hlow, State.get_set_same]
  rfl

theorem enterRingState_state (s : State) (n : Nat) : (enterRingState s n).get MNG_STATUS.STATE = n % 256 := by
  rw [enterRingState, opMark_get _ _ _ _ (by decide)]
  exact State.get_set_same _ _ _

theorem enterRingState_ring (s : State) (n : Nat) : (enterRingState s n).ring =
    { s.ring with stateAt := some s.now,
                  departed := s.ring.departed || (decide (ringState s = 0) && decide (n ≠ 0)) } := by
  rw [enterRingState, opMark_ring]
  rfl

section
variable {s : State}

/-- A rising edge that the node counts, below state 255. -/
theorem mstepAdvance_counts (hv : vsysRuns s = true) (hj : jstate s = 2) (hh : s.get MNG_STATUS.HOLD ≠ 1)
    (hw : s.ring.window = false) : exec .mstepAdvance s = .next
      (if ringState s = 255 then notice ((s.set MNG_STATUS.LINE 1).addWrap MNG_CNT.ADV 1) (mngEv 0 .notice)
      else
        let u := enterRingState (notice ((s.set MNG_STATUS.LINE 1).addWrap MNG_CNT.ADV 1) (mngEv 0 .notice))
          (ringState s + 1)
        wakeStep (u.setRing { u.ring with retakeAt := if ringState s = 254 then none else some s.now })
          (ringState s + 1)) := by
  have hline : seeLine s true = s.set MNG_STATUS.LINE 1 := by rw [seeLine_high, if_neg hh]
  have hno : (!joined s || s.on MNG_STATUS.HOLD || s.ring.window) = false := by simp [joined, hj, State.on, hh, hw]
  rw [exec, execMstepAdvance, hline, hv, hno]
  simp only [Nat.add_right_cancel_iff, show (255 : Nat) = 254 + 1 from rfl]
  rfl

theorem mstepAdvance_other (hv : vsysRuns s = true)
    (h : jstate s ≠ 2 ∨ s.get MNG_STATUS.HOLD = 1 ∨ s.ring.window = true) :
    exec .mstepAdvance s = .next (s.set MNG_STATUS.LINE (if s.get MNG_STATUS.HOLD = 1 then 0 else 1)) := by
  have hyes : (!joined s || s.on MNG_STATUS.HOLD || s.ring.window) = true := by
    obtain h | h | h := h <;> simp [joined, State.on, h]
  rw [exec, execMstepAdvance, hv, hyes, seeLine_high]
  rfl

end

/-! ### STEP -/

section
variable {i : Issue} {n : BitVec 8} {s : State} {t : Nat} {x : Task}

theorem step_of_runs (h : Runs i (stepWord n false) s t x) : exec (.step i n) s = .next
    (if (issued i s t x).get (CAM_STATUS.RINGOWN i.eng) ≠ 1 then takeExc (issued i s t x) i.eng t 5
    else if jstate (issued i s t x) = 1 then
      ((issued i s t x).setRing { (issued i s t x).ring with remembered := some n.toNat }).setTask i.eng t
        { x.advanced with z := true }
    else if jstate (issued i s t x) = 2 ∧ (issued i s t x).get MNG_STATUS.HOLD = 1 ∧
        n.toNat = ringState (issued i s t x) + 1 then
      (useRemembered ((issued i s t x).setRing { (issued i s t x).ring with remembered := some n.toNat })).setTask
        i.eng t { x.advanced with z := true }
    else (issued i s t x).setTask i.eng t { x.advanced with z := false }) := by
  rw [exec, execStep, issue_runs h]
  simp only [joined, State.on, stepResult, Bool.and_eq_true, Bool.not_eq_true', decide_eq_true_eq,
    decide_eq_false_iff_not, and_assoc]

theorem stepAbort_of_runs (h : Runs i (stepWord n true) s t x) : exec (.stepAbort i n) s = .next
    (if (issued i s t x).get (CAM_STATUS.RINGOWN i.eng) ≠ 1 then takeExc (issued i s t x) i.eng t 5
    else if jstate (issued i s t x) = 2 then
      wantAbort ((issued i s t x).setTask i.eng t { x.advanced with z := true }) n.toNat
    else (issued i s t x).setTask i.eng t { x.advanced with z := false }) := by
  rw [exec, execStepAbort, issue_runs h]
  simp only [joined, State.on, stepResult, Bool.not_eq_true', decide_eq_true_eq, decide_eq_false_iff_not]

end

theorem useRemembered_of_state {s : State} {n : Nat} (h : s.ring.remembered = some n) : useRemembered s =
    if n = ringState s + 1 then
      if waitsExpect s then s else (s.set MNG_STATUS.HOLD 0).setRing { s.ring with remembered := none }
    else s.setRing { s.ring with remembered := none } := by
  rw [useRemembered, h]

/-! ### The deadlines -/

section
variable {s : State} {line : Bool} {t : Nat}

theorem mstepDeadline_other (h : s.ring.stateAt = none ∨ stepDeadline s = none ∨ jstate s ≠ 2) :
    exec (.mstepDeadline line) s = .next s := by
  rw [exec, execMstepDeadline]
  split
  next t us ht hus =>
    obtain h | h | h := h
    · exact absurd (ht.symm.trans h) (by simp)
    · exact absurd (hus.symm.trans h) (by simp)
    · simp [joined, h]
  next => rfl

theorem mstepStuck_of_master (ht : s.ring.isoAt = some t) (hm : masterActs s = true) :
    exec (.mstepStuck line) s = .next
      (let u := seeLine (s.expire (t + 100000)) line
      let v := u.setRing { u.ring with isoAt := none, stuckPolled := false }
      if u.get MNG_STATUS.LINE = 1 then v
      else if s.ring.stuckPolled = false then (holderPolls (ringQuiet u)).setRing
        { (holderPolls (ringQuiet u)).ring with stuckPolled := true }
      else if s.ring.polls ≠ [] then u
      else if (∃ a ∈ holders s, present s a = true) then v
      else raise v (mngEv 6 .fault)) := by
  rw [exec, execMstepStuck, ht]
  dsimp only
  rw [if_pos hm]
  simp only [State.on, decide_eq_true_eq, Bool.not_eq_true', List.isEmpty_eq_false_iff, List.any_eq_true]

theorem mstepStuck_other (h : s.ring.isoAt = none ∨ masterActs s = false) : exec (.mstepStuck line) s = .next s := by
  rw [exec, execMstepStuck]
  split
  next t ht =>
    obtain h | h := h
    · exact absurd (ht.symm.trans h) (by simp)
    · simp [h]
  next => rfl

end

/-- Settles O42: edges, holds, STEP and the deadlines, each with its complement. -/
theorem ringStepping : Obligations.RingStepping := by
  refine ⟨fun s hv hj hh hw hlt => ⟨_, rfl, ?_⟩, fun s hv hj hh hw hst => ?_, fun s => mstepAdvance_other,
    fun s hv => ?_, fun s n => ⟨enterRingState_state s n, ?_, ?_⟩, fun t s ht hj => ?_, fun s h => ?_,
    fun i n s t x h hown => ?_, fun i n s t x h hown => ?_, fun i n s t x h hown hj => ?_,
    fun i n s t x h hown hj hh hn => ?_, fun i n s t x h hown hj hno => ?_,
    fun s n hr => ⟨fun hn hw => ?_, fun hn hw => ?_, fun hn => ?_⟩, fun i n s t x h hown hj => ?_,
    fun i n s t x h hown hj => ?_, fun line t us s ht hus hj => ⟨_, rfl, seeLine_low, ?_⟩,
    fun line s => mstepDeadline_other, fun line t s ht hm => ⟨_, _, rfl, rfl, mstepStuck_of_master ht hm⟩,
    fun line s => mstepStuck_other⟩
  · rw [mstepAdvance_counts hv hj hh hw, if_neg (by omega)]
  · rw [mstepAdvance_counts hv hj hh hw, if_pos hst]
  · simp [exec, execMstepAdvance, hv]
  · rw [enterRingState_ring]
  · rw [enterRingState_ring]
    simp
  · simp [exec, execHoldRetake, ht, joined, hj]
  · rw [exec, execHoldRetake]
    split
    · rfl
    next t ht =>
      obtain h | h := h
      · exact absurd (ht.symm.trans h) (by simp)
      · simp [joined, h]
  · rw [step_of_runs h, if_pos hown]
  · rw [stepAbort_of_runs h, if_pos hown]
  · rw [step_of_runs h, if_neg (not_not_intro hown), if_pos hj]
  · rw [step_of_runs h, if_neg (not_not_intro hown), if_neg (by omega), if_pos ⟨hj, hh, hn⟩]
  · rw [step_of_runs h, if_neg (not_not_intro hown), if_neg hj, if_neg]
    rintro ⟨hjoined, hh, hn⟩
    exact hno.elim (fun hc => hc hjoined) fun hc => hc.elim (fun hc => hc hh) fun hc => hc hn
  · rw [useRemembered_of_state hr, if_pos hn, if_neg (by simp [hw])]
  · rw [useRemembered_of_state hr, if_pos hn, if_pos hw]
  · rw [useRemembered_of_state hr, if_neg hn]
  · rw [stepAbort_of_runs h, if_neg (not_not_intro hown), if_pos hj]
  · rw [stepAbort_of_runs h, if_neg (not_not_intro hown), if_neg hj]
  · rw [exec, execMstepDeadline]
    simp only [ht, hus, joined, hj, masterActs, State.on, decide_true, if_true, Bool.and_eq_true, decide_eq_true_eq]
    rfl

end Sys2Proof.Machine
end

section
/-! Membership of the ring: joining, enumeration, presence and leaving (R288 to R297). -/

namespace Sys2Proof.Machine

/-! ### Joining -/

section
variable {s : State}

theorem ringEnable_of_taken (hen : s.get MNG_CTRL.EN ≠ 1) (hserve : servesAt s 3 = true) :
    exec .ringEnable s = .next (enableRing s) := by
  rw [exec, execRingEnable, if_neg (by simp [State.on, hen, hserve])]

theorem ringMasterStart_other {afterLoss : Bool} (h : s.ring.inserted = none ∨ jstate s ≠ 1 ∨ s.get MNG_CFG.MASTER ≠ 1) :
    exec (.ringMasterStart afterLoss) s = .next s := by
  rw [exec, execRingMasterStart]
  split
  next => rfl
  next t ht =>
    obtain h | h | h := h
    · exact absurd (ht.symm.trans h) (by simp)
    · simp [h]
    · simp [State.on, h]

/-! ### Resending -/

theorem beginAbort_unacked (s : State) : (beginAbort s).ring.unacked = s.ring.unacked := by
  unfold beginAbort
  split <;> rfl

theorem giveUp_unacked (s : State) : (giveUp s).ring.unacked = s.ring.unacked.filter fun x => !givenUp s x := by
  unfold giveUp
  dsimp only
  split
  · exact beginAbort_unacked _
  · rfl

theorem not_givenUp (s : State) (x : RingSent) : (!givenUp s x) =
    (decide (s.get MNG_STATUS.OPEN = 1) || decide (x.resends < 3) || decide (s.now < x.sentAt + 20000)) := by
  rw [Bool.eq_iff_iff]
  simp only [givenUp, State.on, Bool.not_eq_true', Bool.and_eq_false_iff, Bool.not_eq_false', Bool.or_eq_true,
    decide_eq_true_eq, decide_eq_false_iff_not, Nat.not_le]

/-- Without an ABORT that is given up, no abort begins. -/
theorem giveUp_of_noAbort (h : (∀ x ∈ s.ring.unacked, givenUp s x = false ∨ bodyType x.frame ≠ 3) ∨
    s.ring.abortSent = false) :
    giveUp s = s.setRing { s.ring with unacked := s.ring.unacked.filter fun x => !givenUp s x } := by
  refine if_neg ?_
  rw [Bool.and_eq_true, List.any_eq_true]
  rintro ⟨hsent, x, hx, htype⟩
  obtain ⟨hmem, hgiven⟩ := List.mem_filter.mp hx
  obtain h | h := h
  · exact (h x hmem).elim (fun hn => absurd (hgiven.symm.trans hn) (by decide)) fun hn => hn (of_decide_eq_true htype)
  · exact absurd (hsent.symm.trans h) (by decide)

/-- The cycle of the master, from the state in which the frames that came to nothing are given up. -/
theorem ringCycle_of_master {u : State} (hm : masterActs s = true)
    (hu : u = giveUp (match s.ring.cycleAt with | some t => s.expire (t + 10000) | none => s)) :
    exec .ringCycle s = .next
      (let polls := pollBodies u false (groupsInUse u) ++
        (if u.get MNG_STATUS.OPEN = 1 then [] else pollBodies u true u.ring.polls)
      let v := stateSent (ringSend u (masterState u :: polls))
      let w := v.setRing { v.ring with cycleAt := some u.now }
      match freeAddress u with
        | some a => (if s.get MNG_STATUS.OPEN = 1 then w else ringSendAcked
          (w.setRing { w.ring with clear := false }) (enumBody a false u.ring.clear))
        | none => w) := by
  rw [exec, execRingCycle, if_neg (by simp [hm])]
  cases hc : s.ring.cycleAt <;> simp only [hc] at hu <;> simp only [← hu, State.on, decide_eq_true_eq] <;>
    cases freeAddress u <;> rfl

/-! ### Frames at a node and at the master -/

theorem ringEnumReturn_of_sent {offered : BitVec 7} {taken clr : Bool} (hm : masterActs s = true)
    (hsent : ∃ x ∈ s.ring.unacked, x.frame = enumBody offered.toNat false clr) :
    exec (.ringEnumReturn offered taken clr) s = .next
      (if taken = true ∧ clr = false ∧ present s offered.toNat = false then
        useRemembered (notice (setPresent (ringAck (ringReturned s) (enumBody offered.toNat false clr)) offered.toNat)
          (mngEv 2 .notice))
      else ringAck (ringReturned s) (enumBody offered.toNat false clr)) := by
  have hany : (s.ring.unacked.any fun x => decide (x.frame = enumBody offered.toNat false clr)) = true := by
    simpa using hsent
  rw [exec, execRingEnumReturn]
  simp only [hm, hany, Bool.and_self, if_true, Bool.and_eq_true, Bool.not_eq_true', and_assoc]

theorem ringEnumReturn_other {offered : BitVec 7} {taken clr : Bool}
    (h : masterActs s = false ∨ ∀ x ∈ s.ring.unacked, x.frame ≠ enumBody offered.toNat false clr) :
    exec (.ringEnumReturn offered taken clr) s = .next s := by
  have hno : (masterActs s && s.ring.unacked.any fun x => decide (x.frame = enumBody offered.toNat false clr)) = false := by
    obtain h | h := h
    · simp [h]
    · simpa using fun _ => h
  rw [exec, execRingEnumReturn]
  exact congrArg Host.Outcome.next (if_neg (by rw [hno]; decide))

/-- A node that is not the master, and is in the ring, passes on what a frame brings it. -/
theorem silent_iff (s : State) : (masterActs s || s.ring.inserted.isNone) = true ↔
    masterActs s = true ∨ s.ring.inserted = none := by simp

theorem ringIsolateFrame_of_inserted {addr : BitVec 7} (h : s.ring.inserted ≠ none) :
    exec (.ringIsolateFrame addr) s = .next
      (if s.get MNG_STATUS.ADDRV = 1 ∧ s.get MNG_STATUS.ADDR = addr.toNat then
        raise (((offRing (ringSend s [isolateBody addr.toNat])).set MNG_STATUS.JSTATE 4).set MNG_CTRL.EN 0)
          (mngEv 5 .fault)
      else if masterActs s = true then
        ringSendAcked (ringAck (ringReturned s) (isolateBody addr.toNat)) (lostBody addr.toNat)
      else ringSend s [isolateBody addr.toNat]) := by
  rw [exec, execRingIsolateFrame, if_neg (by simpa using h)]
  simp only [State.on, decide_eq_true_eq]

end

/-- Settles O43: each row of the membership and its complement. -/
theorem ringMembership : Obligations.RingMembership := by
  refine ⟨fun s hen => ?_, fun s hen hserve hr => ?_, fun s hserve => ⟨?_, ?_⟩, fun s hen hserve hr => ?_,
    fun s hserve => ?_, fun t afterLoss s ht hj hm => ⟨_, _, rfl, rfl, ?_⟩, fun afterLoss s => ringMasterStart_other,
    fun s => ?_, fun u s hm hu => ?_, fun s => ⟨?_, giveUp_of_noAbort⟩, fun s hm => ?_,
    fun offered taken clr s => ⟨_, rfl, ?_⟩,
    fun offered taken clr s hm hsent => ⟨_, rfl, ringEnumReturn_of_sent hm hsent⟩,
    fun offered taken clr s => ringEnumReturn_other, fun hold group bits s => ⟨_, _, rfl, rfl, ?_⟩,
    fun hold group bits s hm => ?_, fun group bits s hm => ⟨_, rfl, ?_⟩,
    fun group bits s hm => ⟨_, _, _, rfl, rfl, rfl, ?_⟩, fun addr s hm hin => ?_, fun addr s hm hin => ⟨_, rfl, ?_⟩,
    fun addr s hin hv ha => ?_, fun addr s hin hne => ⟨_, rfl, ?_⟩, fun addr s hin => ⟨?_, ?_⟩, fun s => ?_, fun s => ?_⟩
  · simp [exec, execRingEnable, State.on, hen]
  · rw [ringEnable_of_taken hen hserve]
    exact congrArg Host.Outcome.next (if_neg hr)
  · simp [exec, execRingEnable, hserve]
  · simp [exec, execRingInsert, hserve]
  · rw [ringEnable_of_taken hen hserve]
    exact congrArg Host.Outcome.next (if_pos hr)
  · simp [exec, execRingInsert, hserve, insertNode]
  · rw [exec, execRingMasterStart, ht]
    exact congrArg Host.Outcome.next (if_pos (by simp [hj, State.on, hm]))
  · by_cases hen : s.get MNG_CTRL.EN = 1 <;> simp [exec, execRingLeave, leaveRing, State.on, hen]
  · exact ringCycle_of_master hm hu
  · rw [giveUp_unacked]
    simp only [not_givenUp]
  · rw [exec, execRingCycle, if_pos (by simp [hm])]
  · rw [exec, execRingEnumFrame]
    simp only [silent_iff, joined, State.on, Bool.and_eq_true, Bool.not_eq_true', decide_eq_true_eq,
      decide_eq_false_iff_not, and_assoc]
  · rw [exec, execRingPollFrame]
    simp only [silent_iff]
  · rw [exec, execRingPollReturn, if_pos (by simp [hm])]
  · rw [exec, execRingPollReturn, if_neg (by simp [hm])]
    rfl
  · rw [exec, execRingPollReturn, if_neg (by simp [hm])]
    simp only [Bool.and_eq_true, List.contains_iff_mem, List.isEmpty_iff]
    rfl
  · rw [exec, execRingNodeLostFrame, if_neg (by simpa using hin)]
    simp [hm]
  · rw [exec, execRingNodeLostFrame, if_neg (by simpa using hin)]
    simp [hm, State.on]
  · rw [ringIsolateFrame_of_inserted hin, if_pos ⟨hv, ha⟩]
  · rw [ringIsolateFrame_of_inserted hin, if_neg]
    rintro ⟨hv, ha⟩
    exact hne.elim (fun hn => hn hv) fun hn => hn ha
  · simp [exec, execRingNodeLostFrame, hin]
  · simp [exec, execRingIsolateFrame, hin]
  · simp [exec, execRingSilent, joined, State.on]
  · simp [exec, execRingOpen, State.on]

end Sys2Proof.Machine
end

section
/-! The frames of the ring (R287 to R297): STATE and ABORT, resends, the commands of MNG_CMD, and the frames that
waited while the ring was open. -/

namespace Sys2Proof.Machine

/-! ### Sorted lists -/

section
variable {α : Type} {le : α → α → Bool}

theorem mem_insertBy {a b : α} {l : List α} : b ∈ insertBy le a l ↔ b = a ∨ b ∈ l := by
  induction l with
  | nil => simp [insertBy]
  | cons c l ih =>
    rw [insertBy]
    split
    · exact List.mem_cons
    · rw [List.mem_cons, ih, List.mem_cons]
      exact or_left_comm

theorem mem_sortBy {b : α} {l : List α} : b ∈ sortBy le l ↔ b ∈ l := by
  induction l with
  | nil => exact Iff.rfl
  | cons a l ih => rw [sortBy, mem_insertBy, ih, List.mem_cons]

/-- The first of a sorted list is below every other. -/
theorem head_sortBy_le (htotal : ∀ a b, le a b = true ∨ le b a = true)
    (htrans : ∀ a b c, le a b = true → le b c = true → le a c = true) {l : List α} {a : α}
    (h : (sortBy le l).head? = some a) : ∀ b ∈ l, le a b = true := by
  induction l generalizing a with
  | nil => exact fun b hb => absurd hb List.not_mem_nil
  | cons c l ih =>
    rw [sortBy] at h
    cases hs : sortBy le l with
    | nil =>
      rw [hs] at h
      obtain rfl : c = a := Option.some.inj h
      intro b hb
      obtain rfl | hb := List.mem_cons.mp hb
      · exact (htotal b b).elim id id
      · exact absurd (hs ▸ mem_sortBy.mpr hb) List.not_mem_nil
    | cons d m =>
      have hd := ih (a := d) (by rw [hs]; rfl)
      rw [hs, insertBy] at h
      intro b hb
      by_cases hcd : le c d = true
      · rw [if_pos hcd] at h
        obtain rfl : c = a := Option.some.inj h
        obtain rfl | hb := List.mem_cons.mp hb
        · exact (htotal b b).elim id id
        · exact htrans c d b hcd (hd b hb)
      · rw [if_neg hcd] at h
        obtain rfl : d = a := Option.some.inj h
        obtain rfl | hb := List.mem_cons.mp hb
        · exact (htotal b d).resolve_left hcd
        · exact hd b hb

end

/-- The frame sent first of those that may still be resent. -/
theorem firstDue_spec {l : List RingSent} {x : RingSent} (h : firstDue l = some x) :
    x ∈ l ∧ x.resends < 3 ∧ ∀ y ∈ l, y.resends < 3 → x.sentAt ≤ y.sentAt := by
  have hmem : x ∈ l.filter fun y => decide (y.resends < 3) := mem_sortBy.mp (List.mem_of_head? h)
  obtain ⟨hin, hdue⟩ := List.mem_filter.mp hmem
  refine ⟨hin, of_decide_eq_true hdue, fun y hy hlt => ?_⟩
  have hle := head_sortBy_le (le := fun a b : RingSent => decide (a.sentAt ≤ b.sentAt))
    (fun a b => by simpa using Nat.le_total a.sentAt b.sentAt)
    (fun a b c hab hbc => by simp only [decide_eq_true_eq] at *; omega) h
    y (List.mem_filter.mpr ⟨hy, decide_eq_true hlt⟩)
  exact of_decide_eq_true hle

/-! ### STATE frames -/

theorem seeLine_beside (s : State) (line : Bool) : masterActs (seeLine s line) = masterActs s ∧
    jstate (seeLine s line) = jstate s ∧ (seeLine s line).get MNG_STATUS.ADDRV = s.get MNG_STATUS.ADDRV := by
  have hkey : ∀ f : Field, f.key ≠ MNG_STATUS.LINE.key → (seeLine s line).get f = s.get f :=
    fun f h => State.get_set_ne _ _ h
  refine ⟨?_, hkey _ (by decide), hkey _ (by decide)⟩
  rw [masterActs, masterActs, State.on, State.on, hkey _ (by decide)]

/-- A STATE frame at a node that is not the master. -/
theorem ringStateFrame_of_node {f : StateFrame} {k : State} (hin : k.ring.inserted ≠ none) (hm : masterActs k = false) :
    exec (.ringStateFrame f) k = .next
      (let s := seeLine k f.line
      let u := (fillAreq s f).set MNG_STATUS.SILENT 0
      let w := u.setRing { u.ring with stateSeen := k.now }
      if jstate k = 1 then joinRing w f.state.toNat
      else if jstate k ≠ 2 then s
      else
        let v := checkState w f.state.toNat
        if f.count.toNat = 128 ∧ k.get MNG_STATUS.ADDRV ≠ 1 then leaveRing (raise v (mngEv 11 .fault)) else v) := by
  obtain ⟨hmaster, hj, haddr⟩ := seeLine_beside k f.line
  have hsome : k.ring.inserted.isSome = true := Option.isSome_iff_ne_none.mpr hin
  have hnone : (seeLine k f.line).ring.inserted.isNone = false := by
    rw [Option.isNone_eq_false_iff]
    exact hsome
  rw [exec, execRingStateFrame]
  simp only [hsome, if_true, hmaster, hm, hnone, hj, joined, State.on, haddr, Bool.not_eq_true', decide_eq_true_eq,
    decide_eq_false_iff_not, Bool.false_eq_true, if_false]
  rfl

theorem ringStateFrame_of_master {f : StateFrame} {k : State} (hm : masterActs k = true) :
    exec (.ringStateFrame f) k = .next (masterSawState (if k.ring.inserted = none then k else seeLine k f.line) f) := by
  have hmaster : ∀ s, s = k ∨ s = seeLine k f.line → masterActs s = true := by
    rintro s (rfl | rfl)
    · exact hm
    · rw [(seeLine_beside k f.line).1, hm]
  rw [exec, execRingStateFrame]
  cases hin : k.ring.inserted with
  | none =>
    refine congrArg Host.Outcome.next (if_pos ?_)
    exact hm
  | some t =>
    refine congrArg Host.Outcome.next (if_pos ?_)
    exact hmaster _ (.inr rfl)

/-! ### ABORT frames and resends -/

section
variable {s : State}

theorem abortHoldWaitEnd_other (h : s.ring.abortHold = none ∨ s.ring.requests = [] ∨ s.ring.abortSent = true ∨
    masterActs s = false ∨ s.get MNG_STATUS.OPEN = 1) : exec .abortHoldWaitEnd s = .next s := by
  rw [exec, execAbortHoldWaitEnd]
  split
  next t r rest ht hr =>
    refine if_pos ?_
    obtain h | h | h | h | h := h
    · exact absurd (ht.symm.trans h) (by simp)
    · exact absurd (hr.symm.trans h) (by simp)
    · simp [h]
    · simp [h]
    · simp [State.on, h]
  next => rfl

theorem ringFrameResend_other (h : firstDue s.ring.unacked = none ∨ masterActs s = false ∨ s.get MNG_STATUS.OPEN = 1) :
    exec .ringFrameResend s = .next s := by
  rw [exec, execRingFrameResend]
  split
  next => rfl
  next x hx =>
    refine congrArg Host.Outcome.next (if_neg ?_)
    obtain h | h | h := h
    · exact absurd (hx.symm.trans h) (by simp)
    · simp [h]
    · simp [State.on, h]

end

/-! ### The frames that waited while the ring was open (R297) -/

theorem each_sendIsolate (l : List Nat) {s : State} (hopen : s.get MNG_STATUS.OPEN ≠ 1) :
    (State.each l sendIsolate s).regs = s.regs ∧
      (State.each l sendIsolate s).ring.tx = s.ring.tx ++ l.map (fun a => ringFrame (isolateBody a)) ∧
      (State.each l sendIsolate s).ring.isoWaits = s.ring.isoWaits ∧
      (State.each l sendIsolate s).ring.pollsWait = s.ring.pollsWait := by
  unfold State.each
  induction l generalizing s with
  | nil => exact ⟨rfl, (List.append_nil _).symm, rfl, rfl⟩
  | cons a l ih =>
    have hsend : sendIsolate s a = (ringSendAcked s (isolateBody a)).setRing
        { (ringSendAcked s (isolateBody a)).ring with isoAt := some s.now, stuckPolled := false } :=
      if_neg (by simp [State.on, hopen])
    obtain ⟨hregs, htx, hwaits, hpolls⟩ := ih (s := sendIsolate s a) (by rw [hsend]; exact hopen)
    rw [List.foldl_cons]
    refine ⟨?_, ?_, ?_, ?_⟩
    · rw [hregs, hsend]
      rfl
    · rw [htx, hsend, List.map_cons, List.append_cons]
      rfl
    · rw [hwaits, hsend]
      rfl
    · rw [hpolls, hsend]
      rfl

theorem beginAbort_frames (s : State) : (beginAbort s).ring.tx = s.ring.tx ∧
    (beginAbort s).ring.isoWaits = s.ring.isoWaits ∧ (beginAbort s).ring.pollsWait = s.ring.pollsWait := by
  unfold beginAbort
  split <;> exact ⟨rfl, rfl, rfl⟩

/-- The holder polls leave after the frames that stand. -/
theorem isolatePolls_frames {s : State} (hopen : s.get MNG_STATUS.OPEN ≠ 1) :
    (isolatePolls s).ring.tx = s.ring.tx ++ (pollBodies s true (groupsInUse s)).map (fun b => ringFrame b) ∧
      (isolatePolls s).ring.isoWaits = s.ring.isoWaits ∧ (isolatePolls s).ring.pollsWait = false := by
  rw [isolatePolls, if_neg (by simp [State.on, hopen])]
  exact ⟨rfl, rfl, rfl⟩

/-- The ring as it is when a frame of the master's returns and the ISOLATE frames that waited have left. -/
def isolatesSent (s : State) : State :=
  let s1 := (s.setRing { s.ring with ownSeen := s.now, tx := [] }).set MNG_STATUS.OPEN 0
  State.each s.ring.isoWaits sendIsolate (s1.setRing { s1.ring with
    isoWaits := [], unacked := s.ring.unacked.map fun x => { x with resends := 0 } })

theorem isolatesSent_frames (s : State) :
    (∀ f : Field, f.key ≠ MNG_STATUS.OPEN.key → (isolatesSent s).get f = s.get f) ∧
      (isolatesSent s).get MNG_STATUS.OPEN ≠ 1 ∧
      (isolatesSent s).ring.tx = s.ring.isoWaits.map (fun a => ringFrame (isolateBody a)) ∧
      (isolatesSent s).ring.isoWaits = [] ∧ (isolatesSent s).ring.pollsWait = s.ring.pollsWait := by
  unfold isolatesSent
  dsimp only
  generalize hbase : State.setRing _ _ = base
  have hbregs : base.regs = (s.set MNG_STATUS.OPEN 0).regs := by
    rw [← hbase]
    rfl
  have hopen : base.get MNG_STATUS.OPEN ≠ 1 := by
    rw [State.get_of_regs hbregs, State.get_set_same]
    decide
  obtain ⟨hregs, htx, hwaits, hpolls⟩ := each_sendIsolate s.ring.isoWaits hopen
  refine ⟨fun f hf => ?_, ?_, ?_, ?_, ?_⟩
  · rw [State.get_of_regs hregs, State.get_of_regs hbregs]
    exact State.get_set_ne _ _ hf
  · rw [State.get_of_regs hregs]
    exact hopen
  · rw [htx, ← hbase]
    rfl
  · rw [hwaits, ← hbase]
    rfl
  · rw [hpolls, ← hbase]
    rfl

theorem ringReturned_of_open {s : State} (h : s.get MNG_STATUS.OPEN = 1) : ringReturned s =
    beginAbort (if s.ring.pollsWait then isolatePolls (isolatesSent s) else isolatesSent s) :=
  if_pos (decide_eq_true h)

theorem ringReturned_frames {s : State} (h : s.get MNG_STATUS.OPEN = 1) :
    (∀ a ∈ s.ring.isoWaits, ringFrame (isolateBody a) ∈ (ringReturned s).ring.tx) ∧
      (s.ring.pollsWait = true → ∀ g, g < 4 → s.get (MNG_PRESENT.MASK g) ≠ 0 →
        ∃ b ∈ pollBodies s true [g], ringFrame b ∈ (ringReturned s).ring.tx) ∧
      (ringReturned s).ring.isoWaits = [] ∧ (ringReturned s).ring.pollsWait = false := by
  obtain ⟨hget, hopen, htx, hwaits, hpolls⟩ := isolatesSent_frames s
  obtain ⟨hptx, hpwaits, hppolls⟩ := isolatePolls_frames hopen
  have hon : (isolatesSent s).on MNG_STATUS.HOLD = s.on MNG_STATUS.HOLD := by
    rw [State.on, State.on, hget _ (by decide)]
  rw [ringReturned_of_open h]
  obtain ⟨hbtx, hbwaits, hbpolls⟩ := beginAbort_frames
    (if s.ring.pollsWait then isolatePolls (isolatesSent s) else isolatesSent s)
  rw [hbtx, hbwaits, hbpolls]
  by_cases hp : s.ring.pollsWait = true
  · rw [if_pos hp, hptx, hpwaits, hppolls, hwaits, htx]
    refine ⟨fun a ha => List.mem_append_left _ (List.mem_map_of_mem ha), fun _ g hg hmask => ?_, rfl, rfl⟩
    refine ⟨_, List.mem_singleton.mpr rfl, List.mem_append_right _ (List.mem_map_of_mem ?_)⟩
    refine List.mem_map.mpr ⟨g, List.mem_filter.mpr ⟨List.mem_range.mpr hg, ?_⟩, by rw [hon]⟩
    refine decide_eq_true ?_
    rw [hget _ (by simp only [Field.key, MNG_PRESENT.MASK, MNG_STATUS.OPEN]; omega)]
    exact hmask
  · rw [if_neg hp, htx, hwaits, hpolls]
    exact ⟨fun a ha => List.mem_map_of_mem ha, fun hc => absurd hc hp, rfl, by simpa using hp⟩

/-- Settles O44: the frames at a node and at the master, the resends and the commands. -/
theorem ringFrames : Obligations.RingFrames := by
  refine ⟨fun f k hin hm => ⟨_, _, rfl, rfl, fun hj => ?_, fun hj => ?_, fun h1 h2 => ?_⟩,
    fun f k => ringStateFrame_of_master, fun f s hin hm => ?_, fun f s hseq => ?_, fun n s hw hn => ?_,
    fun target node seq s hm => ⟨_, rfl, ?_⟩, fun target node seq s hm => ?_,
    fun t r rest s ht hr hsent hm hopen => ⟨_, rfl, ?_⟩, fun s => abortHoldWaitEnd_other, fun body s => ⟨_, rfl, ?_⟩,
    fun x s hx hm hopen => ⟨_, rfl, ?_⟩, fun s => ringFrameResend_other, fun x l => firstDue_spec, fun arg s => ?_,
    fun arg s => ?_, fun s => ?_, fun s => ⟨fun hopen => ?_, ringReturned_frames⟩⟩
  · rw [ringStateFrame_of_node hin hm]
    exact congrArg Host.Outcome.next (if_pos hj)
  · rw [ringStateFrame_of_node hin hm]
    exact congrArg Host.Outcome.next ((if_neg (by omega)).trans (if_neg (not_not_intro hj)))
  · rw [ringStateFrame_of_node hin hm]
    exact congrArg Host.Outcome.next ((if_neg h1).trans (if_pos h2))
  · simp [exec, execRingStateFrame, hin, hm]
  · rw [masterSawState, if_neg (by simpa using hseq)]
  · rw [checkState, if_neg (by simp [hw]), if_neg hn]
  · rw [exec, execRingAbortFrame, if_neg (by simp [hm])]
    simp only [joined, decide_eq_true_eq, Option.isSome_iff_ne_none]
  · rw [exec, execRingAbortFrame, if_pos hm]
  · rw [exec, execAbortHoldWaitEnd, ht, hr]
    exact if_neg (by simp [hsent, hm, State.on, hopen])
  · rw [exec, execRingFrameCrcError]
    simp only [forwarded, Option.isNone_iff_eq_none, Bool.or_eq_true, Bool.not_eq_true', Bool.and_eq_false_iff,
      decide_eq_false_iff_not, Nat.not_le]
  · rw [exec, execRingFrameResend, hx]
    exact congrArg Host.Outcome.next (if_pos (by simp [hm, State.on, hopen]))
  · simp [exec, execMngCmdAbort, joined, mngBusy]
  · simp [exec, execMngCmdIsolate, mngBusy, ringQuiet, and_assoc]
  · simp [exec, execMngCmdPoll, mngBusy, ringQuiet]
  · exact if_neg (by simp [State.on, hopen])

end Sys2Proof.Machine
end

section
/-! The ADC's slices, entries and housekeeping rounds (R327 to R333, R340, R360). -/

namespace Sys2Proof.Machine

section
variable {k : Fin 4} {s : State}

theorem adcSliceEnable_of_taken (hen : s.get (ADC_SL_CTRL.EN k) ≠ 1) (hserve : unitsServe s = true) :
    exec (.adcSliceEnable k) s = .next (enableSlice s k) := by
  rw [exec, execAdcSliceEnable, if_neg (by simp [State.on, hen, hserve])]

theorem adcSeqPeriod_other (h : sliceRuns s k = false ∨ s.get (ADC_SL_CTRL.RUN k) ≠ 3 ∨ NMap.get 0 s.adc.perAt k = 0) :
    exec (.adcSeqPeriod k) s = .next s := by
  have hno : (sliceRuns s k && decide (s.get (ADC_SL_CTRL.RUN k) = 3) && decide (0 < NMap.get 0 s.adc.perAt k)) = false := by
    obtain h | h | h := h <;> simp [h]
  rw [exec, execAdcSeqPeriod]
  exact congrArg Host.Outcome.next (if_neg (by rw [hno]; decide))

theorem adcSeqPeriod_of_due {t : Nat} (hrun : sliceRuns s k = true) (hper : s.get (ADC_SL_CTRL.RUN k) = 3)
    (ht : NMap.get 0 s.adc.perAt k = t + 1) : exec (.adcSeqPeriod k) s = .next
      (let u := s.expire (deadlineAt t (s.get (ADC_SL_CTRL.PER k)))
      let v := u.setAdc { u.adc with perAt := NMap.put 0 u.adc.perAt k (deadlineAt t (s.get (ADC_SL_CTRL.PER k)) + 1) }
      if seqRuns s k then v.addSat (ADC_SL_RAW.SKIP k) 1 else startSeq v k) := by
  rw [exec, execAdcSeqPeriod, ht]
  exact congrArg Host.Outcome.next (if_pos (by simp [hrun, hper]))

theorem seqEntryDone_other {codes : List (BitVec 12)} {k : Nat} (h : seqRuns s k = false ∨ s.adc.burst ≠ none ∨
    codes.length ≠ 2 ^ s.get (ADC_SEQ.AVG k (NMap.get 0 s.adc.pos k))) : seqEntryDone s k codes = s := by
  refine if_neg ?_
  rintro ⟨hrun, hburst, hlen⟩
  obtain h | h | h := h
  · exact absurd (hrun.symm.trans h) (by decide)
  · exact h (Option.isNone_iff_eq_none.mp hburst)
  · exact h hlen

theorem baseDone_other {c v : Nat} (h : bitOf s.adc.baseLeft c ≠ 1 ∨ s.adc.burst ≠ none) : baseDone s c v = s := by
  refine if_neg ?_
  rintro ⟨hleft, hburst⟩
  exact h.elim (fun hn => hn hleft) fun hn => hn (Option.isNone_iff_eq_none.mp hburst)

end

/-- Settles O45: the slices, their entries, the base list, the capture and the rounds. -/
theorem adcSequences : Obligations.AdcSequences := by
  refine ⟨fun k s hen => ?_, fun k s hen hserve hr => ?_, fun k s hserve => ?_,
    fun k s hen hserve hr => ⟨_, rfl, ?_⟩, fun k s hrun => ⟨_, _, rfl, rfl, ?_⟩,
    fun k s hrun => ⟨?_, adcSeqPeriod_other (.inl hrun)⟩, fun k t s hrun hper ht => ⟨_, _, rfl, rfl, ?_⟩,
    fun k s h => adcSeqPeriod_other (.inr h), fun k codes s hrun hburst hlen => ⟨_, _, _, _, rfl, rfl, rfl, rfl, ?_⟩,
    fun k codes s h => ?_, fun c v s hleft hburst => ⟨_, rfl, ?_⟩, fun c v s => baseDone_other, fun c codes s => ?_,
    fun k j uv s => ⟨?_, ?_⟩, fun samples s => ?_, fun v b c s hround hserve => ⟨_, rfl, ?_⟩, fun v b c s h => ?_,
    fun s => ?_, fun v b c s => ?_⟩
  · simp [exec, execAdcSliceEnable, State.on, hen]
  · rw [adcSliceEnable_of_taken hen hserve]
    exact congrArg Host.Outcome.next (if_neg hr)
  · simp [exec, execAdcSliceEnable, hserve]
  · rw [adcSliceEnable_of_taken hen hserve]
    exact congrArg Host.Outcome.next (if_pos hr)
  · rw [exec, execAdcSliceDisable, if_neg (by simp [hrun])]
    rfl
  · rw [exec, execAdcSliceDisable, if_pos (by simp [hrun])]
  · exact adcSeqPeriod_of_due hrun hper ht
  · rw [exec, execAdcEntryDone]
    refine congrArg Host.Outcome.next ((if_pos ⟨hrun, by simp [hburst], hlen⟩).trans ?_)
    simp only [List.any_eq_true, decide_eq_true_eq, exists_eq_right]
    rfl
  · rw [exec, execAdcEntryDone]
    exact congrArg Host.Outcome.next (seqEntryDone_other h)
  · exact if_pos ⟨hleft, by simp [hburst]⟩
  · rw [exec, execAdcEntryDone]
    rfl
  · rw [exec, execAdcEntryDone]
  · rw [exec, execAdcEntryDone]
  · rw [exec, execAdcEntryDone]
    simp only [captureSamples, samplesTaken]
  · rw [exec, execHkRoundStart, if_neg (by simp [hround, hserve])]
  · rw [exec, execHkRoundStart, if_pos (by obtain h | h := h <;> simp [h])]
  · rw [exec, execHkDeadline]
  · rw [exec, execHkRoundComplete]
    simp only [roundIsDone, Bool.and_eq_true, decide_eq_true_eq, and_assoc]

end Sys2Proof.Machine
end

section
/-! Bursts, capture, snapshots and capacitor injections (R338 to R344, R354). -/

namespace Sys2Proof.Machine

section
variable {s : State}

theorem waitingInjection_eq_some_iff {n t : Nat} : waitingInjection s = some (n, t) ↔
    s.adc.injWait = some (n, t) ∧ s.get WEAR_CTRL.INJ_EN = 1 ∧ wearOn s (1 + n) = true := by
  simp [waitingInjection, Option.filter_eq_some_iff, State.on]

theorem injectionDone_of_burst {x : Burst} {n : Nat} {codes : List (BitVec 12)} {converged limit : Bool}
    (hb : s.adc.burst = some x) (hn : x.injection = some n) : exec (.injectionDone codes converged limit) s = .next
      (if injectionOver s n x = true then
        if codes.length = (x.stepEnd - x.firstEnd) * 4 then fitInjection (burstEnds s x converged limit) n x codes else s
      else if injectionCut s n x then
        (burstEnds s x converged limit).setLoop n { (burstEnds s x converged limit).loop n with inj := 0 }
      else s) := by
  rw [exec, execInjectionDone, hb]
  dsimp only
  rw [hn]
  simp only [injectionSampled, decide_eq_true_eq]

theorem injectionDone_idle {codes : List (BitVec 12)} {converged limit : Bool} (h : injecting s = none) :
    exec (.injectionDone codes converged limit) s = .next s := by
  rw [exec, execInjectionDone]
  split
  next => rfl
  next b hb =>
    have hnone : b.injection = none := by simpa [injecting, hb] using h
    simp only [hnone]

end

/-- Settles O47: bursts, capture, snapshots and injections, each with its complement. -/
theorem capturesAndInjections : Obligations.CapturesAndInjections := by
  refine ⟨fun s => ?_, fun x converged limit s hb hn => ⟨_, rfl, ?_⟩,
    fun converged limit s => ⟨fun hb => ?_, fun x n hb hn => ?_⟩, fun s => ⟨?_, ?_⟩, fun s => ⟨_, rfl, ?_⟩,
    fun samples s => ⟨_, rfl, ?_⟩, fun s => ⟨_, rfl, ?_⟩, fun s => ?_, fun n rest s h => ?_,
    fun n t s => ⟨_, rfl, rfl⟩, fun s h => ?_, fun n t s => waitingInjection_eq_some_iff, fun n t s h => ?_,
    fun n t s h => ?_, fun s h => ⟨?_, ?_⟩, fun n cause s => rfl, fun x n codes converged limit s hb hn hover => ?_,
    fun x n codes converged limit s hb hn hover => ⟨_, rfl, ?_⟩, fun s n x => ⟨?_, ?_⟩,
    fun codes converged limit s => injectionDone_idle,
    fun x n now totals => ⟨fun h => ?_, fun h => ?_, fun hn hr t => ?_, fun h t => ?_⟩⟩
  · simp [exec, execAdcBurstGo, adcRefuse]
  · simp [exec, execBurstEnd, hb, hn, burstEnds]
  · simp [exec, execBurstEnd, hb]
  · simp [exec, execBurstEnd, hb, hn]
  · rw [exec, execMismClr]
    rfl
  · rw [exec, execAdcCtrlSnap]
  · simp [exec, execCaptureEnable, State.on, adcRefuse, startCapture]
  · rw [exec, execSnapshotFreeze]
  · rw [exec, execSnapshotDigestDone]
    simp only [State.on, Bool.and_eq_true, Bool.not_eq_true', decide_eq_true_eq, decide_eq_false_iff_not]
  · by_cases hv : vsysRuns s = true <;> simp [exec, execSnapshotRelease, snapRelease, hv]
  · simp [exec, execInjectionDue, h, State.on, and_assoc]
  · rw [exec, execInjectionDue, h]
  · rw [exec, execInjectionStart, h]
    rfl
  · rw [exec, execInjAbort, h]
  · rw [exec, execInjectionStart, h]
  · rw [exec, execInjAbort, h]
  · rw [injectionDone_of_burst hb hn, if_pos hover]
  · rw [injectionDone_of_burst hb hn, if_neg (by simp [hover])]
  · simp [injectionOver, and_assoc]
  · simp [injectionCut]
  · simp [Burst.raise, h]
  · simp [Burst.raise, h]
  · simp [Burst.note, hn, hr]
  · obtain h | h := h <;> simp [Burst.note, h]

end Sys2Proof.Machine
end

section
/-! A wear day, the bank's rest, ageing and a thermal shutdown (R346 to R369); Foxglove's commands and the latching
reads (R380 to R398). -/

namespace Sys2Proof.Machine

section
variable {s : State}

/-- ALIVE's toggling is no register: the start of a hold sets its event alone. -/
theorem aliveRun_get (s : State) {f : Field} (h : f.key ≠ FLT_EVT.EVT.key) : (aliveRun s).get f = s.get f := by
  simp only [aliveRun, aliveHold]
  split
  · exact (State.get_set_ne _ _ h).trans rfl
  · rfl

theorem slowdown_of_exact {a b free : Nat} {diff : Int} (hb : b ≠ 0) (h : ((b : Int) - a) * 1000000 % b = 0) :
    slowdown a b diff free = ((b : Int) - a) * 1000000 / b - diff := by
  simp [slowdown, hb, h]

theorem restReading_of_stack (h : isStack s = true) (bkb : Nat) : restReading s bkb =
    (match s.wear.rest with
    | some (q, b) =>
      if wearOn s 0 = true ∧ b ≠ bkb then
        newSoh ((setQFrom s bkb).setWear { (setQFrom s bkb).wear with rest := some (s.wear.coul, bkb) })
          ((s.wear.coul - q).natAbs / (((bkb : Int) - b).natAbs * s.get WEAR_BANKCAP.CAP))
      else showBank ((setQFrom s bkb).setWear { (setQFrom s bkb).wear with rest := some (s.wear.coul, bkb) })
    | none => showBank ((setQFrom s bkb).setWear { (setQFrom s bkb).wear with rest := some (s.wear.coul, bkb) })) := by
  rw [restReading]
  dsimp only
  rw [if_pos h]
  simp only [Bool.and_eq_true, decide_eq_true_eq] <;> rfl

/-- What a thermal shutdown leaves of the device: HALTED, with no level and no power-down. -/
theorem tsdActs_halted (s : State) : (tsdActs s).get SYS_STATUS.PHASE = 10 ∧ (tsdActs s).get SYS_SERVICE.LEVEL = 0 ∧
    (tsdActs s).get NRG_STATUS.PDOWN = 0 := by
  have hfield (t : State) {f : Field} (v : Nat) (hf : f.key ≠ FLT_EVT.EVT.key)
      (hv : ((toPhase (t.set NRG_STATUS.PDOWN 0) 10).set SYS_SERVICE.LEVEL 0).get f = v) (c : Bool) :
      (if c then aliveRun ((toPhase (t.set NRG_STATUS.PDOWN 0) 10).set SYS_SERVICE.LEVEL 0)
        else (toPhase (t.set NRG_STATUS.PDOWN 0) 10).set SYS_SERVICE.LEVEL 0).get f = v := by
    cases c
    · exact hv
    · exact (aliveRun_get _ hf).trans hv
  refine ⟨hfield _ 10 (by decide) ?_ _, hfield _ 0 (by decide) ?_ _, hfield _ 0 (by decide) ?_ _⟩
  · rw [State.get_set_ne _ _ (by decide)]
    exact toPhase_phase _ _
  · rw [State.get_set_same, Nat.zero_mod]
  · rw [State.get_set_ne _ _ (by decide), toPhase_get _ _ (by decide), State.get_set_same, Nat.zero_mod]

end

/-- Settles O48: the wear day, the ageing count, the bank's rest and a thermal shutdown, each with its complement. -/
theorem wearAndThermal : Obligations.WearAndThermal := by
  refine ⟨fun s h => ⟨_, _, rfl, rfl, ?_⟩, fun a b s h => ⟨_, _, rfl, rfl, ?_⟩, fun a b s h => ⟨?_, ?_⟩,
    fun slow s => rfl, fun a b free diff => slowdown_of_exact, fun t bkb s ht hc => ?_, fun bkb s h => ?_,
    fun bkb s h => ?_, fun c b bkb q s h => ⟨_, _, rfl, rfl, fun hr => ?_, fun hr => ?_⟩, fun n s h => ⟨_, rfl, ?_⟩,
    fun n s h => ?_, tsdActs_halted⟩
  · simp [exec, execWearDay, h]
  · simp [exec, execAgeingCount, h]
  · simp [exec, execWearDay, h]
  · simp [exec, execAgeingCount, h]
  · simp [exec, execBankRest, ht, hc]
  · obtain h | h := h
    · rw [exec, execBankRest, h]
    · rw [exec, execBankRest]
      split <;> simp [h]
  · rw [restReading, if_neg (by simp [h])] <;> rfl
  · rw [restReading_of_stack h, hr]
  · rw [restReading_of_stack h, hr]
  · simp [exec, execThermalShutdown, h]
  · simp [exec, execThermalShutdown, h]

section
variable {s : State}

theorem recordClose_of {t0 merge : Nat} {h : HistRec} {x : EventRec} (ho : s.fox.openRec = some (t0, merge))
    (hr : openRecord s = some (h, x)) : exec .recordClose s = .next
      (if actionsComplete s x.react = true then closeRecord (s.expire (deadlineAt t0 merge)) h x t0 else s) := by
  rw [exec, execRecordClose, ho, hr]

theorem openRecord_of_none (h : s.fox.openRec = none) : openRecord s = none := by
  simp [openRecord, h]

theorem recordClose_of_none (h : openRecord s = none) : exec .recordClose s = .next s := by
  rw [exec, execRecordClose, h]
  split
  next heq => simp at heq
  next => rfl

/-- A wrong key counts a try; the third try locks test mode out (R396). -/
theorem testEntry_eq (s : State) : exec .testEntry s = .next
    (if testPossible s then
      (if Config.testKeyMatches (regionContent s.otp 8) ((List.range 4).map fun k => s.get (FLT_TKEY.KEY k)) then
        raiseBare (foxEvt (s.set FLT_TEST.ACTIVE 1) 4) testEv
      else if s.get FLT_TEST.TRIES < 2 then s.set FLT_TEST.TRIES (s.get FLT_TEST.TRIES + 1)
      else foxEvt ((s.set FLT_TEST.TRIES 3).set FLT_TEST.LOCKOUT 1) 4)
    else s) := by
  rw [exec, execTestEntry]
  cases hp : testPossible s with
  | false => rfl
  | true =>
    simp only [Bool.not_true, Bool.false_eq_true, if_false, if_true]
    by_cases ht : s.get FLT_TEST.TRIES < 2
    · have h3 : satAt 2 (s.get FLT_TEST.TRIES + 1) = s.get FLT_TEST.TRIES + 1 := by unfold satAt; omega
      simp only [h3, if_pos ht, if_neg (show s.get FLT_TEST.TRIES + 1 ≠ 3 by omega)]
    · have h3 : satAt 2 (s.get FLT_TEST.TRIES + 1) = 3 := by unfold satAt; omega
      simp only [h3, if_neg ht, if_pos]

end

/-- Settles O49: Foxglove's commands and the latching reads, each with its complement. -/
theorem recordsAndReads : Obligations.RecordsAndReads := by
  refine ⟨fun t0 merge h x s ho hr ha => ?_, fun s => ⟨fun h => ?_, recordClose_of_none, fun h x hr ha => ?_⟩,
    fun s => by rw [exec, execKeeperHang], fun q bits s h => ⟨_, _, rfl, rfl, ?_⟩, fun q bits line cls s h => ?_,
    fun s h => ⟨_, rfl, ?_⟩, fun s h => ?_, fun r l s h hl => ?_, fun s h => ?_, testEntry_eq, fun s h => ?_,
    fun line cls s hk ha => ?_, fun line cls s ha => ?_, fun s h => ?_, fun s h => ?_, fun s h => ?_⟩
  · rw [recordClose_of ho hr, if_pos ha]
  · exact recordClose_of_none (openRecord_of_none h)
  · cases ho : s.fox.openRec with
    | none => simp [openRecord_of_none ho] at hr
    | some p => rw [recordClose_of (t0 := p.1) (merge := p.2) ho hr, if_neg (by simp [ha])]
  · rw [exec, execFltStatusClear]
    simp only [h, Bool.not_true, Bool.false_eq_true, if_false, Bool.and_eq_true, Bool.not_eq_true', decide_eq_true_eq]
  · exact ⟨by simp [exec, execFltStatusClear, h], by simp [exec, execFltMarkread, h],
      by simp [exec, execFaultInjection, h]⟩
  · simp [exec, execAliveResume, h]
  · simp [exec, execAliveResume, h]
  · simp [exec, execFltMarkread, h, hl]
  · rw [exec, execFltMarkread, h]
    cases k0Runs s <;> rfl
  · rw [testEntry_eq, if_neg (by simp [h])]
  · simp [exec, execFaultInjection, hk, State.on, ha]
  · simp [exec, execFaultInjection, State.on, ha]
  · exact ⟨by simp [exec, execSysTimeLoRead, h, latchTime], by simp [exec, execIdSerialLoRead, h, latchSerial],
      fun hv => by simp [exec, execAdcUrgreqRead, hv], by simp [exec, execFltHwrRead, h],
      by simp [exec, execFltLwrRead, h, latchLog], by simp [exec, execFltRec0Read, h],
      fun hv => by simp [exec, execHciCredit0Read, hv]⟩
  · simp [exec, execSysTimeLoRead, execIdSerialLoRead, execFltHwrRead, execFltLwrRead, execFltRec0Read, h]
  · simp [exec, execAdcUrgreqRead, execHciCredit0Read, h]

end Sys2Proof.Machine
end

section
/-! SPI and two-wire transfers (R418 to R422, R453 to R471) and the controller port (R465 to R469). -/

namespace Sys2Proof.Machine

section
variable {s : State}

theorem misaligned_iff (a : Nat) : misaligned a = true ↔ a < 0x010000 ∧ a % 4 ≠ 0 := by
  simp [misaligned, isRegister]

theorem spiEnd_err (s : State) (out : List Byte) : spiEnd s out true =
    notice ((s.setHci { s.hci with spiErr := true, spiOut := out }).addSat HCI_CNT1.SPIERR 1) (hciEv 3 .notice) := rfl

theorem sendRead_of_plain (h : s.get TWT_CFG.PEC ≠ 1) (a n : Nat) (data : State → Nat → List Byte × State) :
    sendRead s a n data = twtSent (data (s.set TWT_STATUS.BUSY 1) n).2 (data (s.set TWT_STATUS.BUSY 1) n).1 := by
  rw [sendRead]
  exact if_neg (by simp [State.on, h])

theorem sendRead_of_pec (h : s.get TWT_CFG.PEC = 1) (a n : Nat) (data : State → Nat → List Byte × State) :
    sendRead s a n data =
      twtSent (data (s.set TWT_STATUS.BUSY 1) (min n (s.get TWT_CFG.PECLEN))).2
        ((data (s.set TWT_STATUS.BUSY 1) (min n (s.get TWT_CFG.PECLEN))).1 ++
          (if n ≤ s.get TWT_CFG.PECLEN then [] else
            pecOf (s.twt.lead ++ addressByte a true ::
              (data (s.set TWT_STATUS.BUSY 1) (min n (s.get TWT_CFG.PECLEN))).1) ::
            List.replicate (n - s.get TWT_CFG.PECLEN - 1) 0xFF#8)) := by
  rw [sendRead]
  exact if_pos (by simp [State.on, h])

/-- A read of one byte at the place of CHk_H sends the high byte, latches the low one and advances (R471). -/
theorem ktData_chH (k : Fin 12) (h : s.twt.ktPtr = 8 + 2 * k) : ktData s 1 = ([BitVec.ofNat 8 (ktVoltage s k / 256)],
    s.setTwt { s.twt with chLow := NMap.put 0 s.twt.chLow k (ktVoltage s k % 256), ktPtr := s.twt.ktPtr + 1 }) := by
  have hk : (8 + 2 * (k : Nat) - 8) / 2 = k := by omega
  have hh : isChH (8 + 2 * (k : Nat)) = true := by
    simp only [isChH, Bool.and_eq_true, decide_eq_true_eq]
    omega
  have hbyte : ktByte s (8 + 2 * k) = ktVoltage s k / 256 := by
    have h0 : 8 + 2 * (k : Nat) ≠ 0 := by omega
    rw [ktByte, if_neg h0, if_neg (by omega), if_neg (by omega), if_neg (by omega), if_neg (by omega),
      if_neg (by omega), if_neg (by omega), if_pos (by omega)]
    dsimp only
    rw [if_pos (by omega), hk]
  have hnext : nextKt (8 + 2 * (k : Nat)) = 8 + 2 * k + 1 := by
    rw [nextKt, if_neg (by omega)]
    omega
  simp only [ktData, h, hk, hh, hbyte, hnext, if_true, List.nil_append]

end

/-- Settles O52: the SPI, two-wire and KT1240 transfers, each with its complement. -/
theorem serialAccess : Obligations.SerialAccess := by
  refine ⟨fun addr data s hr hm => ?_, fun addr n s hr hm => ?_, fun op addr data s hr h => ?_,
    fun op addr n s hr h => ?_, fun op addr data n s h => ?_, fun data restart s h => ?_, fun n s h hp => ?_,
    fun n len s h hp hl => ?_, fun t s h => ⟨_, rfl, ?_⟩, fun data restart s h hk => ?_, fun n s h hk => ?_,
    fun k s h => ?_, fun data restart n s h => ?_, fun data restart t n s h => ?_⟩
  · simp [exec, execSpiWrite, hr, hm]
  · simp [exec, execSpiRead, hr, hm]
  · rw [exec, execSpiWrite]
    simp only [hr, misaligned_iff, Bool.not_true, Bool.false_eq_true, if_false, ← spiEnd_err]
    exact congrArg Host.Outcome.next (if_pos h)
  · rw [exec, execSpiRead]
    simp only [hr, misaligned_iff, Bool.not_true, Bool.false_eq_true, if_false, ← spiEnd_err]
    exact congrArg Host.Outcome.next (if_pos h)
  · simp [exec, execSpiWrite, execSpiRead, h]
  · simp [exec, execTwtWrite, h, State.on, mainCount]
  · simp [exec, execTwtRead, h, sendRead_of_plain hp]
  · simp [exec, execTwtRead, h, sendRead_of_pec hp, hl]
  · simp [exec, execTwtStuck, h]
  · simp [exec, execKtWindowWrite, h, State.on, hk]
  · simp [exec, execKtChHRead, h, State.on, hk]
  · exact ⟨by rw [ktData_chH k h], by rw [ktData_chH k h]⟩
  · simp [exec, execKtWindowWrite, execKtChHRead, State.on, h]
  · simp [exec, execTwtWrite, execTwtRead, execTwtStuck, execKtWindowWrite, execKtChHRead, h]

section
variable {s : State}

theorem twcPollEntryEnd_of_none (h : s.twc.cur = some .host ∨ s.twc.cur = none) (e : XferEnd) (data : List Byte) :
    exec (.twcPollEntryEnd e data) s = .next s := by
  rw [exec]
  unfold execTwcPollEntryEnd
  split
  next k _ hk => simp [hk] at h
  next => rfl

end

/-- Settles O54: the controller port's enable, transfers, retries and drain, each with its complement. -/
theorem controllerPort : Obligations.ControllerPort := by
  refine ⟨fun s h => ?_, fun s h hs => ?_, fun s h hs => ?_, fun s => ?_, fun wdone data s h hc => ?_,
    fun e wdone data k s => ⟨fun h => ?_, fun h => ?_, fun h => ?_, fun h => ?_⟩,
    fun wdone data s h => ⟨_, _, rfl, rfl, ?_⟩, fun s hv he => ⟨_, rfl, ?_⟩, fun s hv he => ?_, fun e s h => ?_,
    fun s hr hv => ?_, fun r s h => ?_, fun wdone data s h hc => ⟨_, rfl, ?_⟩, fun k data s h hc => ?_⟩
  · simp [exec, execTwcEnable, execTwcDisable, State.on, h]
  · simp [exec, execTwcEnable, execTwcDisable, State.on, h, hs, enableTwc]
  · simp [exec, execTwcEnable, hs]
  · simp [exec, execTwcTransfer, or_assoc]
  · exact ⟨by simp [exec, execTwcTransferEnd, h, hc],
      by simp [exec, execTwcTransferEnd, h, hc, countNack, xferStatus],
      by simp [exec, execTwcTransferEnd, h, hc, countNack, xferStatus]⟩
  · obtain h | h := h <;> simp [exec, execTwcTransferEnd, h]
  · simp [exec, execTwcPollEntryEnd, execTwcArbLost, h]
  · obtain h | h := h <;> simp [exec, execTwcSclTimeout, h]
  · exact twcPollEntryEnd_of_none h e data
  · rw [exec, execTwcArbLost]
    exact congrArg Host.Outcome.next (if_pos h)
  · rw [exec, execTwcBusFree]
    refine congrArg Host.Outcome.next ((if_neg (by simp [hv, State.on, he])).trans ?_)
    refine ite_congr rfl (fun _ => congrArg (State.set · TWC_STATUS.STATE 3) ?_) fun _ => rfl
    rw [resend]
    split
    next hc => exact (if_pos hc).symm
    next hc => exact (if_neg hc).symm
  · simp [exec, execTwcBusFree, hv, State.on, he, State.setTwc]
  · obtain h | h := h <;> simp [exec, execTwcBusFree, State.on, h]
  · exact ⟨by simp [exec, execTwcBusRecover, hr, hv], by simp [exec, execTwcBusRecover, hr, hv],
      by simp [exec, execTwcBusRecover, hr, hv]⟩
  · obtain h | h := h <;> simp [exec, execTwcBusRecover, h]
  · simp [exec, execTwcSclTimeout, h, Option.isSome_iff_ne_none, hc]
  · exact ⟨by simp [exec, execTwcPollEntryEnd, h, hc],
      by simp [exec, execTwcPollEntryEnd, h, hc, countNack, xferStatus],
      by simp [exec, execTwcPollEntryEnd, h, hc, countNack, xferStatus]⟩

end Sys2Proof.Machine
end

section
/-! The host interface's queues: doorbells, starts, completions, the head and the enable (R425 to R444). -/

namespace Sys2Proof.Machine

section
variable {s : State}

theorem commandStart_of (hv : vsysRuns s = true) (hr : hciRuns s = true) (lane : Fin 2) :
    exec (.commandStart lane) s = .next
      (match nextQueue s lane with
      | some q => startCommand s lane q
      | none => s) := by
  rw [exec, execCommandStart]
  exact congrArg Host.Outcome.next (if_neg (by simp [hv, hr]))

theorem commandComplete_of (hv : vsysRuns s = true) (k : BitVec 8) : exec (.commandComplete k) s = .next
    (match ((endLocking s k.toNat).slot k.toNat).st, ((endLocking s k.toNat).slot k.toNat).outcome with
      | .inflight, some c => writeCompletion (endLocking s k.toNat) k.toNat c
      | _, _ => s) := by
  rw [exec, execCommandComplete]
  exact congrArg Host.Outcome.next (if_neg (by simp [hv]))

theorem commandComplete_of_stopped (hv : vsysRuns s = false) (k : BitVec 8) :
    exec (.commandComplete k) s = .next s := by
  rw [exec, execCommandComplete]
  exact congrArg Host.Outcome.next (if_pos (by simp [hv]))

/-- A completion without a command in flight in the slot, or without an outcome, does nothing. -/
theorem commandComplete_idle {k : BitVec 8} (h : ((endLocking s k.toNat).slot k.toNat).st ≠ .inflight ∨
    ((endLocking s k.toNat).slot k.toNat).outcome = none) : exec (.commandComplete k) s = .next s := by
  cases hv : vsysRuns s with
  | false => exact commandComplete_of_stopped hv k
  | true =>
    rw [commandComplete_of hv]
    split
    next hst ho => simp [hst, ho] at h
    next => rfl

theorem endLocking_of_none (h : s.otp.job = none) (k : Nat) : endLocking s k = s := by
  rw [endLocking, h]

theorem endLocking_of_some {j : OtpJob} (h : s.otp.job = some j) (k : Nat) :
    endLocking s k = if j.locking = true ∧ j.slot = k then commitLocked s j else s := by
  simp only [endLocking, h, Bool.and_eq_true, decide_eq_true_eq]

end

/-- Settles O55: the queues of the host interface, each with its complement. -/
theorem hostQueues : Obligations.HostQueues := by
  refine ⟨fun queue slot s hv hr hf => ⟨_, rfl, ?_⟩, fun queue slot s hv hr hf => ?_, fun queue slot s hv hr => ?_,
    fun queue slot head s hv => ?_, fun lane q s hv hr hq => ?_, fun lane s h => ?_,
    fun l q k rest s h => ⟨_, _, rfl, rfl, ?_⟩, fun k s => ⟨_, rfl, fun c hv hst ho => ?_,
      fun h => commandComplete_idle (.inl h), fun h => commandComplete_idle (.inr h),
      fun h => commandComplete_of_stopped h k⟩, fun k s => ⟨fun h => endLocking_of_none h k,
      fun j h => endLocking_of_some h k⟩, fun head s hv hd => ?_, fun head s hv hd => ?_,
    fun k s hv hst hl => ⟨_, rfl, ?_⟩, fun k s h => ?_, fun s h => ?_, fun t s h => ?_, fun s h => ?_,
    fun s hv h => ?_, fun s => by rw [exec, execHciDisable]⟩
  · simp [exec, execHciDoorbell, hv, hr, hf]
  · simp [exec, execHciDoorbell, hv, hr, hf]
  · simp [exec, execHciDoorbell, hv, hr]
  · simp [exec, execHciDoorbell, execHciCqHeadWrite, execHciEnable, hv]
  · rw [commandStart_of hv hr, hq]
  · cases hv : vsysRuns s with
    | false => simp [exec, execCommandStart, hv]
    | true =>
      cases hr : hciRuns s with
      | false => simp [exec, execCommandStart, hr]
      | true =>
        have hq : nextQueue s lane = none := by simpa [hv, hr] using h
        rw [commandStart_of hv hr, hq]
  · rw [startCommand, h]
    rfl
  · rw [commandComplete_of hv, hst, ho]
  · rw [exec, execHciCqHeadWrite]
    exact congrArg Host.Outcome.next ((if_neg (by simp [hv])).trans (if_pos hd))
  · rw [exec, execHciCqHeadWrite]
    exact congrArg Host.Outcome.next ((if_neg (by simp [hv])).trans (if_neg (by omega)))
  · rw [exec, execCmdDeadline]
    exact congrArg Host.Outcome.next (if_pos ⟨hv, hst, by simp [hl]⟩)
  · rw [exec, execCmdDeadline]
    refine congrArg Host.Outcome.next (if_neg fun hc => ?_)
    obtain ⟨hv, hst, hl⟩ := hc
    simp [hv, hst, hl] at h
  · rw [exec, execModerationTimer, h]
  · rw [exec, execModerationTimer, h]
  · simp [exec, execHciEnable, State.on, h]
  · simp [exec, execHciEnable, State.on, h, hv, enableHci]

end Sys2Proof.Machine
end

section
/-! The end of an IMG_LOAD in its slot takes the command's mark off FLT_OPMARK (R394). -/

namespace Sys2Proof.Machine

/-- IMG_LOAD executes in slot 0 alone, outside the start-up, and FLT_OPMARK shows it as operation 5. -/
def imgLoadRuns : State :=
  opMark ((State.reset.setBytes (descAddr 0) [0#8, 0#8, 0#8, 0x10#8]).setSlot 0 { st := .inflight }) 5 0

theorem imgLoadRuns_executing : executing imgLoadRuns 0 = true := by decide

theorem imgLoadRuns_opMark : imgLoadRuns.get FLT_OPMARK.OP = 5 := by decide

theorem imgLoadRuns_slot {j : Nat} (h : j ≠ 0) : imgLoadRuns.slot j = {} := by
  have hslots : imgLoadRuns.hci.slots = [(0, { st := .inflight })] := rfl
  rw [State.slot, hslots, NMap.get, if_neg (Ne.symm h), NMap.get]

/-- The slot of a command that has its outcome executes nothing, and no other slot of `imgLoadRuns` does. -/
theorem imgLoadRuns_ended (x : Slot) (hx : x.outcome.isNone = false) :
    executes (imgLoadRuns.setSlot 0 x) 0x10 = false := by
  refine List.any_eq_false.mpr fun j _ => ?_
  have hj : executing (imgLoadRuns.setSlot 0 x) j = false := by
    by_cases h : j = 0
    · have hslot : (imgLoadRuns.setSlot 0 x).slot j = x := h ▸ NMap.get_put_same _ _ _ _
      simp [executing, hslot, hx]
    · have hslot : (imgLoadRuns.setSlot 0 x).slot j = {} :=
        (NMap.get_put_ne _ _ _ _ h).trans (imgLoadRuns_slot h)
      rw [executing, hslot]
      rfl
  simp [hj]

/-- So the end of that command takes its mark off FLT_OPMARK. -/
theorem imgLoadRuns_ended_opMark (c : Completion) : (endCommand imgLoadRuns 0 c).get FLT_OPMARK.OP = 0 := by
  have hop : slotOp imgLoadRuns 0 = 0x10 := by decide
  have hboot : bootLoads imgLoadRuns = false := by decide
  have hrest : bootLoads (imgLoadRuns.setSlot 0 { imgLoadRuns.slot 0 with outcome := some c }) = false := hboot
  have hend : endCommand imgLoadRuns 0 c =
      opEnd (imgLoadRuns.setSlot 0 { imgLoadRuns.slot 0 with outcome := some c }) 5 := by
    rw [endCommand, if_pos imgLoadRuns_executing, hop, endMark]
    exact if_neg (by simp [imgLoadRuns_ended, hrest, markOf])
  rw [hend]
  rfl

/-- Refutes O57: its last clause says that an executing command ends with its slot's change alone, but the end of an
IMG_LOAD that runs in the slot also takes its mark off FLT_OPMARK (R394). -/
theorem not_hostCommandEffects : ¬ Obligations.HostCommandEffects := by
  intro h
  obtain ⟨_, _, _, _, _, _, _, _, _, _, _, _, _, _, hend⟩ := h
  obtain ⟨_, hslot⟩ := hend imgLoadRuns 0 0 0 imgLoadRuns_executing
  have hkept := imgLoadRuns_ended_opMark { status := 0 }
  rw [hslot] at hkept
  exact absurd (imgLoadRuns_opMark.symm.trans hkept) (by decide)

end Sys2Proof.Machine
end

section
/-! OTP: reads, commits, programming word by word and the raw path (R486 to R501). -/

namespace Sys2Proof.Machine

section
variable {s : State}

theorem each_set_otp {α : Type} (l : List α) (g : α → Field) (v : α → Nat) (s : State) :
    (State.each l (fun t a => t.set (g a) (v a)) s).otp = s.otp := by
  have h := each_set_onlyRegs l (fun _ a => g a) (fun _ a => v a) s
  rw [OnlyRegs] at h
  rw [h]

/-- The registers that show OTP are all that a refresh of them changes. -/
theorem refreshOtp_otp (s : State) : (refreshOtp s).otp = s.otp := by
  unfold refreshOtp showOtp
  exact (State.set_otp _ _ _).trans ((State.set_otp _ _ _).trans ((State.set_otp _ _ _).trans
    ((State.set_otp _ _ _).trans (each_set_otp _ _ _ s))))

theorem otpRead_of {k : BitVec 8} (he : executing s k.toNat = true) (ho : slotOp s k.toNat = 0x50) :
    exec (.otpRead k) s = .next
      (if readReason s (slotArg s k.toNat 0 % 32) (slotArg s k.toNat 1) (slotArg s k.toNat 2) ≠ 0 then
        otpRefuse s k.toNat (readReason s (slotArg s k.toNat 0 % 32) (slotArg s k.toNat 1) (slotArg s k.toNat 2))
      else
        let ps := ((chain s.otp (slotArg s k.toNat 0 % 32)).drop (slotArg s k.toNat 1)).take (slotArg s k.toNat 2)
        endCommand (commitSlot
          (writeData { s with free := s.free + 1536 } (slotArg s k.toNat 3) ((readWords s ps).flatMap (leBytes 16)))
          k.toNat) k.toNat { status := 0, r0 := slotArg s k.toNat 2, r1 := (ps.filter (isWeak s.otp)).length }) := by
  rw [exec, execOtpRead]
  dsimp only
  rw [if_neg (by simp [he, ho])]

theorem otpCommit_of {k : BitVec 8} (he : executing s k.toNat = true) (ho : slotOp s k.toNat = 0x51)
    (hj : s.otp.job = none) : exec (.otpCommit k) s = .next
      (if commitReason s (commitArgs s k.toNat) ≠ 0 then otpRefuse s k.toNat (commitReason s (commitArgs s k.toNat))
      else if (commitArgs s k.toNat).region = 0x1F then
        commitDone s
          { slot := k.toNat, region := (commitArgs s k.toNat).region, logical := 0, words := [],
            lockW := (commitArgs s k.toNat).lockW, lockR := (commitArgs s k.toNat).lockR, sealDue := false,
            phys := 0, target := 0 }
      else startCommit s k.toNat (commitArgs s k.toNat)) := by
  rw [exec, execOtpCommit]
  exact congrArg Host.Outcome.next (if_neg (by simp [he, ho, hj]))

theorem otpWordProgramDone_of_job {j : OtpJob} (h : s.otp.job = some j) (ok : Bool) (weak : BitVec 148) :
    exec (.otpWordProgramDone ok weak) s = .next (commitWordDone s j ok weak.toNat) := by
  rw [exec, execOtpWordProgramDone, h]

theorem otpWordProgramDone_of_raw {op : ProgOp} {rest : List ProgOp} (h : s.otp.job = none)
    (hr : s.otp.raw = op :: rest) (ok : Bool) (weak : BitVec 148) :
    exec (.otpWordProgramDone ok weak) s = .next (rawWordDone s op rest ok weak.toNat) := by
  rw [exec, execOtpWordProgramDone, h, hr]

/-- A raw program operation on a word `p`: it is written, or fails and is tried elsewhere, or stops the raw path. -/
theorem rawWordDone_of_word {op : ProgOp} {p : Nat} (hheld : opHeld s op = false) (hv : isVoid op = false)
    (hp : opWord s.otp op = some p) (rest : List ProgOp) (ok : Bool) (weak : Nat) : rawWordDone s op rest ok weak =
      if ok then rawNext (blowWord s p (opFuses op) weak) rest
      else match rawAgain (failWord s (opRegion op) p (opFuses op)).otp op with
        | some again => rawNext (failWord s (opRegion op) p (opFuses op)) (again :: rest)
        | none => rawStops (failWord s (opRegion op) p (opFuses op)) 0x07 := by
  unfold rawWordDone
  rw [if_neg (by simp [hheld])]
  cases op with
  | void r q => cases hv
  | locks fs => cases hp
  | word r q m => simp only [hp] <;> rfl
  | chain r i m => simp only [hp] <;> rfl
  | _ => simp only [hp] <;> rfl

/-- A raw program operation that a sticky lock has overtaken is cut (R488). -/
theorem rawWordDone_of_held {op : ProgOp} (h : opHeld s op = true) (rest : List ProgOp) (ok : Bool) (weak : Nat) :
    rawWordDone s op rest ok weak = rawCut s op := by
  unfold rawWordDone
  rw [if_pos h]

theorem rawProgramWord_eq (s : State) : exec .rawProgramWord s = .next
    (rawWord s (s.get OTP_RAW_ADDR.PHYS) fun r =>
      if blank s.otp (s.get OTP_RAW_ADDR.PHYS) then [.word r (s.get OTP_RAW_ADDR.PHYS) (rawFuses s)] else []) := by
  rw [exec, execRawProgramWord]

theorem rawVoidWord_eq (s : State) : exec .rawVoidWord s = .next
    (rawWord s (s.get OTP_RAW_ADDR.PHYS) fun r => [.void r (s.get OTP_RAW_ADDR.PHYS)]) := by
  rw [exec, execRawVoidWord]

theorem rawWord_of_none {p : Nat} (h : regionOf p = none) (op : Nat → List ProgOp) : rawWord s p op = s := by
  rw [rawWord, h]

theorem rawWord_of_some {p r : Nat} (h : regionOf p = some r) (op : Nat → List ProgOp) : rawWord s p op =
    if rawRuns s = false ∨ heldRegion s r = true then s
    else if rawReason s r ≠ 0 then s.set OTP_STATUS.REASON (rawReason s r) else rawBegin s (op r) := by
  simp only [rawWord, h, Bool.or_eq_true, Bool.not_eq_true']

theorem progReason_of_temp (h : tempOk s = false) : progReason s = 0x09 := by simp [progReason, firstCode, h]

theorem progReason_of_vsys (ht : tempOk s = true) (h : vsysOk s = false) : progReason s = 0x0A := by
  simp [progReason, firstCode, ht, h]

theorem progReason_of_ok (ht : tempOk s = true) (h : vsysOk s = true) : progReason s = 0 := by
  simp [progReason, firstCode, ht, h]

theorem keygen_of (hr : rawRuns s = true) (hh : heldRegion s 2 = false) : exec .keygen s = .next
    (if rawReason s 2 ≠ 0 then s.set OTP_STATUS.REASON (rawReason s 2)
    else if ¬ (regionWords 2).all (blank s.otp) then s
    else { s with
      otp := { s.otp with
        raw := keygenOps (Config.entropy s.free % (p256N - 1) + 1)
        keygen := some (Config.entropy s.free % (p256N - 1) + 1) }
      free := s.free + 2 }) := by
  rw [exec, execKeygen]
  exact congrArg Host.Outcome.next (if_neg (by simp [hr, hh]))

end

/-- Settles O58: OTP reads, commits, word programming and the raw path, each with its complement. -/
theorem otpCommands : Obligations.OtpCommands := by
  refine ⟨fun k s he ho hc => ?_, fun k s he ho hc => ?_, fun k s he ho hj hc => ?_, fun k s he ho hj hc => ?_,
    fun k s he => ?_, fun k s => ⟨fun ho => ?_, fun ho => ?_, fun hj => ?_⟩, fun j s => ?_,
    fun ok weak s => ⟨fun hj hr => ?_, fun j hj hl => ?_⟩,
    fun j weak s hj hl => ⟨⟨_, rfl, fun hs => ?_, fun hs => ⟨_, rfl, ?_⟩⟩, _, rfl, ?_⟩,
    fun op rest weak s hj hr hh => ⟨fun fs ok ho => ?_, fun r p ok ho => ?_, fun p hv hp => ⟨?_, _, rfl, ?_⟩⟩,
    fun op rest ok weak s hj hr hh => ⟨?_, ?_, ?_⟩, fun op ops s => ⟨rfl, ?_, fun hk => ?_, fun d hk => ?_⟩,
    fun r s hg hr hh hc => ⟨?_, ?_⟩, fun r s hg h => ⟨?_, ?_⟩, fun r s hg hr hh hc => ⟨?_, ?_⟩, fun s hg => ⟨?_, ?_⟩,
    fun s hr => ⟨fun ht => ?_, fun ht hv => ?_⟩, fun s hr ht hv => ?_, fun s hr hh hc hb => ?_,
    fun s hr hh => ⟨fun hc => ?_, fun hc hb => ?_⟩, fun s hh => ?_, fun s hr => ⟨?_, ?_⟩⟩
  · rw [otpRead_of he ho, if_pos hc]
  · rw [otpRead_of he ho, if_neg (by simp [hc])]
  · rw [otpCommit_of he ho hj, if_pos hc]
  · rw [otpCommit_of he ho hj, if_neg (by simp [hc])]
  · simp [exec, execOtpRead, execOtpCommit, he]
  · simp [exec, execOtpRead, ho]
  · simp [exec, execOtpCommit, ho]
  · simp [exec, execOtpCommit, Option.isSome_iff_ne_none.mpr hj]
  · simp only [commitDone, Bool.or_eq_true]
    rfl
  · rw [exec, execOtpWordProgramDone, hj, hr]
  · rw [otpWordProgramDone_of_job hj, commitWordDone, if_pos hl]
  · simp [otpWordProgramDone_of_job hj, commitWordDone, hl, hs, commitGoesOn]
  · simp [otpWordProgramDone_of_job hj, commitWordDone, hl, hs, commitGoesOn]
  · simp [otpWordProgramDone_of_job hj, commitWordDone, hl, commitGoesOn]
  · subst ho
    rw [otpWordProgramDone_of_raw hj hr, rawWordDone, if_neg (by simp [hh])]
  · subst ho
    rw [otpWordProgramDone_of_raw hj hr, rawWordDone, if_neg (by simp [hh])]
  · rw [otpWordProgramDone_of_raw hj hr, rawWordDone_of_word hh hv hp, if_pos rfl]
  · rw [otpWordProgramDone_of_raw hj hr, rawWordDone_of_word hh hv hp]
    rfl
  · rw [otpWordProgramDone_of_raw hj hr, rawWordDone_of_held hh]
  · exact congrArg Otp.raw (refreshOtp_otp _)
  · exact congrArg Otp.keygen (refreshOtp_otp _)
  · rfl
  · rw [rawEnds, hk]
    rfl
  · rw [rawEnds, hk]
  · rw [rawProgramWord_eq, rawWord_of_some hg, if_neg (by simp [hr, hh]), if_neg (by simp [hc])]
    rfl
  · rw [rawVoidWord_eq, rawWord_of_some hg, if_neg (by simp [hr, hh]), if_neg (by simp [hc])]
    rfl
  · rw [rawProgramWord_eq, rawWord_of_some hg, if_pos h]
  · rw [rawVoidWord_eq, rawWord_of_some hg, if_pos h]
  · rw [rawProgramWord_eq, rawWord_of_some hg, if_neg (by simp [hr, hh]), if_pos hc]
  · rw [rawVoidWord_eq, rawWord_of_some hg, if_neg (by simp [hr, hh]), if_pos hc]
  · rw [rawProgramWord_eq, rawWord_of_none hg]
  · rw [rawVoidWord_eq, rawWord_of_none hg]
  · simp [exec, execRawBlowLock, hr, progReason_of_temp ht]
  · simp [exec, execRawBlowLock, hr, progReason_of_vsys ht hv]
  · simp [exec, execRawBlowLock, hr, progReason_of_ok ht hv]
    rfl
  · rw [keygen_of hr hh, if_neg (by simp [hc]), if_neg (by simp [hb])]
  · rw [keygen_of hr hh, if_pos hc]
  · rw [keygen_of hr hh, if_neg (by simp [hc]), if_pos (by simp [hb])]
  · rw [exec, execKeygen]
    exact congrArg Host.Outcome.next (if_pos (by simp [hh]))
  · rw [exec, execKeygen]
    exact congrArg Host.Outcome.next (if_pos (by simp [hr]))
  · simp [exec, execRawBlowLock, hr]

end Sys2Proof.Machine
end
